-- ==== Sys2Proof/Word.lean ====
section
/-! DEFINITION. The word types of the HNV-7200 (R10, R11, R16): bytes, 32-bit words, 64-bit double words and the
512-bit vector registers, with nothing but names for them. -/

namespace Sys2Proof

/-- One byte of memory. -/
abbrev Byte := BitVec 8
/-- A 32-bit word: an address register, a CSR (R16). -/
abbrev Word := BitVec 32
/-- A 64-bit double word: an operation word, a scalar operand. -/
abbrev DWord := BitVec 64
/-- The contents of one vector register (R155). -/
abbrev VReg := BitVec 512

/-- The unit that issues fronds: tiles T0 to T15 are 0 to 15, the service core is 16 (R25). -/
abbrev UnitIx := Fin 17
/-- A ticket t0 to t31 (R126). -/
abbrev TicketIx := Fin 32
/-- A bank index n of BANK[n] (R43). -/
abbrev BankIx := Fin 23
/-- A fabric port F0 to F26 (R57). -/
abbrev PortIx := Fin 27

end Sys2Proof
end

