-- ==== Sys2Proof/Machine/Types.lean ====
section
/-! DEFINITION. The operand structure of an operation word and the small closed sets of names that commands and State share.
-/

namespace Sys2Proof

/-- The fields of one 64-bit operation word (R73, Table 3-1) less its SLOT and OPC codes, which the command's own
name fixes.  `second` says that the operation stands in M1 or V1 rather than M0 or V0; it is false for the units
that have one slot.  `w` is the width field W of an M-slot operation (Table 3-3) and zero elsewhere.  `body` is
bits [47:0]. -/
structure OpWord where
  stop   : Bool
  second : Bool
  ge     : Bool
  gn     : Bool
  gp     : BitVec 3
  w      : BitVec 2
  body   : BitVec 48
  /-- A register that the operation reads in its issue cycle fails its parity (Table 8-10), which no state of the machine fixes. -/
  bad    : Bool := false
  deriving DecidableEq, Repr

/-- Tile states (R31, Table 1-5). -/
inductive TileMode where
  | run | nap | sleep | dark
  deriving DecidableEq, Repr

/-- Clock tiers, fastest first (R30, Table 1-1). -/
inductive Tier where
  | a | b | c
  deriving DecidableEq, Repr

/-- Ticket states (R126, Table 5-3). -/
inductive TicketState where
  | free | pending | done | failed
  deriving DecidableEq, Repr

/-- A report of a safety mechanism to the hub (R400): the event code of Table 15-6, the unit it is against (tiles 0-15,
SC 16, CE 17-20, stream engine 21, fabric or common bank 22, MRAM 23, Lichen 24) and the captured registers that go into
DETAIL (R421). -/
structure Report where
  code   : BitVec 16
  unit   : BitVec 8
  detail : List Word
  deriving DecidableEq, Repr

end Sys2Proof
end

