-- ==== Sys2Proof/Machine/Bits.lean ====
section
/-! DEFINITION. Bit fields, sign extension and byte order (R11, R12). -/

namespace Sys2Proof.Machine

/-- Bits [hi:lo] of a number. -/
def bitsOf (x hi lo : Nat) : Nat := (x >>> lo) % 2 ^ (hi + 1 - lo)

/-- The number with bits [hi:lo] replaced. -/
def withBits (x hi lo v : Nat) : Nat :=
  x - (bitsOf x hi lo) * 2 ^ lo + (v % 2 ^ (hi + 1 - lo)) * 2 ^ lo

/-- Bits [hi:lo] of a word. -/
def fld (x : Word) (hi lo : Nat) : Nat := bitsOf x.toNat hi lo

/-- A word with bits [hi:lo] replaced. -/
def setFld (x : Word) (hi lo v : Nat) : Word := BitVec.ofNat 32 (withBits x.toNat hi lo v)

/-- Replace the bits of `x` under `mask` by those of `v`. -/
def blend {n : Nat} (x mask v : BitVec n) : BitVec n := (x &&& ~~~mask) ||| (v &&& mask)

/-- A w-bit pattern read as a two's-complement integer. -/
def toInt (w x : Nat) : Int := if x % 2 ^ w < 2 ^ (w - 1) then ((x % 2 ^ w : Nat) : Int) else ((x % 2 ^ w : Nat) : Int) - 2 ^ w

/-- The w-bit pattern of an integer, modulo 2^w. -/
def ofInt (w : Nat) (z : Int) : Nat := (z % 2 ^ w).toNat

/-- A w-bit pattern sign-extended to w' bits. -/
def sextTo (w w' x : Nat) : Nat := ofInt w' (toInt w x)

/-- The `n` bytes of a number, lowest first (R12). -/
def leBytes : Nat → Nat → List Byte
  | 0, _ => []
  | n + 1, x => BitVec.ofNat 8 x :: leBytes n (x / 256)

/-- The number that bytes spell, lowest first (R12). -/
def leNat : List Byte → Nat
  | [] => 0
  | b :: r => b.toNat + 256 * leNat r

/-- A counter that stops at its maximum. -/
def satInc (mx x : Nat) : Nat := if x < mx then x + 1 else mx

/-- The numbers from `a`, `n` of them, ascending. -/
def upFrom : Nat → Nat → List Nat
  | _, 0 => []
  | a, n + 1 => a :: upFrom (a + 1) n

/-- One of two bytes lists' worth of zeros. -/
def zeros (n : Nat) : List Byte := List.replicate n 0

/-- The bytes padded with zeros, or cut, to length `n`. -/
def padTo (n : Nat) (bs : List Byte) : List Byte := (bs ++ zeros n).take n

/-- A Bool as a number. -/
def b2n (b : Bool) : Nat := if b then 1 else 0

/-- All ones over the low `n` bits. -/
def onesBelow (n : Nat) : Nat := 2 ^ n - 1

/-- The lowest index below `n` at which a test holds. -/
def firstIx (n : Nat) (p : Nat → Bool) : Option Nat := (upFrom 0 n).find? p

end Sys2Proof.Machine
end

