-- ==== Sys2Proof/Machine/PlanTypes.lean ====
section
/-! DEFINITION. Plans and images as data: what a plan image holds (R232, R233, R241, R301, R302, R339, R404, R410), and the
images of firmware, calibration and patches (R152, R469, R475).  Parts of an image whose bytes the spec does not lay out are
records here. -/

namespace Sys2Proof

/-- A fabric requester (Table 1-2), with the debug port (R486). -/
inductive Requester where
  | tile (u : UnitIx)
  | ce (k : Fin 4)
  | stream
  | mram
  | host
  | lichen
  | jtag
  deriving DecidableEq, Repr

/-- What a discarded fabric transfer belonged to (R28): the far operation at a place in a unit's list, or the far access of an element on a routine
engine, which the target had performed where the transfer was its response. -/
inductive XferOf where
  | far (u : UnitIx) (i : Nat)
  | elem (u : UnitIx) (e : Fin 2) (performed : Bool)
  deriving DecidableEq, Repr

/-- A range of a unit's bank. -/
structure Range where
  unit : Nat
  ofs  : Nat
  len  : Nat
  deriving DecidableEq, Repr

/-- The source of a logical input; `half` is 1 for the second sample of a tick at 96 kHz (R301). -/
inductive InSrc where
  | tdm (port slot half : Nat)
  | pdm (c : Nat)
  | avtp (stream ch half : Nat)
  deriving DecidableEq, Repr

/-- The destination of a logical output (R301). -/
inductive OutDst where
  | tdm (port slot half : Nat)
  | avtp (stream ch half : Nat)
  deriving DecidableEq, Repr

/-- A fast-lane binding (R241 to R243, R418): buffers as bank bases of FL_CFG, the per-tick entry, the channels in order, and the
tick of the block marked for BIST. -/
structure FastBind where
  entry : Word
  ibase : Nat
  obase : Nat
  ins   : List InSrc
  outs  : List OutDst
  bist  : Nat
  deriving DecidableEq, Repr

/-- A named role (R249). -/
structure RoleInit where
  role   : BitVec 8
  holder : BitVec 5
  planId : Word
  deriving DecidableEq, Repr

/-- A region that PARAM_WRITE may address (R261, R262): `fast` is the PSEL bit and the second copy of a double-buffered one. -/
structure ParamRegion where
  id   : Nat
  loc  : Range
  fast : Option (Nat × Nat)
  deriving DecidableEq, Repr

/-- A HANDOVER copy: from the running plan named, or, with `fromV`, from that variant of the same plan (R237, R264). -/
structure Handover where
  planId : Word
  fromV  : Option Tier
  src    : Range
  dst    : Nat × Nat
  deriving DecidableEq, Repr

/-- The contents of a section (Table 9-2). -/
inductive SectBody where
  | bytes (bs : List Byte)
  | sched (p : Nat) (entries : List (Word × Word))
  | fast (b : FastBind)
  | roles (rs : List RoleInit)
  | seminit (ss : List (Nat × Nat × Nat))
  | params (rs : List ParamRegion)
  | handover (hs : List Handover)
  | freemap (rs : List Range)
  /-- Leave per tile that a SCHED entry books, in entry order (R436). -/
  | leave (tile : Nat) (books : List Bool)
  | cert
  deriving DecidableEq, Repr

/-- A section (R233). -/
structure Section where
  typ   : Nat
  unit  : Nat
  vmask : BitVec 3
  twr   : Bool
  dst   : Nat
  len   : Nat
  body  : SectBody
  deriving DecidableEq, Repr

/-- The settings of one TDM port (Table 11-12). -/
structure TdmSet where
  port : Nat
  cfg  : Word
  fofs : Word
  inM  : Word
  outM : Word
  triM : Word
  fbM  : Word
  dly  : Word
  deriving DecidableEq, Repr

/-- One logical output (R301, R404): its destination, the producing tile and the safety mark. -/
structure OutEntry where
  ix     : Nat
  dst    : OutDst
  tile   : Nat
  safety : Bool
  deriving DecidableEq, Repr

/-- A talker or listener stream (R309 to R312).  `fmt` is 0 INT_16BIT, 1 INT_24BIT, 2 INT_32BIT, 3 FLOAT_32BIT, 4 CRF. -/
structure AvtpStream where
  ix       : Nat
  sid      : DWord
  fmt      : Nat
  x2       : Bool
  chans    : Nat
  spp      : Nat
  /-- Ticks from one CRF event to the next; a CRF stream's `fmt` is 4, its `spp` the timestamps of a PDU (Table 11-7). -/
  ivl      : Nat
  /-- Port, PCP and VID of a talker (R355). -/
  port     : Nat
  pcp      : Nat
  vid      : Nat
  presDly  : Nat
  presOfs  : Nat
  fb       : List Nat
  deriving DecidableEq, Repr

/-- A stream channel: CH_CFG and its steps as bytes of the stream bank (R302). -/
structure ChanSet where
  ch  : Nat
  cfg : Word
  deriving DecidableEq, Repr

/-- A host stream endpoint (R339). -/
structure HostEp where
  ix   : Nat
  d2h  : Bool
  tile : Nat
  area : Nat
  bpb  : Nat
  ch   : Nat
  deriving DecidableEq, Repr

/-- A duplicated safety task (R410): tiles, output areas (offset, bytes), outputs, restart regions and pristine copies. -/
structure SafetyTask where
  lead  : Nat
  check : Nat
  areaL : Nat × Nat
  areaC : Nat × Nat
  outs  : List Nat
  /-- Restart region, pristine copy and length, of the lead and of the check copy. -/
  rstL  : Nat × Nat × Nat
  rstC  : Nat × Nat × Nat
  deriving DecidableEq, Repr

/-- Traffic shaping of one port: idle slopes, gate list (gate mask and interval in ns), cycle, base and change time (R355). -/
structure EthSet where
  port   : Nat
  cbsA   : Word
  cbsB   : Word
  gates  : List (Byte × Nat)
  cycle  : Nat
  base   : DWord
  change : DWord
  deriving DecidableEq, Repr

/-- The pair table (R388): mode, outputs owned by PRIMARY and PARTNER, shadowed outputs, carried regions with the fabric address of their
destination in the peer, and the survivor plan of SPLIT. -/
structure PairTable where
  mode     : BitVec 2
  ownPri   : BitVec 128
  ownPar   : BitVec 128
  shadow   : BitVec 128
  carried  : List (Range × Nat)
  survivor : Word
  deriving DecidableEq, Repr

/-- A plan: header (Table 9-1), sections, and the tables the device takes from it. -/
structure Plan where
  planId  : Word
  ver     : Word
  block   : Nat
  ucode   : Nat
  isaReq  : Word
  lcMask  : Nat
  sects   : List Section
  inMap   : List (Nat × InSrc)
  outMap  : List OutEntry
  tdm     : List TdmSet
  pdm     : List (Nat × Word)
  chans   : List ChanSet
  streams : List AvtpStream
  eps     : List HostEp
  tasks   : List SafetyTask
  restor  : List Range
  /-- Logical inputs that are microphones and accelerometers (Table 13-4). -/
  mics    : List Nat
  accels  : List Nat
  /-- Booked peaks of variants A, B, C (R438). -/
  peaks   : Nat × Nat × Nat
  /-- Owners of I²C 0-3, SPI 4-7 and GPIO 8-55: a tile; the service core where none is listed (R41). -/
  owners  : List (Nat × UnitIx)
  eth     : List EthSet
  pair    : PairTable
  deriving DecidableEq, Repr

/-- A plan image (R232): its bytes, signature included; the key slot under which that signature verifies (Table 18-9), whose computation is not
modelled; by section number the contents of the sections whose bytes the spec does not lay out; and in `rest` the tables that such sections hold,
of which the header fields and the sections are not used (log 61). -/
structure PlanImage where
  sigSlot : Option Nat
  bytes   : List Byte
  bodies  : List (Nat × SectBody)
  rest    : Plan
  deriving DecidableEq, Repr

/-- A firmware image: its signature check under the firmware key, its security version and its write sequence (R469). -/
structure FwImage where
  sigOk : Bool
  svn   : Nat
  seq   : Nat
  deriving DecidableEq, Repr

/-- A microcode patch image: its checks, level, dispatch and field overrides (R149, R152, R473). -/
structure PatchImage where
  ok    : Bool
  level : Nat
  disp  : List DWord
  field : List (BitVec 13 × BitVec 15 × BitVec 144)
  deriving DecidableEq, Repr

/-- An entry of the signal map (R357): bus and identifier, slot, width, and how values are formed. -/
structure SigEntry where
  bus      : Fin 2
  id       : BitVec 32
  slot     : Nat
  startBit : Nat
  bits     : Nat
  signed   : Bool
  bigEnd   : Bool
  scale    : Word
  offset   : Word
  lo       : Word
  hi       : Word
  timeout  : Nat
  /-- The substitute value. -/
  sub      : Word
  /-- Start bit of the 4-bit alive counter, and the byte of the CRC-8. -/
  alive    : Option Nat
  crc      : Option Nat
  wheel    : Bool
  deriving DecidableEq, Repr

/-- A calibration copy: its validity (digest and CRC), write sequence, and the settings the device takes from it (R475). -/
structure CalImage where
  ok       : Bool
  sigSlot  : Option Nat
  seq      : Nat
  sigMap   : List SigEntry
  supSlot  : Nat
  /-- STBY_CFG, AON_CLK_CFG, PMIC_CFG and AGE CFG. -/
  stby     : Word
  aonClk   : Word
  pmic     : Word
  age      : Word
  /-- PAIR_CFG of the Lichen pair. -/
  pair     : Word
  /-- Configuration words: CFG, NBT, DBT, TDC_OFS and the 28 filter words of CAN[0] and CAN[1]; CFG, MAC_LO, MAC_HI, IPV4 and IPV4_MASK
  of ETH[0..3]. -/
  can      : List Word
  eth      : List Word
  /-- UDS attempt counters of levels 0x01 and 0x11 (R364). -/
  attempts : Nat × Nat
  /-- DIDs 0xF190, 0xFD50 and 0xFD51 (Table 13-5), and the DoIP logical address. -/
  vin      : List Byte
  variant  : List Byte
  trims    : List Byte
  logAddr  : BitVec 16
  /-- The physical and the functional request identifier of UDS on CAN, bit [29] extended (R360). -/
  udsPhys  : BitVec 30
  udsFunc  : BitVec 30
  /-- The PMIC register of the step (R424). -/
  vidReg   : Byte
  /-- Acoustic references (R373): set identifier; output, reference impedance in mΩ and reference microphone. -/
  refSet   : Word
  refs     : List (Nat × Nat × Nat)
  deriving DecidableEq, Repr

/-- A holder of leave (Table 16-6). -/
inductive LeaveHolder where
  | tile (n : Fin 16)
  | ce (k : Fin 4)
  | lichen
  | mram
  | wipe
  | bist
  deriving DecidableEq, Repr

/-- What a re-plan measures on one tile (R449, R453): lowest replica slack and its monitor, ageing loss in 0.01 ps. -/
structure TileMeasure where
  smin  : Int
  worst : BitVec 4
  loss  : Nat
  deriving DecidableEq, Repr

/-- The characterisation fuses of one tile (R449): voltage sensitivity in 0.0001 ps per step, temperature sensitivity in 0.00001 ps per 0.1 °C,
and the ageing exponent n as a quotient. -/
structure CharFuse where
  v    : Int
  t    : Int
  expN : Nat
  expD : Nat
  deriving DecidableEq, Repr

/-- A lifecycle token as submitted: whether its signature verifies under slot 0 (R479). -/
structure SigCheck where
  sigOk : Bool
  deriving DecidableEq, Repr

/-- What a received AVTP PDU carries: stream ID, format, two samples per tick, channels, sequence number, tv, timestamp, and the samples
channel by channel within each instant. -/
structure Pdu where
  port : Fin 4
  sid  : DWord
  fmt  : Nat
  x2   : Bool
  chans : Nat
  seq  : Byte
  tv   : Bool
  ts   : Word
  smps : List Word
  deriving DecidableEq, Repr

/-- A UDS client (R361): a DoIP source address on a TCP connection, or a CAN request identifier. -/
inductive UdsClient where
  | doip (conn : Fin 2) (src : BitVec 16)
  | can (id : BitVec 32)
  deriving DecidableEq, Repr

/-- An image as it arrives for a target of R347: a record of what the checks see, or bytes that are no image of its kind. -/
inductive NewImage where
  | fw (g : FwImage)
  | plan (g : PlanImage)
  | cal (g : CalImage)
  | patch (g : PatchImage)
  | bad
  deriving DecidableEq, Repr

/-- What a path-test step measured on one output (R371, R373): whether a safety-class output sounded in the last 10 s, background above
−50 dBFS, impedances in mΩ, frequency of the lowest in Hz, deviations of 31 third-octave bands in 0.1 dB, feedback status. -/
structure PathMeasure where
  seen   : Bool
  noisy  : Bool
  z1k    : Nat
  zmin   : Nat
  fzmin  : Nat
  dev    : List Int
  fbstat : BitVec 7
  deriving DecidableEq, Repr

/-- A received Ethernet frame as its classification sees it (Table 13-1). -/
inductive EthKind where
  | avtp (sid : DWord) (crf : Bool)
  | ptp
  | arp
  | icmp (toUs : Bool)
  | doip (toUs tcp : Bool)
  | other
  deriving DecidableEq, Repr

/-- A received Ethernet frame: its FCS, length, tag and kind, and whether its consumer's buffer is full. -/
structure EthFrame where
  fcsOk  : Bool
  len    : Nat
  tagged : Bool
  kind   : EthKind
  full   : Bool
  deriving DecidableEq, Repr

/-- What a STATE flit says (Table 14-4): sample count, pair state, DROP and whether a latent mechanism caused it (Table 14-10), mode, plan
identity, bitmaps of its pair table, and the next sequence number of each talker. -/
structure PeerState where
  sample : BitVec 64
  pstate : Fin 6
  drop   : Bool
  latent : Bool
  mode   : BitVec 2
  planId : Word
  maps   : BitVec 128 × BitVec 128 × BitVec 128
  seqs   : List Byte
  deriving DecidableEq, Repr

/-- What a FORWARD flit carries (R390). -/
inductive Forward where
  /-- The value, raw bits and flags of a pending slot write. -/
  | signal (slot : Fin 256) (val raw : Word) (flags : BitVec 3)
  /-- A listener's values for a tick. -/
  | listen (k : Fin 32) (tick : Nat) (smps : List Word)
  /-- A staged H2D block of an endpoint, none for MISSING. -/
  | h2d (ep : Nat) (blk : Nat) (data : Option (List Byte))
  /-- An accepted parameter write, filter load or plan switch with its block. -/
  | param (region ofs blk : Nat) (data : List Byte)
  | filter (ce job slot blk : Nat) (data : List Byte)
  | switch (planId : Word) (blk : Nat)
  deriving DecidableEq, Repr

/-- What a MIRROR flit carries (R396): a write into a carried region, by its destination, or a drained output block. -/
inductive Mirror where
  | write (addr : BitVec 36) (bs : List Byte)
  | out (ix blk : Nat) (smps : List Word)
  deriving DecidableEq, Repr

/-- A configuration request through the tunnel (R319). -/
inductive CfgAccess where
  | read (dw : Nat) (tag : Nat)
  | write (dw : Nat) (be : BitVec 4) (v : Word)
  deriving DecidableEq, Repr

/-- A request on a BAR, with its tag: a read of DWORDs by their byte enables, or a write of DWORDs with theirs (R16, R320 to R322). -/
inductive BarAccess where
  | read (ofs tag : Nat) (bes : List (BitVec 4))
  | write (ofs tag : Nat) (dws : List (BitVec 4 × Word))
  deriving DecidableEq, Repr

/-- An access to an I²C or SPI controller or to a GPIO pin (R41), of which the spec gives no registers: a write, which is a transfer with the bytes
sent and received or a pin's new value (bit 0), a read of the current value, or a level that the world outside drives a pin to. -/
inductive SerialAccess where
  | write (tx rx : List Byte)
  | read
  | level (b : Bool)
  deriving DecidableEq, Repr

/-- A row transfer of an external access that waits for an idle cycle of its sub-bank (R53): bank, requesting port, whether it writes, bank
offset, and the bytes written (for a read, as many zeros); the far operation that it carries out: its unit and, in a command, its place in the
unit's list, in the state its number; the bank cycle of its arrival. -/
structure RowXfer where
  bank : BankIx
  port : PortIx
  wr   : Bool
  ofs  : Nat
  bs   : List Byte
  far  : Option (UnitIx × Nat)
  at_  : Nat
  deriving DecidableEq, Repr

/-- Why a link is lost (R345, R348). -/
inductive LinkLoss where
  | down | tunnel | flr | hotReset | d3
  deriving DecidableEq, Repr

/-- What the device hands to the world outside: the model lists it, oldest first, and never reads it. -/
inductive Out where
  /-- A completion of a host access: request tag, status (0 successful, 1 Unsupported Request, 2 Completer Abort), poisoned, data. -/
  | completion (tag : Nat) (status : Nat) (ep : Bool) (data : List Byte)
  /-- A posted write to host memory. -/
  | hostWrite (addr : Nat) (bs : List Byte)
  /-- A read of host memory: address and length. -/
  | hostRead (addr len : Nat)
  /-- An MSI-X message. -/
  | msix (vec : Nat)
  /-- A USB 2.0 answer. -/
  | usb (bs : List Byte)
  /-- A TDM output frame: port, tick, slot words; a high-impedance slot is none. -/
  | tdm (port : Nat) (tick : Nat) (words : List (Option Word))
  /-- An AVTP PDU of a talker: stream, sequence number, timestamp and samples, channel order within each instant. -/
  | avtp (stream : Nat) (seq : Byte) (ts : Word) (samples : List Word)
  /-- A gPTP frame of a port: 0 Sync, 1 Pdelay_Req. -/
  | ptp (port typ : Nat)
  /-- A frame leaves an Ethernet port from an egress queue: port, queue, VLAN of its tag (0 untagged), what it carries. -/
  | frame (port q vid : Nat) (what : Out)
  /-- A UDS response to a client, with the bytes of the response. -/
  | uds (client : UdsClient) (bs : List Byte)
  /-- A DoIP message of a port, apart from diagnostic responses. -/
  | doip (port : Nat) (bs : List Byte)
  /-- An answer of a partner-window access: tag, status and data. -/
  | partner (tag status : Nat) (data : List Byte)
  /-- Bytes an I²C or SPI controller sends. -/
  | serial (ctl : Nat) (bs : List Byte)
  /-- Nine clocks and a stop condition on an I²C bus (R510). -/
  | busClear (ctl : Nat)
  /-- The current value of a controller or pin, as a read of it gives it. -/
  | serialValue (ctl : Nat) (bs : List Byte)
  /-- A Lichen flit of a type and its payload. -/
  | flit (typ : Nat) (bs : List Byte)
  /-- Codes driven on pins: CORE_VID, LK_SYNC and the PMIC sequences. -/
  | vid (code : Nat)
  | lkSync (drop : Bool)
  | pmic (seq : Nat)
  /-- A byte written to a register of the PMIC over its I²C port: bus address, register, byte (R424). -/
  | pmicReg (addr : Nat) (reg : Byte) (code : Nat)
  /-- The bytes of a row read for a requester: port, fabric address, uncorrectable, bytes. -/
  | row (port : Nat) (a : Nat) (ue : Bool) (bs : List Byte)
  /-- The answer of a register read that is neither a ticketed load nor a BAR access. -/
  | jtag (data : Word)
  deriving DecidableEq, Repr

end Sys2Proof
end

