-- ==== Sys2Proof/Syntax.lean ====
section
/-! DEFINITION. The commands of the block: one constructor per row of spec/opcode_table.json, in the table's order.
Operation rows carry the unit that issues them and the fields of their operation word; event rows carry what the event
brings from outside the state. -/

namespace Sys2Proof

/-- The commands (spec/opcode_table.json). -/
inductive Instr where
  /-- R14: PWR_GOOD rises with all supplies valid; the device leaves reset and the start-up timeline begins. -/
  | timeZero (aonHeld : Bool) (lkRole : Bool)
  /-- R20: A device reset of any cause sets every register to its reset value, except the values kept in the always-on domain. -/
  | deviceReset (cause : Fin 9) (rail : BitVec 8)
  /-- R14: 1 µs after a reset cause while PWR_GOOD stays high, the device leaves reset, and that instant is a new time zero. -/
  | resetRelease (lkRole : Bool)
  /-- R445: Every sensor reads below 140 °C, so the thermal hold ends and a new time zero begins. -/
  | thermalHoldRelease (ts : List Word) (lkRole : Bool)
  /-- R466: The boot ROM starts on the SC and requests the wipe leave. -/
  | bootRomStart
  /-- R467: The wipe writes zero with valid check bits to every bank word and shadow array and sets WIPE_STAT. -/
  | resetWipe
  /-- R469: The boot ROM verifies a firmware image by SHA-384, signature and SVN, and falls back to the other image or halts in ROM. -/
  | firmwareVerify
  /-- R152: The firmware verifies the microcode patch image, loads it into every tile and sets UCODE_LVL.LOCK. -/
  | patchLoad
  /-- R475: The firmware applies the valid calibration copy with the higher sequence, or the defaults, and sets the lifecycle lock. -/
  | calibrationApply
  /-- R234: The stored plan is verified at start-up and either accepted or refused, with a DTC on refusal. -/
  | storedPlanVerify
  /-- R468: At block ks the safety tiles, ports and LAND and VALID channels run while the other tiles are held. -/
  | safetyPhaseStart
  /-- R468: At block kf the held tiles, fast-lane bindings, channels, jobs and talkers start, and outputs ramp in. -/
  | fullPlanStart
  /-- R469: Once block kf runs, or 45 ms pass with no plan, the firmware raises FW_SVN to its own SVN. -/
  | fwSvnRaise
  /-- R472: The non-safety sections of the stored plan are reloaded and verified without a reset, and kf is set from the restart time. -/
  | warmRestart
  /-- R29: The always-on domain produces the 48 kHz sample tick and advances the 64-bit sample counter. -/
  | sampleTick (now : DWord)
  /-- R32: A tile in SLEEP wakes and fetches its first frond from the block's schedule entry, within 2 µs of the block tick. -/
  | tileWake (u : UnitIx)
  /-- R37: A late tile executes DONE with a block tick held, wakes at once and runs the entry of the newest held block. -/
  | heldTickWake (u : UnitIx)
  /-- R521: The device powers a DARK tile up before the first block in which it runs, leaving it in SLEEP with state at reset values. -/
  | tilePowerUp (u : UnitIx)
  /-- R215: A tile in NAP wakes on a sample tick or spore arrival and resumes 16 cycles later at the frond after NAP. -/
  | napWake (u : UnitIx)
  /-- R36: 10 µs before the next tick, the drain begins and the stream engine copies output blocks to the output buffers. -/
  | drainStart
  /-- R263: At tick n − 10 µs the switch window opens, with parameter writes, HANDOVER copies, H2D blocks and the CE hold. -/
  | switchWindowStart
  /-- R253: At tick n − 4.0 µs the role table is rewritten, epochs incremented, and queued spores carried or returned. -/
  | switchWindowRoles
  /-- R263: At tick n − 2.0 µs semaphores, schedules, CE job tables, stream programs, bindings, leave bookings and the variant of block n are put in force. -/
  | switchWindowCommit
  /-- R242: The frame engine writes a fast-lane input frame with its header into the bound tile's bank, by 0.5 µs before the tick. -/
  | flInputFrame (u : UnitIx)
  /-- R246: At tick S+1 a bound tile that has not issued NAP misses the tick; the miss is counted and the outputs are marked invalid. -/
  | flOutputDeadline (u : UnitIx)
  /-- R243: In the 4.0 µs after tick S+1 the frame engine takes the fast-lane output buffer for tick S. -/
  | flOutputTake (u : UnitIx)
  /-- R416: A tile issues no frond within 2.5 µs of a wake event; the watchdog records WAKE_FAIL. -/
  | wakeFail (u : UnitIx)
  /-- R86: A pending result of an earlier frond retires at the end of cycle c + k − 1 and becomes visible to later reads. -/
  | resultRetire (u : UnitIx)
  /-- R194: A pending trap is delivered as the L2 exception FP_TRAP after 24 L0 issue cycles, at an FBAR, or before DONE or NAP. -/
  | fpTrapDeliver (u : UnitIx)
  /-- R221: An eligible interrupt is accepted at an acceptance point; the 14-cycle entry writes the frame and branches to the vector. -/
  | interruptAccept (u : UnitIx)
  /-- R230: A tile woken by an interrupt that is no longer eligible returns at once to the state it left. -/
  | interruptNoEntry (u : UnitIx)
  /-- R80: The X-slot EXT syllable supplies a 32-bit IMM to every operand of its frond that names the extension. -/
  | ext (u : UnitIx) (w : OpWord)
  /-- R179: Copies fs[63:0] to fd[63:0] at distance 2. -/
  | fmovD (u : UnitIx) (w : OpWord)
  /-- R179: Copies fs[31:0] to fd, boxing bits [63:32] with ones. -/
  | fmovS (u : UnitIx) (w : OpWord)
  /-- R114: Sign-extends SRC1 from width W/2 into DST. -/
  | sext (u : UnitIx) (w : OpWord)
  /-- R114: Zero-extends SRC1 from width W/2 into DST. -/
  | zext (u : UnitIx) (w : OpWord)
  /-- R114: Copies SRC1 to DST at width W. -/
  | mov (u : UnitIx) (w : OpWord)
  /-- R115: Wrapping add that sets OV on signed overflow. -/
  | add (u : UnitIx) (w : OpWord)
  /-- R115: Wrapping subtract that sets OV on signed overflow. -/
  | sub (u : UnitIx) (w : OpWord)
  /-- R116: Saturating add that sets SAT when it clamps. -/
  | adds (u : UnitIx) (w : OpWord)
  /-- R116: Saturating subtract that sets SAT when it clamps. -/
  | subs (u : UnitIx) (w : OpWord)
  /-- R115: Wrapping negate that sets OV on overflow. -/
  | neg (u : UnitIx) (w : OpWord)
  /-- R116: Saturating absolute value. -/
  | abss (u : UnitIx) (w : OpWord)
  /-- R114: Bitwise AND of SRC1 and SRC2. -/
  | and (u : UnitIx) (w : OpWord)
  /-- R114: Bitwise OR of SRC1 and SRC2. -/
  | or (u : UnitIx) (w : OpWord)
  /-- R114: Bitwise XOR of SRC1 and SRC2. -/
  | xor (u : UnitIx) (w : OpWord)
  /-- R114: SRC1 AND NOT SRC2. -/
  | andn (u : UnitIx) (w : OpWord)
  /-- R115: Shift left by an unsigned count; a count of W or more gives 0. -/
  | shl (u : UnitIx) (w : OpWord)
  /-- R115: Logical shift right with zero fill. -/
  | shr (u : UnitIx) (w : OpWord)
  /-- R115: Arithmetic shift right with sign fill. -/
  | sar (u : UnitIx) (w : OpWord)
  /-- R115: Saturating shift left that sets SAT when it clamps. -/
  | shls (u : UnitIx) (w : OpWord)
  /-- R114: Signed minimum. -/
  | min (u : UnitIx) (w : OpWord)
  /-- R114: Signed maximum. -/
  | max (u : UnitIx) (w : OpWord)
  /-- R114: Unsigned minimum. -/
  | minu (u : UnitIx) (w : OpWord)
  /-- R114: Unsigned maximum. -/
  | maxu (u : UnitIx) (w : OpWord)
  /-- R117: Compares SRC1 with SRC2 under COND and writes a predicate combined by COMB. -/
  | cmp (u : UnitIx) (w : OpWord)
  /-- R118: Computes a predicate logic function and combines it into pd. -/
  | plog (u : UnitIx) (w : OpWord)
  /-- R116: Q15 multiply with round half up and saturation. -/
  | mulq15 (u : UnitIx) (w : OpWord)
  /-- R116: Exact Q31 multiply-accumulate with saturation. -/
  | macq15 (u : UnitIx) (w : OpWord)
  /-- R116: Rounds a 32-bit value to Q15 with saturation. -/
  | rndq (u : UnitIx) (w : OpWord)
  /-- R177: Scalar floating-point add, correctly rounded. -/
  | fadd (u : UnitIx) (w : OpWord)
  /-- R177: Scalar floating-point subtract. -/
  | fsub (u : UnitIx) (w : OpWord)
  /-- R177: Scalar floating-point multiply. -/
  | fmul (u : UnitIx) (w : OpWord)
  /-- R177: Fused multiply-add with one rounding. -/
  | fma (u : UnitIx) (w : OpWord)
  /-- R177: Fused negative multiply-subtract with one rounding. -/
  | fnms (u : UnitIx) (w : OpWord)
  /-- R188: Floating-point compare into a predicate under the conditions of Table 7-5. -/
  | fcmp (u : UnitIx) (w : OpWord)
  /-- R178: Inverts the sign bit and copies every other bit. -/
  | fneg (u : UnitIx) (w : OpWord)
  /-- R178: Clears the sign bit and copies every other bit. -/
  | fabs (u : UnitIx) (w : OpWord)
  /-- R178: Converts binary32 to binary64. -/
  | fcvtDS (u : UnitIx) (w : OpWord)
  /-- R178: Converts binary64 to binary32 with rounding. -/
  | fcvtSD (u : UnitIx) (w : OpWord)
  /-- R178: Converts binary32 to binary16 with rounding. -/
  | fcvtHS (u : UnitIx) (w : OpWord)
  /-- R178: Converts binary16 to binary32. -/
  | fcvtSH (u : UnitIx) (w : OpWord)
  /-- R187: Converts binary32 to int32, saturating with NV. -/
  | fcvtI32S (u : UnitIx) (w : OpWord)
  /-- R187: Converts binary64 to int32. -/
  | fcvtI32D (u : UnitIx) (w : OpWord)
  /-- R187: Converts binary64 to int64. -/
  | fcvtI64D (u : UnitIx) (w : OpWord)
  /-- R178: Converts int32 to binary32. -/
  | fcvtSI32 (u : UnitIx) (w : OpWord)
  /-- R178: Converts int32 to binary64 exactly. -/
  | fcvtDI32 (u : UnitIx) (w : OpWord)
  /-- R178: Converts int64 to binary64. -/
  | fcvtDI64 (u : UnitIx) (w : OpWord)
  /-- R187: Converts binary32 to Q31, clamping with ISTAT.SAT. -/
  | fcvtQ31S (u : UnitIx) (w : OpWord)
  /-- R187: Converts Q31 to binary32. -/
  | fcvtSQ31 (u : UnitIx) (w : OpWord)
  /-- R112: Loads a sign-extended IMM16 into an address-class register. -/
  | amovi (u : UnitIx) (w : OpWord)
  /-- R112: Loads the EXT IMM into an address-class register. -/
  | amovx (u : UnitIx) (w : OpWord)
  /-- R112: Copies one address-class register to another. -/
  | amov (u : UnitIx) (w : OpWord)
  /-- R112: Adds a sign-extended IMM16 to an address-class register. -/
  | aaddi (u : UnitIx) (w : OpWord)
  /-- R112: Adds two address-class registers. -/
  | aadd (u : UnitIx) (w : OpWord)
  /-- R112: Subtracts two address-class registers. -/
  | asub (u : UnitIx) (w : OpWord)
  /-- R112: Shifts an address-class register left by an immediate. -/
  | ashli (u : UnitIx) (w : OpWord)
  /-- R112: Adds the EXT IMM to an address-class register. -/
  | aaddx (u : UnitIx) (w : OpWord)
  /-- R113: Reads a 32-bit vector lane into an address-class register. -/
  | aget (u : UnitIx) (w : OpWord)
  /-- R113: Writes an address-class register into a 32-bit vector lane at distance 3. -/
  | aput (u : UnitIx) (w : OpWord)
  /-- R157: Sets SEW and vl = min(AVL, VLMAX) and optionally returns vl. -/
  | setvl (u : UnitIx) (w : OpWord)
  /-- R161: Vector copy of the active elements. -/
  | vmov (u : UnitIx) (w : OpWord)
  /-- R161: Writes each element's index. -/
  | vid (u : UnitIx) (w : OpWord)
  /-- R161: Vector wrapping add. -/
  | vadd (u : UnitIx) (w : OpWord)
  /-- R161: Vector wrapping subtract. -/
  | vsub (u : UnitIx) (w : OpWord)
  /-- R161: Vector saturating add. -/
  | vadds (u : UnitIx) (w : OpWord)
  /-- R161: Vector saturating subtract. -/
  | vsubs (u : UnitIx) (w : OpWord)
  /-- R161: Vector bitwise AND. -/
  | vand (u : UnitIx) (w : OpWord)
  /-- R161: Vector bitwise OR. -/
  | vor (u : UnitIx) (w : OpWord)
  /-- R161: Vector bitwise XOR. -/
  | vxor (u : UnitIx) (w : OpWord)
  /-- R161: Vector shift left. -/
  | vshl (u : UnitIx) (w : OpWord)
  /-- R161: Vector logical shift right. -/
  | vshr (u : UnitIx) (w : OpWord)
  /-- R161: Vector arithmetic shift right. -/
  | vsar (u : UnitIx) (w : OpWord)
  /-- R161: Vector signed minimum. -/
  | vmin (u : UnitIx) (w : OpWord)
  /-- R161: Vector signed maximum. -/
  | vmax (u : UnitIx) (w : OpWord)
  /-- R161: Vector Q15 multiply. -/
  | vmulq15 (u : UnitIx) (w : OpWord)
  /-- R164: Vector integer compare into a mask in vd, optionally also into a predicate. -/
  | vcmp (u : UnitIx) (w : OpWord)
  /-- R161: Selects vs1 or vs2 per element by the mask in v0. -/
  | vmerge (u : UnitIx) (w : OpWord)
  /-- R180: Vector floating-point add. -/
  | vfadd (u : UnitIx) (w : OpWord)
  /-- R180: Vector floating-point subtract. -/
  | vfsub (u : UnitIx) (w : OpWord)
  /-- R180: Vector floating-point multiply. -/
  | vfmul (u : UnitIx) (w : OpWord)
  /-- R161: Vector fused multiply-add into vd. -/
  | vfma (u : UnitIx) (w : OpWord)
  /-- R161: Vector fused negative multiply-subtract. -/
  | vfnms (u : UnitIx) (w : OpWord)
  /-- R189: Vector minimumNumber. -/
  | vfmin (u : UnitIx) (w : OpWord)
  /-- R189: Vector maximumNumber. -/
  | vfmax (u : UnitIx) (w : OpWord)
  /-- R164: Vector floating-point compare into a mask. -/
  | vfcmp (u : UnitIx) (w : OpWord)
  /-- R180: Vector conversion selected by a function code, with packed narrow elements. -/
  | vfcvt (u : UnitIx) (w : OpWord)
  /-- R166: Contiguous vector load of the active elements, retiring at distance 4. -/
  | vld (u : UnitIx) (w : OpWord)
  /-- R166: Contiguous vector store of the active elements; data read in c+2. -/
  | vst (u : UnitIx) (w : OpWord)
  /-- R130: Waits on a PENDING ticket, then consumes a DONE ticket or raises TICKET_FAULT on a FAILED one. -/
  | join (u : UnitIx) (w : OpWord)
  /-- R131: Waits until a masked ticket leaves PENDING, then consumes the lowest DONE one and writes its number. -/
  | joinany (u : UnitIx) (w : OpWord)
  /-- R136: Reissues a FAILED ticket's operation from ELEM with its captured operands. -/
  | retry (u : UnitIx) (w : OpWord)
  /-- R137: Returns a FAILED ticket to FREE without completing its work. -/
  | trel (u : UnitIx) (w : OpWord)
  /-- R151: Completes a PENDING ticket with a given status and detaches any operation still in flight. -/
  | tdone (u : UnitIx) (w : OpWord)
  /-- R151: A redirected opcode at L0 or L1 takes its ticket, writes the operand block and enters L2 at HADDR. -/
  | macroTrap (u : UnitIx) (x : DWord)
  /-- R138: Ticketed far load of 1 to 64 bytes from a fabric address into local memory. -/
  | fld (u : UnitIx) (w : OpWord)
  /-- R139: Ticketed far store of local bytes, captured at issue into the remote store buffer. -/
  | fst (u : UnitIx) (w : OpWord)
  /-- R250: Sends a 64-byte stamped message to the holder of a role, taking a ticket. -/
  | spore (u : UnitIx) (w : OpWord)
  /-- R256: Ticketed attempt to acquire a hardware semaphore. -/
  | semacq (u : UnitIx) (w : OpWord)
  /-- R256: Ticketed release of a hardware semaphore. -/
  | semrel (u : UnitIx) (w : OpWord)
  /-- R276: Submits a job to a convolution engine's queue, taking a ticket. -/
  | cesub (u : UnitIx) (w : OpWord)
  /-- R121: Ticketed signed 32×32 multiply to 64 bits. -/
  | mulS32 (u : UnitIx) (w : OpWord)
  /-- R121: Ticketed unsigned 32×32 multiply to 64 bits. -/
  | mulU32 (u : UnitIx) (w : OpWord)
  /-- R121: Ticketed multiply keeping the low 64 bits. -/
  | mull64 (u : UnitIx) (w : OpWord)
  /-- R121: Ticketed signed multiply keeping the high 64 bits. -/
  | mulhS64 (u : UnitIx) (w : OpWord)
  /-- R121: Ticketed unsigned multiply keeping the high 64 bits. -/
  | mulhU64 (u : UnitIx) (w : OpWord)
  /-- R121: Ticketed rounded and saturated Q31 multiply. -/
  | mulq31 (u : UnitIx) (w : OpWord)
  /-- R123: Ticketed signed 32-bit divide writing the quotient and remainder. -/
  | divS32 (u : UnitIx) (w : OpWord)
  /-- R123: Ticketed unsigned 32-bit divide. -/
  | divU32 (u : UnitIx) (w : OpWord)
  /-- R123: Ticketed signed 64-bit divide. -/
  | divS64 (u : UnitIx) (w : OpWord)
  /-- R123: Ticketed unsigned 64-bit divide. -/
  | divU64 (u : UnitIx) (w : OpWord)
  /-- R177: Ticketed binary32 divide routine. -/
  | fdivS (u : UnitIx) (w : OpWord)
  /-- R177: Ticketed binary64 divide routine. -/
  | fdivD (u : UnitIx) (w : OpWord)
  /-- R177: Ticketed binary32 square root routine. -/
  | fsqrtS (u : UnitIx) (w : OpWord)
  /-- R177: Ticketed binary64 square root routine. -/
  | fsqrtD (u : UnitIx) (w : OpWord)
  /-- R518: Ticketed biquad cascade routine over a block. -/
  | biq (u : UnitIx) (w : OpWord)
  /-- R518: Ticketed radix-4 FFT pass routine. -/
  | fft4 (u : UnitIx) (w : OpWord)
  /-- R518: Ticketed complex multiply-accumulate routine. -/
  | cmac (u : UnitIx) (w : OpWord)
  /-- R518: Ticketed NLMS coefficient update routine. -/
  | nlms (u : UnitIx) (w : OpWord)
  /-- R170: Ticketed indexed gather into a vector register, one element at a time. -/
  | gather (u : UnitIx) (w : OpWord)
  /-- R172: Ticketed indexed scatter from a vector register. -/
  | scatter (u : UnitIx) (w : OpWord)
  /-- R519: Ticketed byte move between descriptor-named ranges, in chunks. -/
  | bmov (u : UnitIx) (w : OpWord)
  /-- R520: Ticketed peak-magnitude accumulation over a count of samples. -/
  | peak (u : UnitIx) (w : OpWord)
  /-- R520: Ticketed sum-of-squares accumulation over a count of samples. -/
  | rms (u : UnitIx) (w : OpWord)
  /-- R201: B-slot operation that does nothing. -/
  | nop (u : UnitIx) (w : OpWord)
  /-- R202: PC-relative branch with two delay fronds. -/
  | br (u : UnitIx) (w : OpWord)
  /-- R202: Branch to the EXT IMM. -/
  | brx (u : UnitIx) (w : OpWord)
  /-- R202: Branch to an address register. -/
  | bra (u : UnitIx) (w : OpWord)
  /-- R202: PC-relative branch that writes a link. -/
  | call (u : UnitIx) (w : OpWord)
  /-- R202: Register branch that writes a link. -/
  | calla (u : UnitIx) (w : OpWord)
  /-- R202: Register branch predicted from the return-address stack. -/
  | ret (u : UnitIx) (w : OpWord)
  /-- R207: Sets up a zero-overhead loop on counter K. -/
  | loop (u : UnitIx) (w : OpWord)
  /-- R212: Latches a count and repeats the next frond that many times. -/
  | rep (u : UnitIx) (w : OpWord)
  /-- R33: Ends the slice and puts the tile in SLEEP after pending results retire, or raises TICKET_AT_DONE. -/
  | done (u : UnitIx) (w : OpWord)
  /-- R215: Puts the tile in NAP after pending results retire. -/
  | nap (u : UnitIx) (w : OpWord)
  /-- R196: Floating-point barrier: four empty fronds, then delivery of any pending trap. -/
  | fbar (u : UnitIx) (w : OpWord)
  /-- R99: Discards the front end, waits for local writes and refetches with the fiddlehead buffer emptied. -/
  | ifence (u : UnitIx) (w : OpWord)
  /-- R206: Clears the target buffer counters and empties the return-address stack. -/
  | pflush (u : UnitIx) (w : OpWord)
  /-- R206: Discards the front end and issues six empty fronds. -/
  | pbar (u : UnitIx) (w : OpWord)
  /-- R216: Reads a system register into an address register. -/
  | mfsr (u : UnitIx) (w : OpWord)
  /-- R216: Writes a system register at distance 4. -/
  | mtsr (u : UnitIx) (w : OpWord)
  /-- R227: Restores the frame and returns to the return point, or to NAP or SLEEP. -/
  | reti (u : UnitIx) (w : OpWord)
  /-- R142: A queued routine operation starts on the lower-numbered free routine engine. -/
  | routineStart (u : UnitIx)
  /-- R143: A routine element completes and all its writes retire together in its last microword. -/
  | routineElement (u : UnitIx) (e : Fin 2) (bad : Bool) (ext : Option (List Byte))
  /-- R147: A routine is suspended at its next element boundary so that a handler operation can run. -/
  | routineSuspend (u : UnitIx) (e : Fin 2)
  /-- R147: A suspended routine resumes through its resume entry when the handler operation ends. -/
  | routineResume (u : UnitIx) (e : Fin 2)
  /-- R129: A ticketed operation's last write lands, or it ends in error, and its ticket leaves PENDING. -/
  | ticketComplete (u : UnitIx) (n : Nat)
  /-- R140: The target performs a far read or write and returns a response or acknowledgement. -/
  | farAccessPerform (u : UnitIx) (n : Nat) (ext : Option (List Byte))
  /-- R141: A far load held behind an overlapping buffered store leaves once that store's ticket completes. -/
  | heldFarLoadRelease (u : UnitIx) (n : Nat)
  /-- R28: A fabric transfer reaches its port and is checked by CRC; a failing one is discarded and reported. -/
  | fabricTransferReceive (p : PortIx) (x : Option XferOf) (ok : Bool)
  /-- R256: The common bank performs a semaphore request atomically and returns its result. -/
  | semaphorePerform (u : UnitIx) (n : Nat) (more : List (UnitIx × Nat))
  /-- R251: A spore is written into the holder's queue, SPQ_TAIL increments and vector 33 becomes pending. -/
  | sporeDeliver (u : UnitIx) (n : Nat)
  /-- R53: An external access row transfer is performed in an idle cycle of its sub-bank. -/
  | externalRowTransfer (b : BankIx) (sub : Nat) (x : Option RowXfer) (now : Nat)
  /-- R53: An owner access takes a cycle given to an external row transfer, which is withdrawn and counted. -/
  | rowTransferWithdraw (b : BankIx) (sub : Nat) (x : Option RowXfer) (row : Option Nat) (now : Nat)
  /-- R63: After a corrected read, the corrected word is written back in the next idle cycle unless a write comes first. -/
  | eccWriteback (a : BitVec 36)
  /-- R68: Background test begins its next step and borrows the next window of a bank, or tests the shadow array. -/
  | bmtStep (n : BankIx)
  /-- R66: A borrowed window moves from COPY to TEST, from TEST to RESTORE, or out of RESTORE. -/
  | bmtPhaseAdvance (n : BankIx) (rows : Fin 65) (bad : Bool)
  /-- R418: A BIST slice saves a partition's flip-flops, scans test patterns and restores them in an idle window. -/
  | bistSliceStart (u : Fin 21)
  /-- R418: A BIST slice ends, its result is reported, and the unit returns to its state. -/
  | bistSliceEnd (u : Fin 21) (part : Byte) (ok : Bool)
  /-- R419: The MRAM controller reads a codeword in idle cycles and rewrites or logs it. -/
  | mramScrub
  /-- R277: An engine takes a job from its queue and checks it, failing it with a CE status when a check fails. -/
  | ceJobTake (k : Fin 4)
  /-- R278: A running job completes its start, input, accumulate or output phase and moves to the next. -/
  | cePhaseAdvance (k : Fin 4) (ferr : Option (BitVec 36)) (cyc : Nat)
  /-- R276: A submission reaches the engine's queue, or waits in the remote store buffer while the queue is full. -/
  | ceJobQueue (u : UnitIx)
  /-- R437: A unit requests leave; booked leave is granted within 200 ns, and unbooked leave when the headroom covers it. -/
  | leaveRequest (h : LeaveHolder)
  /-- R437: A waiting leave request is granted after its ballast ramp. -/
  | leaveGrant (h : LeaveHolder)
  /-- R437: A holder releases leave, and the ballast takes over the current. -/
  | leaveRelease (h : LeaveHolder)
  /-- R439: An unbooked grant above a lowered headroom is withdrawn at the holder's next pause point. -/
  | leaveWithdraw (h : LeaveHolder)
  /-- R291: A TDM input frame completes, is converted and is handed to the stream engine as the input frame of its tick. -/
  | tdmInputFrame (n : Fin 24) (phase : Word) (words : List Word)
  /-- R291: A TDM port emits the output frame for a tick at its sync. -/
  | tdmOutputFrame (n : Fin 24)
  /-- R294: A port with no sync for 2 ticks enters NOCLK. -/
  | tdmNoclk (n : Fin 24)
  /-- R294: A port in NOCLK leaves it at the first sync that falls within the window. -/
  | tdmNoclkExit (n : Fin 24) (phase : Word)
  /-- R313: A port whose CFG or FOFS changed at a switch restarts in its new format within 64 ticks. -/
  | portRestart (n : Fin 24)
  /-- R299: A PDM channel completes its decimated sample for the tick at tick − 1.0 µs. -/
  | pdmSample (c : Fin 32) (bits : BitVec 64)
  /-- R300: 64 ticks after a PDM clock starts, the channel's samples become valid. -/
  | pdmFillDone (c : Fin 32)
  /-- R300: After 4,096 consecutive equal bits, a channel becomes STUCK. -/
  | pdmStuck (c : Fin 32)
  /-- R300: 64 ticks after the first bit change, a STUCK channel becomes valid again. -/
  | pdmStuckClear (c : Fin 32)
  /-- R303: On each tick, the step writes the logical inputs of the input frame to its destinations. -/
  | land (c : Fin 96) (late : Bool) (cut : Option Nat)
  /-- R303: At a block tick, the step writes the validity map and the ORed feedback status. -/
  | valid (c : Fin 96) (late : Bool) (cut : Option Nat)
  /-- R303: The step copies output blocks to the logical outputs, zeroing its sources when asked. -/
  | drain (c : Fin 96) (cut : Option Nat)
  /-- R303: The step copies COUNT bytes from a source to each destination. -/
  | copy (c : Fin 96) (cut : Option Nat) (ext : Option (List Byte))
  /-- R307: The SC restarts a stopped channel at a named block. -/
  | channelRestart (c : Fin 96) (blk : Nat)
  /-- R311: A listener accepts a matching PDU and places its samples by presentation time, or discards it. -/
  | avtpPduReceive (d : Pdu)
  /-- R311: At tick S − 1.0 µs the held listener value becomes the stream's input frame of tick S. -/
  | avtpListenerTick (k : Fin 32)
  /-- R310: A talker builds and sends a PDU from the drain, stamped with its presentation time. -/
  | avtpPduSend (k : Fin 32)
  /-- R312: The CRF listener measures the phase and frequency of a CRF event against the ticks. -/
  | crfEventReceive (m : Fin 4) (phase : Word) (ppb : Word)
  /-- R350: A received Ethernet frame is checked and classified to one consumer, or discarded. -/
  | ethFrameReceive (m : Fin 4) (f : EthFrame)
  /-- R355: A queued frame is sent under strict priority, the credit-based shaper and the gate list. -/
  | ethFrameTransmit (m : Fin 4) (now : DWord) (credit : BitVec 2)
  /-- R355: A new gate list takes effect at the first cycle start at or after its change time. -/
  | gateListChange (m : Fin 4) (now : DWord)
  /-- R352: A follower receives Sync and updates its offset and synchronised state. -/
  | gptpSyncReceive (m : Fin 4) (ofs : Int)
  /-- R352: A MASTER port sends Sync at its log interval. -/
  | gptpSyncSend (m : Fin 4)
  /-- R352: A port sends Pdelay_Req at log interval 0 and measures the link delay. -/
  | gptpPdelayReq (m : Fin 4) (ns : Option Nat)
  /-- R353: A Sync interval passes without a Sync; at the third missed interval the follower stops being synchronised. -/
  | gptpSyncIntervalExpire (m : Fin 4)
  /-- R357: A received CAN frame is checked against the signal map and written to its slot's pending copy. -/
  | canFrameReceive (c : Fin 2) (id : BitVec 30) (bs : List Byte)
  /-- R358: A signal's timeout expires, and the slot shows TIMEOUT with the substitute at the next block tick. -/
  | signalTimeout (ix : Nat)
  /-- R356: A CAN controller enters bus-off and starts its automatic recovery. -/
  | canBusOff (c : Fin 2)
  /-- R356: A controller completes the standard's bus-off recovery sequence. -/
  | canBusOffRecover (c : Fin 2)
  /-- R361: A complete UDS request arrives over DoIP or CAN TP and is dispatched, or answered busy. -/
  | udsRequestReceive (c : UdsClient) (func : Bool) (sid : Byte) (sub : Byte) (rid : BitVec 16)
  /-- R363: Service 0x10 changes the diagnostic session, entering programming only from extended and while stationary. -/
  | diagnosticSessionControl
  /-- R366: ECUReset 0x01 performs a device reset after the positive response. -/
  | ecuResetHard
  /-- R366: ECUReset 0x03 restarts the stored plan by a warm restart. -/
  | ecuResetSoft
  /-- R367: Service 0x14 clears every DTC record. -/
  | clearDiagnosticInformation (group : BitVec 24)
  /-- R362: Service 0x19 sub-function 0x01 reports the count of DTCs matching a status mask. -/
  | reportNumberOfDtc (mask : Byte)
  /-- R362: Service 0x19 sub-function 0x02 reports the DTCs matching a status mask. -/
  | reportDtcByStatusMask (mask : Byte)
  /-- R367: Service 0x19 sub-function 0x04 reports a DTC's snapshot record. -/
  | reportDtcSnapshot (dtc : BitVec 24) (rec_ : Byte)
  /-- R367: Service 0x19 sub-function 0x06 reports a DTC's extended data record. -/
  | reportDtcExtData (dtc : BitVec 24) (rec_ : Byte)
  /-- R362: Service 0x19 sub-function 0x0A reports every supported DTC. -/
  | reportSupportedDtc
  /-- R369: Service 0x22 reads up to 8 DIDs. -/
  | readDataByIdentifier (ds : List (BitVec 16))
  /-- R369: Service 0x2E writes a writable DID into calibration. -/
  | writeDataByIdentifier (d : BitVec 16) (bs : List Byte)
  /-- R364: Service 0x27 returns a 16-byte seed for a level, or refuses during the delay. -/
  | securityAccessSeed (seed : List Byte)
  /-- R364: Service 0x27 checks the AES-CMAC key and unlocks the level or counts a wrong attempt. -/
  | securityAccessKey (right : Bool)
  /-- R362: Authentication sub-function 0x00 removes the granted rights. -/
  | deauthenticate
  /-- R364: Authentication sub-function 0x01 verifies an X.509 certificate against the root. -/
  | verifyCertificate (right : Bool) (hi : Bool) (chal : List Byte)
  /-- R364: Authentication sub-function 0x03 verifies proof of ownership and grants the role's rights. -/
  | proofOfOwnership (right : Bool)
  /-- R362: Authentication sub-function 0x08 reports the authentication configuration. -/
  | authenticationConfiguration
  /-- R371: Routine 0xFE10 start sends the output mask to role 0xFE, and the test begins. -/
  | acousticPathTestStart (mask : List Byte)
  /-- R372: RoutineControl stopRoutine on 0xFE10 aborts the test at the next output boundary. -/
  | stopRoutine
  /-- R370: RoutineControl requestRoutineResults returns a routine's status and result. -/
  | requestRoutineResults
  /-- R375: Routine 0xFE20 returns margin records. -/
  | marginHistoryReadout (first : Word) (cnt : Byte)
  /-- R374: Routine 0xFE21 returns event-log records. -/
  | eventLogExport (first : Word) (cnt : Byte)
  /-- R370: Routine 0xFF01 reports the consistency of the firmware, plan and patch images. -/
  | checkProgrammingDependencies
  /-- R365: Service 0x34 opens a download to a target partition. -/
  | requestDownload (dfi : Byte) (alfi : Byte) (addr : Word) (len : Word)
  /-- R365: Service 0x36 stages a block of the image in SRAM. -/
  | transferData (ctr : Byte) (bs : List Byte)
  /-- R365: Service 0x37 verifies the staged image and writes it to MRAM, or refuses it. -/
  | requestTransferExit (img : NewImage)
  /-- R362: Service 0x3E keeps the session alive. -/
  | testerPresent
  /-- R367: Service 0x85 0x01 resumes DTC status updates. -/
  | controlDtcSettingOn
  /-- R367: Service 0x85 0x02 freezes DTC status updates except DTC 0x9A5000. -/
  | controlDtcSettingOff
  /-- R361: While a request takes longer than P2server, NRC 0x78 is sent every 2,000 ms. -/
  | responsePending
  /-- R361: S3server expires, and the session returns to default. -/
  | s3Timeout
  /-- R360: A UDP vehicle identification request is answered with the VIN and EID. -/
  | doipVehicleIdentification (m : Fin 4)
  /-- R360: A routing activation request of type 0x00 or 0xE0 is handled on a TCP connection. -/
  | doipRoutingActivation (k : Fin 2) (m : Fin 4) (src : BitVec 16) (typ : Byte)
  /-- R361: A DoIP TCP connection closes, and the session it owned returns to default. -/
  | doipConnectionClose (k : Fin 2)
  /-- R371: The test task moves to the next selected output: mute, background measurement and sweep. -/
  | pathTestOutputStep (m : PathMeasure)
  /-- R317: The USB4 link trains at the highest common rate and the PCIe tunnel is set up. -/
  | usb4LinkUp (gen3 : Bool) (x2 : Bool)
  /-- R345: On link loss, the rings are disabled, records are lost, host streams close and LINK_EPOCH increments. -/
  | linkLoss (c : LinkLoss)
  /-- R320: A BAR0 request is split into single-DWORD CSR accesses in ascending order. -/
  | bar0Access (a : BarAccess)
  /-- R321: A BAR2 access outside the doorbells, MSI-X table and PBA is discarded or reads zero, and is counted. -/
  | bar2OtherAccess (a : BarAccess)
  /-- R322: A BAR4 access reaches device memory through the selected segment, or completes with Unsupported Request. -/
  | bar4Access (a : BarAccess)
  /-- R323: A host memory read completes, or fails by error or the 50 ms timeout, failing its item with HOST_READ. -/
  | hostReadComplete (r : Fin 48) (data : Option (List Byte))
  /-- R328: A doorbell write sets a ring's new PI or CI after a range check, or puts the ring into ERROR. -/
  | doorbell (r : Fin 56) (v : Word) (full : Bool)
  /-- R327: A write of EN = 1 in DISABLED starts the ring when its configuration is valid. -/
  | ringEnable (r : Fin 56) (v : Word)
  /-- R344: A write of RESET = 1 stops the ring, writes a RING_RESET notice and ends in DISABLED. -/
  | ringReset (r : Fin 56)
  /-- R330: Every POLL microseconds, the device reads the shadow indices and takes those ahead as doorbells. -/
  | shadowPoll (vals : Option (List Word))
  /-- R330: The device writes a ring's changed index back to the sync page. -/
  | indexWriteback (r : Fin 56)
  /-- R332: The device reads the next command of a ring in round-robin order and accepts or refuses it. -/
  | commandFetch (data : Option (List Byte))
  /-- R331: NOP completes at acceptance. -/
  | cmdNop (r : Fin 16)
  /-- R264: LOAD_PLAN in switch mode loads a plan image into free ranges for a later SWITCH_PLAN. -/
  | loadPlanSwitch (r : Fin 16)
  /-- R265: LOAD_PLAN in replace mode stops the running plan at block n and starts the new plan after verification. -/
  | loadPlanReplace (r : Fin 16)
  /-- R473: LOAD_PLAN in store mode verifies an image and writes it to the stored-plan partition. -/
  | loadPlanStore (r : Fin 16)
  /-- R234: Background verification of a loaded plan image ends, with acceptance or refusal. -/
  | planVerifyComplete (img : Option PlanImage)
  /-- R265: The replacing plan starts at the first qualifying sample tick, with a new k0 and B. -/
  | replacePlanStart
  /-- R264: SWITCH_PLAN switches to a loaded plan at block n. -/
  | switchPlan (r : Fin 16)
  /-- R261: PARAM_WRITE fetches bytes and schedules their write into a PARAMS region at block n. -/
  | paramWrite (r : Fin 16)
  /-- R284: FILTER_LOAD fetches a filter set into a job's inactive slot and schedules the switch at block n. -/
  | filterLoad (r : Fin 16)
  /-- R339: STREAM_OPEN binds a host stream endpoint to a stream ring from block n. -/
  | streamOpen (r : Fin 16)
  /-- R342: STREAM_CLOSE ends a host stream with block n−1 and unbinds its ring. -/
  | streamClose (r : Fin 16)
  /-- R331: DIAG SUB 0x01 exports event-log records to host memory. -/
  | diagEventExport (r : Fin 16)
  /-- R331: DIAG SUB 0x02 exports margin-history records to host memory. -/
  | diagMarginExport (r : Fin 16)
  /-- R331: DIAG SUB 0x03 runs the acoustic path test and writes its result. -/
  | diagPathTest (r : Fin 16)
  /-- R333: At tick n, accepted changes naming block n take effect in ASEQ order, and their completions are written. -/
  | commandTakeEffect
  /-- R335: The device writes a completion or notice record to an event ring, or holds or drops it while the ring is full. -/
  | eventRecordWrite (e : Fin 8)
  /-- R337: An event ring's moderation interval ends, and one message follows if records are unconsumed. -/
  | msixModerationExpire (e : Fin 8)
  /-- R340: The device fetches a host-to-device stream block no earlier than 8 blocks ahead and stages it. -/
  | h2dDescriptorFetch (ep : Fin 32) (data : Option (List Byte))
  /-- R341: A drained device-to-host block is written from staging to host memory, or dropped on overrun. -/
  | d2hBlockWrite (ep : Fin 32)
  /-- R346: In DEVELOP or RETURN, the device attaches on USB 2.0 when USB4 has not trained within 2 s. -/
  | usb2Attach
  /-- R347: The recovery QUERY request returns identity and lifecycle. -/
  | usb2Query
  /-- R347: The recovery WRITE_IMAGE request verifies an image and writes it to its partition. -/
  | usb2WriteImage (t : Byte) (img : NewImage) (bs : List Byte)
  /-- R347: The recovery RESET request resets the device after the answer. -/
  | usb2Reset
  /-- R378: A receiver checks the sideband pulse at each tick, recording LOST or recognising DROP. -/
  | lkSidebandPulse (k : Fin 3) (ps : Word)
  /-- R386: The Lichen lanes equalise and the FEC locks, and the link enters ALIGN, or training repeats. -/
  | linkTrainDone (ok : Bool)
  /-- R386: In ALIGN, role, firmware, stepping and patch level are exchanged, giving UP or CONFLICT. -/
  | linkAlign (opposite : Bool) (same : Bool)
  /-- R386: The replay limit, or 8 ticks without a STATE flit, takes the link to RETRAIN. -/
  | linkRetrain
  /-- R384: A received codeword is corrected, or discarded with a NAK and a replay from the replay buffer. -/
  | codewordReceive (seq : Byte) (ack : Byte) (nak : Bool) (fec : Fin 3) (syms : List Nat) (crcBad : Bool)
  /-- R383: A READ flit performs a partner-window load in this device. -/
  | flitRead (tag : Byte) (a : BitVec 36) (n : Nat)
  /-- R383: A READ_RSP flit completes a partner-window load. -/
  | flitReadRsp (tag : Byte) (st : Byte) (bs : List Byte)
  /-- R383: A WRITE flit performs a partner-window store in this device. -/
  | flitWrite (tag : Byte) (a : BitVec 36) (bs : List Byte)
  /-- R383: A WRITE_ACK flit completes a partner-window store. -/
  | flitWriteAck (tag : Byte) (st : Byte)
  /-- R383: The once-per-tick STATE flit brings the peer's sample count, pair state, DROP and mode. -/
  | flitState (x : PeerState)
  /-- R391: A RECORD flit brings the peer's CRC_BLK or CRC_FL for a block. -/
  | flitRecord (fl : Bool) (blk : Nat) (crc : Word)
  /-- R390: A FORWARD flit brings forwarded vehicle signals, listener values, H2D blocks or commands. -/
  | flitForward (f : Forward)
  /-- R396: A MIRROR flit stores carried-region writes or owned output blocks in the journal. -/
  | flitMirror (x : Mirror)
  /-- R396: A COMMIT flit closes the journal of a block. -/
  | flitCommit (blk : Nat)
  /-- R396: At tick j+1, a journal closed by COMMIT(j) is applied to its destination ranges in idle cycles. -/
  | journalApply
  /-- R398: BULK runs carry the whole SRAM to the joining device. -/
  | flitBulk (a : BitVec 36) (bs : List Byte)
  /-- R398: DELTA runs carry catch-up writes and re-sent windows. -/
  | flitDelta (a : BitVec 36) (bs : List Byte)
  /-- R398: The bulk or catch-up phase of a resync ends, and the join block is set. -/
  | resyncPhaseEnd
  /-- R398: The joining device starts its LAND channels at tick q − 1 and its tiles at tick q. -/
  | resyncJoin
  /-- R392: At VB(k) or VF(k), each device compares its part of the two records and acts on the outcome. -/
  | verdictPoint (fl : Bool)
  /-- R393: 1.0 ms after its last outputs moved, a dropped device resets with RST_CAUSE 8. -/
  | droppedReset
  /-- R394: At a moving point, the survivor drives the pins of outputs whose ownership moves. -/
  | ownershipMove
  /-- R396: At tick m the SPLIT survivor switches to its survivor plan to rebuild the dropped half. -/
  | survivorSwitch
  /-- R397: A peer silent on the sideband and link for 2 ticks is taken over, and the survivor enters the safe state. -/
  | peerSilent
  /-- R387: A PARTNER in WAIT goes SOLO 200 ms after time zero without a LK_SYNC pulse. -/
  | partnerWaitTimeout
  /-- R404: The safety hub receives a mechanism's report and takes the response of Table 15-2. -/
  | faultReport (r : Report)
  /-- R400: The lockstep hub machines disagree, and the hub enters the safe output state. -/
  | hubMismatch
  /-- R413: Within 1.0 µs of the drain start, the verdict unit compares the safety-task CRCs and applies Table 15-3. -/
  | verdict
  /-- R409: 200 ms after the last detected fault, the monitor warm-restarts the stored plan, at most 3 times per cycle. -/
  | automaticRestart
  /-- R400: The safety monitor writes the event record within 1 ms of a report. -/
  | eventLogWrite
  /-- R432: A clock outside its ±1 % window is reported and handled by fence, backup oscillator or reset. -/
  | clockMonitor (src : Fin 6) (ppm : Int)
  /-- R444: A rail outside its window raises a VOLTAGE report, and a rail beyond its reset limit resets the device. -/
  | voltageMonitor (rail : Fin 8) (mv : BitVec 16)
  /-- R445: Every 1 ms, the 24 sensors give Tj, driving the thermal cap, TEMPERATURE reports, the reset and band changes. -/
  | temperatureSample (ts : List Word)
  /-- R445: Tj below 130 °C for 1 s removes the thermal cap. -/
  | thermalCapRemove
  /-- R440: Every 10 µs, BATT_SENSE is converted and the supply-state thresholds are tested. -/
  | battSenseSample (code : BitVec 12)
  /-- R443: On return from DEEP, held tiles wake at the next block and their outputs ramp in. -/
  | deepTileRelease
  /-- R429: PMIC_WARN is recognised and the budget is lowered to 60 %. -/
  | pmicWarnAssert
  /-- R429: 10 ms after PMIC_WARN falls, its budget lowering ends. -/
  | pmicWarnLoweringEnd
  /-- R428: PWR_GOOD falls: the device completes standby entry if ARM is set, else resets. -/
  | pwrGoodFall
  /-- R438: After the budget has held for 10 ms, the plan tier may rise towards the cap tier. -/
  | budgetHoldExpire
  /-- R426: After holding a CORE_VID code for 20 µs, the device moves one code towards the target. -/
  | vidStep
  /-- R431: The steering source is lost and the always-on loop holds its frequency. -/
  | aonSourceLoss
  /-- R431: A valid measurement returns and the always-on loop steers again. -/
  | aonSourceReturn
  /-- R433: After IDLE seconds of inactivity, the SC ramps to mute, writes a margin record, sets ARM and powers down the PMIC. -/
  | standbyEntry
  /-- R433: A wake source during standby entry clears ARM and ramps the outputs back. -/
  | standbyCancel (src : Fin 5)
  /-- R434: In parked standby, a wake source fires, is recorded, and the PMIC is powered up. -/
  | standbyWake (src : Fin 5)
  /-- R447: Every 100 µs the replica-path monitors measure slack and may raise an alarm. -/
  | replicaMeasure (u : UnitIx) (slack : Int) (mon : Fin 12)
  /-- R448: An in-situ detector flags a late transition, counted towards ISD_LIMIT. -/
  | isdFlag (n : Fin 16)
  /-- R457: A monitor alarm raises VDD_CORE one code or lowers the tile's tier, and queues a re-plan. -/
  | marginAlarm
  /-- R450: Every 1 ms the SRAM read-margin monitors measure, logging SRAM_MARGIN_LOW once per cycle. -/
  | sramMarginMeasure (g : Fin 4) (mv : BitVec 8)
  /-- R456: A cold-start, 64-hour, excursion or alarm trigger starts a re-plan, or queues one. -/
  | replanTrigger (t : Fin 5)
  /-- R456: A re-plan ends its measuring and computing, writes a margin record and puts the plan in force. -/
  | replanComplete (ms : List TileMeasure)
  /-- R451: Tj crosses a band limit, or stays below the return limit for 1 s, and the new band's entries are put in force. -/
  | bandChange
  /-- R456: Tj stays above 140 °C for 10 s, firing the excursion trigger. -/
  | excursion
  /-- R461: Each minute the operating or standby counter advances. -/
  | minuteCount
  /-- R479: A write of GO to LC_TOK_CMD submits the lifecycle token for verification. -/
  | lcTokGo (sigOk : Bool) (nonce : List Word)
  /-- R479: An accepted token mutes, wipes the user partitions and keys, writes the fuse and resets. -/
  | lcTransition
  /-- R479: A write to LC_TOK_DATA stores a token word and advances the index. -/
  | lcTokDataWrite (v : Word)
  /-- R480: A write of COMMIT to PROV_CTL commits the selected key slot once. -/
  | provCommit (v : Word)
  /-- R480: A write of DONE closes provisioning, and in BLANK moves to DEVELOP. -/
  | provDone
  /-- R480: A write to PROV_DATA stores a slot word and advances the index. -/
  | provDataWrite (v : Word)
  /-- R481: A write of GO to DBG_CMD verifies the debug response and grants a level or counts a refusal. -/
  | dbgCmdGo (sigOk : Bool) (level : Fin 4) (chal : List Word)
  /-- R481: A write to DBG_RESP_DATA stores a response word and advances the index. -/
  | dbgRespDataWrite (v : Word)
  /-- R492: DBG_CTL.HALT stops the tile at its next acceptance point. -/
  | dbgHalt (u : UnitIx)
  /-- R492: DBG_CTL.STEP issues one frond while halted. -/
  | dbgStep (u : UnitIx)
  /-- R492: A frond at an enabled breakpoint address halts the tile before it issues. -/
  | breakpointHit (u : UnitIx)
  /-- R422: In DEVELOP, a write of go to INJ_CTL injects a report from the chosen mechanism. -/
  | injGo (v : Word)
  /-- R483: An SC write of 1 to MRAM_CMD writes MRAM from a fabric source. -/
  | mramWriteCmd (q : Requester)
  /-- R483: An SC write of 2 to MRAM_CMD erases an MRAM range to zero. -/
  | mramEraseCmd (q : Requester)
  /-- R483: An MRAM command finishes and sets MRAM_CMD_STAT. -/
  | mramCmdComplete (ext : List Byte)
  /-- R416: The SC writes SC_KICK to mark its publish step done for the block. -/
  | scKickWrite (q : Requester)
  /-- R220: A write of 1 to ISWI bit i sets IPEND of vector 34 + i. -/
  | iswiWrite (u : UnitIx) (q : Requester) (v : Word)
  /-- R251: A write to SPQ_HEAD frees spores when it lies within TAIL, and is discarded and counted otherwise. -/
  | spqHeadWrite (u : UnitIx) (q : Requester) (v : Word)
  /-- R154: An access to UPATCH_DATA reaches the patch register at UPATCH_IDX and advances the index. -/
  | upatchDataAccess (u : UnitIx) (q : Requester) (v : Option Word)
  /-- R288: The SC writes CE CTL; clearing EN fails every queued or running job with CE_DISABLED. -/
  | ceCtlWrite (k : Fin 4) (r : Requester) (v : Word)
  /-- R490: A read of the low word of a 64-bit pair captures the high word for that port. -/
  | pairLowRead (q : Requester) (a : BitVec 24)
  /-- R490: A write of the high word of an RW pair puts the pair's new value in force. -/
  | pairHighWrite (q : Requester) (a : BitVec 24) (v : Word)
  /-- R16: A read of an RC register returns its value and clears it, keeping a same-cycle hardware set. -/
  | readClearAccess (q : Requester) (a : BitVec 24)
  /-- R486: A CSR write to a register without its own row is performed by its access code, or discarded and counted. -/
  | csrWrite (q : Requester) (a : BitVec 24) (v : Word)
  /-- R495: A device event sets its IPEND bit in every routed tile and in the SC. -/
  | deviceEvent (v : BitVec 8)
  /-- R429: PMIC_WARN deasserts, which starts the 10 ms after which its budget lowering ends. -/
  | pmicWarnFall
  /-- R349: The PHY link of an Ethernet port goes up or down, changing ETH[m].STAT.LINK. -/
  | ethLinkChange (m : Fin 4) (up : Bool) (speed : BitVec 2)
  /-- R356: A CAN controller's error counters move it between error active and error passive, setting PASSIVE_SEEN. -/
  | canErrorStateChange (c : Fin 2) (tec : BitVec 8) (recv : BitVec 8)
  /-- R327: A ring in RESETTING finishes its reset and ends in DISABLED within 100 µs. -/
  | ringResetComplete (r : Fin 56)
  /-- R432: A PLL_B or PLL_C that left its window relocks and PLL_STAT shows it locked again. -/
  | pllRelock (src : Fin 2)
  /-- R317: On the host router's request the USB4 link enters or leaves CL0s, CL1 or CL2, changing LINK_STAT.CL. -/
  | usb4ClStateRequest (cl : BitVec 2)
  /-- R319: A configuration request through the tunnel reads or writes the type 0 header and capabilities, including BAR placement and MSI-X enable. -/
  | pcieConfigAccess (a : CfgAccess)
  /-- R510: A target holds SCL low for more than 35 ms, so the transfer ends with a bus error followed by nine clocks and a stop. -/
  | i2cClockStretchTimeout (c : Fin 4) (q : Requester) (bs : List Byte)
  /-- R41: An I²C or SPI transfer started by the controller's owner finishes, and the controller reports its result. -/
  | serialTransferComplete (c : Fin 56) (q : Requester) (x : SerialAccess)
  deriving DecidableEq, Repr

end Sys2Proof
end

