-- ==== Sys2Proof/Decode.lean ====
section
/-! DEFINITION. The operation that a 64-bit word spells (R73, R74, R78, R112, R114, R125, R161, R177 to R179, R201), and the command that a
table word spells.  No row of the opcode table gives bits: a command comes from outside as a whole, so no table word spells one. -/

namespace Sys2Proof

/-- SLOT, bits [62:60] (Table 3-1). -/
def wordSlot (x : DWord) : Nat := Machine.bitsOf x.toNat 62 60
/-- OPC, bits [54:48]. -/
def wordOpc (x : DWord) : Nat := Machine.bitsOf x.toNat 54 48

/-- The fields of an operation word (Tables 3-1 and 3-3): slots M1 and V1 are the second of their unit, and only an M slot has a width. -/
def opWordOf (x : DWord) : OpWord :=
  { stop := x.getLsbD 63, second := decide (wordSlot x = 1) || decide (wordSlot x = 5)
    ge := x.getLsbD 59, gn := x.getLsbD 58, gp := x.extractLsb' 55 3
    w := if wordSlot x ≤ 1 then x.extractLsb' 48 2 else 0, body := x.extractLsb' 0 48 }

/-- The functions of FUN by code (Table 7-2). -/
def decodeFun (u : UnitIx) (w : OpWord) (code : Nat) : Option Instr :=
  match code with
  | 0x00 => some (.fneg u w)
  | 0x01 => some (.fabs u w)
  | 0x02 => some (.fcvtDS u w)
  | 0x03 => some (.fcvtSD u w)
  | 0x04 => some (.fcvtHS u w)
  | 0x05 => some (.fcvtSH u w)
  | 0x06 => some (.fcvtI32S u w)
  | 0x07 => some (.fcvtI32D u w)
  | 0x08 => some (.fcvtI64D u w)
  | 0x09 => some (.fcvtSI32 u w)
  | 0x0A => some (.fcvtDI32 u w)
  | 0x0B => some (.fcvtDI64 u w)
  | 0x0C => some (.fcvtQ31S u w)
  | 0x0D => some (.fcvtSQ31 u w)
  | _ => none

/-- The M unit by OP (Tables 4-6 and 7-1); OP 0x17 is told apart by the width. -/
def decodeM (u : UnitIx) (w : OpWord) (op : Nat) : Option Instr :=
  match op with
  | 0x00 => some (.sext u w)
  | 0x01 => some (.zext u w)
  | 0x02 => some (.mov u w)
  | 0x03 => some (.add u w)
  | 0x04 => some (.sub u w)
  | 0x05 => some (.adds u w)
  | 0x06 => some (.subs u w)
  | 0x07 => some (.neg u w)
  | 0x08 => some (.abss u w)
  | 0x09 => some (.and u w)
  | 0x0A => some (.or u w)
  | 0x0B => some (.xor u w)
  | 0x0C => some (.andn u w)
  | 0x0D => some (.shl u w)
  | 0x0E => some (.shr u w)
  | 0x0F => some (.sar u w)
  | 0x10 => some (.shls u w)
  | 0x11 => some (.min u w)
  | 0x12 => some (.max u w)
  | 0x13 => some (.minu u w)
  | 0x14 => some (.maxu u w)
  | 0x15 => some (.cmp u w)
  | 0x16 => some (.plog u w)
  | 0x17 => if w.w = 2 then some (.macq15 u w) else some (.mulq15 u w)
  | 0x18 => some (.rndq u w)
  | 0x19 => some (.fadd u w)
  | 0x1A => some (.fsub u w)
  | 0x1B => some (.fmul u w)
  | 0x1C => some (.fma u w)
  | 0x1D => some (.fnms u w)
  | 0x1E => some (.fcmp u w)
  | 0x1F => decodeFun u w (Machine.bitsOf w.body.toNat 5 0)
  | _ => none

/-- The A unit by OPC (Table 4-5). -/
def decodeA (u : UnitIx) (w : OpWord) (opc : Nat) : Option Instr :=
  match opc with
  | 0x00 => some (.amovi u w)
  | 0x01 => some (.amovx u w)
  | 0x02 => some (.amov u w)
  | 0x03 => some (.aaddi u w)
  | 0x04 => some (.aadd u w)
  | 0x05 => some (.asub u w)
  | 0x06 => some (.ashli u w)
  | 0x07 => some (.aaddx u w)
  | 0x08 => some (.aget u w)
  | 0x09 => some (.aput u w)
  | _ => none

/-- The X slot by OPC (R80, R179). -/
def decodeX (u : UnitIx) (w : OpWord) (opc : Nat) : Option Instr :=
  match opc with
  | 0x00 => some (.ext u w)
  | 0x01 => some (.fmovD u w)
  | 0x02 => some (.fmovS u w)
  | _ => none

/-- The V unit by OPC (Table 6-5). -/
def decodeV (u : UnitIx) (w : OpWord) (opc : Nat) : Option Instr :=
  match opc with
  | 0x00 => some (.setvl u w)
  | 0x01 => some (.vmov u w)
  | 0x02 => some (.vid u w)
  | 0x03 => some (.vadd u w)
  | 0x04 => some (.vsub u w)
  | 0x05 => some (.vadds u w)
  | 0x06 => some (.vsubs u w)
  | 0x07 => some (.vand u w)
  | 0x08 => some (.vor u w)
  | 0x09 => some (.vxor u w)
  | 0x0A => some (.vshl u w)
  | 0x0B => some (.vshr u w)
  | 0x0C => some (.vsar u w)
  | 0x0D => some (.vmin u w)
  | 0x0E => some (.vmax u w)
  | 0x0F => some (.vmulq15 u w)
  | 0x10 => some (.vcmp u w)
  | 0x11 => some (.vmerge u w)
  | 0x20 => some (.vfadd u w)
  | 0x21 => some (.vfsub u w)
  | 0x22 => some (.vfmul u w)
  | 0x23 => some (.vfma u w)
  | 0x24 => some (.vfnms u w)
  | 0x25 => some (.vfmin u w)
  | 0x26 => some (.vfmax u w)
  | 0x27 => some (.vfcmp u w)
  | 0x28 => some (.vfcvt u w)
  | 0x30 => some (.vld u w)
  | 0x31 => some (.vst u w)
  | _ => none

/-- Slot L by OPC (Table 5-1). -/
def decodeL (u : UnitIx) (w : OpWord) (opc : Nat) : Option Instr :=
  match opc with
  | 0x01 => some (.join u w)
  | 0x02 => some (.joinany u w)
  | 0x03 => some (.retry u w)
  | 0x04 => some (.trel u w)
  | 0x05 => some (.tdone u w)
  | 0x08 => some (.fld u w)
  | 0x09 => some (.fst u w)
  | 0x0C => some (.spore u w)
  | 0x0D => some (.semacq u w)
  | 0x0E => some (.semrel u w)
  | 0x0F => some (.cesub u w)
  | 0x10 => some (.mulS32 u w)
  | 0x11 => some (.mulU32 u w)
  | 0x12 => some (.mull64 u w)
  | 0x13 => some (.mulhS64 u w)
  | 0x14 => some (.mulhU64 u w)
  | 0x15 => some (.mulq31 u w)
  | 0x18 => some (.divS32 u w)
  | 0x19 => some (.divU32 u w)
  | 0x1A => some (.divS64 u w)
  | 0x1B => some (.divU64 u w)
  | 0x20 => some (.fdivS u w)
  | 0x21 => some (.fdivD u w)
  | 0x22 => some (.fsqrtS u w)
  | 0x23 => some (.fsqrtD u w)
  | 0x28 => some (.biq u w)
  | 0x29 => some (.fft4 u w)
  | 0x2A => some (.cmac u w)
  | 0x2B => some (.nlms u w)
  | 0x30 => some (.gather u w)
  | 0x31 => some (.scatter u w)
  | 0x38 => some (.bmov u w)
  | 0x3C => some (.peak u w)
  | 0x3D => some (.rms u w)
  | _ => none

/-- Slot B by OPC (Table 8-1). -/
def decodeB (u : UnitIx) (w : OpWord) (opc : Nat) : Option Instr :=
  match opc with
  | 0x01 => some (.nop u w)
  | 0x02 => some (.br u w)
  | 0x03 => some (.brx u w)
  | 0x04 => some (.bra u w)
  | 0x05 => some (.call u w)
  | 0x06 => some (.calla u w)
  | 0x07 => some (.ret u w)
  | 0x08 => some (.loop u w)
  | 0x09 => some (.rep u w)
  | 0x0A => some (.done u w)
  | 0x0B => some (.nap u w)
  | 0x0C => some (.fbar u w)
  | 0x0D => some (.ifence u w)
  | 0x0E => some (.pflush u w)
  | 0x0F => some (.pbar u w)
  | 0x10 => some (.mfsr u w)
  | 0x11 => some (.mtsr u w)
  | 0x12 => some (.reti u w)
  | _ => none

/-- The operation of a word: SLOT selects the unit (Table 3-2) and OPC its function.  A word whose OPC is not assigned stays a raw word. -/
def decodeOp (u : UnitIx) (x : DWord) : Instr :=
  let w := opWordOf x
  (match wordSlot x with
   | 0 => decodeM u w (wordOpc x / 4)
   | 1 => decodeM u w (wordOpc x / 4)
   | 2 => decodeA u w (wordOpc x)
   | 3 => decodeX u w (wordOpc x)
   | 4 => decodeV u w (wordOpc x)
   | 5 => decodeV u w (wordOpc x)
   | 6 => decodeL u w (wordOpc x)
   | _ => decodeB u w (wordOpc x)).getD (.macroTrap u x)

/-- The command that the low `nbits` bits of `w` spell; none, since the table gives no row bits. -/
def decodeTableWord (nbits w : Nat) : Option Instr :=
  match nbits, w with
  | _, _ => none

end Sys2Proof
end

