-- ==== Sys2Proof/Machine/Float.lean ====
section
/-! DEFINITION. Floating point: exact arithmetic on integers and one rounding (R174, R181 to R189). -/

namespace Sys2Proof.Machine

/-- A binary format: exponent and fraction widths. -/
structure Fmt where
  eb : Nat
  mb : Nat
  deriving DecidableEq, Repr

/-- binary16, binary32 and binary64 (R174). -/
def f16 : Fmt := { eb := 5, mb := 10 }
/-- binary32. -/
def f32 : Fmt := { eb := 8, mb := 23 }
/-- binary64. -/
def f64 : Fmt := { eb := 11, mb := 52 }

/-- The width of a format in bits. -/
def Fmt.width (f : Fmt) : Nat := f.eb + f.mb + 1
/-- The exponent bias. -/
def Fmt.bias (f : Fmt) : Nat := 2 ^ (f.eb - 1) - 1
/-- The default NaN (R184). -/
def Fmt.nan (f : Fmt) : Nat := (2 ^ f.eb - 1) * 2 ^ f.mb + 2 ^ (f.mb - 1)
/-- An infinity of a sign. -/
def Fmt.inf (f : Fmt) (s : Bool) : Nat := b2n s * 2 ^ (f.eb + f.mb) + (2 ^ f.eb - 1) * 2 ^ f.mb
/-- A zero of a sign. -/
def Fmt.zero (f : Fmt) (s : Bool) : Nat := b2n s * 2 ^ (f.eb + f.mb)
/-- The largest finite value with a sign. -/
def Fmt.maxFin (f : Fmt) (s : Bool) : Nat := f.inf s - 1

/-- Rounding mode, FTZ and DAZ (Table 7-3, R186). -/
structure FMode where
  rm  : Nat
  ftz : Bool
  daz : Bool
  deriving DecidableEq, Repr

/-- The mode bits of FCSR[20:16]. -/
def FMode.ofBits (x : BitVec 5) : FMode := { rm := x.toNat % 8, ftz := x.getLsbD 3, daz := x.getLsbD 4 }

/-- A result pattern with its flags in the bit order of FCSR[4:0]. -/
structure FRes where
  bits  : Nat
  flags : BitVec 5
  deriving DecidableEq, Repr

/-- Flag bits of FCSR (Table 7-6). -/
def fNX : BitVec 5 := 1
/-- Underflow. -/
def fUF : BitVec 5 := 2
/-- Overflow. -/
def fOF : BitVec 5 := 4
/-- Division by zero. -/
def fDZ : BitVec 5 := 8
/-- Invalid operation. -/
def fNV : BitVec 5 := 16

/-- A value read from a pattern: a NaN, an infinity, or sign and magnitude m × 2^e. -/
inductive FVal where
  | nan (signalling : Bool)
  | inf (s : Bool)
  | fin (s : Bool) (m : Nat) (e : Int)
  deriving DecidableEq, Repr

/-- Read a pattern, with DAZ reading a subnormal as a zero of its sign (R186). -/
def Fmt.read (f : Fmt) (daz : Bool) (x : Nat) : FVal :=
  let s := decide (bitsOf x (f.eb + f.mb) (f.eb + f.mb) = 1)
  let ex := bitsOf x (f.eb + f.mb - 1) f.mb
  let fr := x % 2 ^ f.mb
  if ex = 2 ^ f.eb - 1 then
    (if fr = 0 then .inf s else .nan (decide (fr < 2 ^ (f.mb - 1))))
  else if ex = 0 then .fin s (if daz then 0 else fr) (1 - (f.bias : Int) - f.mb)
  else .fin s (fr + 2 ^ f.mb) ((ex : Int) - f.bias - f.mb)

/-- Bit length of a number. -/
def bitLen (n : Nat) : Nat := if n = 0 then 0 else Nat.log2 n + 1

/-- Whether rounding away from zero is due: `n` kept, `rem` of `unit` lost, more lost below when `sticky` (Table 7-3). -/
def roundUp (rm : Nat) (s : Bool) (n rem unit : Nat) (sticky : Bool) : Bool :=
  let inexact := decide (rem ≠ 0) || sticky
  match rm with
  | 0 => decide (unit < 2 * rem) || (decide (2 * rem = unit) && (sticky || decide (n % 2 = 1)))
  | 1 => false
  | 2 => s && inexact
  | 3 => (!s) && inexact
  | _ => decide (unit ≤ 2 * rem) && inexact

/-- m × 2^e (and a little more when `sticky`) rounded to a multiple of 2^q: the multiple and whether it is inexact. -/
def roundAt (rm : Nat) (s : Bool) (m : Nat) (e : Int) (sticky : Bool) (q : Int) : Nat × Bool :=
  if q ≤ e then (m * 2 ^ (e - q).toNat + b2n (roundUp rm s 0 0 1 sticky), sticky)
  else
    let k := (q - e).toNat
    let n := m >>> k
    let rem := m % 2 ^ k
    (n + b2n (roundUp rm s n rem (2 ^ k) sticky), decide (rem ≠ 0) || sticky)

/-- The result of an overflow (R182, Table 7-4). -/
def Fmt.overflow (f : Fmt) (rm : Nat) (s : Bool) : FRes :=
  let toInf := match rm with | 0 => true | 1 => false | 2 => s | 3 => !s | _ => true
  { bits := if toInf then f.inf s else f.maxFin s, flags := fOF ||| fNX }

/-- A non-zero magnitude m × 2^e rounded into a format (R181 to R183, R186).  Tininess is detected after rounding. -/
def Fmt.round (f : Fmt) (md : FMode) (s : Bool) (m : Nat) (e : Int) (sticky : Bool) : FRes :=
  let p : Int := f.mb + 1
  let emin : Int := 1 - f.bias
  let q := e + bitLen m - p
  let un := roundAt md.rm s m e sticky q
  let tiny := if un.1 = 2 ^ (f.mb + 1) then decide (q + p < emin) else decide (q + p - 1 < emin)
  let qb := max q (emin - f.mb)
  let r := roundAt md.rm s m e sticky qb
  if tiny && md.ftz then { bits := f.zero s, flags := fUF ||| fNX }
  else
    let fl := (if r.2 then fNX else 0) ||| (if tiny && r.2 then fUF else 0)
    if r.1 < 2 ^ f.mb then { bits := f.zero s + r.1, flags := fl }
    else
      let n := if r.1 = 2 ^ (f.mb + 1) then 2 ^ f.mb else r.1
      let q2 := if r.1 = 2 ^ (f.mb + 1) then qb + 1 else qb
      let ex := q2 + f.mb + f.bias
      if (2 ^ f.eb - 1 : Int) ≤ ex then f.overflow md.rm s
      else { bits := f.zero s + ex.toNat * 2 ^ f.mb + (n - 2 ^ f.mb), flags := fl }

/-- The sign of an exact zero sum (R185). -/
def zeroSign (rm : Nat) : Bool := decide (rm = 2)

/-- The exact integer z × 2^e rounded; an exact zero has the sign given. -/
def Fmt.ofExact (f : Fmt) (md : FMode) (z : Int) (e : Int) (zs : Bool) : FRes :=
  if z = 0 then { bits := f.zero zs, flags := 0 }
  else f.round md (decide (z < 0)) z.natAbs e false

/-- NaN result, with NV when asked (R184). -/
def Fmt.nanRes (f : Fmt) (nv : Bool) : FRes := { bits := f.nan, flags := if nv then fNV else 0 }

/-- A signalling NaN operand (R184). -/
def FVal.isSnan : FVal → Bool
  | .nan b => b
  | _ => false

/-- A NaN operand. -/
def FVal.isNan : FVal → Bool
  | .nan _ => true
  | _ => false

/-- Signed integer of a sign and magnitude. -/
def sgn (s : Bool) (m : Nat) : Int := if s then -(m : Int) else (m : Int)

/-- The sum of two values read (R184, R185). -/
def Fmt.addVal (f : Fmt) (md : FMode) (x y : FVal) : FRes :=
  match x, y with
  | .nan a, .nan b => f.nanRes (a || b)
  | .nan a, _ => f.nanRes a
  | _, .nan b => f.nanRes b
  | .inf a, .inf b => if a = b then { bits := f.inf a, flags := 0 } else f.nanRes true
  | .inf a, .fin .. => { bits := f.inf a, flags := 0 }
  | .fin .., .inf b => { bits := f.inf b, flags := 0 }
  | .fin s m e, .fin s' m' e' =>
    let e0 := min e e'
    let z := sgn s (m * 2 ^ (e - e0).toNat) + sgn s' (m' * 2 ^ (e' - e0).toNat)
    f.ofExact md z e0 (if m = 0 ∧ m' = 0 ∧ s = s' then s else zeroSign md.rm)

/-- Flip the sign of a value. -/
def FVal.neg : FVal → FVal
  | .nan b => .nan b
  | .inf s => .inf (!s)
  | .fin s m e => .fin (!s) m e

/-- FADD (R177). -/
def Fmt.add (f : Fmt) (md : FMode) (x y : Nat) : FRes := f.addVal md (f.read md.daz x) (f.read md.daz y)

/-- FSUB (R177). -/
def Fmt.sub (f : Fmt) (md : FMode) (x y : Nat) : FRes := f.addVal md (f.read md.daz x) (f.read md.daz y).neg

/-- FMUL (R177). -/
def Fmt.mul (f : Fmt) (md : FMode) (x y : Nat) : FRes :=
  match f.read md.daz x, f.read md.daz y with
  | .nan a, .nan b => f.nanRes (a || b)
  | .nan a, _ => f.nanRes a
  | _, .nan b => f.nanRes b
  | .inf a, .inf b => { bits := f.inf (a != b), flags := 0 }
  | .inf a, .fin s m _ => if m = 0 then f.nanRes true else { bits := f.inf (a != s), flags := 0 }
  | .fin s m _, .inf b => if m = 0 then f.nanRes true else { bits := f.inf (s != b), flags := 0 }
  | .fin s m e, .fin s' m' e' =>
    if m = 0 ∨ m' = 0 then { bits := f.zero (s != s'), flags := 0 } else f.round md (s != s') (m * m') (e + e') false

/-- A product read exactly, or the NaN it gives; the flag says 0 × ∞. -/
def mulExact (x y : FVal) : FVal × Bool :=
  match x, y with
  | .nan a, .nan b => (.nan (a || b), false)
  | .nan a, _ => (.nan a, false)
  | _, .nan b => (.nan b, false)
  | .inf a, .inf b => (.inf (a != b), false)
  | .inf a, .fin s m _ => if m = 0 then (.nan false, true) else (.inf (a != s), false)
  | .fin s m _, .inf b => if m = 0 then (.nan false, true) else (.inf (s != b), false)
  | .fin s m e, .fin s' m' e' => (.fin (s != s') (m * m') (e + e'), false)

/-- x × y + z with one rounding; `np` negates the product (FMA and FNMS, R177). -/
def Fmt.fma (f : Fmt) (md : FMode) (np : Bool) (x y z : Nat) : FRes :=
  let vz := f.read md.daz z
  let pr := mulExact (f.read md.daz x) (f.read md.daz y)
  let prod := if np then pr.1.neg else pr.1
  if pr.2 then f.nanRes true else f.addVal md prod vz

/-- FDIV (R177, R184, R185). -/
def Fmt.div (f : Fmt) (md : FMode) (x y : Nat) : FRes :=
  match f.read md.daz x, f.read md.daz y with
  | .nan a, .nan b => f.nanRes (a || b)
  | .nan a, _ => f.nanRes a
  | _, .nan b => f.nanRes b
  | .inf _, .inf _ => f.nanRes true
  | .inf a, .fin s _ _ => { bits := f.inf (a != s), flags := 0 }
  | .fin s _ _, .inf b => { bits := f.zero (s != b), flags := 0 }
  | .fin s m e, .fin s' m' e' =>
    if m' = 0 then (if m = 0 then f.nanRes true else { bits := f.inf (s != s'), flags := fDZ })
    else if m = 0 then { bits := f.zero (s != s'), flags := 0 }
    else
      let k := f.mb + 4 + bitLen m'
      let n := m * 2 ^ k
      f.round md (s != s') (n / m') (e - e' - k) (decide (n % m' ≠ 0))

/-- The integer square root, by trial of `k` bits downwards from 2^(k-1). -/
def isqrtFrom (n : Nat) : Nat → Nat → Nat
  | 0, r => r
  | k + 1, r => isqrtFrom n k (if (r + 2 ^ k) * (r + 2 ^ k) ≤ n then r + 2 ^ k else r)

/-- The integer square root. -/
def isqrt (n : Nat) : Nat := isqrtFrom n (bitLen n / 2 + 1) 0

/-- FSQRT (R177, R184, R185). -/
def Fmt.sqrt (f : Fmt) (md : FMode) (x : Nat) : FRes :=
  match f.read md.daz x with
  | .nan a => f.nanRes a
  | .inf s => if s then f.nanRes true else { bits := f.inf false, flags := 0 }
  | .fin s m e =>
    if m = 0 then { bits := f.zero s, flags := 0 }
    else if s then f.nanRes true
    else
      let k := 2 * (f.mb + 4) + (e % 2).toNat
      let n := m * 2 ^ k
      let r := isqrt n
      f.round md false r ((e - k) / 2) (decide (r * r ≠ n))

/-- The order of two values read. -/
inductive FOrd where
  | lt | eq | gt | un
  deriving DecidableEq, Repr

/-- Compare exactly; zeros of either sign are equal (R188). -/
def fcompare (x y : FVal) : FOrd :=
  let ofInt := fun (z w : Int) => if z < w then FOrd.lt else if z = w then FOrd.eq else FOrd.gt
  match x, y with
  | .nan _, _ => .un
  | _, .nan _ => .un
  | .inf a, .inf b => ofInt (sgn a 1) (sgn b 1)
  | .inf a, .fin .. => if a then .lt else .gt
  | .fin .., .inf b => if b then .gt else .lt
  | .fin s m e, .fin s' m' e' =>
    let e0 := min e e'
    ofInt (sgn s (m * 2 ^ (e - e0).toNat)) (sgn s' (m' * 2 ^ (e' - e0).toNat))

/-- FCMP under COND of Table 7-5: the result and NV (R188). -/
def Fmt.cmp (f : Fmt) (md : FMode) (cond x y : Nat) : Bool × BitVec 5 :=
  let a := f.read md.daz x
  let b := f.read md.daz y
  let o := fcompare a b
  let nv := if 2 ≤ cond ∧ cond ≤ 5 then a.isNan || b.isNan else a.isSnan || b.isSnan
  let r := match cond with
    | 0 => decide (o = .eq)
    | 1 => decide (o ≠ .eq)
    | 2 => decide (o = .lt)
    | 3 => decide (o = .lt) || decide (o = .eq)
    | 4 => decide (o = .gt)
    | 5 => decide (o = .gt) || decide (o = .eq)
    | 6 => decide (o = .un)
    | _ => decide (o ≠ .un)
  (r, if nv then fNV else 0)

/-- A pattern as it is read: a subnormal under DAZ is a zero of its sign (R186). -/
def Fmt.asRead (f : Fmt) (daz : Bool) (x : Nat) : Nat :=
  match f.read daz x with
  | .fin s 0 _ => f.zero s
  | _ => x % 2 ^ f.width

/-- The sign of a pattern. -/
def Fmt.signOf (f : Fmt) (x : Nat) : Bool := decide (bitsOf x (f.eb + f.mb) (f.eb + f.mb) = 1)

/-- FTZ on a result that a selection gives (R186): a subnormal one becomes a zero of its sign, with UF and NX. -/
def Fmt.flushed (f : Fmt) (md : FMode) (r : FRes) : FRes :=
  let a := r.bits % 2 ^ (f.eb + f.mb)
  if md.ftz && decide (0 < a) && decide (a < 2 ^ f.mb) then { bits := f.zero (f.signOf r.bits), flags := r.flags ||| fUF ||| fNX }
  else r

/-- minimumNumber or maximumNumber (R189), under DAZ and FTZ (R186). -/
def Fmt.minMax (f : Fmt) (md : FMode) (mx : Bool) (x y : Nat) : FRes :=
  let a := f.read md.daz x
  let b := f.read md.daz y
  let fl := if a.isSnan || b.isSnan then fNV else (0 : BitVec 5)
  match a.isNan, b.isNan with
  | true, true => { bits := f.nan, flags := fl }
  | true, false => f.flushed md { bits := f.asRead md.daz y, flags := fl }
  | false, true => f.flushed md { bits := f.asRead md.daz x, flags := fl }
  | false, false =>
    let o := fcompare a b
    let xLess := decide (o = .lt) || (decide (o = .eq) && f.signOf x && !f.signOf y)
    f.flushed md { bits := if xLess != mx then f.asRead md.daz x else f.asRead md.daz y, flags := fl }

/-- Conversion between formats (Table 7-2). -/
def fcvt (src dst : Fmt) (md : FMode) (x : Nat) : FRes :=
  match src.read md.daz x with
  | .nan a => dst.nanRes a
  | .inf s => { bits := dst.inf s, flags := 0 }
  | .fin s m e => if m = 0 then { bits := dst.zero s, flags := 0 } else dst.round md s m e false

/-- m × 2^e rounded to an integer: the integer and whether it is inexact (R187). -/
def roundInt (rm : Nat) (s : Bool) (m : Nat) (e : Int) : Int × Bool :=
  let r := roundAt rm s m e false 0
  (sgn s r.1, r.2)

/-- Conversion to a w-bit integer: NaN and out-of-range values give the bound and NV (R187). -/
def Fmt.toIntW (f : Fmt) (md : FMode) (w x : Nat) : FRes :=
  let mx : Int := 2 ^ (w - 1) - 1
  let mn : Int := -(2 ^ (w - 1))
  match f.read md.daz x with
  | .nan _ => { bits := ofInt w mx, flags := fNV }
  | .inf s => { bits := ofInt w (if s then mn else mx), flags := fNV }
  | .fin s m e =>
    let r := roundInt md.rm s m e
    if mx < r.1 then { bits := ofInt w mx, flags := fNV }
    else if r.1 < mn then { bits := ofInt w mn, flags := fNV }
    else { bits := ofInt w r.1, flags := if r.2 then fNX else 0 }

/-- Conversion from a w-bit signed integer. -/
def Fmt.ofIntW (f : Fmt) (md : FMode) (w x : Nat) : FRes := f.ofExact md (toInt w x) 0 false

/-- FCVT.Q31.S: the result, whether it clamped, and the flags (R187). -/
def toQ31 (md : FMode) (x : Nat) : Nat × Bool × BitVec 5 :=
  match f32.read md.daz x with
  | .nan _ => (0, false, fNV)
  | .inf s => (if s then 0x80000000 else 0x7FFFFFFF, true, 0)
  | .fin s m e =>
    let r := roundInt md.rm s m (e + 31)
    if (0x7FFFFFFF : Int) < r.1 then (0x7FFFFFFF, true, 0)
    else if r.1 < (-0x80000000 : Int) then (0x80000000, true, 0)
    else (ofInt 32 r.1, false, if r.2 then fNX else 0)

/-- FCVT.S.Q31: the integer divided by 2^31 (R187). -/
def ofQ31 (md : FMode) (x : Nat) : FRes := f32.ofExact md (toInt 32 x) (-31) false

/-- An integer converted exactly to a format, as a small immediate is (R176). -/
def Fmt.ofSmall (f : Fmt) (z : Int) : Nat := (f.ofExact { rm := 0, ftz := false, daz := false } z 0 false).bits

end Sys2Proof.Machine
end

