-- ==== Sys2Proof/Config.lean ====
section
/-! DEFINITION. What an implementation fixes and the spec leaves open: opaque constants, with no body that a proof could see.
Each is named in the assumption log. -/

namespace Sys2Proof.Config

/-- The address at which a unit fetches the first frond of a BIST slice (R32), which the spec does not give. -/
opaque bistEntry : (unit : Nat) → BitVec 32

/-- BANK[n].ECC_SYND.RAW, which depends on the arrangement of check bits (R523). -/
opaque eccRaw : Nat → BitVec 8

/-- The contents of the macro-trap operand block: which bytes hold the opcode, the ticket, the formed addresses of DST, SRC1
and SRC2 and the values of SRC1 and SRC2 is not stated (R151). -/
opaque mtrapBlock : (opc tkt dst a1 a2 v1 v2 : Nat) → List Byte

/-- A microword of the ROM, less its SEQ, which R145 bounds by the address. -/
opaque rom : (addr : Nat) → BitVec 144

/-- The start address of a dispatch entry in the ROM's own dispatch table (R146). -/
opaque romStart : (index : Nat) → BitVec 13

/-- The local words a spare ROM routine at a start address reads for given operands. -/
opaque spareReads : (uaddr dst src1 src2 : Nat) → List Nat

/-- The bytes a spare ROM routine at a start address writes for given operands, whose microcode is not given (R145, R149). -/
opaque spareRoutine : (uaddr dst src1 src2 : Nat) → List (Nat × Byte)

/-- Byte offsets in the FFT4 parameter block: of N, of the stride q and of the twiddle step, not given (Table 5-8). -/
opaque fft4NOfs : Nat
/-- Offset of the stride q in the FFT4 parameter block. -/
opaque fft4QOfs : Nat
/-- Offset of the twiddle step in the FFT4 parameter block. -/
opaque fft4StepOfs : Nat
/-- The index of butterfly e at stride q. -/
opaque fft4Index : (elem q : Nat) → Nat
/-- The byte offsets in the twiddle table that butterfly e reads. -/
opaque fft4Twiddles : (elem q step : Nat) → List Nat
/-- The four outputs of a radix-4 butterfly, 32 bytes, from its four inputs and its twiddles: the order of its operations is not given. -/
opaque fft4Out : (mode : Nat) → (inputs twiddles : List Nat) → List Byte
/-- The floating-point flags of a radix-4 butterfly, FCSR[4:0]. -/
opaque fft4Flags : (mode : Nat) → (inputs twiddles : List Nat) → BitVec 5

/-- Byte offsets in the CMAC parameter block: of the count and of the vector b, not given (Table 5-8). -/
opaque cmacCountOfs : Nat
/-- Offset of the vector b in the CMAC parameter block. -/
opaque cmacVecOfs : Nat

/-- Byte offsets in the NLMS parameter block: of the count, of mu_err and of the index hist, not given (Table 5-8). -/
opaque nlmsCountOfs : Nat
/-- Offset of mu_err in the NLMS parameter block. -/
opaque nlmsMuOfs : Nat
/-- Offset of hist in the NLMS parameter block. -/
opaque nlmsHistOfs : Nat

/-- The 16 bytes that an engine keeps of a job: its active slot and the block at which that came into force (R271).  Their layout is not given. -/
opaque ceStateBytes : (slotB : Bool) → (block : Nat) → List (BitVec 8)
/-- The forward transform of a time-domain job: the packed spectrum, real and imaginary parts, of F samples (R270).  Its
sequence of operations and its twiddle table are not given. -/
opaque ceForward : (samples : List (BitVec 32)) → List (BitVec 32 × BitVec 32)
/-- The flags of that transform. -/
opaque ceForwardFlags : (samples : List (BitVec 32)) → BitVec 5
/-- The inverse transform of a time-domain job: the last Np samples, scaled by 1/F (R270). -/
opaque ceInverse : (spectrum : List (BitVec 32 × BitVec 32)) → List (BitVec 32)
/-- The flags of that transform. -/
opaque ceInverseFlags : (spectrum : List (BitVec 32 × BitVec 32)) → BitVec 5

/-- The PDM decimator (R299), whose coefficients are not given: its next state from profile and high-pass bits, state and the 64 bits of
a tick. -/
opaque pdmNext : (cfg state : Nat) → (bits : BitVec 64) → Nat
/-- The binary32 sample the PDM decimator gives. -/
opaque pdmOut : (cfg state : Nat) → (bits : BitVec 64) → BitVec 32

/-- What the fit L(h) = K h^n gives with no operating hour logged and a loss that is not 0 (R453, R462): the loss in 0.0001 ps predicted
for the next 64 hours, and the forecast in 0.01 year. -/
opaque ageGrowth0 : (loss : Nat) → Nat
/-- The forecast of that case. -/
opaque ageForecast0 : (loss : Nat) → (h : Int) → Nat

/-- The event code of a Lichen event: 0 a detected difference, 1 a masked one.  Chapter 15 leaves the codes to chapter 14, which gives
none. -/
opaque lichenEvent : (kind : Nat) → Nat

/-- CAN0.NBT for 500 kbit/s without calibration: the clock that the bit timing divides is not given (Tables 13-13 and 18-3). -/
opaque defaultNbt : BitVec 32
/-- The acceptance filters of CAN0 without calibration, 28 words: which of the 14 filters pass the UDS identifiers is not given. -/
opaque defaultFilters : List (BitVec 32)

/-- The bytes of a calibration copy that the device writes itself (R369, R475), whose layout is not given. -/
opaque calBytes : CalImage → List Byte

/-- A deviation in 0.1 dB as DEV holds it in 0.5 dB: the rounding is not stated (Table 13-7). -/
opaque devHalf : Int → Int

/-- HOST.USB_ID, whose idVendor and idProduct are not given (Table 12-11). -/
opaque usbId : BitVec 32

/-- The event code of a link loss (R345), which no table of event codes gives. -/
opaque linkLossCode : Nat

/-- What a read of a doorbell's location in BAR2 gives, which is not stated. -/
opaque doorbellRead : Nat → BitVec 32

/-- The bytes of a USB 2.0 answer that R347 does not place: 1 to 3 and 8 to 15, from the request's OP and the lifecycle. -/
opaque usbRest : (op lc : Nat) → List Byte

/-- The Vendor ID (R319). -/
opaque vendorId : BitVec 16

/-- Configuration space behind the header (Table 12-1): reset values, the bits a write changes, and the place of the MSI-X capability. -/
opaque cfgReset : (dw : Nat) → BitVec 32
/-- Bits of a configuration DWORD that a write changes. -/
opaque cfgMask : (dw : Nat) → BitVec 32
/-- The DWORD of the MSI-X capability whose upper half is its message control. -/
opaque msixCap : Nat
/-- What training sets in a lane's registers (Table 14-14). -/
opaque laneTrain : (lane ofs : Nat) → BitVec 32
/-- The health test of the TRNG has passed (TRNG_STAT): the spec does not say when. -/
opaque trngOk : Bool
/-- How the always-on loop moves at a steering step: down, not at all, or up (R431). -/
opaque aonMove : (sample : Nat) → Fin 3
/-- The gPTP time of time zero on a grandmaster: the spec gives no epoch (R352). -/
opaque gmEpoch : BitVec 64
/-- The DWORD whose bits [1:0] are the power state that the Power Management capability writes. -/
opaque pmCsr : Nat

/-- Contents of data identifiers that the spec does not give: the versions of 0xF180 and 0xF195, and those of others where what they report
does not exist (Table 13-5). -/
opaque didOpen : (did : Nat) → List Byte
/-- The bytes of a DTC's snapshot record: block number, junction temperature, battery voltage, supply state (R367). -/
opaque snapBytes : (block : DWord) → (tj mv : Word) → (st : Byte) → List Byte
/-- The bytes of a DTC's extended data record: occurrences, channel, slot or unit. -/
opaque extBytes : (occ unit : Nat) → List Byte
/-- The bytes of a DTC record in its MRAM partition, whose layout is not given (R367). -/
opaque dtcBytes : (dtc status : Nat) → (snapshot extended : List Byte) → List Byte
/-- What a DoIP vehicle identification response carries behind VIN, logical address and EID (R360). -/
opaque doipRest : List Byte

/-- The unit that a report injected by INJ_CTL stands against, by its event code (R422). -/
opaque injUnit : (code : Nat) → BitVec 8
/-- The detail of an injected report. -/
opaque injDetail : (code : Nat) → List (BitVec 32)

end Sys2Proof.Config
end

