-- ==== Sys2Proof/Machine/Sparse.lean ====
section
/-! DEFINITION. Sparse maps from natural-number keys: a list of (key, value) pairs with strictly rising keys that lists no
entry equal to the default.  Memory and the register file are kept so, and equal maps are then equal lists. -/

namespace Sys2Proof.Machine

/-- The value at key `k`: the listed one, or the default `d`. -/
def sget {α : Type} (d : α) : List (Nat × α) → Nat → α
  | [], _ => d
  | (k', v) :: r, k => if k = k' then v else sget d r k

/-- Put an entry in front, unless it equals the default. -/
def scons {α : Type} [DecidableEq α] (d : α) (k : Nat) (v : α) (r : List (Nat × α)) : List (Nat × α) :=
  if v = d then r else (k, v) :: r

/-- The map with value `v` at key `k`; a value equal to the default leaves no entry. -/
def sset {α : Type} [DecidableEq α] (d : α) : List (Nat × α) → Nat → α → List (Nat × α)
  | [], k, v => scons d k v []
  | (k', v') :: r, k, v =>
    if k < k' then scons d k v ((k', v') :: r)
    else if k = k' then scons d k v r
    else (k', v') :: sset d r k v

/-- Every key of the list is above `b`, the keys rise strictly, and no value is the default. -/
def swfFrom {α : Type} [DecidableEq α] (d : α) : Nat → List (Nat × α) → Bool
  | _, [] => true
  | b, (k, v) :: r => decide (b ≤ k) && decide (v ≠ d) && swfFrom d (k + 1) r

/-- The canonical form of a sparse map. -/
def swf {α : Type} [DecidableEq α] (d : α) (l : List (Nat × α)) : Bool := swfFrom d 0 l

end Sys2Proof.Machine
end

