-- ==== Sys2Proof/Machine/Parts/AudioState.lean ====
section
/-! DEFINITION. The state of the frame engine, the stream engine and the AVTP streams beside their registers (chapter 11). -/

namespace Sys2Proof.Machine

/-- One sample of a source in an input frame: binary32 value, validity and feedback status byte (R294 to R297). -/
structure InSample where
  val : Word
  ok  : Bool
  fb  : Byte
  deriving DecidableEq, Repr

/-- A TDM port: whether an input and an output frame have been seen in this tick interval, the tick of the last sync, and the tick
at which it stopped to restart in a new format (R294, R313). -/
structure PortState where
  inSeen  : Bool
  outSeen : Bool
  sync    : Nat
  stopped : Option Nat
  deriving DecidableEq, Repr

/-- A PDM channel (R299, R300): the decimator's own state (a value of the model's free functions), the bits in a row that are equal and
their value, the longest such row while not STUCK, the tick at which its clock started, and the tick of the first change of bit after
4,096 equal ones. -/
structure PdmState where
  filt   : Nat
  run    : Nat
  last   : Bool
  top    : Nat
  start  : Option Nat
  change : Option Nat
  deriving DecidableEq, Repr

/-- A listener stream (R311): samples held by half tick (2S − 1 and 2S are the first and second of tick S), the last sequence number,
the half tick that follows the previous PDU. -/
structure ListenState where
  held : List (Nat × List Word)
  seq  : Option Byte
  next : Option Nat
  /-- A LATE, SEQ or SLIP in the present block (Table 13-4). -/
  bad  : Bool
  deriving DecidableEq, Repr

/-- A talker stream (R310): the next sequence number, and the block and PDU within it that are sent next. -/
structure TalkState where
  seq : Byte
  blk : Nat
  pdu : Nat
  deriving DecidableEq, Repr

/-- A stream channel: the step that runs next on its present trigger, and the block at which a stopped one restarts (R302, R307). -/
structure ChanState where
  next    : Option Nat
  restart : Option Nat
  deriving DecidableEq, Repr

/-- Frame engine, stream engine and streams. -/
structure Audio where
  /-- The input frame being completed for the next tick, and the input frame of the present tick. -/
  next     : List (InSrc × InSample)
  cur      : List (InSrc × InSample)
  /-- Logical inputs with an invalid sample in the present input block, and the ORed feedback status (R297, R303). -/
  badIn    : List Nat
  fbOr     : List (Nat × Byte)
  /-- Output blocks being drained and being played, by logical output. -/
  draining : List (Nat × List Word)
  playing  : List (Nat × List Word)
  /-- The outputs of the last 256 ticks, newest first: tick and values by logical output (R313). -/
  played   : List (Nat × List (Nat × Word))
  ports    : Vector PortState 24
  chans    : Vector ChanState 96
  pdm      : Vector PdmState 32
  listen   : Vector ListenState 32
  talk     : Vector TalkState 32
  /-- Blocks in a row for the DTC conditions of Table 13-4: key and count. -/
  runs     : List (Nat × Nat)
  deriving DecidableEq, Repr

/-- A port at reset. -/
def PortState.reset : PortState := { inSeen := false, outSeen := false, sync := 0, stopped := none }

/-- Audio at reset. -/
def Audio.reset : Audio :=
  { next := [], cur := [], badIn := [], fbOr := [], draining := [], playing := [], played := []
    ports := Vector.replicate 24 PortState.reset
    chans := Vector.replicate 96 { next := none, restart := none }
    pdm := Vector.replicate 32 { filt := 0, run := 0, last := false, top := 0, start := none, change := none }
    listen := Vector.replicate 32 { held := [], seq := none, next := none, bad := false }
    talk := Vector.replicate 32 { seq := 0, blk := 0, pdu := 0 }, runs := [] }

end Sys2Proof.Machine
end

