-- ==== Sys2Proof/Machine/Parts/CeState.lean ====
section
/-! DEFINITION. The state of the convolution engines beside their banks and registers (chapter 10). -/

namespace Sys2Proof.Machine

/-- A submission in an engine's queue: submitter, the fabric operation it came by, the identity of the captured operation, job and
block (R273, R276). -/
structure CeEntry where
  unit  : UnitIx
  far   : Nat
  op    : Nat
  job   : Nat
  block : Nat
  deriving DecidableEq, Repr

/-- The phases of a running job (R278). -/
inductive CePhase where
  | start | input | accumulate | output
  deriving DecidableEq, Repr

/-- A running job: what it latched at its start (R278, R287) and what phase 3 computed. -/
structure CeRunning where
  ent   : CeEntry
  phase : CePhase
  /-- The 64 bytes of the job table entry. -/
  entry : List Byte
  /-- The slot used for OUT is B; the run is a crossfade (R283, R285). -/
  setB  : Bool
  xfade : Bool
  flags : BitVec 5
  /-- B and k0 of the plan in force when it was taken. -/
  b     : Nat
  k0    : Nat
  /-- The segment of the submission that phases 2 and 3 are at (R273). -/
  seg   : Nat
  /-- CTL.EN has been 0 since it was taken (R288). -/
  dead  : Bool
  /-- The results of the segments before that one, for the owner's bank: local address and bytes (log 17). -/
  outs  : List (Nat × List Byte)
  deriving DecidableEq, Repr

/-- A filter switch of a job (R284, R285): its block, whether the slot has changed, and the block of its crossfade run. -/
structure CeSwitch where
  job   : Nat
  block : Nat
  done  : Bool
  xblk  : Option Nat
  deriving DecidableEq, Repr

/-- One engine. -/
structure CeState where
  queue  : List CeEntry
  run    : Option CeRunning
  /-- CUR_JOB (Table 10-12). -/
  cur    : Nat
  /-- Jobs with slot B active (SETSEL). -/
  setB   : List Nat
  /-- Filter switches pending or whose crossfade block has not ended. -/
  pend   : List CeSwitch
  /-- What runs have latched: job, block, slot B, crossfade; RETRY latches the same (R279, R285). -/
  runs   : List (Nat × Nat × Bool × Bool)
  /-- Submissions served: job, block, submitter and operation (R273). -/
  served : List (Nat × Nat × Nat × Nat)
  deriving DecidableEq, Repr

/-- An idle engine. -/
def CeState.reset : CeState :=
  { queue := [], run := none, cur := 0, setB := [], pend := [], runs := [], served := [] }

end Sys2Proof.Machine
end

