-- ==== Sys2Proof/Machine/Parts/HostState.lean ====
section
/-! DEFINITION. The state of the host interface beside its registers (chapter 12): commands being accepted, changes that name a
block, event records that wait, host streams, MSI-X and the configuration space. -/

namespace Sys2Proof.Machine

/-- An event record (Table 12-8) without its PHASE, which follows from the index at which it is written. -/
structure HostRec where
  typ    : Nat
  status : Nat
  ring   : Nat
  tag    : Nat
  block  : DWord
  aseq   : Word
  info   : Word
  index  : Word
  deriving DecidableEq, Repr

/-- A command read from a ring (Table 12-5), with its ring and index, and the ASEQ once it has one. -/
structure HostCmd where
  ring  : Nat
  index : Word
  op    : Nat
  tag   : Nat
  block : DWord
  addr  : DWord
  len   : Nat
  arg0  : Word
  arg1  : Word
  arg2  : Word
  aseq  : Word
  /-- The bytes at ADDR, once host memory has given them (R331). -/
  data  : Option (List Byte)
  deriving DecidableEq, Repr

/-- What an accepted change does at its block (R260, R333, R339, R342). -/
inductive ChangeKind where
  | param (r : ParamRegion) (ofs : Nat) (bytes : List Byte)
  | filter (ce job slot : Nat)
  | switch (target : Plan)
  | streamOpen (ep ring : Nat)
  | streamClose (ep : Nat)
  deriving DecidableEq, Repr

/-- An accepted change.  `old` says that a later switch has taken its plan away (R286, R333). -/
structure Change where
  cmd   : HostCmd
  block : Nat
  kind  : ChangeKind
  old   : Bool
  deriving DecidableEq, Repr

/-- A stream descriptor in use (R339 to R341): index, tag, address, length in blocks, the first block and the counts. -/
structure StreamDesc where
  index  : Word
  tag    : Nat
  addr   : Nat
  blocks : Nat
  first  : Option Nat
  done   : Nat
  missed : Nat
  deriving DecidableEq, Repr

/-- An open host stream (R339 to R342). -/
structure HStream where
  ep     : HostEp
  ring   : Nat
  start  : Nat
  /-- The first block no longer served. -/
  stop   : Option Nat
  /-- No further completion is written for its ring (Table 12-10). -/
  quiet  : Bool
  /-- Descriptors read and not complete, oldest first. -/
  descs  : List StreamDesc
  /-- Blocks staged: for H2D fetched, for D2H drained and not yet written. -/
  staged : List (Nat × List Byte)
  /-- The next block to fetch (H2D). -/
  next   : Nat
  /-- The block that the next descriptor begins with. -/
  assign : Nat
  /-- Inside a run of missing or dropped blocks. -/
  inRun  : Bool
  deriving DecidableEq, Repr

/-- The host interface. -/
structure HostState where
  /-- The command read from each ring and not yet accepted or refused. -/
  cur      : List HostCmd
  /-- The command ring last served (R332). -/
  served   : Nat
  changes  : List Change
  /-- A LOAD_PLAN and a DIAG in the background (R332), with the mode of the load. -/
  load     : Option HostCmd
  diag     : Option HostCmd
  /-- Event records that wait, in the order in which they arose, each with its event ring. -/
  waiting  : List (Nat × HostRec)
  /-- Records dropped since the last EVENT_LOST notice of each event ring (R336). -/
  lost     : Vector Nat 8
  /-- The moderation interval of an event ring runs (R337). -/
  modOn    : Vector Bool 8
  streams  : List HStream
  /-- Command and stream rings whose CI has changed since it was last written back (R330, R338). -/
  wb       : List Nat
  /-- MSI-X table (4 words per vector), pending bits, enable and function mask. -/
  msix     : List (Nat × Word)
  pba      : BitVec 64
  msixEn   : Bool
  msixMask : Bool
  /-- Configuration space by DWORD address; unlisted DWORDs read as Table 12-1 and the standard give. -/
  cfg      : List (Nat × Word)
  /-- The LINK_RETURN notice is due at the first enabling of ER0 (R345). -/
  retDue   : Bool
  /-- A ring's stream descriptor read is under way: ring. -/
  descRd   : List Nat
  /-- The router answers from 120 ms, and USB4 has trained since time zero (R317, R346). -/
  trained  : Bool
  deriving DecidableEq, Repr

/-- The host interface at reset. -/
def HostState.reset : HostState :=
  { cur := [], served := 15, changes := [], load := none, diag := none, waiting := [], lost := Vector.replicate 8 0,
    modOn := Vector.replicate 8 false, streams := [], wb := [], msix := [], pba := 0, msixEn := false, msixMask := false, cfg := [],
    retDue := false, descRd := [], trained := false }

end Sys2Proof.Machine
end

