-- ==== Sys2Proof/Machine/Parts/NetState.lean ====
section
/-! DEFINITION. The state of the vehicle networks and the diagnostic server beside their registers (chapter 13). -/

namespace Sys2Proof.Machine

/-- The pending copy behind a vehicle-signal slot (R358, Table 13-2): value, raw bits, accepted frames, VALID, TIMEOUT and RANGE, and
whether it has changed since it was last published. -/
structure SlotCopy where
  val     : Word
  raw     : Word
  count   : BitVec 16
  valid   : Bool
  timeout : Bool
  range   : Bool
  changed : Bool
  deriving DecidableEq, Repr

/-- The reception of one signal-map entry: the alive-counter reference and the sample count of the last accepted frame (R357, R358). -/
structure SigRx where
  ref  : Option Nat
  last : Nat
  deriving DecidableEq, Repr

/-- A frame in an egress queue (R355): port, queue, VLAN of its tag (0 untagged), class (0 AVTP, 1 service core, 2 gPTP), length on the wire and
what it carries. -/
structure TxFrame where
  port : Nat
  q    : Nat
  vid  : Nat
  cls  : Nat
  len  : Nat
  what : Out
  deriving DecidableEq, Repr

/-- Time synchronisation of one port (R352, R353): the sample count from which a follower is not synchronised, and whether a Sync has come
in the present interval. -/
structure PtpState where
  lost : Nat
  seen : Bool
  /-- Sync intervals in a row with a Sync. -/
  good : Nat
  deriving DecidableEq, Repr

/-- The gate control list of one port: in force, and waiting for its change time (R355). -/
structure GateState where
  now  : Option EthSet
  next : Option EthSet
  deriving DecidableEq, Repr

/-- A UDS request in progress (R361): client, service, sub-function, routine, functional addressing, and the sample count of its last
answer. -/
structure UdsBusy where
  client : UdsClient
  sid    : Byte
  sub    : Byte
  par    : BitVec 16
  func   : Bool
  since  : Nat
  deriving DecidableEq, Repr

/-- A download (R365): target, announced length, the bytes staged and the next block counter. -/
structure Download where
  target : Nat
  len    : Nat
  got    : List Byte
  ctr    : Byte
  deriving DecidableEq, Repr

/-- An acoustic path test (R371 to R373): outputs still to be treated, entries of the result, first and last block, PLAN_ID, STATUS, whether
it runs, whether the host started it, and an abort that waits for the next output boundary. -/
structure PathTest where
  left   : List Nat
  done   : List (List Byte)
  blk0   : Nat
  blk1   : Nat
  planId : Word
  status : Nat
  run    : Bool
  host   : Bool
  stop   : Option Nat
  deriving DecidableEq, Repr

/-- Networks and diagnostics. -/
structure NetState where
  /-- The calibration in force (R475). -/
  cal      : Option CalImage
  slots    : List (Nat × SlotCopy)
  /-- Pending copies written on the PRIMARY of a pair within 2.0 µs of a block tick: they are published at the next one (R390). -/
  late     : List (Nat × SlotCopy)
  sig      : List (Nat × SigRx)
  /-- The vehicle moves (R359). -/
  moving   : Bool
  tx       : List TxFrame
  ptp      : Vector PtpState 4
  gates    : Vector GateState 4
  /-- Session 1 default, 2 programming, 3 extended, and the client that opened it. -/
  session  : Nat
  owner    : Option UdsClient
  /-- Levels 0x01 and 0x11 unlocked (R364). -/
  lvl01    : Bool
  lvl11    : Bool
  /-- A seed sent and not yet answered: level. -/
  seed     : Option Nat
  /-- The sample count at which the delay after three wrong keys ends. -/
  delay    : Nat
  /-- A certificate verified and not yet followed by proof of ownership: level of its role. -/
  cert     : Option Nat
  busy     : Option UdsBusy
  /-- Sample count of the last request of the session's owner (S3). -/
  lastReq  : Nat
  dl       : Option Download
  path     : Option PathTest
  /-- Results of routines 0xFE20, 0xFE21 and 0xFF01, once they have run. -/
  rtn      : List (Nat × List Byte)
  /-- The two TCP connections: port and source address once routing is active (R360). -/
  conns    : Vector (Option (Nat × BitVec 16)) 2
  deriving DecidableEq, Repr

/-- Networks at reset: the default session, no connection, nothing received.  DESIGN CHOICE (log 41): the vehicle counts as moving until
it has been found stationary. -/
def NetState.reset : NetState :=
  { cal := none, slots := [], late := [], sig := [], moving := true, tx := []
    ptp := Vector.replicate 4 { lost := 0, seen := false, good := 0 }
    gates := Vector.replicate 4 { now := none, next := none }
    session := 1, owner := none, lvl01 := false, lvl11 := false, seed := none, delay := 0, cert := none, busy := none, lastReq := 0
    dl := none, path := none, rtn := [], conns := Vector.replicate 2 none }

end Sys2Proof.Machine
end

