-- ==== Sys2Proof/Machine/Parts/LinkState.lean ====
section
/-! DEFINITION. The state of the Lichen pair beside its registers (chapter 14), and of the fabric and the memory controllers where they
hold work in progress (chapters 2, 18 and 19). -/

namespace Sys2Proof.Machine

/-- A comparison record of a block (R391): CRC_BLK and CRC_FL once complete. -/
structure PairRec where
  blk   : Nat
  crcB  : Option Word
  crcF  : Option Word
  deriving DecidableEq, Repr

/-- A partner-window access of this device that awaits its response (R50, R383): the flit's tag; the unit and the number of its far
operation, or for none the tag of the host's BAR4 request; whether it stores. -/
structure PartnerReq where
  tag  : Nat
  unit : Option UnitIx
  seq  : Nat
  wr   : Bool
  deriving DecidableEq, Repr

/-- A move of ownership that is due (R394): the sample count from which it may happen, outputs, whether this device takes them, whether
they are fast-lane outputs. -/
structure OwnMove where
  at_  : Nat
  outs : List Nat
  take : Bool
  fast : Bool
  deriving DecidableEq, Repr

/-- The pair. -/
structure Lichen where
  /-- Logical outputs that this device owns (R387). -/
  own      : List Nat
  recs     : List PairRec
  peerRecs : List PairRec
  /-- The peer's last STATE flit. -/
  peer     : Option PeerState
  /-- A drop notice of the peer: sample count at which it was received; and this device's own. -/
  peerDrop : Option Nat
  ownDrop  : Option Nat
  /-- The drop's mechanism was latent (Table 14-10). -/
  latent   : Bool
  moves    : List OwnMove
  /-- The dropping device drove shadowed fast-lane outputs, and the tick at which those have moved since (Table 14-9). -/
  dropFast  : Bool
  fastMoved : Option Nat
  /-- Ticks in a row without a sideband pulse, and without a STATE flit. -/
  sbGap    : Nat
  flGap    : Nat
  /-- A STATE flit since the last tick. -/
  flSeen   : Bool
  /-- A LK_SYNC pulse has been seen since time zero (R387). -/
  pulsed   : Bool
  /-- Sample counts of the replays in the last 1 ms (R384). -/
  replays  : List Nat
  /-- The next codeword expected, the last acknowledged by the peer and the next to send. -/
  rxSeq    : Byte
  txAck    : Byte
  txSeq    : Byte
  /-- A run of this codeword on is being replayed. -/
  nak      : Bool
  reqs     : List PartnerReq
  nextTag  : Nat
  /-- The journal of MIRROR data, and the block whose COMMIT has closed it (R396). -/
  journal  : List Mirror
  commit   : Option Nat
  /-- Mirrored output blocks of committed blocks, and the block at which the survivor plan takes over (R396). -/
  mirrored : List (Nat × Nat × List Word)
  surv     : Option Nat
  /-- The join block of a resync and whether this device is the receiving side (R398). -/
  join     : Option Nat
  recv     : Bool
  /-- INPUT_MISMATCH in the present block (R390). -/
  mismatch : Bool
  /-- Listener values forwarded for a tick. -/
  fwd      : List (Nat × Nat × List Word)
  /-- Sample count of the last move of ownership (R393). -/
  lastMove : Option Nat
  /-- On a PARTNER in a pair: the values it received itself, by slot. -/
  heard    : List (Nat × Word)
  deriving DecidableEq, Repr

/-- The pair at reset. -/
def Lichen.reset : Lichen :=
  { own := [], recs := [], peerRecs := [], peer := none, peerDrop := none, ownDrop := none, latent := false, moves := [], dropFast := false, fastMoved := none
    sbGap := 0, flGap := 0, flSeen := false, pulsed := false, replays := [], rxSeq := 0, txAck := 0, txSeq := 0, nak := false
    reqs := [], nextTag := 0, journal := [], commit := none, mirrored := [], surv := none, join := none, recv := false, mismatch := false
    fwd := [], lastMove := none, heard := [] }

/-- Who hears of the end of an image write: the host's LOAD_PLAN with its INFO, the USB 2.0 host with the bytes written, or a UDS client. -/
inductive ImageAnswer where
  | none
  | load (c : HostCmd) (info : Nat)
  | usb (n : Nat)
  | uds (b : UdsBusy) (bs : List Byte)
  deriving DecidableEq, Repr

/-- An image write (R473, R474): the image, its bytes, how many of them are written, and who waits for its end. -/
structure ImagePut where
  img  : NewImage
  bs   : List Byte
  next : Nat
  ans  : ImageAnswer
  deriving DecidableEq, Repr

/-- Fabric and memory controllers. -/
structure FabState where
  rows  : List RowXfer
  /-- Rows of which a write still to come has been withdrawn: row number and bank cycle (R53). -/
  marks : List (Nat × Nat)
  /-- High words captured by reads of the low word of a pair, and low words written, by port and address (R490). -/
  pairs : List (Nat × Nat × Word)
  /-- The MRAM command that runs: operation, offset, length and source (R483). -/
  mram  : Option (Nat × Nat × Nat × Nat)
  /-- The image writes, the one that runs first (R474). -/
  puts  : List ImagePut
  /-- Spores carried or returned to a full queue, oldest first: queue and bytes (R251, R253). -/
  spill : List (Nat × List Byte)
  /-- The codeword the scrub reads next (R419). -/
  scrub : Nat
  /-- The result of the last transfer of each I²C (0 to 3) and SPI (4 to 7) controller that has had one: whether it ended without a bus
  error, and the bytes received (R510). -/
  serial : List (Nat × Bool × List Byte)
  /-- The values of the 48 GPIO pins (R41). -/
  pins   : BitVec 48
  /-- An uncorrectable MRAM codeword has been met since reset, so MRAM_ERR_ADDR holds (Table 18-11). -/
  ueSeen : Bool
  deriving DecidableEq, Repr

/-- At reset. -/
def FabState.reset : FabState := { rows := [], marks := [], pairs := [], mram := none, puts := [], spill := [], scrub := 0, serial := [], pins := 0, ueSeen := false }

end Sys2Proof.Machine
end

