-- ==== Sys2Proof/Machine/Parts/SysState.lean ====
section
/-! DEFINITION. The state of the device as a whole: plan and block timing, images, events and DTCs, the hub, supply and
governor, ageing and security (chapters 9, 13 and 15 to 18), apart from what its registers hold. -/

namespace Sys2Proof.Machine

/-- An event record (Table 13-8) as the hub or the firmware makes it; it takes SEQ and BOOT when it is written (R374). -/
structure EventRec where
  block  : DWord
  code   : BitVec 16
  source : Byte
  sev    : Byte
  dtc    : BitVec 24
  detail : List Byte
  deriving DecidableEq, Repr

/-- A DTC record (R367): status byte, snapshot of the first failure, occurrences, the channel, slot or unit, the operating
cycles since the last failure, and whether the set condition was met in this cycle. -/
structure DtcRec where
  dtc       : BitVec 24
  status    : Byte
  snapBlock : DWord
  snapTj    : Word
  snapMv    : Word
  snapState : Byte
  occ       : Nat
  unit      : Nat
  cycles    : Nat
  failed    : Bool
  deriving DecidableEq, Repr

/-- The points of a switch window that have passed (Table 9-12). -/
inductive WinStage where
  | none | drain | start | roles | commit
  deriving DecidableEq, Repr

/-- A replace-mode load on its way (R265): the block at which the running plan stops, the image once verified, the tick at
which that was, and its completion: ring, tag, index, ASEQ. -/
structure Replace where
  block   : Nat
  plan    : Option Plan
  at_     : Nat
  stopped : Bool
  ring    : Nat
  tag     : Nat
  index   : Word
  aseq    : Word
  deriving DecidableEq, Repr

/-- Plans and block timing (chapter 9, R468, R472). -/
structure Sched where
  plan     : Option Plan
  /-- The running plan is the stored plan. -/
  stored   : Bool
  k0       : Nat
  /-- Targets loaded in switch mode, with the variant whose sections are in place (R264). -/
  loaded   : List (Plan × Tier)
  stage    : WinStage
  /-- SC_KICK has been written in this switch window (R416). -/
  kicked   : Bool
  /-- The stored plan is verified and waits for block ks (R468). -/
  ready    : Option Plan
  /-- Only the safety phase runs; the block kf at which the rest starts, none once it runs. -/
  kf       : Option Nat
  /-- PSEL of the fast-lane frame header, and its value from block n on (R242, R262). -/
  psel     : BitVec 8
  pselNext : BitVec 8
  /-- The plan that the window's 2.0 µs point puts in force (R264). -/
  target   : Option Plan
  /-- The running variant (R236, R237). -/
  variant  : Tier
  /-- The variant that an open switch window puts in force. -/
  nextVar  : Option Tier
  /-- A warm restart has been asked for (R472). -/
  warm     : Bool
  /-- The block from which the programming session holds (R363). -/
  prog     : Option Nat
  replace  : Option Replace
  /-- The cap tier that the plan tier has reached on its way to the governor's cap (R438). -/
  capTier  : Tier
  /-- A tier rise of the open window has its voltage (R426). -/
  riseOk   : Bool
  /-- The gPTP time of the last sample tick (R354). -/
  now      : DWord
  /-- Fast-lane tiles whose next wake is at the per-tick entry (R243). -/
  flStart  : List Nat
  deriving DecidableEq, Repr

/-- What the MRAM holds as images, as the spec's checks see them (R152, R469, R473, R475), and whether the stored-plan
partition or the patch slot has been written since time zero (R472). -/
structure Images where
  fwA     : Option FwImage
  fwB     : Option FwImage
  plan    : Option PlanImage
  calA    : Option CalImage
  calB    : Option CalImage
  patch   : Option PatchImage
  written : Bool
  deriving DecidableEq, Repr

/-- The safety monitor, the hub and the output gains (R400 to R416). -/
structure Safety where
  /-- Event records made and not yet written, oldest first. -/
  events   : List EventRec
  /-- SEQ and BOOT of the next record. -/
  nextSeq  : Word
  boot     : Word
  /-- The START record of this start has been written, so other records may follow (R374). -/
  logReady : Bool
  dtcs     : List DtcRec
  /-- ControlDTCSetting is off (R367). -/
  dtcOff   : Bool
  /-- R3 conditions that have been lost and not restored (R421). -/
  condLost : List Nat
  /-- Operating cycles counted (R368). -/
  cycles   : Nat
  /-- Banks with the operating hour in which a corrected error was last logged (Table 15-2). -/
  ceLogged : List (Nat × Nat)
  /-- S0 of a running or finished ramp to mute of the outputs that are not safety-class (R405), and of every output (R479). -/
  fall     : Option Nat
  fallAll  : Option Nat
  /-- S0 of the DEEP ramp (R443). -/
  fallDeep : Option Nat
  /-- S0 of the ramp of a replace-mode load (R265) and of parked standby (R433). -/
  fallStop : Option Nat
  /-- First tick of the block from whose outputs the gain rises (R468, R443, R409). -/
  rise     : Option Nat
  /-- Logical outputs invalid for the present block, and for the present tick (R246, R404). -/
  invalid  : List Nat
  invTick  : List Nat
  /-- Sample count of the last detected fault, while an automatic restart may follow (R409). -/
  lastDet  : Option Nat
  /-- Tasks whose copies have been exchanged (Table 15-3), tasks that run on one copy alone (R415), and the mismatches in a row. -/
  swapped  : List Nat
  alone    : List Nat
  streak   : List (Nat × Nat)
  /-- Safety-class outputs that take the mute ramp, after both copies of their task failed (Table 15-3). -/
  ramped   : List Nat
  /-- Units with a report since the last verdict (R412). -/
  selfDet  : List Nat
  /-- A device reset that waits for the end of the ramp: cause and sample count (R432). -/
  resetAt  : Option (Nat × Nat)
  /-- Once-per-cycle logging (R450) and the SAFE_STATE notice of the safe state (R409). -/
  sramLow  : List Nat
  noticed  : Bool
  deriving DecidableEq, Repr

/-- An unbooked request for leave (R437, R439). -/
structure LeaveReq where
  who   : LeaveHolder
  units : Nat
  /-- Withdrawn before: re-requested at the head of the queue. -/
  again : Bool
  deriving DecidableEq, Repr

/-- Supply, clocks and governor (chapter 16). -/
structure Power where
  /-- Samples in a row beyond each threshold: 955, 1,002, 546, 592, 2,549 and 2,457 (R440). -/
  runs     : Vector Nat 6
  /-- Sum and number of the codes since the last block tick (R442), and publications of the supply slot. -/
  sum      : Nat
  num      : Nat
  pubs     : Nat
  /-- PMIC_WARN's budget lowering lasts until 10 ms after its fall. -/
  warnPin  : Bool
  thermCap : Bool
  /-- The budget has held its value for 10 ms (R438). -/
  mayRise  : Bool
  /-- Sample count of the last change of the budget, and of the last fall of PMIC_WARN. -/
  budgetAt : Nat
  warnFall : Option Nat
  waiting  : List LeaveReq
  granted  : List LeaveReq
  /-- A step that waits for the tier changes it follows (R426), or for its code to be held. -/
  stepWant : Nat
  /-- The code driven has been held for 20 µs (R426). -/
  vidHeld  : Bool
  /-- The step before the change in progress: the last one held (R426). -/
  vidFrom  : Nat
  stbyMute : Bool
  /-- USB4, CAN and other activity keeps standby away (R433): sample count of the last. -/
  lastAct  : Nat
  inStby   : Bool
  deriving DecidableEq, Repr

/-- The margin planner (chapter 17). -/
structure Ageing where
  /-- Trigger of the re-plan that runs, and the highest trigger queued (R456, R459). -/
  running  : Option Nat
  queued   : Option Nat
  /-- Operating minutes at the last re-plan. -/
  lastOp   : Nat
  /-- The last replica slack per tile, as measured (R457). -/
  smin     : Vector Int 16
  /-- In-situ flags of the last 1 ms: tile and sample count. -/
  isd      : List (Nat × Nat)
  /-- Tick of the last back-off (R457). -/
  lastOff  : Option Nat
  /-- Highest Tj since the last margin record, signed 0.1 °C, and the newest SEQ. -/
  tjMax    : Int
  nextSeq  : Word
  /-- Samples in a row with Tj below the return limit of the band (R451), and below 130 °C (R445). -/
  coolRun  : Nat
  capRun   : Nat
  /-- The trigger of the plan that waits for its voltage (R458). -/
  putting  : Option Nat
  /-- Alarms raised and not yet acted on: tile, or 16 for the shared logic, and whether in-situ (R448). -/
  alarms   : List (Nat × Bool)
  /-- Excursion and alarm triggers that have fired and not yet started a re-plan (R456). -/
  trigs    : List Nat
  /-- Tiles whose tier a back-off has lowered by one, once each time (R457). -/
  lowered  : List Nat
  /-- Samples in a row with Tj above 140 °C (R456). -/
  hotRun   : Nat
  /-- VDD_AON has been lost: the counts resume from the newest margin record (R461). -/
  resume   : Bool
  /-- The characterisation fuses of T0 to T15 and of the shared logic (R449). -/
  fuses    : Vector CharFuse 17
  deriving DecidableEq, Repr

/-- The security block (chapter 18): words written, index of the key-slot word. -/
structure Security where
  token    : Vector Word 64
  resp     : Vector Word 32
  /-- The key-slot words being written (R480). -/
  slotBuf  : List Word
  /-- A lifecycle token accepted: its target (R479). -/
  tokTarget : Option Nat
  deriving DecidableEq, Repr

/-- The device: whether it has left reset, whether the thermal hold keeps it in reset, the LK_ROLE ball at time zero. -/
structure Device where
  up       : Bool
  hold     : Bool
  lkRole   : Bool
  sched    : Sched
  images   : Images
  safety   : Safety
  power    : Power
  age      : Ageing
  sec      : Security
  deriving DecidableEq, Repr

/-- The block timing at reset: no plan. -/
def Sched.reset : Sched :=
  { plan := none, stored := false, k0 := 0, loaded := [], stage := .none, kicked := false, ready := none, kf := none,
    psel := 0, pselNext := 0, target := none, variant := .c, nextVar := none, warm := false, prog := none, replace := none, capTier := .a, riseOk := true,
    now := 0, flStart := [] }

/-- DESIGN CHOICE (log 20): at the model's reset both firmware images are present and valid with SVN 0, A the newer; the user
partitions and the patch slot are empty. -/
def Images.reset : Images :=
  { fwA := some { sigOk := true, svn := 0, seq := 1 }, fwB := some { sigOk := true, svn := 0, seq := 0 }, plan := none,
    calA := none, calB := none, patch := none, written := false }

/-- The hub at reset: no event, gain 1. -/
def Safety.reset : Safety :=
  { events := [], nextSeq := 0, boot := 0, logReady := false, dtcs := [], dtcOff := false, condLost := [], cycles := 0, ceLogged := [], fall := none, fallAll := none,
    fallDeep := none, fallStop := none, rise := none, invalid := [], invTick := [], lastDet := none, swapped := [], alone := [],
    streak := [], ramped := [], selfDet := [], resetAt := none, sramLow := [], noticed := false }

/-- Supply and governor at reset. -/
def Power.reset : Power :=
  { runs := Vector.replicate 6 0, sum := 0, num := 0, pubs := 0, warnPin := false, thermCap := false, mayRise := true, budgetAt := 0, warnFall := none,
    waiting := [], granted := [], stepWant := 10, vidHeld := true, vidFrom := 10, stbyMute := false, lastAct := 0, inStby := false }

/-- The planner at reset: the boot margin plan. -/
def Ageing.reset : Ageing :=
  { running := none, queued := none, lastOp := 0, smin := Vector.replicate 16 0, isd := [],
    lastOff := none, tjMax := -640, nextSeq := 0, coolRun := 0, capRun := 0, putting := none, alarms := [], trigs := [], lowered := [], hotRun := 0,
    resume := false, fuses := Vector.replicate 17 { v := 0, t := 0, expN := 1, expD := 1 } }

/-- The security block at reset. -/
def Security.reset : Security :=
  { token := Vector.replicate 64 0, resp := Vector.replicate 32 0, slotBuf := [], tokTarget := none }

/-- The device in reset. -/
def Device.reset : Device :=
  { up := false, hold := false, lkRole := false, sched := Sched.reset, images := Images.reset, safety := Safety.reset,
    power := Power.reset, age := Ageing.reset, sec := Security.reset }

end Sys2Proof.Machine
end

