-- ==== Sys2Proof/Machine/Parts/TileState.lean ====
section
/-! DEFINITION. The state of one Igpijan unit (a tile or the service core): registers, pending results, front end, loops,
tickets, routine engines and far operations (chapters 3 to 9). -/

namespace Sys2Proof.Machine

/-- One result on its way to retirement (R86).  Addresses are local byte addresses of the unit's bank. -/
inductive Wr where
  /-- Bytes of the unit's own bank, lowest address first. -/
  | mem (a : Nat) (bs : List Byte)
  /-- Bits of a vector register under a mask; sets STATUS.VUSED (R226). -/
  | vec (r : BitVec 5) (mask val : VReg)
  /-- An a, m, cb or cl register: class and index of Table 4-4. -/
  | areg (cls : BitVec 2) (ix : BitVec 4) (v : Word)
  /-- A predicate. -/
  | pred (ix : BitVec 3) (v : Bool)
  /-- A system register write of MTSR (R216). -/
  | sreg (sr : BitVec 8) (v : Word)
  /-- CTL.PRED_OFF as it governs branches, which has a distance of its own (R91). -/
  | predOff (v : Bool)
  /-- VCFG from SETVL (R157). -/
  | vcfg (v : Word)
  /-- Sticky integer flags to be set (R119). -/
  | istat (f : Word)
  /-- Floating-point flags to be set; `trap` are those enabled at an L0 issue (R193), `l0` the count of L0 issue cycles
  at the issue, `pc` and `slot` what FTRAP_PC and FTRAP_INFO record. -/
  | fflags (f trap : BitVec 5) (l0 : Nat) (pc : Word) (slot : BitVec 3)
  /-- A loop set up by LOOP (R207). -/
  | loopSet (k : BitVec 2) (first last count : Word)
  /-- A vector store: register, address, byte mask; the data are read in cycle c+2 (R89). -/
  | vst (r : BitVec 5) (a : Nat) (bytes : BitVec 64) (data : Option VReg)
  /-- The completion that TDONE gives a ticket (R151). -/
  | tdone (t : TicketIx) (status : Byte)
  deriving DecidableEq, Repr

/-- A pending result: the issue cycle at whose end it retires, the issue cycle and slot of its operation. -/
structure Pend where
  retire : Nat
  issue  : Nat
  slot   : Nat
  w      : Wr
  deriving DecidableEq, Repr

/-- One zero-overhead loop (R207 to R211). -/
structure Loop where
  active   : Bool
  first    : Word
  last     : Word
  /-- The first pass has ended. -/
  passed   : Bool
  /-- The body is captured into the fiddlehead buffer, from which later passes run (R211); cleared by IFENCE and by an
  interrupt entry, until the next LOOP entry. -/
  captured : Bool
  deriving DecidableEq, Repr

/-- The REP in progress (R212 to R214). -/
structure RepState where
  active : Bool
  left   : BitVec 12
  k      : BitVec 2
  srcLc  : Bool
  held   : Option Word
  /-- The issue cycle of the REP, or of the return that resumed it: later writes to lcK are those of its frond. -/
  since  : Nat
  deriving DecidableEq, Repr

/-- The branch whose delay fronds remain (R96). -/
structure Branch where
  delay  : Nat
  taken  : Bool
  target : Word
  /-- Empty fronds before the target frond (Table 3-12). -/
  gap    : Nat
  /-- The delay fronds are acceptance points: the skip of a count-0 LOOP (R208). -/
  open_  : Bool
  deriving DecidableEq, Repr

/-- Where a ticketed result goes. -/
inductive Dest where
  | none
  | mem (a : Nat)
  | lane (r : BitVec 5) (l : Nat)
  deriving DecidableEq, Repr

/-- The captured operands of a ticketed operation (R135, R120, R139, R169, R519). -/
structure Job where
  opc    : BitVec 7
  level  : BitVec 2
  seq    : Nat
  /-- The destination, or the first local address of DST. -/
  dst    : Dest
  /-- Source values, or their local addresses for a block routine. -/
  src1   : DWord
  src2   : DWord
  /-- RM, FTZ and DAZ captured at issue, FCSR[20:16] (R181). -/
  fmode  : BitVec 5
  /-- GATHER and SCATTER: vl, SEW code, active elements, index register, data register, base, far base. -/
  vl     : Nat
  sew    : BitVec 2
  act    : BitVec 64
  vi     : VReg
  vd     : VReg
  vdReg  : BitVec 5
  far    : Bool
  /-- The BMOV descriptors once read (R519). -/
  descs  : Option (DWord × DWord)
  /-- The dispatch override start address, for a spare ROM routine (R149). -/
  spare  : Option (BitVec 13)
  /-- Redirected to a macro-trap: `dst`, `ga` and `loc` hold the formed addresses of DST, SRC1 and SRC2 (R151). -/
  trap   : Bool := false
  /-- Far operations: fabric address, length and local address. -/
  ga     : DWord
  len    : Nat
  loc    : Nat
  bytes  : List Byte
  deriving DecidableEq, Repr

/-- One ticket: its state, its record (R135, Table 5-5), its captured operands and its floating-point flags (R192). -/
structure Ticket where
  st      : TicketState
  pc      : Word
  status  : Byte
  opc     : BitVec 7
  pos     : BitVec 3
  level   : BitVec 2
  elem    : BitVec 16
  faddr   : BitVec 36
  fglobal : Bool
  fflags  : BitVec 5
  job     : Option Job
  deriving DecidableEq, Repr

/-- A routine on an engine, suspended on it, or in the queue (R142, R147). -/
structure Run where
  tkt     : TicketIx
  /-- The first element not completed. -/
  elem    : Nat
  /-- The wall cycle at whose end the next element lands. -/
  due     : Nat
  /-- The wall cycle in which it started on its engine. -/
  start   : Nat
  handler : Bool
  seq     : Nat
  /-- What the routine holds between its elements: the result that PEAK and RMS read in their set-up, the state that BIQ carries (R520). -/
  work    : Option (List Byte) := none
  /-- The status and data with which a far access of the next element has been answered (R134, R141). -/
  ans     : Option (Byte × List Byte) := none
  /-- The source bytes of a BMOV chunk whose write awaits its acknowledgement (R519). -/
  got     : Option (List Byte) := none
  /-- The routine has started and its set-up is still to be made. -/
  fresh   : Bool := false
  /-- It came through its resume entry (R146, R147). -/
  resumed : Bool := false
  deriving DecidableEq, Repr

/-- Where a far operation stands. -/
inductive FarPhase where
  /-- Refused at the tile's fabric port (R138): completes with this status. -/
  | port (status : Byte)
  /-- A far load held behind an overlapping buffered store (R141). -/
  | held
  /-- On its way to the target. -/
  | sent
  /-- In the queue of a convolution engine (R276). -/
  | queued
  /-- Performed at the target; the response with its status and data is on its way back. -/
  | done (status : Byte)
  deriving DecidableEq, Repr

/-- Kinds of ticketed fabric operations (R138, R250, R256, R276). -/
inductive FarKind where
  | fld | fst | spore | semacq | semrel | cesub
  deriving DecidableEq, Repr

/-- A fabric operation in flight.  `tkt` is none once TDONE has taken its ticket away (R151). -/
structure FarOp where
  tkt   : Option TicketIx
  seq   : Nat
  kind  : FarKind
  phase : FarPhase
  ga    : BitVec 36
  len   : Nat
  dst   : Dest
  /-- Store data, spore bytes, or the data of the response. -/
  data  : List Byte
  deriving DecidableEq, Repr

/-- An entry of the target buffer (R205). -/
structure Target where
  addr : Word
  cnt  : BitVec 2
  deriving DecidableEq, Repr

/-- A dispatch override (Table 5-12) and a field override (R149), as the 64-bit and 172-bit words of the patch
registers. -/
structure Patch where
  disp  : List DWord
  field : List (BitVec 13 × BitVec 15 × BitVec 144)
  deriving DecidableEq, Repr

/-- The event that woke a tile for an interrupt, and what arrived since (R230). -/
structure WakeRec where
  /-- The state the tile was woken from by an interrupt. -/
  from_ : Option TileMode
  /-- A wake event of that state that arrived while the handler ran. -/
  held  : Bool
  deriving DecidableEq, Repr

/-- What a BIST slice restores when it ends: the state it left and its program counter (R32, R418). -/
structure BistRec where
  mode : TileMode
  pc   : Word
  deriving DecidableEq, Repr

/-- One Igpijan unit. -/
structure Tile where
  mode      : TileMode
  /-- The clock tier in force and the tier that applies from the next wake (R30, R238). -/
  tier      : Tier
  nextTier  : Tier
  /-- Held in SLEEP by DEEP or by the safety phase (R32). -/
  heldOff   : Bool
  /-- Fenced by the safety hub (R407). -/
  fenced    : Bool
  /-- Stopped without entry by a double fault (R229). -/
  stopped   : Bool
  /-- A BIST slice runs on the tile; what it returns to (R32, R418). -/
  bist      : Option BistRec
  /-- The newest held block tick or fast-lane tick (R37, R246). -/
  heldTick  : Bool
  /-- A switch took the tile off the fast lane while it ran: its NAP ends in SLEEP (Table 9-12, log 32). -/
  offLane   : Bool
  /-- DONE has been executed in the present block (R37). -/
  doneInBlk : Bool
  /-- A wake is due: the tick at which SLEEP is left has passed and no frond has been issued since (R416). -/
  wakeDue   : Bool
  /-- A V operation has been issued without booked leave in this slice (GOV_UNBOOKED). -/
  vslice    : Bool
  wake      : WakeRec
  -- registers of Table 4-1
  a         : Vector Word 16
  m         : Vector Word 16
  cb        : Vector Word 8
  cl        : Vector Word 8
  p         : BitVec 8
  v         : Vector VReg 32
  lc        : Vector Word 4
  -- system registers (Table 8-4)
  status    : Word
  ctl       : Word
  isp       : Word
  ivbase    : Word
  istat     : Word
  fcsr      : Word
  vcfg      : Word
  vindex    : Word
  ftrapPc   : Word
  ftrapInfo : Word
  tktSplit  : Word
  trecSel   : Word
  trecSelCsr : Word
  mtrapBuf  : Word
  ien       : BitVec 256
  ipend     : BitVec 256
  ilvl      : BitVec 256
  evroute   : BitVec 192
  -- issue
  pc        : Word
  cycle     : Nat
  /-- Wall cycles: issue cycles and the cycles a JOIN or a halt holds. -/
  wall      : Nat
  /-- L0 issue cycles (R194). -/
  l0        : Nat
  frond     : List Instr
  waiting   : Bool
  pend      : List Pend
  br        : Branch
  loops     : Vector Loop 4
  /-- Active loops, the most recently entered first (R209). -/
  order     : List (BitVec 2)
  rep       : RepState
  /-- The next frond is skipped as the one empty frond of a REP of count 0 (R212). -/
  repSkip   : Bool
  targets   : List (BitVec 8 × Target)
  ras       : List Word
  /-- CTL.PRED_OFF as it governs branches (R91). -/
  predOff   : Bool
  /-- Entries of the target buffer as they stood before the changes of recent issue cycles, oldest first: the fronds fetched before a change are
  steered under them (R205, R206). -/
  steer     : List (Nat × BitVec 8 × Target)
  /-- The return-address stacks that recent PFLUSHes emptied, with their issue cycles, oldest first (R206). -/
  rasOld    : List (Nat × List Word)
  /-- The fiddlehead buffer: the fronds captured in a loop's first pass (R211). -/
  buffer    : List (Word × List Instr)
  -- tickets and long operations
  tkt       : Vector Ticket 32
  re        : Vector (Option Run) 2
  susp      : Vector (Option Run) 2
  /-- A handler operation waits for the engine's routine to be suspended (R147). -/
  suspFor   : Vector (Option Run) 2
  rqueue    : List Run
  far       : List FarOp
  opSeq     : Nat
  -- microcode patches
  ucodeLvl  : Word
  upatchIdx : Word
  patch     : Patch
  -- debug (R492)
  dbgCtl    : Word
  halted    : Bool
  stepping  : Bool
  bkpt      : Vector Word 4
  vsel      : Word
  trace     : List Word
  -- fast lane and spores (Table 9-7, Table 9-10)
  flCfg     : Word
  flStat    : Word
  flEntry   : Word
  flMissed  : Bool
  spqHead   : Word
  spqTail   : Word
  spqPub    : Word
  sporeSeq  : BitVec 16
  deriving DecidableEq, Repr

/-- A FREE ticket with an empty record (R126). -/
def Ticket.reset : Ticket :=
  { st := .free, pc := 0, status := 0, opc := 0, pos := 0, level := 0, elem := 0, faddr := 0, fglobal := false,
    fflags := 0, job := none }

/-- An inactive loop. -/
def Loop.reset : Loop :=
  { active := false, first := 0, last := 0, passed := false, captured := false }

/-- No REP in progress. -/
def RepState.reset : RepState := { active := false, left := 0, k := 0, srcLc := false, held := none, since := 0 }

/-- No branch in progress. -/
def Branch.reset : Branch := { delay := 0, taken := false, target := 0, gap := 0, open_ := false }

/-- A unit at reset: DARK (R521), every register at its reset value (R102, R133, R159, R190, R217, R220).
DESIGN CHOICE (log 4): v0-v31, lc0-lc3, the predictor and the trace hold zero, for which the spec states no reset value. -/
def Tile.reset : Tile :=
  { mode := .dark, tier := .c, nextTier := .c, heldOff := false, fenced := false, stopped := false, bist := none,
    heldTick := false, offLane := false, doneInBlk := false, wakeDue := false, vslice := false, wake := { from_ := none, held := false },
    a := Vector.replicate 16 0, m := Vector.replicate 16 0, cb := Vector.replicate 8 0, cl := Vector.replicate 8 0,
    p := 0, v := Vector.replicate 32 0, lc := Vector.replicate 4 0,
    status := 0, ctl := 1, isp := 0, ivbase := 0, istat := 0, fcsr := 0, vcfg := 0x200, vindex := 0,
    ftrapPc := 0, ftrapInfo := 0, tktSplit := 24, trecSel := 0, trecSelCsr := 0, mtrapBuf := 0,
    ien := 0x1FFFFFFFF, ipend := 0, ilvl := 0x1FFFFFFFF, evroute := 0,
    pc := 0, cycle := 0, wall := 0, l0 := 0, frond := [], waiting := false, pend := [], br := Branch.reset,
    loops := Vector.replicate 4 Loop.reset, order := [], rep := RepState.reset, repSkip := false,
    targets := [], ras := [], predOff := true, steer := [], rasOld := [], buffer := [],
    tkt := Vector.replicate 32 Ticket.reset, re := Vector.replicate 2 none, susp := Vector.replicate 2 none,
    suspFor := Vector.replicate 2 none, rqueue := [], far := [], opSeq := 0,
    ucodeLvl := 0, upatchIdx := 0, patch := { disp := [], field := [] },
    dbgCtl := 0, halted := false, stepping := false, bkpt := Vector.replicate 4 0, vsel := 0, trace := [],
    flCfg := 0, flStat := 0, flEntry := 0, flMissed := false,
    spqHead := 0, spqTail := 0, spqPub := 0, sporeSeq := 0 }

end Sys2Proof.Machine
end

