-- ==== Sys2Proof/Machine/State.lean ====
section
/-! DEFINITION. The state of the block: everything the spec gives the HNV-7200, as plain data. -/

namespace Sys2Proof.Machine

/-- The error mark of one 64-bit SRAM word (R62 to R65). -/
inductive EccMark where
  /-- A single-bit error at a bit position 0-71. -/
  | ce (pos : Nat)
  /-- Uncorrectable. -/
  | ue
  deriving DecidableEq, Repr

/-- The phase of a bank's background test (R66, R68). -/
inductive BmtPhase where
  | none | copy | test | restore | shadow
  deriving DecidableEq, Repr

/-- Background memory test of one bank (R66 to R68, R417). -/
structure BmtState where
  phase   : BmtPhase
  window  : Nat
  /-- Rows already copied (COPY) or restored (RESTORE). -/
  rows    : Nat
  /-- A window retired permanently to the shadow, after which the bank's test has stopped (R417). -/
  retired : Option Nat
  stopped : Bool
  deriving DecidableEq, Repr

/-- Reasons for a fault of the model. -/
inductive Fault where
  /-- Raised by no command. -/
  | unused
  deriving DecidableEq, Repr

/-- Reasons for a refusal. -/
inductive Refusal where
  /-- A command whose arm has no meaning yet. -/
  | notModelled (mnemonic : String)
  deriving DecidableEq, Repr

/-- The machine. -/
structure State where
  /-- The sample counter S (R29). -/
  sample  : BitVec 64
  /-- The block size B of the running plan, 0 with no plan (R265, Table 19-4). -/
  bsize   : Nat
  tiles   : Vector Tile 17
  /-- SRAM and MRAM bytes by fabric address, shadow arrays above them; unlisted bytes read zero. -/
  mem     : List Host.Cell
  /-- Error marks by the fabric address of the word. -/
  ecc     : List (Nat × EccMark)
  /-- Write-backs due, by the fabric address of the word (R63). -/
  wback   : List Nat
  bmt     : Vector BmtState 23
  /-- Codewords of the MRAM with bit errors: codeword number and number of wrong bits (R61). -/
  merr    : List (Nat × Nat)
  /-- Plain registers by CSR address; unlisted registers read zero. -/
  csr     : List (Nat × Word)
  /-- Reports raised by mechanisms and not yet received by the hub, oldest first (R400). -/
  reports : List Report
  dev     : Device
  host    : HostState
  ce      : Vector CeState 4
  aud     : Audio
  net     : NetState
  lk      : Lichen
  fab     : FabState
  /-- What the device has handed outside, newest first; never read. -/
  out     : List Out
  /-- The model's own counter of free values drawn. -/
  freeCtr : Nat
  /-- Commands that wait, first in first out. -/
  pending : List Instr
  deriving DecidableEq, Repr

/-- Registers whose reset value is not zero, by CSR address (Tables 11-12 to 11-14, 12-11, 13-11, 14-13, 15-7, 15-8, 16-12, 17-7,
17-9 to 17-11, 18-11, 19-2).  GOV_BUDGET is the 240 units of NORMAL (R441). -/
def resetCsr : List (Nat × Word) :=
  [(0x20600000, 0x00000040), (0x20600100, 0x00000040), (0x20600200, 0x00000040), (0x20600300, 0x00000040),
   (0x20680010, 0x00000003), (0x20680110, 0x00000003), (0x20700000, 0x00000001), (0x20800000, 0x00000001),
   (0x20900000, 0x00000001), (0x2090001C, 0x000000AA), (0x20900064, 0x000000F0), (0x20900100, 0x00000001)] ++
  [(0x20900124, 0x0010F28A), (0x20900128, 0x000AAAAA), (0x20900200, 0x2AAAAAAA), (0x20900204, 0x01000000),
   (0x20900210, 0x2AAAAAAA), (0x20900214, 0x01000000), (0x20900220, 0x2AAAAAAA), (0x20900224, 0x01000000),
   (0x20900230, 0x2AAAAAAA), (0x20900234, 0x01000000), (0x20900240, 0x2AAAAAAA), (0x20900244, 0x01000000)] ++
  [(0x20900250, 0x2AAAAAAA), (0x20900254, 0x01000000), (0x20900260, 0x2AAAAAAA), (0x20900264, 0x01000000),
   (0x20900270, 0x2AAAAAAA), (0x20900274, 0x01000000), (0x20900280, 0x2AAAAAAA), (0x20900284, 0x01000000),
   (0x20900290, 0x2AAAAAAA), (0x20900294, 0x01000000), (0x209002A0, 0x2AAAAAAA), (0x209002A4, 0x01000000)] ++
  [(0x209002B0, 0x2AAAAAAA), (0x209002B4, 0x01000000), (0x209002C0, 0x2AAAAAAA), (0x209002C4, 0x01000000),
   (0x209002D0, 0x2AAAAAAA), (0x209002D4, 0x01000000), (0x209002E0, 0x2AAAAAAA), (0x209002E4, 0x01000000),
   (0x209002F0, 0x2AAAAAAA), (0x209002F4, 0x01000000), (0x20A00000, 0x00000001), (0x20A00004, 0x0000FF00)] ++
  [(0x20B00000, 0x00000001), (0x20F00000, 0x48567204), (0x20F00004, 0x27200A3D), (0x20F00008, 0x00060410),
   (0x20F0000C, 0x0000D218)]

/-- The machine right after reset. -/
def State.reset : State :=
  { sample := 0, bsize := 0, tiles := Vector.replicate 17 Tile.reset, mem := [], ecc := [], wback := [],
    bmt := Vector.replicate 23 { phase := .none, window := 0, rows := 0, retired := none, stopped := false },
    merr := [], csr := resetCsr, reports := [], dev := Device.reset, host := HostState.reset, ce := Vector.replicate 4 CeState.reset, aud := Audio.reset,
    net := NetState.reset, lk := Lichen.reset, fab := FabState.reset, out := [], freeCtr := 0, pending := [] }

end Sys2Proof.Machine
end

