-- ==== Sys2Proof/Machine/Ops.lean ====
section
/-! DEFINITION. The named operations over registers, memory and the pending results of a unit, and the interrupt entry. -/

namespace Sys2Proof.Machine

/-! ## Plain registers -/

/-- The value of a plain register by its CSR address. -/
def State.reg (s : State) (a : Nat) : Word := sget 0 s.csr a

/-- Store a plain register. -/
def State.setReg (s : State) (a : Nat) (v : Word) : State := { s with csr := sset 0 s.csr a v }

/-- Apply a function to a plain register. -/
def State.modReg (s : State) (a : Nat) (f : Word → Word) : State := s.setReg a (f (s.reg a))

/-- Replace a field of a plain register. -/
def State.setRegFld (s : State) (a hi lo v : Nat) : State := s.modReg a fun x => setFld x hi lo v

/-- Set bits of a plain register. -/
def State.orReg (s : State) (a : Nat) (m : Word) : State := s.modReg a fun x => x ||| m

/-- A 32-bit counter register that saturates at 0xFFFF_FFFF. -/
def State.bump (s : State) (a : Nat) : State :=
  s.modReg a fun x => if x = 0xFFFFFFFF#32 then x else x + 1

/-- A mechanism reports to the hub (R400). -/
def State.report (s : State) (code unit : Nat) (detail : List Word) : State :=
  { s with reports := s.reports ++ [{ code := BitVec.ofNat 16 code, unit := BitVec.ofNat 8 unit, detail := detail }] }

/-- The current block number, S div B (R29); 0 with no block size. -/
def State.blk (s : State) : Nat := if s.bsize = 0 then 0 else s.sample.toNat / s.bsize

/-! ## Units -/

/-- A unit of the block. -/
def State.tile (s : State) (u : UnitIx) : Tile := s.tiles[u]

/-- Replace a unit. -/
def State.setTile (s : State) (u : UnitIx) (t : Tile) : State := { s with tiles := s.tiles.set u t }

/-- Apply a function to a unit. -/
def State.modTile (s : State) (u : UnitIx) (f : Tile → Tile) : State := s.setTile u (f (s.tile u))

/-- Read a register of a register file. -/
def rfGet {α : Type} {n : Nat} (d : α) (r : Vector α n) (i : Nat) : α := r.getD i d

/-- Write a register of a register file. -/
def rfSet {α : Type} {n : Nat} (r : Vector α n) (i : Nat) (x : α) : Vector α n := r.setIfInBounds i x

/-- Read an a, m, cb or cl register by class and index (Table 4-4). -/
def Tile.areg (t : Tile) (cls : BitVec 2) (ix : BitVec 4) : Word :=
  match cls.toNat with
  | 0 => rfGet 0 t.a ix.toNat
  | 1 => rfGet 0 t.m ix.toNat
  | 2 => rfGet 0 t.cb ix.toNat
  | _ => rfGet 0 t.cl ix.toNat

/-- Write an a, m, cb or cl register by class and index. -/
def Tile.setAreg (t : Tile) (cls : BitVec 2) (ix : BitVec 4) (x : Word) : Tile :=
  match cls.toNat with
  | 0 => { t with a := rfSet t.a ix.toNat x }
  | 1 => { t with m := rfSet t.m ix.toNat x }
  | 2 => { t with cb := rfSet t.cb ix.toNat x }
  | _ => { t with cl := rfSet t.cl ix.toNat x }

/-- Read a vector register. -/
def Tile.vreg (t : Tile) (r : BitVec 5) : VReg := rfGet 0 t.v r.toNat

/-- Write bits of a vector register; every such write sets STATUS.VUSED (R226). -/
def Tile.setVec (t : Tile) (r : BitVec 5) (mask val : VReg) : Tile :=
  { t with v := rfSet t.v r.toNat (blend (t.vreg r) mask val), status := t.status ||| 0x800 }

/-- The state of Table 1-5 that a tile is in, or returns to when its BIST slice ends. -/
def Tile.state (t : Tile) : TileMode := match t.bist with | some r => r.mode | none => t.mode
/-- A tile runs its own fronds, not those of a BIST slice. -/
def Tile.awake (t : Tile) : Bool := decide (t.mode = .run) && t.bist.isNone

/-- The current interrupt level, STATUS.LVL (Table 8-5). -/
def Tile.level (t : Tile) : Nat := fld t.status 13 12

/-- STATUS.DP (Table 8-5). -/
def Tile.dp (t : Tile) : Nat := fld t.status 8 0

/-! ## Memory -/

/-- The fabric address of the first byte of a bank (Table 2-1). -/
def bankBase (n : Nat) : Nat :=
  if n < 16 then n * 0x400000
  else if n = 16 then 0x04000000
  else if n < 21 then 0x08000000 + (n - 17) * 0x800000
  else if n = 21 then 0x0C000000
  else 0x0D000000

/-- The size of a bank in bytes (Table 2-1). -/
def bankSize (n : Nat) : Nat :=
  if n < 17 then 0x200000 else if n < 21 then 0x600000 else if n = 21 then 0x400000 else 0x200000

/-- The bank and bank offset of a fabric address, if it lies in a bank (Table 2-2). -/
def locate (a : Nat) : Option (Nat × Nat) :=
  if a < 0x04000000 then
    (if a % 0x400000 < 0x200000 then some (a / 0x400000, a % 0x400000) else none)
  else if a < 0x04200000 then some (16, a - 0x04000000)
  else if a < 0x08000000 then none
  else if a < 0x0A000000 then
    (if (a - 0x08000000) % 0x800000 < 0x600000 then
      some (17 + (a - 0x08000000) / 0x800000, (a - 0x08000000) % 0x800000) else none)
  else if a < 0x0C000000 then none
  else if a < 0x0C400000 then some (21, a - 0x0C000000)
  else if a < 0x0D000000 then none
  else if a < 0x0D200000 then some (22, a - 0x0D000000)
  else none

/-- The first byte of the MRAM read window (Table 2-2). -/
def mramBase : Nat := 0x10000000
/-- The size of the MRAM (R60). -/
def mramSize : Nat := 0x400000

/-- The key under which the model keeps a byte of a bank's shadow array (R44): above the 36-bit fabric space. -/
def shadowKey (n off : Nat) : Nat := 0x1000000000 + n * 0x1000 + off % 0x1000

/-- Background test of a bank. -/
def State.bmtOf (s : State) (n : Nat) : BmtState :=
  s.bmt.getD n { phase := .none, window := 0, rows := 0, retired := none, stopped := false }

/-- Where a read of a bank byte is served: the window or its shadow (R66, Table 2-8, R417). -/
def State.readKey (s : State) (a : Nat) : Nat :=
  match locate a with
  | none => a
  | some (n, off) =>
    if (s.bmtOf n).retired = some (off / 0x1000) then shadowKey n off
    else if (s.bmtOf n).window = off / 0x1000 ∧ ((s.bmtOf n).phase = .test ∨ (s.bmtOf n).phase = .restore) then shadowKey n off
    else a

/-- Where a write of a bank byte goes besides the key its reads are served from (R66, Table 2-8). -/
def State.alsoKey (s : State) (a : Nat) : Option Nat :=
  match locate a with
  | none => none
  | some (n, off) =>
    if (s.bmtOf n).retired = some (off / 0x1000) ∨ (s.bmtOf n).window ≠ off / 0x1000 then none
    else if (s.bmtOf n).phase = .copy ∧ off % 0x1000 / 64 < (s.bmtOf n).rows then some (shadowKey n off)
    else if (s.bmtOf n).phase = .restore ∧ off % 0x1000 / 64 < (s.bmtOf n).rows then some a
    else none

/-- The byte at a fabric address of a bank or of the MRAM, as its readers see it. -/
def State.byte (s : State) (a : Nat) : Byte := sget 0 s.mem (s.readKey a)

/-- Store one byte. -/
def State.setByte (s : State) (a : Nat) (b : Byte) : State :=
  match s.alsoKey a with
  | none => { s with mem := sset 0 s.mem (s.readKey a) b }
  | some k => { s with mem := sset 0 (sset 0 s.mem (s.readKey a) b) k b }

/-- `n` bytes from a fabric address, lowest first. -/
def State.bytes (s : State) (a n : Nat) : List Byte := (upFrom a n).map s.byte

/-- Store bytes from a fabric address on, lowest first. -/
def State.setBytes (s : State) : Nat → List Byte → State
  | _, [] => s
  | a, b :: r => State.setBytes (s.setByte a b) (a + 1) r

/-- A little-endian number of `n` bytes at a fabric address (R12). -/
def State.load (s : State) (a n : Nat) : Nat := leNat (s.bytes a n)

/-- Store a little-endian number of `n` bytes. -/
def State.store (s : State) (a n x : Nat) : State := s.setBytes a (leBytes n x)

/-- The canonical form of memory. -/
def Memory.wf (m : List Host.Cell) : Bool := swf (0 : Byte) m

/-! ## ECC in SRAM (R62 to R65, R72) -/

/-- The CSR address of a register of BANK[n] (R71). -/
def bankReg (n off : Nat) : Nat := 0x20300000 + n * 0x40 + off

/-- The mark of a word where it is stored. -/
def State.markAt (s : State) (key : Nat) : Option EccMark := (s.ecc.find? fun e => e.1 = key).map (·.2)

/-- The mark of the word that serves reads of an address. -/
def State.mark (s : State) (a : Nat) : Option EccMark := s.markAt (s.readKey (a / 8 * 8))

/-- Take away the mark of a word where it is stored. -/
def State.unmark (s : State) (key : Nat) : State := { s with ecc := s.ecc.filter fun e => e.1 ≠ key }

/-- Record an ECC error of the word at `a`, stored at `key`, in BANK[n]'s registers (R72, R523): count it, and capture the first of its kind.
RAW is implementation-specific, a free value (log 7). -/
def State.eccRecordAt (s : State) (a key : Nat) (m : EccMark) (source : Nat) : State :=
  match locate a with
  | none => s
  | some (n, off) =>
    let st := s.reg (bankReg n 0)
    let ue := m = .ue
    let inShadow := key ≠ a / 8 * 8
    let ce0 := fld st 0 0 = 1
    let ue0 := fld st 1 1 = 1
    let capture := (!ue0) && (ue || !ce0)
    let s1 := s.bump (bankReg n (if ue then 0x10 else 0x0C))
    let bit := if ue then (if ue0 then 3 else 1) else (if ce0 then 2 else 0)
    let s2 := s1.modReg (bankReg n 0) fun x => x ||| BitVec.ofNat 32 (2 ^ bit)
    let pos := match m with | .ce p => p | .ue => 0x7F
    if capture then
      ((({ s2 with freeCtr := s2.freeCtr + 1 }.modReg (bankReg n 0) fun x =>
            setFld (setFld x 14 8 (if inShadow then 0x7F else off / 0x10000)) 19 16 source)
        ).setReg (bankReg n 4) (BitVec.ofNat 32 ((if inShadow then off % 0x1000 else off) / 8 * 8))
        ).setReg (bankReg n 8) (setFld (BitVec.ofNat 32 (Config.eccRaw s2.freeCtr).toNat) 14 8 pos)
    else s2

/-- The same where the word's reads are served. -/
def State.eccRecord (s : State) (a : Nat) (m : EccMark) (source : Nat) : State := s.eccRecordAt a (s.readKey (a / 8 * 8)) m source

/-- A corrected error of a bank is reported to the hub (R400, Table 15-2). -/
def State.reportCe (s : State) (a : Nat) : State :=
  match locate a with
  | none => s
  | some (n, _) => s.report 0x0101 n [s.reg (bankReg n 0), s.reg (bankReg n 4)]

/-- One word is read: a single-bit error is corrected, counted and due for write-back (R63); an uncorrectable one is
recorded and reported (R64). -/
def State.eccRead (s : State) (a source : Nat) : State :=
  match s.mark a with
  | none => s
  | some (.ce p) =>
    let s1 := (s.eccRecord a (.ce p) source).reportCe a
    { s1 with wback := if s1.wback.contains (a / 8 * 8) then s1.wback else s1.wback ++ [a / 8 * 8] }
  | some .ue =>
    let s1 := s.eccRecord a .ue source
    match locate a with
    | none => s1
    | some (n, _) => s1.report 0x0102 n [s1.reg (bankReg n 0), s1.reg (bankReg n 4)]

/-- The word addresses that hold the bytes [a, a+n). -/
def wordsOf (a n : Nat) : List Nat :=
  if n = 0 then [] else (upFrom (a / 8) ((a + n - 1) / 8 - a / 8 + 1)).map (· * 8)

/-- Every word of a range is read by a requester (Table 2-12 SOURCE). -/
def State.eccReadRange (s : State) (a n source : Nat) : State :=
  (wordsOf a n).foldl (fun s w => s.eccRead w source) s

/-- Some word of the range is uncorrectable. -/
def State.hasUe (s : State) (a n : Nat) : Bool := (wordsOf a n).any fun w => s.mark w = some .ue

/-- The lowest word of the range that is uncorrectable. -/
def State.firstUe (s : State) (a n : Nat) : Option Nat := (wordsOf a n).find? fun w => s.mark w = some .ue

/-- The effect of a write to a word on its mark where it is stored (R62, R65): a full write clears the mark, a narrow one corrects a single-bit
error and leaves an uncorrectable word marked. -/
def State.eccMerge (s : State) (w key : Nat) (full : Bool) (source : Nat) : State :=
  match s.markAt key with
  | none => s
  | some (.ce p) => if full then s.unmark key else ((s.eccRecordAt w key (.ce p) source).reportCe w).unmark key
  | some .ue => if full then s.unmark key else s

/-- The effect of a write of bytes [a, a+n) on one word: a due write-back is cancelled (R63), and the marks where the word is stored follow, in the
window and in the shadow alike where it goes to both (R67). -/
def State.eccWriteWord (s : State) (w a n source : Nat) : State :=
  let full := decide (a ≤ w ∧ w + 8 ≤ a + n)
  let s1 := { s with wback := s.wback.filter (· ≠ w) }
  let s2 := s1.eccMerge w (s.readKey w) full source
  match s.alsoKey w with
  | some k => s2.eccMerge w k full source
  | none => s2

/-- A write of bytes to a bank by a requester: merged, with check bits kept (R62). -/
def State.memWrite (s : State) (a : Nat) (bs : List Byte) (source : Nat) : State :=
  ((wordsOf a bs.length).foldl (fun s w => s.eccWriteWord w a bs.length source) s).setBytes a bs

/-! ## The unit's own bank -/

/-- The fabric address of a local address of a unit (R48, Table 2-1). -/
def localBase (u : UnitIx) : Nat := bankBase u.val

/-- The end of the local range (R48). -/
def localTop : Nat := 0x200000

/-- A write by the unit to its own bank. -/
def State.localWrite (s : State) (u : UnitIx) (a : Nat) (bs : List Byte) : State :=
  s.memWrite (localBase u + a) bs 0

/-- A little-endian number of `n` bytes at a local address. -/
def State.localLoad (s : State) (u : UnitIx) (a n : Nat) : Nat := s.load (localBase u + a) n

/-! ## System registers -/

/-- The bits of a system register that MTSR may change (Tables 4-10, 5-13, 5-14, 6-3, 6-9, 7-6 to 7-8, 8-5 to 8-7). -/
def sregMask (sr : Nat) : Word :=
  match sr with
  | 0x00 => 0x00000FFF
  | 0x01 => 0x00000003
  | 0x02 => 0x003FFFC0
  | 0x03 => 0x001FF800
  | 0x04 => 0x00000007
  | 0x05 => 0x001F1F1F
  | 0x06 => 0x0000037F
  | 0x07 => 0x0000FFFF
  | 0x08 => 0xFFFFFFFF
  | 0x09 => 0x00021F07
  | 0x0A => 0x0000003F
  | 0x0B => 0x0000001F
  | 0x24 => 0x001FFFC0
  | _ => 0

/-- VLMAX of a SEW code (Table 6-1). -/
def vlMax (sew : Nat) : Nat := 512 / (8 * 2 ^ sew)

/-- A VCFG value with VL limited to VLMAX of its SEW (R159). -/
def clampVcfg (x : Word) : Word := setFld x 6 0 (min (fld x 6 0) (vlMax (fld x 9 8)))

/-- A 256-bit interrupt register with word `i` replaced. -/
def setWord256 (x : BitVec 256) (i : Nat) (v : Word) : BitVec 256 :=
  blend x (BitVec.ofNat 256 (0xFFFFFFFF * 2 ^ (32 * i))) (BitVec.ofNat 256 (v.toNat * 2 ^ (32 * i)))

/-- Word `i` of a wide register. -/
def word256 {n : Nat} (x : BitVec n) (i : Nat) : Word := BitVec.ofNat 32 (x.toNat >>> (32 * i))

/-- Bits 0-32 of IEN and ILVL read 1 and discard writes (R220). -/
def fixLow (x : BitVec 256) : BitVec 256 := x ||| 0x1FFFFFFFF

/-- The effect of a retiring MTSR write (R216): each register takes its writable fields.  CTL.PRED_OFF governs branches two cycles
later (R91). -/
def Tile.writeSreg (t : Tile) (sr : Nat) (v : Word) : Tile :=
  let m := sregMask sr
  match sr with
  | 0x00 => { t with status := blend t.status m v }
  | 0x01 => { t with ctl := blend t.ctl m v }
  | 0x02 => { t with isp := v &&& m }
  | 0x03 => { t with ivbase := v &&& m }
  | 0x04 => { t with istat := v &&& m }
  | 0x05 => { t with fcsr := if fld v 18 16 > 4 then blend t.fcsr 0x00181F1F v else v &&& m }
  | 0x06 => { t with vcfg := clampVcfg (v &&& m) }
  | 0x07 => { t with vindex := v &&& m }
  | 0x08 => { t with ftrapPc := v }
  | 0x09 => { t with ftrapInfo := blend t.ftrapInfo m v }
  | 0x0A => { t with tktSplit := if fld v 5 0 > 32 then 32 else v &&& m }
  | 0x0B => { t with trecSel := v &&& m }
  | 0x24 => { t with mtrapBuf := v &&& m }
  | 0x28 => { t with ipend := t.ipend ||| BitVec.ofNat 256 (fld v 3 0 * 2 ^ 34) }
  | _ =>
    if 0x10 ≤ sr ∧ sr ≤ 0x13 then { t with lc := rfSet t.lc (sr - 0x10) v }
    else if 0x30 ≤ sr ∧ sr ≤ 0x37 then { t with ien := fixLow (setWord256 t.ien (sr - 0x30) v) }
    else if 0x38 ≤ sr ∧ sr ≤ 0x3F then
      { t with ipend := t.ipend &&& ~~~(BitVec.ofNat 256 (v.toNat * 2 ^ (32 * (sr - 0x38)))) }
    else if 0x40 ≤ sr ∧ sr ≤ 0x47 then { t with ilvl := fixLow (setWord256 t.ilvl (sr - 0x40) v) }
    else t

end Sys2Proof.Machine
end

