-- ==== Sys2Proof/Machine/Tickets.lean ====
section
/-! DEFINITION. Tickets and routine engines: taking, completing and freeing tickets, the routine queue, suspension and abort
(R126 to R137, R142 to R148). -/

namespace Sys2Proof.Machine

/-- A ticket of a unit. -/
def Tile.ticket (t : Tile) (k : TicketIx) : Ticket := t.tkt[k]

/-- One word of a ticket's record (Table 5-5). -/
def Ticket.trec (x : Ticket) (i : Nat) : Word :=
  match i with
  | 0 => x.pc
  | 1 => BitVec.ofNat 32 (x.status.toNat + x.opc.toNat * 2 ^ 8 + x.pos.toNat * 2 ^ 16 + 6 * 2 ^ 19 + x.level.toNat * 2 ^ 22)
  | 2 => BitVec.ofNat 32 (x.elem.toNat + x.faddr.toNat / 2 ^ 32 * 2 ^ 16 + b2n x.fglobal * 2 ^ 20)
  | _ => BitVec.ofNat 32 x.faddr.toNat

/-- The record of the ticket that TREC_SEL selects. -/
def Tile.trecs (t : Tile) : List Word := (upFrom 0 4).map (t.ticket ⟨fld t.trecSel 4 0 % 32, Nat.mod_lt _ (by decide)⟩).trec

/-- Replace a ticket. -/
def Tile.setTicket (t : Tile) (k : TicketIx) (x : Ticket) : Tile := { t with tkt := t.tkt.set k x }

/-- HBASE, the first handler ticket (Table 5-14). -/
def Tile.hbase (t : Tile) : Nat := min 32 (fld t.tktSplit 5 0)

/-- The ticket with a number below 32. -/
def ticketIx (n : Nat) : TicketIx := ⟨n % 32, Nat.mod_lt _ (by decide)⟩

/-- Ticket numbers in ascending order. -/
def allTickets : List TicketIx := (upFrom 0 32).map ticketIx

/-- The lowest-numbered FREE ticket of the partition of the current level (R127). -/
def Tile.freeTicket (t : Tile) : Option TicketIx :=
  allTickets.find? fun k =>
    decide ((t.ticket k).st = .free) && (if t.level = 0 then decide (k.val < t.hbase) else decide (t.hbase ≤ k.val))

/-- A ticket is outstanding in every state except FREE (R126). -/
def Tile.outstanding (t : Tile) : Bool := allTickets.any fun k => decide ((t.ticket k).st ≠ .free)

/-- An operation takes a ticket: PENDING, with the record's issue part written (R135). -/
def Tile.take (t : Tile) (k : TicketIx) (pc : Word) (opc : BitVec 7) (pos : Nat) (job : Option Job) : Tile :=
  t.setTicket k { st := .pending, pc := pc, status := 0, opc := opc, pos := BitVec.ofNat 3 pos,
                  level := BitVec.ofNat 2 t.level, elem := 0, faddr := 0, fglobal := false, fflags := 0, job := job }

/-- A ticket leaves PENDING: DONE with status NORMAL, else FAILED, with ELEM and the faulting address (R126, R135).
A ticket that is not PENDING keeps its state. -/
def Tile.complete (t : Tile) (k : TicketIx) (status : Nat) (elem : Nat) (faddr : Nat) (glob : Bool) : Tile :=
  let x := t.ticket k
  if x.st = .pending then
    t.setTicket k { x with
      st := if status = 0 then .done else .failed, status := BitVec.ofNat 8 status, elem := BitVec.ofNat 16 elem,
      faddr := if status ≤ 1 then 0 else BitVec.ofNat 36 faddr, fglobal := decide (1 < status) && glob }
  else t

/-- A ticket returns to FREE (R126). -/
def Tile.free (t : Tile) (k : TicketIx) : Tile := t.setTicket k { t.ticket k with st := .free }

/-! ## Routine engines -/

/-- Set-up cycles and cycles per element of a routine (Tables 5-9, 4-11 to 4-13).  `mul` is the count of an IMUL or IDIV
form, which its operands fix (R122, R124). -/
def routineCost (opc : Nat) (mul : Nat) : Nat × Nat :=
  if opc < 0x20 then (0, mul)
  else if opc = 0x20 ∨ opc = 0x22 then (0, 14)
  else if opc = 0x21 ∨ opc = 0x23 then (0, 29)
  else if opc = 0x28 then (6, 2)
  else if opc = 0x29 then (6, 4)
  else if opc = 0x30 ∨ opc = 0x31 then (4, 2)
  else (4, 1)

/-- The smallest n from 1 to `m` such that the bits of the multiplier above the first n bytes are sign bits (R122). -/
def mulBytes (signed : Bool) (w x : Nat) : Nat :=
  let m := w / 8
  let ok := fun n =>
    if signed then decide (x >>> (8 * n - 1) = 0) || decide (x >>> (8 * n - 1) = 2 ^ (w + 1 - 8 * n) - 1)
    else decide (x >>> (8 * n) = 0)
  ((upFrom 1 m).find? ok).getD m

/-- Cycles of an IMUL or IDIV form (R122, R124). -/
def mulDivCycles (opc src2 : Nat) : Nat :=
  match opc with
  | 0x10 => 2 + mulBytes true 32 (src2 % 2 ^ 32)
  | 0x11 => 2 + mulBytes false 32 (src2 % 2 ^ 32)
  | 0x12 => 2 + mulBytes true 64 src2
  | 0x13 => 2 + mulBytes true 64 src2
  | 0x14 => 2 + mulBytes false 64 src2
  | 0x15 => 2 + mulBytes true 32 (src2 % 2 ^ 32)
  | 0x18 => if src2 % 2 ^ 32 = 0 then 2 else 34
  | 0x19 => if src2 % 2 ^ 32 = 0 then 2 else 34
  | _ => if src2 = 0 then 2 else 66

/-- The cost of a captured operation. -/
def Job.cost (j : Job) : Nat × Nat := routineCost j.opc.toNat (mulDivCycles j.opc.toNat j.src2.toNat)

/-- The cost of the operation under a ticket. -/
def Tile.costOf (t : Tile) (k : TicketIx) : Nat × Nat :=
  match (t.ticket k).job with
  | some j => j.cost
  | none => (0, 1)

/-- The two engines. -/
abbrev EngIx := Fin 2

/-- Start a routine on an engine in the current wall cycle: its next element lands S + E cycles on (R120, R147), and its set-up is to be made. -/
def Tile.startOn (t : Tile) (e : EngIx) (r : Run) : Tile :=
  let c := t.costOf r.tkt
  { t with re := t.re.set e (some { r with start := t.wall, due := t.wall + c.1 + c.2 - 1, work := none, fresh := true }) }

/-- A far access that carries a sequence number of the unit is answered: a far operation, or the next element of a routine. -/
def Tile.answer (t : Tile) (seq : Nat) (st : Byte) (bs : List Byte) : Tile :=
  let put := fun (o : Option Run) => o.map fun r => if r.seq = seq then { r with ans := some (st, bs) } else r
  { t with far := t.far.map fun (f : FarOp) => if f.seq = seq then { f with phase := .done st, data := if f.kind = .fst then f.data else padTo f.len bs } else f
           re := t.re.map put, susp := t.susp.map put }

/-- An engine on which nothing runs, is suspended or is due to start. -/
def Tile.engineFree (t : Tile) (e : EngIx) : Bool := decide (t.re[e] = none) && decide (t.susp[e] = none) && decide (t.suspFor[e] = none)

/-- The lower-numbered free engine. -/
def Tile.freeEngine (t : Tile) : Option EngIx :=
  if t.engineFree 0 then some 0 else if t.engineFree 1 then some 1 else none

/-- Whether the queue order places `a` ahead of `b`: handler level first, then issue order (R142). -/
def Run.ahead (a b : Run) : Bool := if a.handler = b.handler then decide (a.seq < b.seq) else a.handler

/-- Insert into the queue at the place the order gives. -/
def enqueue (r : Run) : List Run → List Run
  | [] => [r]
  | q :: rest => if q.ahead r then q :: enqueue r rest else r :: q :: rest

/-- The engine whose routine a handler operation suspends: of those with neither a suspended routine nor a suspension
under way, the one whose routine started later (R147).  DESIGN CHOICE (log 88): of two that started in one cycle, RE1's; a resumed routine counts as
started at its resumption. -/
def Tile.suspendEngine (t : Tile) : Option EngIx :=
  let can := fun (e : EngIx) => decide (t.susp[e] = none) && decide (t.suspFor[e] = none) && (t.re[e]).isSome
  let st : EngIx → Nat := fun e => match t.re[e] with | some r => r.start * 2 + e.val | none => 0
  if can 0 && can 1 then (if Nat.blt (st 0) (st 1) then some 1 else some 0)
  else if can 0 then some 0 else if can 1 then some 1 else none

/-- A routine operation enters the engines at issue or at RETRY, from element `elem` (R142, R147).  While it waits for a suspension, its `due`
holds the element that the routine to be suspended had reached.  DESIGN CHOICE (log 88): a retried operation has the level of the code that issues RETRY,
for the queue's order and for suspension. -/
def Tile.placeRoutine (t : Tile) (k : TicketIx) (elem : Nat) : Tile :=
  let r : Run := { tkt := k, elem := elem, due := 0, start := 0, handler := decide (1 ≤ t.level), seq := t.opSeq }
  let t1 := { t with opSeq := t.opSeq + 1 }
  let blocked := t.rqueue.any fun q => q.ahead r
  match t1.freeEngine with
  | some e => if blocked then { t1 with rqueue := enqueue r t1.rqueue } else t1.startOn e r
  | none =>
    if 2 ≤ t.level then
      match t1.suspendEngine with
      | some e => { t1 with suspFor := t1.suspFor.set e (some { r with due := match t1.re[e] with | some o => o.elem | none => 0 }) }
      | none => { t1 with rqueue := enqueue r t1.rqueue }
    else { t1 with rqueue := enqueue r t1.rqueue }

/-- The run of a ticket, wherever it stands. -/
def Tile.runOf (t : Tile) (k : TicketIx) : Option Run :=
  (t.re.toList ++ t.susp.toList ++ t.suspFor.toList ++ t.rqueue.map some).findSome? fun o =>
    match o with | some r => if r.tkt = k then some r else none | none => none

/-- Take a ticket's routine off the engines and the queue. -/
def Tile.dropRun (t : Tile) (k : TicketIx) : Tile :=
  let cut := fun (o : Option Run) => match o with | some r => if r.tkt = k then none else some r | none => none
  { t with re := t.re.map cut, susp := t.susp.map cut, suspFor := t.suspFor.map cut,
           rqueue := t.rqueue.filter fun r => r.tkt ≠ k }

/-- End a ticket's routine as an L3 acceptance does (R148): the ticket completes FAILED with ABORTED at its next element. -/
def Tile.abortRun (t : Tile) (k : TicketIx) : Tile :=
  match t.runOf k with
  | some r => (t.complete k 1 r.elem 0 false).dropRun k
  | none => t

/-- Abort every routine of the unit (R148). -/
def Tile.abortAll (t : Tile) : Tile := allTickets.foldl (fun t k => t.abortRun k) t

/-- TDONE completes a PENDING ticket with the status it gives; a routine under it is ended, a fabric operation goes on
without it (R151). -/
def Tile.tdone (t : Tile) (k : TicketIx) (status : Byte) : Tile :=
  if (t.ticket k).st = .pending then
    let t1 := t.dropRun k
    let t2 := { t1 with far := t1.far.map fun (f : FarOp) => if f.tkt = some k then { f with tkt := none } else f }
    let x := t2.ticket k
    let el := match t.runOf k with | some r => r.elem | none => x.elem.toNat
    t2.setTicket k { x with st := if status = 0 then .done else .failed, status := status, elem := BitVec.ofNat 16 el,
                            fflags := 0 }
  else t

end Sys2Proof.Machine
end

