-- ==== Sys2Proof/Machine/Front.lean ====
section
/-! DEFINITION. The front end: fronds in the bank and in the fiddlehead buffer, the predictor, and the fronds that are read and then discarded
(R63, R64, R75, R76, R97, R100, R202, R205, R206, R211). -/

namespace Sys2Proof.Machine

/-! ## Fronds in the bank and in the fiddlehead buffer -/

/-- An active loop whose range holds the address runs from the fiddlehead buffer (R211). -/
def Tile.runsBuffer (t : Tile) (a : Nat) : Bool :=
  decide (fld t.ctl 1 1 = 0) && t.loops.toList.any fun l =>
    l.active && l.captured && l.passed && decide (l.first.toNat ≤ a) && decide (a ≤ l.last.toNat)

/-- The frond that issues from the buffer at an address; none where the bank supplies it. -/
def Tile.fromBuffer (t : Tile) (a : Nat) : Option (List Instr) :=
  if t.runsBuffer a then (t.buffer.find? fun e => decide (e.1.toNat = a)).map (·.2) else none

/-- The frond at an address is captured: the body of a captured loop in its first pass (R211). -/
def Tile.captures (t : Tile) (a : Nat) : Bool :=
  t.loops.toList.any fun l => l.active && l.captured && !l.passed && decide (l.first.toNat ≤ a) && decide (a ≤ l.last.toNat)

/-- The length in bytes of the frond at a local address (R75): of its copy in the buffer, or by the stop bits of the bank's words, at most 64. -/
def frondLen (s : State) (u : UnitIx) (a : Nat) : Nat :=
  match (s.tile u).fromBuffer a with
  | some ws => 8 * ws.length
  | none =>
    match firstIx 8 fun i => decide (localTop ≤ a + 8 * i) || (s.byte (localBase u + a + 8 * i + 7)).getLsbD 7 with
    | some i => 8 * (i + 1)
    | none => 64

/-- The address of the frond after the one at `a`. -/
def nextFrond (s : State) (u : UnitIx) (a : Nat) : Nat := (a + frondLen s u a) % 2 ^ 32

/-- The address of the frond after the second of the two that follow the frond at `a` of `len` bytes: the link (R202). -/
def linkAt (s : State) (u : UnitIx) (a len : Nat) : Nat := nextFrond s u (nextFrond s u ((a + len) % 2 ^ 32))

/-- The last operation of the frond at an address, where its branch stands. -/
def lastOp (s : State) (u : UnitIx) (a : Nat) : Option Instr :=
  match (s.tile u).fromBuffer a with
  | some ws => ws.getLast?
  | none => some (decodeOp u (BitVec.ofNat 64 (s.localLoad u (a + frondLen s u a - 8) 8)))

/-- At most `n` fronds from `a` on reach the end frond `last` (R211). -/
def bodyWithin (s : State) (u : UnitIx) : Nat → Nat → Nat → Bool
  | 0, _, _ => false
  | n + 1, a, last => decide (last ≤ a) || bodyWithin s u n (a + frondLen s u a) last

/-- The words of a frond are read from the bank: corrected and uncorrectable words are recorded (R63, R64, Table 2-7). -/
def State.fetchFrond (s : State) (u : UnitIx) (a : Nat) : State :=
  match (s.tile u).fromBuffer a with
  | some _ => s
  | none => s.eccReadRange (localBase u + a) (min (frondLen s u a) (localTop - a)) 0

/-! ## The predictor (R205, R206) -/

/-- A command that is a branch: whether it is a call and whether it is RET. -/
def branchKind (c : Instr) : Option (Bool × Bool) :=
  match c with
  | .br .. => some (false, false)
  | .brx .. => some (false, false)
  | .bra .. => some (false, false)
  | .call .. => some (true, false)
  | .calla .. => some (true, false)
  | .ret .. => some (false, true)
  | _ => none

/-- The index of a PC in the target buffer. -/
def targetIx (pc : Word) : BitVec 8 := BitVec.ofNat 8 (bitsOf pc.toNat 10 3)

/-- The target-buffer entry at an index. -/
def Tile.targetAt (t : Tile) (ix : BitVec 8) : Target :=
  match t.targets.find? fun e => decide (e.1 = ix) with
  | some e => e.2
  | none => { addr := 0, cnt := 0 }

/-- The entry as a frond fetched in issue cycle `f` is steered under it: changes made at the end of that cycle or later do not count. -/
def Tile.steerAt (t : Tile) (f : Nat) (ix : BitVec 8) : Target :=
  match t.steer.find? fun e => decide (f ≤ e.1) && decide (e.2.1 = ix) with
  | some e => e.2.2
  | none => t.targetAt ix

/-- Change an entry at the end of the present cycle, and keep what it was for the fronds already in the front end. -/
def Tile.setTarget (t : Tile) (ix : BitVec 8) (e : Target) : Tile :=
  { t with targets := (ix, e) :: t.targets.filter fun x => decide (x.1 ≠ ix)
           steer := (t.steer.filter fun x => decide (t.cycle < x.1 + 7)) ++ [(t.cycle, ix, t.targetAt ix)] }

/-- The return-address stack as a frond fetched in issue cycle `f` finds it. -/
def Tile.rasAt (t : Tile) (f : Nat) : List Word :=
  match t.rasOld.find? fun e => decide (f ≤ e.1) with
  | some e => e.2
  | none => t.ras

/-- Replace that stack. -/
def Tile.setRasAt (t : Tile) (f : Nat) (r : List Word) : Tile :=
  match t.rasOld.find? fun e => decide (f ≤ e.1) with
  | some e => { t with rasOld := t.rasOld.map fun x => if x.1 = e.1 then (x.1, r) else x }
  | none => { t with ras := r }

/-- CALL and CALLA push their link, RET pops, as they are fetched (R205). -/
def Tile.fetchBranch (t : Tile) (f : Nat) (isCall isRet : Bool) (link : Word) : Tile :=
  if isCall then t.setRasAt f ((link :: t.rasAt f).take 16) else if isRet then t.setRasAt f (t.rasAt f).tail else t

/-- Where a branch fetched in issue cycle `f` is steered to: none for not taken.  RET is predicted from the return-address stack (Table 8-1). -/
def Tile.predict (t : Tile) (f : Nat) (pc : Word) (isRet : Bool) : Option Word :=
  if isRet then (t.rasAt f).head?
  else if 2 ≤ (t.steerAt f (targetIx pc)).cnt.toNat then some (t.steerAt f (targetIx pc)).addr else none

/-- An issued branch moves its entry's counter, and a taken one writes its target (R205). -/
def Tile.learn (t : Tile) (pc : Word) (tgt : Option Word) : Tile :=
  let e := t.targetAt (targetIx pc)
  t.setTarget (targetIx pc) (match tgt with
    | some a => { addr := a, cnt := if e.cnt = 3 then 3 else e.cnt + 1 }
    | none => { addr := e.addr, cnt := if e.cnt = 0 then 0 else e.cnt - 1 })

/-- PFLUSH (R206): every counter 0b00 and the return stack empty at the end of its cycle; fronds already fetched keep what they found. -/
def Tile.flushPredictor (t : Tile) : Tile :=
  { t with targets := t.targets.map fun e => (e.1, { e.2 with cnt := 0 })
           steer := (t.steer.filter fun x => decide (t.cycle < x.1 + 7)) ++ t.targets.map fun e => (t.cycle, e.1, e.2)
           ras := [], rasOld := (t.rasOld.filter fun x => decide (t.cycle < x.1 + 7)) ++ [(t.cycle, t.ras)] }

/-! ## Fronds read and discarded (R97) -/

/-- The front end reads `n` fronds from `a` on, the first in issue cycle `f`: it follows the branch under way and, with prediction on, the branches it
meets.  A frond at the end of the bank or above is not read. -/
def readAhead (u : UnitIx) : Nat → Nat → Nat → Option (Nat × Nat) → State → State
  | 0, _, _, _, s => s
  | n + 1, f, a, br, s =>
    if localTop ≤ a then s
    else
      let s1 := s.fetchFrond u a
      let seq := nextFrond s u a
      let kind := if (s.tile u).predOff then none else (lastOp s u a).bind branchKind
      let t := s.tile u
      let s2 := match kind with
        | some (c, r) => s1.modTile u fun t => t.fetchBranch f c r (BitVec.ofNat 32 (linkAt s u a (frondLen s u a)))
        | none => s1
      match br with
      | some (0, x) => readAhead u n (f + 1) x none s2
      | some (k + 1, x) => readAhead u n (f + 1) seq (some (k, x)) s2
      | none =>
        readAhead u n (f + 1) seq ((kind.bind fun k => t.predict f (BitVec.ofNat 32 a) k.2).map fun x => (1, x.toNat)) s2

/-- The front end discards `n` fronds that it read from `a` on, the last of them in the present issue cycle.  Their traces are the words recorded as
corrected or uncorrectable and, with prediction on, the return stack. -/
def State.discardFronds (s : State) (u : UnitIx) (n a : Nat) (br : Option (Nat × Nat)) : State :=
  if s.ecc = [] ∧ (s.tile u).predOff then s else readAhead u n ((s.tile u).cycle + 1 - n) a br s

/-- The branch under way, as the front end follows it: delay fronds to come before its target. -/
def Tile.branchAhead (t : Tile) : Option (Nat × Nat) :=
  if t.br.taken ∧ 0 < t.br.delay then some (t.br.delay - 1, t.br.target.toNat) else none

end Sys2Proof.Machine
end

