-- ==== Sys2Proof/Machine/Pipeline.lean ====
section
/-! DEFINITION. The pipeline: retirement, issue cycles and empty fronds, and the interrupt entry that every fault, interrupt
and trap of a unit shares (R84 to R95, R221 to R229). -/

namespace Sys2Proof.Machine

/-! ## Retirement (R86, R90, R93) -/

/-- Count of a trap still to run, of 24 L0 issue cycles from the operation's issue (R194): the L0 issue cycles counted so far hold the one in which
the flags retire, if that is one. -/
def trapLeft (t : Tile) (l0 : Nat) : Nat := 24 - (t.l0 - l0)

/-- A trap becomes pending (R193, R197): the first writes FTRAP_PC and FTRAP_INFO, a further one sets MULT. -/
def Tile.raiseTrap (t : Tile) (cause : BitVec 5) (l0 : Nat) (pc : Word) (slot : BitVec 3) : Tile :=
  if fld t.ftrapInfo 16 16 = 1 then { t with ftrapInfo := t.ftrapInfo ||| 0x20000 }
  else { t with
    ftrapPc := pc,
    ftrapInfo := BitVec.ofNat 32 (slot.toNat + cause.toNat * 2 ^ 8 + 2 ^ 16 + trapLeft t l0 * 2 ^ 18) }

/-- Set up loop K (R207): it becomes the most recently entered (R209); a count of 0 leaves it inactive (R208).  Its body is
captured when it holds at most 64 fronds and no captured loop encloses it (R211). -/
def Tile.setLoop (t : Tile) (k : BitVec 2) (first last count : Word) (small : Bool) : Tile :=
  let encl := t.order.any fun j => decide (j ≠ k) && (rfGet Loop.reset t.loops j.toNat).captured
  { t with
    loops := rfSet t.loops k.toNat
      { active := decide (count ≠ 0), first := first, last := last, passed := false, captured := small && !encl }
    lc := rfSet t.lc k.toNat count
    buffer := if small && !encl then [] else t.buffer
    order := (if count = 0 then [] else [k]) ++ t.order.filter (· ≠ k) }

/-- The maximal runs of stored bytes of a vector store: address and bytes of each (R166).  Addresses are formed modulo 2^32 (R103, R165). -/
def storeRuns (a : Nat) (mask : BitVec 64) (d : VReg) : List (Nat × List Byte) :=
  (upFrom 0 64).foldr (fun i rs =>
    let x := (a + i) % 2 ^ 32
    if mask.getLsbD i then
      match rs with
      | (b, bs) :: r => if b = x + 1 then (x, d.extractLsb' (8 * i) 8 :: bs) :: r
                        else (x, [d.extractLsb' (8 * i) 8]) :: rs
      | [] => [(x, [d.extractLsb' (8 * i) 8])]
    else rs) []

/-- A write to lcK by the frond under REP that would retire before the last repetition ends is held (R214). -/
def Tile.holds (t : Tile) (e : Pend) (sr : BitVec 8) : Bool :=
  t.rep.active && t.rep.srcLc && decide (sr.toNat = 0x10 + t.rep.k.toNat) && decide (t.rep.since < e.issue)

/-- One result retires, flag sets excepted. -/
def retireOne (u : UnitIx) (s : State) (e : Pend) : State :=
  match e.w with
  | .mem a bs => s.localWrite u a bs
  | .vec r m v => s.modTile u fun t => t.setVec r m v
  | .areg c i v => s.modTile u fun t => t.setAreg c i v
  | .pred i b => s.modTile u fun t => { t with p := blend t.p (BitVec.ofNat 8 (2 ^ i.toNat)) (if b then 0xFF else 0) }
  | .sreg sr v => s.modTile u fun t =>
    if t.holds e sr then { t with rep := { t.rep with held := some v } } else t.writeSreg sr.toNat v
  | .predOff b => s.modTile u fun t => { t with predOff := b }
  | .vcfg v => s.modTile u fun t => { t with vcfg := v }
  | .loopSet k f l n => s.modTile u fun t => t.setLoop k f l n (bodyWithin s u 64 f.toNat l.toNat)
  | .vst _ a mask data =>
    match data with
    | none => s
    | some d =>
      (storeRuns a mask d).foldl (fun s r => s.localWrite u r.1 r.2) s
  | .istat _ => s
  | .fflags .. => s
  | .tdone k st => s.modTile u fun t => t.tdone k st

/-- One flag set retires; it is kept against a write of the same cycle (R119, R191). -/
def retireFlag (u : UnitIx) (s : State) (w : Wr) : State :=
  match w with
  | .istat f => s.modTile u fun t => { t with istat := t.istat ||| f }
  | .fflags f trap l0 pc slot => s.modTile u fun t =>
    let t1 := { t with fcsr := t.fcsr ||| f.setWidth 32 }
    if trap = 0 then t1 else t1.raiseTrap trap l0 pc slot
  | _ => s

/-- The vector stores issued in cycle `c` read their data, at the end of cycle c+1 before results of cycle c's own
frond retire (R89). -/
def captureVst (c : Nat) (t : Tile) : Tile :=
  { t with pend := t.pend.map fun e =>
      match e.w with
      | .vst r a b none => if e.issue = c then { e with w := .vst r a b (some (t.vreg r)) } else e
      | _ => e }

/-- The end of an issue cycle: the due results retire in the order of issue, slot and specifier, flag sets last
(R86, R90, R93); then the cycle count advances.  Results of fronds issued in the cycle before are applied after the
vector stores of that frond have read their data. -/
def endCycle (u : UnitIx) (s : State) : State :=
  let c := (s.tile u).cycle
  let due := (s.tile u).pend.filter fun e => e.retire ≤ c
  let old := due.filter fun e => e.issue + 1 < c
  let own := due.filter fun e => ¬ e.issue + 1 < c
  let s1 := s.modTile u fun t => { t with pend := t.pend.filter fun e => ¬ e.retire ≤ c }
  let s2 := old.foldl (fun s e => retireOne u s e) s1
  let s3 := if c = 0 then s2 else s2.modTile u (captureVst (c - 1))
  let s4 := own.foldl (fun s e => retireOne u s e) s3
  let s5 := due.foldl (fun s e => retireFlag u s e.w) s4
  s5.modTile u fun t => { t with cycle := t.cycle + 1, wall := t.wall + 1 }

/-- An issue cycle of the thread or a handler: its end, counted. -/
def issueCycle (u : UnitIx) (s : State) : State :=
  let before := s.tile u
  if before.level = 0 then
    (endCycle u (s.modTile u fun t => { t with l0 := t.l0 + 1 })).modTile u fun t =>
      { t with ftrapInfo := if fld before.ftrapInfo 16 16 = 1 then setFld t.ftrapInfo 22 18 (fld before.ftrapInfo 22 18 - 1)
                            else t.ftrapInfo }
  else endCycle u s

/-- `n` empty fronds (R85). -/
def emptyCycles (u : UnitIx) : Nat → State → State
  | 0, s => s
  | n + 1, s => emptyCycles u n (issueCycle u s)

/-- `n` cycles of an entry or a return, which count as empty fronds for every distance and not towards a trap. -/
def entryCycles (u : UnitIx) : Nat → State → State
  | 0, s => s
  | n + 1, s => entryCycles u n (endCycle u s)

/-- Empty fronds until the last pending result has retired, at most 6 (R33, R215). -/
def drainPending (u : UnitIx) (s : State) : State :=
  emptyCycles u ((s.tile u).pend.foldl (fun n e => max n (e.retire + 1 - (s.tile u).cycle)) 0) s

/-! ## Interrupt entry (R221 to R229) -/

/-- LOOPCTL of a frame (Table 8-9). -/
def Tile.loopCtl (t : Tile) : Nat :=
  let act := (upFrom 0 4).foldl (fun n k => n + b2n (rfGet Loop.reset t.loops k).active * 2 ^ k) 0
  let ord := (t.order.take 4).foldr (fun k n => k.toNat + 4 * n) 0
  act + ord * 16

/-- REPSTAT of a frame (Table 8-9). -/
def Tile.repStat (t : Tile) : Nat :=
  if t.rep.active then
    t.rep.left.toNat + 2 ^ 12 + t.rep.k.toNat * 2 ^ 13 + b2n t.rep.srcLc * 2 ^ 15 + b2n t.rep.held.isSome * 2 ^ 16
  else 0

/-- The 32 words of the interrupt frame (R224, Table 8-9). -/
def Tile.frame (t : Tile) (retPc : Word) (wstate cause faddr : Nat) : List Nat :=
  [retPc.toNat, (setFld t.status 15 14 wstate).toNat, if t.br.taken then t.br.target.toNat else 0,
   t.br.delay + (if t.br.taken then 4 else 0)]
  ++ t.lc.toList.map (·.toNat)
  ++ t.loops.toList.flatMap (fun l => [l.first.toNat, l.last.toNat])
  ++ [t.repStat, (t.rep.held.getD 0).toNat]
  ++ (t.a.toList.take 4).map (·.toNat)
  ++ [t.p.toNat, t.vindex.toNat, t.tktSplit.toNat, cause, faddr, t.loopCtl, 0, 0, 0, 0]

/-- Why an entry is taken. -/
structure Entry where
  vec    : Nat
  level  : Nat
  pos    : Nat
  mtrap  : Bool
  faddr  : Nat
  /-- The handler address, where the vector table does not give it (a macro-trap, R219). -/
  haddr  : Option Nat
  /-- What the fault itself writes into VINDEX (R167, R171). -/
  vindex : Option Word
  wstate : Nat
  deriving DecidableEq, Repr

/-- The CAUSE word of a frame. -/
def Entry.cause (e : Entry) : Nat := e.vec % 256 + e.pos % 8 * 2 ^ 8 + b2n e.mtrap * 2 ^ 11

/-- Whether ISP admits a frame (R223). -/
def Tile.ispOk (t : Tile) : Bool := decide (0x80 ≤ t.isp.toNat) && decide (t.isp.toNat ≤ 0x200000)

/-- The unit stops without an entry and reports DOUBLE_FAULT with the would-be CAUSE (R229); the fault has written VINDEX all the same (R167, R171). -/
def doubleFault (u : UnitIx) (e : Entry) (s : State) : State :=
  (s.modTile u fun t => { t with stopped := true, frond := [], waiting := false, vindex := e.vindex.getD t.vindex }).report 0x0142 u.val
    ([BitVec.ofNat 32 e.cause, BitVec.ofNat 32 e.faddr] ++ (s.tile u).trecs)

/-- The front end of a running unit is discarded: the frond at the return point and those behind it (R97, R222). -/
def State.dropFronds (s : State) (u : UnitIx) (e : Entry) (retPc : Word) : State :=
  if e.wstate = 0 then s.discardFronds u 7 retPc.toNat (s.tile u).branchAhead else s

/-- Interrupt entry: pending results retire, the frame is written, the level rises, the front end goes to the handler;
14 cycles (R222 to R225).  At L3 every routine of the unit is aborted (R148).  With ISP out of range, or a precise fault at
L3, the unit stops (R223, R229).  DESIGN CHOICE (log 86): an uncorrectable word in the vector table entry is recorded as every one that is read
(R64) and raises nothing, since Table 2-7 names no outcome for that reader.  DESIGN CHOICE (log 87): flags that retire in cycles a to a+4 of
FP_TRAP's own entry come before its delivery, so they set MULT and make no new trap pending. -/
def enter (u : UnitIx) (e : Entry) (retPc : Word) (s00 : State) : State :=
  let s := s00.dropFronds u e retPc
  if ¬ (s.tile u).ispOk ∨ (e.level = 3 ∧ (s.tile u).level = 3) then doubleFault u e s
  else
    let s0 := s.modTile u fun t =>
      let t1 := if e.level = 3 then t.abortAll else t
      { t1 with frond := [], waiting := false,
                ipend := t1.ipend &&& ~~~(if e.mtrap then 0 else BitVec.ofNat 256 (2 ^ e.vec)) }
    let s1 := entryCycles u 5 s0
    let t1 := s1.tile u
    let isp := t1.isp.toNat - 128
    let fr := (t1.frame retPc e.wstate e.cause e.faddr).flatMap (leBytes 4)
    let h := match e.haddr with
      | some h => h
      | none => bitsOf (s1.localLoad u (t1.ivbase.toNat + 8 * e.vec) 4) 20 3 * 8
    let s2 := (match e.haddr with
      | some _ => s1
      | none => s1.eccReadRange (localBase u + t1.ivbase.toNat + 8 * e.vec) 4 0).localWrite u isp fr
    let s3 := s2.modTile u fun t =>
      { t with
        isp := BitVec.ofNat 32 isp
        status := setFld (setFld (setFld t.status 13 12 e.level) 11 11 0) 15 14 0
        vindex := e.vindex.getD t.vindex
        pc := BitVec.ofNat 32 h
        br := Branch.reset, rep := RepState.reset, repSkip := false, order := []
        loops := t.loops.map fun l => { l with active := false, captured := false }
        ftrapInfo := if e.vec = 32 ∧ ¬ e.mtrap then setFld (setFld t.ftrapInfo 16 16 0) 22 18 0 else t.ftrapInfo }
    entryCycles u 9 s3

/-- A precise fault of vector `vec` at the frond at the PC (R95, R229). -/
def preciseFault (u : UnitIx) (vec pos faddr : Nat) (vindex : Option Word) (s : State) : State :=
  enter u { vec := vec, level := 3, pos := pos, mtrap := false, faddr := faddr, haddr := none, vindex := vindex, wstate := 0 }
    (s.tile u).pc s

/-- The return from a frame (R227): the state of the frame at ISP of `src`, the state when RETI issued, is written back, the writable fields of each
register.  A branch that was not taken leaves no empty frond behind its delay fronds (Table 3-12).  DESIGN CHOICE (log 86): an uncorrectable word in
the frame is recorded as every one that is read and raises nothing, since Table 2-7 names no outcome for that reader.  DESIGN CHOICE (log 87): the
frame does not tell the skip of a count-0 LOOP from a branch, so a delay frond that remains of it is no acceptance point (R208). -/
def restoreFrame (u : UnitIx) (src s : State) : State :=
  let b := (src.tile u).isp.toNat
  let w := fun (o : Nat) => src.localLoad u (b + o) 4
  let rs := w 0x40
  let lctl := w 0x6C
  let nact := (upFrom 0 4).foldl (fun n k => n + bitsOf lctl k k) 0
  s.modTile u fun t =>
    { t with
      pc := BitVec.ofNat 32 (w 0)
      status := BitVec.ofNat 32 (bitsOf (w 4) 13 0)
      br := { delay := bitsOf (w 0x0C) 1 0, taken := decide (bitsOf (w 0x0C) 2 2 = 1), target := BitVec.ofNat 32 (w 8),
              gap := if bitsOf (w 0x0C) 2 2 = 1 then 4 else 0, open_ := false }
      lc := (((rfSet (rfSet (rfSet (rfSet t.lc 0 (BitVec.ofNat 32 (w 0x10))) 1 (BitVec.ofNat 32 (w 0x14))) 2
              (BitVec.ofNat 32 (w 0x18))) 3 (BitVec.ofNat 32 (w 0x1C)))))
      loops := Vector.ofFn fun k => { (rfGet Loop.reset t.loops k.val) with
        active := decide (bitsOf lctl k.val k.val = 1), first := BitVec.ofNat 32 (w (0x20 + 8 * k.val)),
        last := BitVec.ofNat 32 (w (0x24 + 8 * k.val)), captured := false }
      order := ((upFrom 0 nact).map fun i => BitVec.ofNat 2 (bitsOf lctl (5 + 2 * i) (4 + 2 * i)))
      rep := { active := decide (bitsOf rs 12 12 = 1), left := BitVec.ofNat 12 (bitsOf rs 11 0),
               k := BitVec.ofNat 2 (bitsOf rs 14 13), srcLc := decide (bitsOf rs 15 15 = 1),
               held := if bitsOf rs 16 16 = 1 then some (BitVec.ofNat 32 (w 0x44)) else none
               since := t.cycle }
      a := rfSet (rfSet (rfSet (rfSet t.a 0 (BitVec.ofNat 32 (w 0x48))) 1 (BitVec.ofNat 32 (w 0x4C))) 2
              (BitVec.ofNat 32 (w 0x50))) 3 (BitVec.ofNat 32 (w 0x54))
      p := BitVec.ofNat 8 (w 0x58)
      vindex := BitVec.ofNat 32 (w 0x5C) &&& sregMask 0x07
      tktSplit := BitVec.ofNat 32 (min 32 (bitsOf (w 0x60) 5 0))
      isp := BitVec.ofNat 32 (b + 128) }

/-! ## Choosing an interrupt (R220, R221) -/

/-- The level of a vector (Table 8-8, R220). -/
def Tile.vecLevel (t : Tile) (v : Nat) : Nat := if t.ilvl.getLsbD v then 2 else 1

/-- IPEND with bit 32 reflecting FTRAP_INFO.PEND and bits 0-31 reading 0 (R220). -/
def Tile.ipendView (t : Tile) : BitVec 256 :=
  blend t.ipend 0x1FFFFFFFF (BitVec.ofNat 256 (fld t.ftrapInfo 16 16 * 2 ^ 32))

/-- Whether vector v is eligible at an acceptance point (R221); a pending FP_TRAP is delivered by R194, apart. -/
def Tile.eligible (t : Tile) (v : Nat) : Bool :=
  decide (32 < v) && t.ipend.getLsbD v && t.ien.getLsbD v && decide (t.level < t.vecLevel v)
    && decide (fld t.status (8 + t.vecLevel v) (8 + t.vecLevel v) = 1)

/-- The vector taken among the eligible: the highest level, then the lowest number (R221). -/
def Tile.chooseVector (t : Tile) : Option Nat :=
  if t.ipend = 0 then none else
  match (upFrom 33 223).find? fun v => t.eligible v && decide (t.vecLevel v = 2) with
  | some v => some v
  | none => (upFrom 33 223).find? t.eligible

/-- The frond that would issue next is not a delay frond (R221). -/
def Tile.atAcceptance (t : Tile) : Bool := (decide (t.br.delay = 0) || t.br.open_) && !t.repSkip

/-- A trap is pending and its delivery is enabled: L0, IE2 = 1, at an acceptance point (R194, R195). -/
def Tile.trapReady (t : Tile) : Bool :=
  decide (fld t.ftrapInfo 16 16 = 1) && decide (t.level = 0) && decide (fld t.status 10 10 = 1) && t.atAcceptance

/-- The pending trap's count has run out (R194). -/
def Tile.trapDue (t : Tile) : Bool := t.trapReady && decide (fld t.ftrapInfo 22 18 = 0)

/-- Entry for a vector. -/
def vectorEntry (v lvl wstate : Nat) : Entry :=
  { vec := v, level := lvl, pos := 0, mtrap := false, faddr := 0, haddr := none, vindex := none, wstate := wstate }

/-- The interrupt accepted in a cycle in which a frond would issue (R221); none while the debug port holds the unit (R492). -/
def Tile.interruptNow (t : Tile) : Option Nat := if t.atAcceptance && !t.halted then t.chooseVector else none

/-- A delivery point of R194 passes while IE2 is 0: the trap stays pending with LEFT at 0 (R195). -/
def Tile.passPoint (t : Tile) : Tile :=
  if fld t.ftrapInfo 16 16 = 1 ∧ t.level = 0 ∧ fld t.status 10 10 = 0 then { t with ftrapInfo := setFld t.ftrapInfo 22 18 0 } else t

/-- Deliver the pending FP_TRAP (R194). -/
def deliverTrap (u : UnitIx) (s : State) : State :=
  enter u { vec := 32, level := 2, pos := 0, mtrap := false, faddr := 0, haddr := none, vindex := none, wstate := 0 }
    (s.tile u).pc s

end Sys2Proof.Machine
end

