-- ==== Sys2Proof/Machine/Operands.lean ====
section
/-! DEFINITION. Operand specifiers: legality, the address each mode forms, the register update it makes, and the reading and
writing of operands (R78 to R80, R101 to R110, R168, R175, R176). -/

namespace Sys2Proof.Machine

/-- A precise fault of an operation: vector of Table 8-10, FADDR, and what it writes into VINDEX. -/
structure PFault where
  vec    : Nat
  faddr  : Nat
  vindex : Option Word
  /-- The bytes from FADDR on that the operand reads, for MEM_UE. -/
  span   : Nat := 0
  deriving DecidableEq, Repr

/-- What one operation of a frond does: whether its encoding is illegal, whether its frond waits (R130), the first fault of
its operands, the results it sends to retirement with their distances, the local ranges it reads, its action on the state in
its issue cycle, the target it branches to, and what follows its issue cycle. -/
structure OpOut where
  illegal : Bool := false
  wait    : Bool := false
  fault   : Option PFault := none
  wr      : List (Nat × Wr) := []
  touch   : List (Nat × Nat) := []
  act     : State → State := id
  target  : Option Word := none
  after   : State → State := id

/-- What an operation reads: the state before its frond, its unit, the frond's PC and length, and what the other words supply. -/
structure Ctx where
  s    : State
  u    : UnitIx
  pc   : Word
  /-- The length of the frond in bytes. -/
  len  : Nat
  /-- The position of the operation's word in the frond, and the frond's EXT value. -/
  pos  : Nat
  ext  : Option Word

/-- The unit of the context. -/
def Ctx.t (c : Ctx) : Tile := c.s.tile c.u

end Sys2Proof.Machine

namespace Sys2Proof

open Sys2Proof.Machine

/-- Fields of an operation body (Table 3-3 and the slots' own layouts). -/
def OpWord.bits (w : OpWord) (hi lo : Nat) : Nat := bitsOf w.body.toNat hi lo
/-- DST, bits [47:32]. -/
def OpWord.dst (w : OpWord) : Nat := w.bits 47 32
/-- SRC1, bits [31:16]. -/
def OpWord.src1 (w : OpWord) : Nat := w.bits 31 16
/-- SRC2, bits [15:0]. -/
def OpWord.src2 (w : OpWord) : Nat := w.bits 15 0
/-- The operand width in bytes of an M-slot operation. -/
def OpWord.wb (w : OpWord) : Nat := 2 ^ w.w.toNat

/-- An operation performed only when its guard holds (R77). -/
def OpWord.performed (w : OpWord) (t : Machine.Tile) : Bool := !w.ge || (t.p.getLsbD w.gp.toNat != w.gn)

/-- GN and GP must be 0 when GE is 0 (R77, Table 3-5). -/
def OpWord.guardOk (w : OpWord) : Bool := w.ge || (!w.gn && decide (w.gp = 0))

/-- The slot code of an M-slot operation. -/
def OpWord.mSlot (w : OpWord) : Nat := if w.second then 1 else 0

end Sys2Proof

namespace Sys2Proof.Machine

/-- A specifier's mode. -/
def spMode (sp : Nat) : Nat := bitsOf sp 15 12

/-- Whether a specifier is legal at a width in bytes (Table 3-4, Table 3-5). -/
def spLegal (isDst : Bool) (ext : Option Word) (sp wb : Nat) : Bool :=
  match spMode sp with
  | 0 => true
  | 1 => true
  | 2 => decide (bitsOf sp 3 0 = 0)
  | 3 => decide (bitsOf sp 3 3 = 0)
  | 4 => decide (bitsOf sp 3 0 = 0)
  | 5 => decide (bitsOf sp 3 0 = 0)
  | 6 => !isDst
  | 7 => decide (bitsOf sp 6 6 = 0) && decide (bitsOf sp 5 0 < 64 / wb)
  | 8 => decide (bitsOf sp 11 0 = 0) && ext.isSome
  | 9 => !isDst && decide (bitsOf sp 11 0 = 0) && ext.isSome
  | _ => false

/-- Whether a specifier is legal as the address of a block (R138, R518): modes 0x0-0x5 and 0x8. -/
def spAddrLegal (ext : Option Word) (sp : Nat) : Bool :=
  spLegal true ext sp 1 && decide (spMode sp ≠ 7)

/-- The circular step on exact integers (R105). -/
def circStep (a m b l : Word) : Word :=
  if l = 0 then a + m
  else BitVec.ofInt 32 ((b.toNat : Int) + ((a.toNat : Int) - b.toNat + m.toInt) % (l.toNat : Int))

/-- The reverse of the low `n` bits of a number. -/
def revBits : Nat → Nat → Nat
  | 0, _ => 0
  | n + 1, x => (x % 2) * 2 ^ n + revBits n (x / 2)

/-- The bit-reversed step over bits [31:s] (R106). -/
def revStep (a m : Word) (s : Nat) : Word :=
  let n := 32 - s
  let x := revBits n ((revBits n (a.toNat >>> s) + revBits n (m.toNat >>> s)) % 2 ^ n)
  BitVec.ofNat 32 (x * 2 ^ s + a.toNat % 2 ^ s)

/-- The address a specifier forms and its register update (R103, R104, Table 4-2). -/
def spAddr (c : Ctx) (sp wb : Nat) : Nat × List Wr :=
  let t := c.t
  let i := BitVec.ofNat 4 (bitsOf sp 11 8)
  let j := BitVec.ofNat 4 (bitsOf sp 7 4)
  let k := BitVec.ofNat 4 (bitsOf sp 2 0)
  let ai := t.areg 0 i
  let mj := t.areg 1 j
  match spMode sp with
  | 0 => (t.dp * 0x1000 + bitsOf sp 11 0, [])
  | 1 => (ofInt 32 ((ai.toNat : Int) + toInt 8 (bitsOf sp 7 0) * wb), [])
  | 2 => (ai.toNat, [.areg 0 i (ai + mj)])
  | 3 => (ai.toNat, [.areg 0 i (circStep ai mj (t.areg 2 k) (t.areg 3 k))])
  | 4 => (ai.toNat, [.areg 0 i (revStep ai mj (Nat.log2 wb))])
  | 5 => ((ai + t.areg 0 j).toNat, [])
  | _ => ((c.ext.getD 0).toNat, [])

/-- A specifier in a mode that forms an address. -/
def spIsMem (sp : Nat) : Bool := decide (spMode sp ≤ 5) || decide (spMode sp = 8)

/-- The checks of a formed local address at a width (R69, R48, R103); a read also meets uncorrectable words (R64). -/
def addrFault (c : Ctx) (a wb : Nat) (reading : Bool) : Option PFault :=
  if a % wb ≠ 0 then some { vec := 3, faddr := a, vindex := none }
  else if localTop ≤ a then some { vec := 2, faddr := a, vindex := none }
  else if reading && c.s.hasUe (localBase c.u + a) wb then some { vec := 4, faddr := a, vindex := none, span := wb }
  else none

/-- How a source reads its immediates: as an integer (R110) or as a value of a format (R176). -/
inductive ImmKind where
  | int
  | fp (f : Fmt)
  deriving DecidableEq, Repr

/-- The immediate a source supplies at a width in bytes (R110, R176). -/
def immValue (k : ImmKind) (ext : Option Word) (sp wb : Nat) : Nat :=
  match k with
  | .int =>
    if spMode sp = 6 then ofInt (8 * wb) (toInt 12 (bitsOf sp 11 0))
    else if wb = 8 then sextTo 32 64 (ext.getD 0).toNat
    else (ext.getD 0).toNat % 2 ^ (8 * wb)
  | .fp f =>
    if spMode sp = 6 then f.ofSmall (toInt 12 (bitsOf sp 11 0))
    else if wb = 8 then (ext.getD 0).toNat * 2 ^ 32
    else (ext.getD 0).toNat % 2 ^ (8 * wb)

/-- A source read: its value, its register updates, the range it reads, and its fault. -/
structure Src where
  val   : Nat
  upd   : List Wr
  touch : List (Nat × Nat)
  fault : Option PFault
  deriving DecidableEq, Repr

/-- Read a source specifier at a width in bytes (R104, R109, R110). -/
def readSrc (c : Ctx) (k : ImmKind) (sp wb : Nat) : Src :=
  if spIsMem sp then
    let au := spAddr c sp wb
    { val := c.s.localLoad c.u au.1 wb, upd := au.2, touch := [(au.1, wb)], fault := addrFault c au.1 wb true }
  else if spMode sp = 7 then
    { val := bitsOf (c.t.vreg (BitVec.ofNat 5 (bitsOf sp 11 7))).toNat (8 * wb * (bitsOf sp 5 0 + 1) - 1) (8 * wb * bitsOf sp 5 0),
      upd := [], touch := [], fault := none }
  else { val := immValue k c.ext sp wb, upd := [], touch := [], fault := none }

/-- A destination: where it lies, its updates and its fault. -/
structure DstRes where
  dest  : Dest
  upd   : List Wr
  touch : List (Nat × Nat)
  fault : Option PFault
  deriving DecidableEq, Repr

/-- Form a destination at a width in bytes; `reading` when the operation also reads it (R78). -/
def formDst (c : Ctx) (sp wb : Nat) (reading : Bool) : DstRes :=
  if spIsMem sp then
    let au := spAddr c sp wb
    { dest := .mem au.1, upd := au.2, touch := if reading then [(au.1, wb)] else [], fault := addrFault c au.1 wb reading }
  else
    { dest := .lane (BitVec.ofNat 5 (bitsOf sp 11 7)) (bitsOf sp 5 0), upd := [], touch := [], fault := none }

/-- The value a destination holds before the frond. -/
def dstValue (c : Ctx) (d : Dest) (wb : Nat) : Nat :=
  match d with
  | .mem a => c.s.localLoad c.u a wb
  | .lane r l => bitsOf (c.t.vreg r).toNat (8 * wb * (l + 1) - 1) (8 * wb * l)
  | .none => 0

/-- The bits of a register under a lane of `n` bits at bit position `p`. -/
def laneMask (n p : Nat) : VReg := BitVec.ofNat 512 (onesBelow n * 2 ^ p)

/-- An integer or fixed-point result: bytes of memory, or the bits of its lane, never boxed (R109). -/
def intResult (d : Dest) (wb val : Nat) : List Wr :=
  match d with
  | .mem a => [.mem a (leBytes wb val)]
  | .lane r l => [.vec r (laneMask (8 * wb) (8 * wb * l)) (BitVec.ofNat 512 ((val % 2 ^ (8 * wb)) * 2 ^ (8 * wb * l)))]
  | .none => []

/-- A floating-point result: a write to lane 0 is a write through fn and fills bits [63:8wb] with ones (R168, R175). -/
def fpResult (d : Dest) (wb val : Nat) : List Wr :=
  match d with
  | .lane r 0 => [.vec r (laneMask 64 0)
      (BitVec.ofNat 512 (val % 2 ^ (8 * wb) + (onesBelow 64 - onesBelow (8 * wb))))]
  | d => intResult d wb val

/-- The floating-point mode in force (R181). -/
def Tile.fmode (t : Tile) : FMode := FMode.ofBits (BitVec.ofNat 5 (fld t.fcsr 20 16))

/-- The flags of an operation on their way to FCSR, with the traps they make pending at L0 (R191, R193). -/
def flagWr (c : Ctx) (slot : Nat) (fl : BitVec 5) : List Wr :=
  if fl = 0 then []
  else [.fflags fl (if c.t.level = 0 then fl &&& BitVec.ofNat 5 (fld c.t.fcsr 12 8) else 0) c.t.l0 c.pc (BitVec.ofNat 3 slot)]

/-- Sticky integer flags on their way to ISTAT (R119). -/
def istatWr (f : Nat) : List Wr := if f = 0 then [] else [.istat (BitVec.ofNat 32 f)]

/-- The first fault of a list. -/
def firstFault : List (Option PFault) → Option PFault
  | [] => none
  | some f :: _ => some f
  | none :: r => firstFault r

/-- Attach a distance to results. -/
def atDist (k : Nat) (ws : List Wr) : List (Nat × Wr) := ws.map fun w => (k, w)

/-- An M-slot operation with two sources (or one, with SRC2 = 0): widths in bytes, immediates, and the result with its
ISTAT and FCSR flags from DST, SRC1 and SRC2. -/
structure MForm where
  dw     : Nat
  w1     : Nat
  w2     : Option Nat
  rdDst  : Bool
  imm    : ImmKind
  dist   : Nat
  fpDst  : Bool
  res    : Nat → Nat → Nat → Nat × Nat × BitVec 5

/-- The common course of an M-slot operation (R78, R82, R107, R109): legality of the specifiers, faults in the order DST,
SRC1, SRC2, then the result, the flags and the register updates. -/
def mOut (c : Ctx) (w : OpWord) (ok : Bool) (f : MForm) : OpOut :=
  let legal := ok && spLegal true c.ext w.dst f.dw && spLegal false c.ext w.src1 f.w1 &&
    (match f.w2 with | some w2 => spLegal false c.ext w.src2 w2 | none => decide (w.src2 = 0))
  if !legal then { illegal := true }
  else
    let d := formDst c w.dst f.dw f.rdDst
    let a := readSrc c f.imm w.src1 f.w1
    let b := match f.w2 with
      | some w2 => readSrc c f.imm w.src2 w2
      | none => { val := 0, upd := [], touch := [], fault := none }
    let r := f.res (if f.rdDst then dstValue c d.dest f.dw else 0) a.val b.val
    { fault := firstFault [d.fault, a.fault, b.fault]
      touch := d.touch ++ a.touch ++ b.touch
      wr := atDist f.dist ((if f.fpDst then fpResult d.dest f.dw r.1 else intResult d.dest f.dw r.1) ++ istatWr r.2.1 ++
              flagWr c w.mSlot r.2.2)
            ++ atDist 2 (d.upd ++ a.upd ++ b.upd) }

end Sys2Proof.Machine
end

