-- ==== Sys2Proof/Machine/Flags.lean ====
section
/-! DEFINITION. Integer and fixed-point results with their sticky flags, as exact integers narrowed once (R114 to R118, R121,
R123, R124). -/

namespace Sys2Proof.Machine

/-- ISTAT.SAT. -/
def iSAT : Nat := 1
/-- ISTAT.OV. -/
def iOV : Nat := 2
/-- ISTAT.DZ. -/
def iDZ : Nat := 4

/-- The bounds of a signed width. -/
def sMax (w : Nat) : Int := 2 ^ (w - 1) - 1
/-- The least signed value of a width. -/
def sMin (w : Nat) : Int := -(2 ^ (w - 1))

/-- Wrap an exact result to w bits and set OV when it does not fit (R115). -/
def wrapOv (w : Nat) (z : Int) : Nat × Nat := (ofInt w z, if z < sMin w ∨ sMax w < z then iOV else 0)

/-- Clamp an exact result to w bits and set SAT when the clamp changes it (R116). -/
def satClamp (w : Nat) (z : Int) : Nat × Nat :=
  if z < sMin w then (ofInt w (sMin w), iSAT) else if sMax w < z then (ofInt w (sMax w), iSAT) else (ofInt w z, 0)

/-- ADD (R115). -/
def addR (w a b : Nat) : Nat × Nat := wrapOv w (toInt w a + toInt w b)
/-- SUB (R115). -/
def subR (w a b : Nat) : Nat × Nat := wrapOv w (toInt w a - toInt w b)
/-- NEG (R115). -/
def negR (w a : Nat) : Nat × Nat := wrapOv w (-toInt w a)
/-- ADDS (R116). -/
def addsR (w a b : Nat) : Nat × Nat := satClamp w (toInt w a + toInt w b)
/-- SUBS (R116). -/
def subsR (w a b : Nat) : Nat × Nat := satClamp w (toInt w a - toInt w b)
/-- ABSS (R116). -/
def abssR (w a : Nat) : Nat × Nat := satClamp w ((toInt w a).natAbs : Int)
/-- ANDN (R114). -/
def andnR (w a b : Nat) : Nat := Nat.land (a % 2 ^ w) (onesBelow w - b % 2 ^ w)
/-- SHL: a count of w or more gives 0 (R115). -/
def shlR (w a b : Nat) : Nat := if w ≤ b then 0 else (a * 2 ^ b) % 2 ^ w
/-- SHR: zero fill (R115). -/
def shrR (w a b : Nat) : Nat := if w ≤ b then 0 else (a % 2 ^ w) >>> b
/-- SAR: sign fill; a count of w or more gives all sign bits (R115). -/
def sarR (w a b : Nat) : Nat := ofInt w (toInt w a >>> min b w)
/-- SHLS: saturating shift left (R115, R116). -/
def shlsR (w a b : Nat) : Nat × Nat := satClamp w (toInt w a * 2 ^ min b w)
/-- MIN and MAX, signed (R114). -/
def minR (w a b : Nat) : Nat := if toInt w a ≤ toInt w b then a % 2 ^ w else b % 2 ^ w
/-- Signed maximum. -/
def maxR (w a b : Nat) : Nat := if toInt w a ≤ toInt w b then b % 2 ^ w else a % 2 ^ w
/-- MULQ15: round half up at bit 15, saturate (R116). -/
def mulq15R (a b : Nat) : Nat × Nat := satClamp 16 ((toInt 16 a * toInt 16 b + 0x4000) >>> 15)
/-- MACQ15: exact Q31 multiply-accumulate (R116). -/
def macq15R (d a b : Nat) : Nat × Nat := satClamp 32 (toInt 32 d + 2 * (toInt 16 a * toInt 16 b))
/-- RNDQ (R116). -/
def rndqR (a : Nat) : Nat × Nat := satClamp 16 ((toInt 32 a + 0x8000) >>> 16)

/-- The test of a CMP condition (Table 4-9). -/
def cmpTest (w cond a b : Nat) : Bool :=
  let x := a % 2 ^ w
  let y := b % 2 ^ w
  match cond with
  | 0x0 => decide (x = y)
  | 0x1 => decide (x ≠ y)
  | 0x2 => decide (toInt w a < toInt w b)
  | 0x3 => decide (toInt w a ≤ toInt w b)
  | 0x4 => decide (toInt w b < toInt w a)
  | 0x5 => decide (toInt w b ≤ toInt w a)
  | 0x6 => decide (x < y)
  | 0x7 => decide (x ≤ y)
  | 0x8 => decide (y < x)
  | 0x9 => decide (y ≤ x)
  | 0xA => decide (Nat.land x y = 0)
  | _ => decide (Nat.land x y ≠ 0)

/-- COMB of Table 4-8: how a test combines with the old predicate (R117). -/
def combine (comb : Nat) (test old : Bool) : Bool :=
  match comb with
  | 0 => test
  | 1 => test && old
  | _ => test || old

/-- PLOG's functions (R118). -/
def plogFn (fn : Nat) (ps pt : Bool) : Bool :=
  match fn with
  | 0 => ps && pt
  | 1 => ps || pt
  | 2 => ps != pt
  | 3 => ps && !pt
  | 4 => !ps
  | 5 => true
  | _ => false

/-- IMUL results by L opcode: the destination width in bytes, the value and the flags (R121, Table 4-11). -/
def imulR (opc a b : Nat) : Nat × Nat × Nat :=
  match opc with
  | 0x10 => (8, ofInt 64 (toInt 32 a * toInt 32 b), 0)
  | 0x11 => (8, (a % 2 ^ 32) * (b % 2 ^ 32), 0)
  | 0x12 => (8, ((a % 2 ^ 64) * (b % 2 ^ 64)) % 2 ^ 64, 0)
  | 0x13 => (8, ofInt 64 ((toInt 64 a * toInt 64 b) >>> 64), 0)
  | 0x14 => (8, ((a % 2 ^ 64) * (b % 2 ^ 64)) >>> 64, 0)
  | _ => (4, satClamp 32 ((toInt 32 a * toInt 32 b + 2 ^ 30) >>> 31))

/-- IDIV: quotient, remainder and flags at a width in bits (R123, R124, Table 4-13). -/
def idivR (signed : Bool) (w a b : Nat) : Nat × Nat × Nat :=
  if b % 2 ^ w = 0 then (onesBelow w, a % 2 ^ w, iDZ)
  else if signed then
    if toInt w a = sMin w ∧ toInt w b = -1 then (a % 2 ^ w, 0, iOV)
    else (ofInt w (Int.tdiv (toInt w a) (toInt w b)), ofInt w (Int.tmod (toInt w a) (toInt w b)), 0)
  else ((a % 2 ^ w) / (b % 2 ^ w), (a % 2 ^ w) % (b % 2 ^ w), 0)

end Sys2Proof.Machine
end

