-- ==== Sys2Proof/Machine/IntOps.lean ====
section
/-! DEFINITION. What each integer, fixed-point, predicate and address operation does in its frond (slots M0, M1 and A; R112 to
R118). -/

namespace Sys2Proof.Machine

/-- The form of an integer operation with two sources at one width. -/
def int2 (wb : Nat) (f : Nat → Nat → Nat × Nat) : MForm :=
  { dw := wb, w1 := wb, w2 := some wb, rdDst := false, imm := .int, dist := 3, fpDst := false,
    res := fun _ a b => ((f a b).1, (f a b).2, 0) }

/-- The form of an integer operation with one source. -/
def int1 (wb w1 : Nat) (f : Nat → Nat × Nat) : MForm :=
  { dw := wb, w1 := w1, w2 := none, rdDst := false, imm := .int, dist := 3, fpDst := false,
    res := fun _ a _ => ((f a).1, (f a).2, 0) }

/-- A result without flags. -/
def plain (x : Nat) : Nat × Nat := (x, 0)

/-- SEXT (R114): SRC1 is read at half the width; W = 0b00 is unassigned. -/
def sextOut (c : Ctx) (w : OpWord) : OpOut :=
  mOut c w (decide (w.w ≠ 0)) (int1 w.wb (w.wb / 2) fun a => plain (sextTo (4 * w.wb) (8 * w.wb) a))

/-- ZEXT (R114). -/
def zextOut (c : Ctx) (w : OpWord) : OpOut :=
  mOut c w (decide (w.w ≠ 0)) (int1 w.wb (w.wb / 2) fun a => plain (a % 2 ^ (4 * w.wb)))

/-- MOV (R114). -/
def movOut (c : Ctx) (w : OpWord) : OpOut := mOut c w true (int1 w.wb w.wb plain)

/-- ADD (R115). -/
def addOut (c : Ctx) (w : OpWord) : OpOut := mOut c w true (int2 w.wb (addR (8 * w.wb)))
/-- SUB (R115). -/
def subOut (c : Ctx) (w : OpWord) : OpOut := mOut c w true (int2 w.wb (subR (8 * w.wb)))
/-- ADDS (R116). -/
def addsOut (c : Ctx) (w : OpWord) : OpOut := mOut c w true (int2 w.wb (addsR (8 * w.wb)))
/-- SUBS (R116). -/
def subsOut (c : Ctx) (w : OpWord) : OpOut := mOut c w true (int2 w.wb (subsR (8 * w.wb)))
/-- NEG (R115). -/
def negOut (c : Ctx) (w : OpWord) : OpOut := mOut c w true (int1 w.wb w.wb (negR (8 * w.wb)))
/-- ABSS (R116). -/
def abssOut (c : Ctx) (w : OpWord) : OpOut := mOut c w true (int1 w.wb w.wb (abssR (8 * w.wb)))
/-- AND (R114). -/
def andOut (c : Ctx) (w : OpWord) : OpOut := mOut c w true (int2 w.wb fun a b => plain (Nat.land a b))
/-- OR (R114). -/
def orOut (c : Ctx) (w : OpWord) : OpOut := mOut c w true (int2 w.wb fun a b => plain (Nat.lor a b))
/-- XOR (R114). -/
def xorOut (c : Ctx) (w : OpWord) : OpOut := mOut c w true (int2 w.wb fun a b => plain (Nat.xor a b))
/-- ANDN (R114). -/
def andnOut (c : Ctx) (w : OpWord) : OpOut := mOut c w true (int2 w.wb fun a b => plain (andnR (8 * w.wb) a b))
/-- SHL (R115). -/
def shlOut (c : Ctx) (w : OpWord) : OpOut := mOut c w true (int2 w.wb fun a b => plain (shlR (8 * w.wb) a b))
/-- SHR (R115). -/
def shrOut (c : Ctx) (w : OpWord) : OpOut := mOut c w true (int2 w.wb fun a b => plain (shrR (8 * w.wb) a b))
/-- SAR (R115). -/
def sarOut (c : Ctx) (w : OpWord) : OpOut := mOut c w true (int2 w.wb fun a b => plain (sarR (8 * w.wb) a b))
/-- SHLS (R115, R116). -/
def shlsOut (c : Ctx) (w : OpWord) : OpOut := mOut c w true (int2 w.wb (shlsR (8 * w.wb)))
/-- MIN (R114). -/
def minOut (c : Ctx) (w : OpWord) : OpOut := mOut c w true (int2 w.wb fun a b => plain (minR (8 * w.wb) a b))
/-- MAX (R114). -/
def maxOut (c : Ctx) (w : OpWord) : OpOut := mOut c w true (int2 w.wb fun a b => plain (maxR (8 * w.wb) a b))
/-- MINU (R114). -/
def minuOut (c : Ctx) (w : OpWord) : OpOut := mOut c w true (int2 w.wb fun a b => plain (min a b))
/-- MAXU (R114). -/
def maxuOut (c : Ctx) (w : OpWord) : OpOut := mOut c w true (int2 w.wb fun a b => plain (max a b))
/-- MULQ15 (R116): W = 0b01 only. -/
def mulq15Out (c : Ctx) (w : OpWord) : OpOut := mOut c w (decide (w.w = 1)) (int2 2 mulq15R)
/-- RNDQ (R116): W = 0b01, SRC1 read at 32 bits. -/
def rndqOut (c : Ctx) (w : OpWord) : OpOut := mOut c w (decide (w.w = 1)) (int1 2 4 rndqR)
/-- MACQ15 (R116): W = 0b10, 16-bit sources, DST also read. -/
def macq15Out (c : Ctx) (w : OpWord) : OpOut :=
  mOut c w (decide (w.w = 2))
    { dw := 4, w1 := 2, w2 := some 2, rdDst := true, imm := .int, dist := 3, fpDst := false,
      res := fun d a b => ((macq15R d a b).1, (macq15R d a b).2, 0) }

/-- A predicate of a unit. -/
def Tile.pr (t : Tile) (i : Nat) : Bool := t.p.getLsbD i

/-- The DST field of CMP, PLOG and FCMP is well formed: reserved bits zero, COMB not 0b11 (Table 4-8). -/
def cmpDstOk (d : Nat) : Bool :=
  decide (bitsOf d 15 12 = 0) && decide (bitsOf d 7 6 = 0) && decide (bitsOf d 5 4 ≠ 3) && decide (bitsOf d 3 3 = 0)

/-- The predicate result of a compare (R117). -/
def predWr (c : Ctx) (d : Nat) (test : Bool) : List (Nat × Wr) :=
  [(2, .pred (BitVec.ofNat 3 (bitsOf d 2 0)) (combine (bitsOf d 5 4) test (c.t.pr (bitsOf d 2 0))))]

/-- CMP (R117). -/
def cmpOut (c : Ctx) (w : OpWord) : OpOut :=
  if !(cmpDstOk w.dst && decide (bitsOf w.dst 11 8 < 0xC) && spLegal false c.ext w.src1 w.wb && spLegal false c.ext w.src2 w.wb)
  then { illegal := true }
  else
    let a := readSrc c .int w.src1 w.wb
    let b := readSrc c .int w.src2 w.wb
    { fault := firstFault [a.fault, b.fault], touch := a.touch ++ b.touch
      wr := predWr c w.dst (cmpTest (8 * w.wb) (bitsOf w.dst 11 8) a.val b.val) ++ atDist 2 (a.upd ++ b.upd) }

/-- PLOG (R118): W = 0b00 only. -/
def plogOut (c : Ctx) (w : OpWord) : OpOut :=
  if !(decide (w.w = 0) && cmpDstOk w.dst && decide (bitsOf w.dst 11 8 = 0) && decide (bitsOf w.src1 15 3 = 0)
      && decide (bitsOf w.src2 15 12 = 0) && decide (bitsOf w.src2 7 3 = 0) && decide (bitsOf w.src2 11 8 < 7))
  then { illegal := true }
  else { wr := predWr c w.dst (plogFn (bitsOf w.src2 11 8) (c.t.pr (bitsOf w.src1 2 0)) (c.t.pr (bitsOf w.src2 2 0))) }

/-! ## The address unit (R111 to R113) -/

/-- A register field: class and index; for cb and cl, index bit 3 is reserved (R111). -/
def aFieldOk (x : Nat) : Bool := decide (bitsOf x 5 4 < 2) || decide (bitsOf x 3 3 = 0)
/-- D field. -/
def aD (w : OpWord) : Nat := w.bits 47 42
/-- S field. -/
def aS (w : OpWord) : Nat := w.bits 41 36
/-- T field. -/
def aT (w : OpWord) : Nat := w.bits 35 30
/-- Read a register field. -/
def aRead (c : Ctx) (x : Nat) : Word := c.t.areg (BitVec.ofNat 2 (bitsOf x 5 4)) (BitVec.ofNat 4 (bitsOf x 3 0))
/-- Write a register field at distance 2. -/
def aWrite (x : Nat) (v : Word) : List (Nat × Wr) :=
  [(2, .areg (BitVec.ofNat 2 (bitsOf x 5 4)) (BitVec.ofNat 4 (bitsOf x 3 0)) v)]
/-- IMM16 sign-extended. -/
def aImm (w : OpWord) : Word := BitVec.ofNat 32 (sextTo 16 32 (w.bits 15 0))

/-- The common course of an A-slot operation: which fields are used, the rest reserved (R112). -/
def aOut (c : Ctx) (w : OpWord) (useD useS useT useImm useExt : Bool) (ok : Bool) (wr : List (Nat × Wr)) : OpOut :=
  let fieldOk := fun (use : Bool) (x : Nat) => if use then aFieldOk x else decide (x = 0)
  if !(fieldOk useD (aD w) && fieldOk useS (aS w) && fieldOk useT (aT w) && decide (w.bits 29 16 = 0)
      && (useImm || decide (w.bits 15 0 = 0)) && (!useExt || c.ext.isSome) && ok && decide (w.w = 0))
  then { illegal := true }
  else { wr := wr }

/-- AMOVI. -/
def amoviOut (c : Ctx) (w : OpWord) : OpOut := aOut c w true false false true false true (aWrite (aD w) (aImm w))
/-- AMOVX. -/
def amovxOut (c : Ctx) (w : OpWord) : OpOut := aOut c w true false false false true true (aWrite (aD w) (c.ext.getD 0))
/-- AMOV. -/
def amovOut (c : Ctx) (w : OpWord) : OpOut := aOut c w true true false false false true (aWrite (aD w) (aRead c (aS w)))
/-- AADDI. -/
def aaddiOut (c : Ctx) (w : OpWord) : OpOut := aOut c w true true false true false true (aWrite (aD w) (aRead c (aS w) + aImm w))
/-- AADD. -/
def aaddOut (c : Ctx) (w : OpWord) : OpOut :=
  aOut c w true true true false false true (aWrite (aD w) (aRead c (aS w) + aRead c (aT w)))
/-- ASUB. -/
def asubOut (c : Ctx) (w : OpWord) : OpOut :=
  aOut c w true true true false false true (aWrite (aD w) (aRead c (aS w) - aRead c (aT w)))
/-- ASHLI: IMM16[15:5] zero. -/
def ashliOut (c : Ctx) (w : OpWord) : OpOut :=
  aOut c w true true false true false (decide (w.bits 15 5 = 0)) (aWrite (aD w) (aRead c (aS w) <<< w.bits 4 0))
/-- AADDX. -/
def aaddxOut (c : Ctx) (w : OpWord) : OpOut :=
  aOut c w true true false false true true (aWrite (aD w) (aRead c (aS w) + c.ext.getD 0))
/-- AGET (R113): a 32-bit lane into a register. -/
def agetOut (c : Ctx) (w : OpWord) : OpOut :=
  aOut c w true false false true false (decide (w.bits 6 0 = 0))
    (aWrite (aD w) ((c.t.vreg (BitVec.ofNat 5 (w.bits 15 11))).extractLsb' (32 * w.bits 10 7) 32))
/-- APUT (R113): a register into a 32-bit lane at distance 3. -/
def aputOut (c : Ctx) (w : OpWord) : OpOut :=
  aOut c w false true false true false (decide (w.bits 6 0 = 0))
    [(3, .vec (BitVec.ofNat 5 (w.bits 15 11)) (laneMask 32 (32 * w.bits 10 7))
          (BitVec.ofNat 512 ((aRead c (aS w)).toNat * 2 ^ (32 * w.bits 10 7))))]

/-! ## The X slot (R80, R179) -/

/-- EXT (R80): bits [47:32] zero, unguarded; it has no effect of its own. -/
def extOut (_c : Ctx) (w : OpWord) : OpOut :=
  { illegal := w.ge || w.gn || decide (w.gp ≠ 0) || decide (w.bits 47 32 ≠ 0) || decide (w.w ≠ 0) }

/-- The IMM of an EXT word. -/
def extImm (w : OpWord) : Word := BitVec.ofNat 32 (w.bits 31 0)

/-- FMOV.D (R179). -/
def fmovDOut (c : Ctx) (w : OpWord) : OpOut :=
  if decide (w.bits 37 0 ≠ 0) || decide (w.w ≠ 0) then { illegal := true }
  else { wr := [(2, .vec (BitVec.ofNat 5 (w.bits 47 43)) (laneMask 64 0)
                  (BitVec.ofNat 512 ((c.t.vreg (BitVec.ofNat 5 (w.bits 42 38))).toNat % 2 ^ 64)))] }

/-- FMOV.S (R179): boxed. -/
def fmovSOut (c : Ctx) (w : OpWord) : OpOut :=
  if decide (w.bits 37 0 ≠ 0) || decide (w.w ≠ 0) then { illegal := true }
  else { wr := [(2, .vec (BitVec.ofNat 5 (w.bits 47 43)) (laneMask 64 0)
                  (BitVec.ofNat 512 ((c.t.vreg (BitVec.ofNat 5 (w.bits 42 38))).toNat % 2 ^ 32 + 0xFFFFFFFF00000000)))] }

/-! ## Scalar floating point (R177, R178) -/

/-- The format of a width W of 0b10 or 0b11. -/
def wFmt (w : OpWord) : Fmt := if w.w = 3 then f64 else f32

/-- W selects binary32 or binary64 (R177). -/
def wIsFp (w : OpWord) : Bool := decide (2 ≤ w.w.toNat)

/-- The form of a floating-point operation with two sources. -/
def fp2 (w : OpWord) (rd : Bool) (f : Nat → Nat → Nat → FRes) : MForm :=
  { dw := w.wb, w1 := w.wb, w2 := some w.wb, rdDst := rd, imm := .fp (wFmt w), dist := 5, fpDst := true,
    res := fun d a b => ((f d a b).bits, 0, (f d a b).flags) }

/-- FADD. -/
def faddOut (c : Ctx) (w : OpWord) : OpOut := mOut c w (wIsFp w) (fp2 w false fun _ a b => (wFmt w).add c.t.fmode a b)
/-- FSUB. -/
def fsubOut (c : Ctx) (w : OpWord) : OpOut := mOut c w (wIsFp w) (fp2 w false fun _ a b => (wFmt w).sub c.t.fmode a b)
/-- FMUL. -/
def fmulOut (c : Ctx) (w : OpWord) : OpOut := mOut c w (wIsFp w) (fp2 w false fun _ a b => (wFmt w).mul c.t.fmode a b)
/-- FMA: DST ← SRC1 × SRC2 + DST with one rounding. -/
def fmaOut (c : Ctx) (w : OpWord) : OpOut := mOut c w (wIsFp w) (fp2 w true fun d a b => (wFmt w).fma c.t.fmode false a b d)
/-- FNMS: DST ← −(SRC1 × SRC2) + DST with one rounding. -/
def fnmsOut (c : Ctx) (w : OpWord) : OpOut := mOut c w (wIsFp w) (fp2 w true fun d a b => (wFmt w).fma c.t.fmode true a b d)

/-- FCMP (R177, R188): COND 0x0-0x7. -/
def fcmpOut (c : Ctx) (w : OpWord) : OpOut :=
  if !(wIsFp w && cmpDstOk w.dst && decide (bitsOf w.dst 11 8 < 8) && spLegal false c.ext w.src1 w.wb
      && spLegal false c.ext w.src2 w.wb)
  then { illegal := true }
  else
    let a := readSrc c (.fp (wFmt w)) w.src1 w.wb
    let b := readSrc c (.fp (wFmt w)) w.src2 w.wb
    let r := (wFmt w).cmp c.t.fmode (bitsOf w.dst 11 8) a.val b.val
    { fault := firstFault [a.fault, b.fault], touch := a.touch ++ b.touch
      wr := predWr c w.dst r.1 ++ atDist 2 (flagWr c w.mSlot r.2) ++ atDist 2 (a.upd ++ b.upd) }

/-- A FUN operation (R178): the destination width, the source width and how SRC1 reads its immediates, the function code
in SRC2[5:0] with SRC2[15:6] reserved, and the result with its flags. -/
def funOut (c : Ctx) (w : OpWord) (code : Nat) (ok : Bool) (dw sw : Nat) (imm : ImmKind) (fpDst : Bool)
    (f : Nat → Nat × Nat × BitVec 5) : OpOut :=
  if !(ok && decide (w.wb = dw) && decide (w.src2 = code) && spLegal true c.ext w.dst dw && spLegal false c.ext w.src1 sw)
  then { illegal := true }
  else
    let d := formDst c w.dst dw false
    let a := readSrc c imm w.src1 sw
    let r := f a.val
    { fault := firstFault [d.fault, a.fault], touch := a.touch
      wr := atDist 5 ((if fpDst then fpResult d.dest dw r.1 else intResult d.dest dw r.1) ++ istatWr r.2.1 ++ flagWr c w.mSlot r.2.2)
            ++ atDist 2 (d.upd ++ a.upd) }

/-- A result with floating-point flags only. -/
def fres (r : FRes) : Nat × Nat × BitVec 5 := (r.bits, 0, r.flags)

/-- FNEG: the sign bit inverted, every other bit copied (R178). -/
def fnegOut (c : Ctx) (w : OpWord) : OpOut :=
  funOut c w 0x00 (wIsFp w) w.wb w.wb (.fp (wFmt w)) true fun a => (Nat.xor a (2 ^ (8 * w.wb - 1)), 0, 0)
/-- FABS: the sign bit cleared. -/
def fabsOut (c : Ctx) (w : OpWord) : OpOut :=
  funOut c w 0x01 (wIsFp w) w.wb w.wb (.fp (wFmt w)) true fun a => (a % 2 ^ (8 * w.wb - 1), 0, 0)
/-- FCVT.D.S. -/
def fcvtDSOut (c : Ctx) (w : OpWord) : OpOut := funOut c w 0x02 true 8 4 (.fp f32) true fun a => fres (fcvt f32 f64 c.t.fmode a)
/-- FCVT.S.D. -/
def fcvtSDOut (c : Ctx) (w : OpWord) : OpOut := funOut c w 0x03 true 4 8 (.fp f64) true fun a => fres (fcvt f64 f32 c.t.fmode a)
/-- FCVT.H.S. -/
def fcvtHSOut (c : Ctx) (w : OpWord) : OpOut := funOut c w 0x04 true 2 4 (.fp f32) true fun a => fres (fcvt f32 f16 c.t.fmode a)
/-- FCVT.S.H. -/
def fcvtSHOut (c : Ctx) (w : OpWord) : OpOut := funOut c w 0x05 true 4 2 (.fp f16) true fun a => fres (fcvt f16 f32 c.t.fmode a)
/-- FCVT.I32.S. -/
def fcvtI32SOut (c : Ctx) (w : OpWord) : OpOut := funOut c w 0x06 true 4 4 (.fp f32) false fun a => fres (f32.toIntW c.t.fmode 32 a)
/-- FCVT.I32.D. -/
def fcvtI32DOut (c : Ctx) (w : OpWord) : OpOut := funOut c w 0x07 true 4 8 (.fp f64) false fun a => fres (f64.toIntW c.t.fmode 32 a)
/-- FCVT.I64.D. -/
def fcvtI64DOut (c : Ctx) (w : OpWord) : OpOut := funOut c w 0x08 true 8 8 (.fp f64) false fun a => fres (f64.toIntW c.t.fmode 64 a)
/-- FCVT.S.I32. -/
def fcvtSI32Out (c : Ctx) (w : OpWord) : OpOut := funOut c w 0x09 true 4 4 .int true fun a => fres (f32.ofIntW c.t.fmode 32 a)
/-- FCVT.D.I32. -/
def fcvtDI32Out (c : Ctx) (w : OpWord) : OpOut := funOut c w 0x0A true 8 4 .int true fun a => fres (f64.ofIntW c.t.fmode 32 a)
/-- FCVT.D.I64. -/
def fcvtDI64Out (c : Ctx) (w : OpWord) : OpOut := funOut c w 0x0B true 8 8 .int true fun a => fres (f64.ofIntW c.t.fmode 64 a)
/-- FCVT.Q31.S: SAT retires with the result (R187). -/
def fcvtQ31SOut (c : Ctx) (w : OpWord) : OpOut :=
  funOut c w 0x0C true 4 4 (.fp f32) false fun a => ((toQ31 c.t.fmode a).1, if (toQ31 c.t.fmode a).2.1 then iSAT else 0, (toQ31 c.t.fmode a).2.2)
/-- FCVT.S.Q31. -/
def fcvtSQ31Out (c : Ctx) (w : OpWord) : OpOut := funOut c w 0x0D true 4 4 .int true fun a => fres (ofQ31 c.t.fmode a)

end Sys2Proof.Machine
end

