-- ==== Sys2Proof/Machine/VecOps.lean ====
section
/-! DEFINITION. What each vector operation does in its frond (slots V0 and V1; R155 to R173, R180, R189). -/

namespace Sys2Proof.Machine

/-- vl in force (R156). -/
def Tile.vl (t : Tile) : Nat := fld t.vcfg 6 0
/-- SEW code in force. -/
def Tile.sew (t : Tile) : Nat := fld t.vcfg 9 8
/-- Element width in bytes in force (Table 6-1). -/
def Tile.eb (t : Tile) : Nat := 2 ^ t.sew

/-- Element i is active under mask code MK (R163). -/
def isActive (vl mk : Nat) (v0 : VReg) (i : Nat) : Bool :=
  decide (i < vl) && (match mk with | 0 => true | 1 => v0.getLsbD i | _ => !v0.getLsbD i)

/-- The active elements in ascending order. -/
def activeList (vl mk : Nat) (v0 : VReg) : List Nat := (upFrom 0 64).filter (isActive vl mk v0)

/-- Element i of a register at a width in bits (R156). -/
def velem (v : VReg) (wbits i : Nat) : Nat := bitsOf v.toNat (wbits * (i + 1) - 1) (wbits * i)

/-- MK of the arithmetic layout. -/
def vMk (w : OpWord) : Nat := w.bits 32 31

/-- The slot code of a V-slot operation. -/
def vSlot (w : OpWord) : Nat := if w.second then 5 else 4

/-- The arithmetic layout is well formed: which fields are used, the rest reserved (Table 6-4, R160, R162). -/
def vFieldsOk (w : OpWord) (vs1 vs2 cmp code : Bool) : Bool :=
  (vs1 || decide (w.bits 42 38 = 0)) && (vs2 || (decide (w.bits 37 33 = 0) && decide (w.bits 30 30 = 0)))
  && (cmp || decide (w.bits 29 22 = 0)) && (!cmp || decide (w.bits 25 25 = 1) || decide (w.bits 24 22 = 0))
  && (code || decide (w.bits 21 16 = 0)) && decide (w.bits 15 0 = 0) && decide (vMk w ≠ 3) && decide (w.w = 0)

/-- SRC1, SRC2 and old destination elements of an operation at one width. -/
def vs1At (c : Ctx) (w : OpWord) (wb i : Nat) : Nat := velem (c.t.vreg (BitVec.ofNat 5 (w.bits 42 38))) (8 * wb) i
/-- Element i of VS2, or its element 0 under BC (R160). -/
def vs2At (c : Ctx) (w : OpWord) (wb i : Nat) : Nat :=
  velem (c.t.vreg (BitVec.ofNat 5 (w.bits 37 33))) (8 * wb) (if w.bits 30 30 = 1 then 0 else i)
/-- Element i of VD. -/
def vdAt (c : Ctx) (w : OpWord) (wb i : Nat) : Nat := velem (c.t.vreg (BitVec.ofNat 5 (w.bits 47 43))) (8 * wb) i

/-- Collected element results: the covered bits, their value, and the flags of all active elements (R161, R191). -/
structure VAcc where
  mask  : Nat
  val   : Nat
  ist   : Nat
  fl    : BitVec 5

/-- Apply an element function to the active elements; element i lands at i × dw bytes. -/
def vCollect (els : List Nat) (dw : Nat) (f : Nat → Nat × Nat × BitVec 5) : VAcc :=
  els.foldl (fun a i =>
    let r := f i
    { mask := a.mask + onesBelow (8 * dw) * 2 ^ (8 * dw * i), val := a.val + (r.1 % 2 ^ (8 * dw)) * 2 ^ (8 * dw * i),
      ist := Nat.lor a.ist r.2.1, fl := a.fl ||| r.2.2 }) { mask := 0, val := 0, ist := 0, fl := 0 }

/-- The common course of a vector arithmetic operation: results of the active elements into VD (R163). -/
def vOut (c : Ctx) (w : OpWord) (ok : Bool) (dist dw : Nat) (f : Nat → Nat × Nat × BitVec 5) : OpOut :=
  if !ok then { illegal := true }
  else
    let els := activeList c.t.vl (vMk w) (c.t.vreg 0)
    let r := vCollect els dw f
    if els.isEmpty then {}
    else { wr := atDist dist ([.vec (BitVec.ofNat 5 (w.bits 47 43)) (BitVec.ofNat 512 r.mask) (BitVec.ofNat 512 r.val)]
                    ++ istatWr r.ist ++ flagWr c (vSlot w) r.fl) }

/-- An integer operation on two vectors at distance 2. -/
def vInt2 (c : Ctx) (w : OpWord) (f : Nat → Nat → Nat → Nat × Nat) : OpOut :=
  vOut c w (vFieldsOk w true true false false) 2 c.t.eb
    fun i => ((f (8 * c.t.eb) (vs1At c w c.t.eb i) (vs2At c w c.t.eb i)).1, (f (8 * c.t.eb) (vs1At c w c.t.eb i) (vs2At c w c.t.eb i)).2, 0)

/-- SETVL (R157, Table 6-2). -/
def setvlOut (c : Ctx) (w : OpWord) : OpOut :=
  let src := w.bits 40 39
  let ok := (decide (w.bits 47 47 = 1) || decide (w.bits 46 43 = 0)) && (decide (src = 0) || decide (w.bits 38 35 = 0))
    && decide (w.bits 34 16 = 0) && (decide (src = 1) || decide (w.bits 15 0 = 0)) && (decide (src ≠ 2) || c.ext.isSome)
    && decide (w.w = 0)
  if !ok then { illegal := true }
  else
    let sew := w.bits 42 41
    let avl := match src with
      | 0 => (c.t.areg 0 (BitVec.ofNat 4 (w.bits 38 35))).toNat
      | 1 => w.bits 15 0
      | 2 => (c.ext.getD 0).toNat
      | _ => vlMax sew
    let vl := min avl (vlMax sew)
    { wr := (2, .vcfg (BitVec.ofNat 32 (vl + sew * 2 ^ 8))) ::
        (if w.bits 47 47 = 1 then [(2, .areg 0 (BitVec.ofNat 4 (w.bits 46 43)) (BitVec.ofNat 32 vl))] else []) }

/-- VMOV. -/
def vmovOut (c : Ctx) (w : OpWord) : OpOut :=
  vOut c w (vFieldsOk w true false false false) 2 c.t.eb fun i => (vs1At c w c.t.eb i, 0, 0)
/-- VID. -/
def vidOut (c : Ctx) (w : OpWord) : OpOut := vOut c w (vFieldsOk w false false false false) 2 c.t.eb fun i => (i, 0, 0)
/-- VADD. -/
def vaddOut (c : Ctx) (w : OpWord) : OpOut := vInt2 c w addR
/-- VSUB. -/
def vsubOut (c : Ctx) (w : OpWord) : OpOut := vInt2 c w subR
/-- VADDS. -/
def vaddsOut (c : Ctx) (w : OpWord) : OpOut := vInt2 c w addsR
/-- VSUBS. -/
def vsubsOut (c : Ctx) (w : OpWord) : OpOut := vInt2 c w subsR
/-- VAND. -/
def vandOut (c : Ctx) (w : OpWord) : OpOut := vInt2 c w fun _ a b => plain (Nat.land a b)
/-- VOR. -/
def vorOut (c : Ctx) (w : OpWord) : OpOut := vInt2 c w fun _ a b => plain (Nat.lor a b)
/-- VXOR. -/
def vxorOut (c : Ctx) (w : OpWord) : OpOut := vInt2 c w fun _ a b => plain (Nat.xor a b)
/-- VSHL. -/
def vshlOut (c : Ctx) (w : OpWord) : OpOut := vInt2 c w fun n a b => plain (shlR n a b)
/-- VSHR. -/
def vshrOut (c : Ctx) (w : OpWord) : OpOut := vInt2 c w fun n a b => plain (shrR n a b)
/-- VSAR. -/
def vsarOut (c : Ctx) (w : OpWord) : OpOut := vInt2 c w fun n a b => plain (sarR n a b)
/-- VMIN. -/
def vminOut (c : Ctx) (w : OpWord) : OpOut := vInt2 c w fun n a b => plain (minR n a b)
/-- VMAX. -/
def vmaxOut (c : Ctx) (w : OpWord) : OpOut := vInt2 c w fun n a b => plain (maxR n a b)
/-- VMULQ15: SEW 16 only. -/
def vmulq15Out (c : Ctx) (w : OpWord) : OpOut :=
  vOut c w (vFieldsOk w true true false false && decide (c.t.sew = 1)) 2 2
    fun i => ((mulq15R (vs1At c w 2 i) (vs2At c w 2 i)).1, (mulq15R (vs1At c w 2 i) (vs2At c w 2 i)).2, 0)
/-- VMERGE: MK must be 0b00. -/
def vmergeOut (c : Ctx) (w : OpWord) : OpOut :=
  vOut c w (vFieldsOk w true true false false && decide (vMk w = 0)) 2 c.t.eb
    fun i => (if (c.t.vreg 0).getLsbD i then vs1At c w c.t.eb i else vs2At c w c.t.eb i, 0, 0)

/-- A vector compare (R164): a mask into bits [63:0] of VD, and PD when PWE = 1.  DEDUCED (log 69): with no active element no register element is
written (R158), and bits [63:0] of VD hold elements; PD becomes 0, which R158 leaves to R164. -/
def vCompare (c : Ctx) (w : OpWord) (ok : Bool) (f : Nat → Bool × BitVec 5) : OpOut :=
  if !(ok && vFieldsOk w true true true false) then { illegal := true }
  else
    let els := activeList c.t.vl (vMk w) (c.t.vreg 0)
    if els.isEmpty then
      { wr := if w.bits 25 25 = 1 then [(2, .pred (BitVec.ofNat 3 (w.bits 24 22)) false)] else [] }
    else
      let m := els.foldl (fun n i => n + b2n (f i).1 * 2 ^ i) 0
      let fl := els.foldl (fun x i => x ||| (f i).2) 0
      { wr := atDist 2 ([.vec (BitVec.ofNat 5 (w.bits 47 43)) (laneMask 64 0) (BitVec.ofNat 512 m)]
                ++ (if w.bits 25 25 = 1 then [.pred (BitVec.ofNat 3 (w.bits 24 22)) (decide (m ≠ 0))] else [])
                ++ flagWr c (vSlot w) fl) }

/-- VCMP. -/
def vcmpOut (c : Ctx) (w : OpWord) : OpOut :=
  vCompare c w (decide (w.bits 29 26 < 0xC))
    fun i => (cmpTest (8 * c.t.eb) (w.bits 29 26) (vs1At c w c.t.eb i) (vs2At c w c.t.eb i), 0)

/-- The floating-point format of the SEW in force: 32 or 64 bits (Table 6-5). -/
def vFmt (c : Ctx) : Fmt := if c.t.sew = 3 then f64 else f32
/-- SEW is 32 or 64. -/
def vIsFp (c : Ctx) : Bool := decide (2 ≤ c.t.sew)

/-- A floating-point operation on vectors. -/
def vFp2 (c : Ctx) (w : OpWord) (dist : Nat) (f : Nat → Nat → Nat → FRes) : OpOut :=
  vOut c w (vFieldsOk w true true false false && vIsFp c) dist c.t.eb
    fun i => fres (f (vdAt c w c.t.eb i) (vs1At c w c.t.eb i) (vs2At c w c.t.eb i))

/-- VFADD. -/
def vfaddOut (c : Ctx) (w : OpWord) : OpOut := vFp2 c w 5 fun _ a b => (vFmt c).add c.t.fmode a b
/-- VFSUB. -/
def vfsubOut (c : Ctx) (w : OpWord) : OpOut := vFp2 c w 5 fun _ a b => (vFmt c).sub c.t.fmode a b
/-- VFMUL. -/
def vfmulOut (c : Ctx) (w : OpWord) : OpOut := vFp2 c w 5 fun _ a b => (vFmt c).mul c.t.fmode a b
/-- VFMA: vd ← vs1 × vs2 + vd. -/
def vfmaOut (c : Ctx) (w : OpWord) : OpOut := vFp2 c w 5 fun d a b => (vFmt c).fma c.t.fmode false a b d
/-- VFNMS: vd ← −(vs1 × vs2) + vd. -/
def vfnmsOut (c : Ctx) (w : OpWord) : OpOut := vFp2 c w 5 fun d a b => (vFmt c).fma c.t.fmode true a b d
/-- VFMIN. -/
def vfminOut (c : Ctx) (w : OpWord) : OpOut := vFp2 c w 2 fun _ a b => (vFmt c).minMax c.t.fmode false a b
/-- VFMAX. -/
def vfmaxOut (c : Ctx) (w : OpWord) : OpOut := vFp2 c w 2 fun _ a b => (vFmt c).minMax c.t.fmode true a b
/-- VFCMP: COND 0x0-0x7. -/
def vfcmpOut (c : Ctx) (w : OpWord) : OpOut :=
  vCompare c w (vIsFp c && decide (w.bits 29 26 < 8))
    fun i => (vFmt c).cmp c.t.fmode (w.bits 29 26) (vs1At c w c.t.eb i) (vs2At c w c.t.eb i)

/-- The source and destination widths in bytes of a VFCVT code at a SEW in bytes (R180, Table 7-2). -/
def vfcvtWidths (code eb : Nat) : Option (Nat × Nat) :=
  match code with
  | 0x00 => if 4 ≤ eb then some (eb, eb) else none
  | 0x01 => if 4 ≤ eb then some (eb, eb) else none
  | 0x02 => if eb = 8 then some (4, 8) else none
  | 0x03 => if eb = 8 then some (8, 4) else none
  | 0x04 => if eb = 4 then some (4, 2) else none
  | 0x05 => if eb = 4 then some (2, 4) else none
  | 0x06 => if eb = 4 then some (4, 4) else none
  | 0x07 => if eb = 8 then some (8, 4) else none
  | 0x08 => if eb = 8 then some (8, 8) else none
  | 0x09 => if eb = 4 then some (4, 4) else none
  | 0x0A => if eb = 8 then some (4, 8) else none
  | 0x0B => if eb = 8 then some (8, 8) else none
  | 0x0C => if eb = 4 then some (4, 4) else none
  | 0x0D => if eb = 4 then some (4, 4) else none
  | _ => none

/-- The function of a FUN or VFCVT code on one element of `eb` bytes (Table 7-2). -/
def cvtFn (code eb : Nat) (md : FMode) (a : Nat) : Nat × Nat × BitVec 5 :=
  match code with
  | 0x00 => (Nat.xor a (2 ^ (8 * eb - 1)), 0, 0)
  | 0x01 => (a % 2 ^ (8 * eb - 1), 0, 0)
  | 0x02 => fres (fcvt f32 f64 md a)
  | 0x03 => fres (fcvt f64 f32 md a)
  | 0x04 => fres (fcvt f32 f16 md a)
  | 0x05 => fres (fcvt f16 f32 md a)
  | 0x06 => fres (f32.toIntW md 32 a)
  | 0x07 => fres (f64.toIntW md 32 a)
  | 0x08 => fres (f64.toIntW md 64 a)
  | 0x09 => fres (f32.ofIntW md 32 a)
  | 0x0A => fres (f64.ofIntW md 32 a)
  | 0x0B => fres (f64.ofIntW md 64 a)
  | 0x0C => ((toQ31 md a).1, if (toQ31 md a).2.1 then iSAT else 0, (toQ31 md a).2.2)
  | _ => fres (ofQ31 md a)

/-- VFCVT (R180): the narrower side is packed from bit 0. -/
def vfcvtOut (c : Ctx) (w : OpWord) : OpOut :=
  match vfcvtWidths (w.bits 21 16) c.t.eb with
  | none => { illegal := true }
  | some (sw, dw) =>
    vOut c w (vFieldsOk w true false false true) 5 dw
      fun i => cvtFn (w.bits 21 16) c.t.eb c.t.fmode (vs1At c w sw i)

/-! ## Contiguous loads and stores (R165 to R167) -/

/-- The memory layout is well formed (Table 6-4, R162). -/
def vmemOk (c : Ctx) (w : OpWord) : Bool :=
  let am := w.bits 34 33
  decide (am ≠ 2) && decide (w.bits 32 31 ≠ 3) && decide (w.bits 30 16 = 0) && (decide (am = 0) || decide (w.bits 15 0 = 0))
  && (decide (am = 1) || decide (w.bits 38 35 = 0)) && (decide (am ≠ 3) || (decide (w.bits 42 39 = 0) && c.ext.isSome))
  && decide (w.w = 0)

/-- The base address A (R165). -/
def vmemBase (c : Ctx) (w : OpWord) : Nat :=
  let ai := c.t.areg 0 (BitVec.ofNat 4 (w.bits 42 39))
  match w.bits 34 33 with
  | 0 => ofInt 32 ((ai.toNat : Int) + toInt 16 (w.bits 15 0))
  | 1 => ai.toNat
  | _ => (c.ext.getD 0).toNat

/-- The post-modify of AM = 0b01 (R165). -/
def vmemUpd (c : Ctx) (w : OpWord) : List Wr :=
  if w.bits 34 33 = 1 then
    [.areg 0 (BitVec.ofNat 4 (w.bits 42 39))
      (c.t.areg 0 (BitVec.ofNat 4 (w.bits 42 39)) + c.t.areg 1 (BitVec.ofNat 4 (w.bits 38 35)))]
  else []

/-- The address of element i. -/
def vmemAddr (a eb i : Nat) : Nat := (a + i * eb) % 2 ^ 32

/-- The first fault of the active elements (R166, R167).  DESIGN CHOICE (log 87): FADDR of an ALIGN is the base A, whichever element VINDEX names. -/
def vmemFault (c : Ctx) (a eb : Nat) (els : List Nat) (reading : Bool) : Option PFault :=
  match els with
  | [] => none
  | e0 :: _ =>
    if a % eb ≠ 0 then some { vec := 3, faddr := a, vindex := some (BitVec.ofNat 32 e0) }
    else els.findSome? fun i =>
      let x := vmemAddr a eb i
      if localTop < x + eb then some { vec := 2, faddr := x, vindex := some (BitVec.ofNat 32 i) }
      else if reading && c.s.hasUe (localBase c.u + x) eb then
        some { vec := 4, faddr := x, vindex := some (BitVec.ofNat 32 i), span := eb }
      else none

/-- The active elements of a VLD or VST. -/
def vmemEls (c : Ctx) (w : OpWord) : List Nat := activeList c.t.vl (w.bits 32 31) (c.t.vreg 0)

/-- The words that hold a byte of an element, each read once (R63, R166). -/
def vmemWords (a eb : Nat) (els : List Nat) : List (Nat × Nat) := ((els.map fun i => vmemAddr a eb i / 8 * 8).eraseDups).map fun w => (w, 8)

/-- VLD (R166): distance 4. -/
def vldOut (c : Ctx) (w : OpWord) : OpOut :=
  if !vmemOk c w then { illegal := true }
  else
    let a := vmemBase c w
    let eb := c.t.eb
    let els := vmemEls c w
    let r := vCollect els eb fun i => (c.s.localLoad c.u (vmemAddr a eb i) eb, 0, 0)
    { fault := vmemFault c a eb els true
      touch := vmemWords a eb els
      wr := (if els.isEmpty then []
             else [(4, .vec (BitVec.ofNat 5 (w.bits 47 43)) (BitVec.ofNat 512 r.mask) (BitVec.ofNat 512 r.val))])
            ++ atDist 2 (vmemUpd c w) }

/-- VST (R89, R166): the bytes of the active elements at distance 3; the data are read in cycle c+2. -/
def vstOut (c : Ctx) (w : OpWord) : OpOut :=
  if !vmemOk c w then { illegal := true }
  else
    let a := vmemBase c w
    let eb := c.t.eb
    let els := vmemEls c w
    let m := els.foldl (fun n i => n + onesBelow eb * 2 ^ (eb * i)) 0
    { fault := vmemFault c a eb els false
      wr := (if els.isEmpty then [] else [(3, .vst (BitVec.ofNat 5 (w.bits 47 43)) a (BitVec.ofNat 64 m) none)])
            ++ atDist 2 (vmemUpd c w) }

end Sys2Proof.Machine
end

