-- ==== Sys2Proof/Machine/Ucode.lean ====
section
/-! DEFINITION. The microcode: dispatch table, overrides and the words a routine is entered through; and the set-up of the routines that read operands
in it (R145, R146, R149, R150, R519, R520). -/

namespace Sys2Proof.Machine

/-! ## Dispatch and microwords (R145, R146, R149, R150) -/

/-- The dispatch override in force for an opcode: the matching entry with the highest number (R150); an entry of zero overrides nothing. -/
def Tile.override (t : Tile) (opc : Nat) : Option DWord :=
  (t.patch.disp.reverse).find? fun e => decide (e ≠ 0) && decide (bitsOf e.toNat 6 0 = opc)

/-- The L opcodes whose entries are valid in the ROM: the routines of Table 5-1. -/
def romHas (opc : Nat) : Bool :=
  decide (0x10 ≤ opc ∧ opc ≤ 0x15) || decide (0x18 ≤ opc ∧ opc ≤ 0x1B) || decide (0x20 ≤ opc ∧ opc ≤ 0x23) || decide (0x28 ≤ opc ∧ opc ≤ 0x2B)
    || decide (opc = 0x30) || decide (opc = 0x31) || decide (opc = 0x38) || decide (opc = 0x3C) || decide (opc = 0x3D)

/-- A dispatch entry (R146): index OPC at issue and at RETRY, 0x80 + OPC after a suspension.  An override of KIND 0 gives its UADDR for both.  The ROM's
own start addresses are free, below 0x1800 (R145, log 9). -/
def Tile.dispatch (t : Tile) (ix : Nat) : Option Nat :=
  match t.override (ix % 128) with
  | some e => if bitsOf e.toNat 8 8 = 1 then none else some (bitsOf e.toNat 28 16)
  | none => if romHas (ix % 128) then some ((Config.romStart ix).toNat % 0x1800) else none

/-- The fields of a microword, highest and lowest bit, in the order of Table 5-10. -/
def ucodeFields : List (Nat × Nat) :=
  [(143, 141), (140, 128), (127, 123), (122, 122), (121, 120), (119, 104), (103, 88), (87, 72), (71, 56), (55, 44), (43, 32), (31, 20), (19, 8), (7, 2), (1, 0)]

/-- A word of the ROM (R145): its SEQ is reserved from 0x1C00 on, and none below; the rest is free (log 9). -/
def romWord (a : Nat) : BitVec 144 :=
  let x := (Config.rom a).toNat
  BitVec.ofNat 144 (withBits x 143 141 (if 0x1C00 ≤ a then 6 + x % 2 else bitsOf x 143 141 % 6))

/-- The fields that one override names are taken from its word.  DESIGN CHOICE (log 88): bit i of the mask names field i of Table 5-10. -/
def overField (m : BitVec 15) (r : BitVec 144) (x : BitVec 144) : BitVec 144 :=
  (ucodeFields.zipIdx).foldl (fun (y : BitVec 144) f =>
    if m.getLsbD f.2 then BitVec.ofNat 144 (withBits y.toNat f.1.1 f.1.2 (bitsOf r.toNat f.1.1 f.1.2)) else y) x

/-- The microword that an engine reads at an address: the ROM's, under the field overrides of that address, of which a higher number prevails (R150). -/
def Tile.microword (t : Tile) (a : Nat) : BitVec 144 :=
  t.patch.field.foldl (fun y e => if e.1.toNat = a then overField e.2.1 e.2.2 y else y) (romWord a)

/-- SEQ is 0b110 or 0b111: the routine ends with UCODE_FAULT (R145). -/
def Tile.seqBad (t : Tile) (a : Nat) : Bool := decide (6 ≤ bitsOf (t.microword a).toNat 143 141)

/-- The word through which a routine is entered has a reserved SEQ. -/
def Tile.entryBad (t : Tile) (j : Job) (r : Run) : Bool :=
  match j.spare with
  | some a => t.seqBad a.toNat
  | none =>
    match t.dispatch (j.opc.toNat + (if r.resumed then 0x80 else 0)) with
    | some a => t.seqBad a
    | none => false

/-! ## Set-up (R519, R520) -/

/-- The local address of a routine's DST. -/
def Job.dstAt (j : Job) : Nat := match j.dst with | .mem a => a | _ => 0

/-- The descriptors that a BMOV keeps once read, or the fault of reading them: status and address (R519). -/
def State.bmovDescs (s : State) (u : UnitIx) (j : Job) : Except (Nat × Nat) (DWord × DWord) :=
  match j.descs with
  | some d => .ok d
  | none =>
    if s.hasUe (localBase u + j.dstAt) 8 then .error (6, j.dstAt)
    else if s.hasUe (localBase u + j.src1.toNat) 8 then .error (6, j.src1.toNat)
    else .ok (BitVec.ofNat 64 (s.localLoad u j.dstAt 8), BitVec.ofNat 64 (s.localLoad u j.src1.toNat 8))

/-- The captured operation of a ticket keeps the BMOV descriptors that are read. -/
def State.keepDescs (s : State) (u : UnitIx) (k : TicketIx) (j : Job) : State :=
  match s.bmovDescs u j with
  | .ok d =>
    (((s.eccReadRange (localBase u + j.dstAt) 8 0).eccReadRange (localBase u + j.src1.toNat) 8 0)).modTile u fun t =>
      t.setTicket k { t.ticket k with job := some { j with descs := some d } }
  | .error x => s.eccReadRange (localBase u + x.2) 8 0

/-- A routine that has started reads what its set-up reads: BMOV its descriptors at the first start, PEAK and RMS their result. -/
def State.setUpOn (s : State) (u : UnitIx) (e : EngIx) : State :=
  match (s.tile u).re[e] with
  | none => s
  | some r =>
    if !r.fresh then s
    else
      let s1 := s.modTile u fun t => { t with re := t.re.set e (some { r with fresh := false }) }
      match ((s.tile u).ticket r.tkt).job with
      | none => s1
      | some j =>
        if j.spare.isSome then s1
        else if j.opc.toNat = 0x38 ∧ j.descs = none then s1.keepDescs u r.tkt j
        else if (j.opc.toNat = 0x3C ∨ j.opc.toNat = 0x3D) ∧ j.dstAt % 8 = 0 ∧ j.dstAt + 16 ≤ localTop ∧ !s.hasUe (localBase u + j.dstAt) 16 then
          (s1.eccReadRange (localBase u + j.dstAt) 16 0).modTile u fun t =>
            { t with re := t.re.set e (some { r with fresh := false, work := some (s.bytes (localBase u + j.dstAt) 16) }) }
        else s1

/-- The set-up of the routines that have just started. -/
def State.setUp (s : State) (u : UnitIx) : State := (s.setUpOn u 0).setUpOn u 1

end Sys2Proof.Machine
end

