-- ==== Sys2Proof/Machine/LongOps.lean ====
section
/-! DEFINITION. What each L-slot operation does in its frond: ticket control, far operations, spores, semaphores, engine jobs and
routines (R125 to R144, R169, R250, R256, R276, R518). -/

namespace Sys2Proof.Machine

/-! ## The global map (Table 2-2) -/

/-- The rows of the global address map. -/
inductive Region where
  | bank | mram | csr | partner | host | unmapped
  deriving DecidableEq, Repr

/-- The row an address falls into (R46). -/
def regionOf (a : Nat) : Region :=
  if (locate a).isSome then .bank
  else if mramBase ≤ a ∧ a < mramBase + mramSize then .mram
  else if 0x20000000 ≤ a ∧ a < 0x21000000 then .csr
  else if 0x40000000 ≤ a ∧ a < 0x80000000 then .partner
  else if 0x800000000 ≤ a ∧ a < 0x1000000000 then .host
  else .unmapped

/-- The 64-byte and alignment rule of a far access at one of its two addresses (R70). -/
def farAligned (a len : Nat) : Bool :=
  decide (a % 64 + len ≤ 64) && (!(decide (len = 2) || decide (len = 4) || decide (len = 8)) || decide (a % len = 0))

/-! ## Taking a ticket (R127, R128) -/

/-- An operation without a captured detail. -/
def Job.empty (c : Ctx) (opc : Nat) : Job :=
  { opc := BitVec.ofNat 7 opc, level := BitVec.ofNat 2 c.t.level, seq := c.t.opSeq, dst := .none, src1 := 0, src2 := 0,
    fmode := BitVec.ofNat 5 (fld c.t.fcsr 20 16), vl := 0, sew := 0, act := 0, vi := 0, vd := 0, vdReg := 0, far := false,
    descs := none, spare := none, ga := 0, len := 0, loc := 0, bytes := [] }

/-- The fault of an operation that finds no FREE ticket in its partition, after its own operand faults (R128). -/
def exhausted (c : Ctx) : Option PFault :=
  if c.t.freeTicket = none then some { vec := 5, faddr := 0, vindex := none } else none

/-- Take the ticket and run `f` on the unit with it. -/
def takeTicket (c : Ctx) (opc : Nat) (job : Job) (f : TicketIx → Tile → Tile) (s : State) : State :=
  s.modTile c.u fun t =>
    match c.t.freeTicket with
    | none => t
    | some k => f k (t.take k c.pc (BitVec.ofNat 7 opc) c.pos (some job))

/-- A routine operation takes its ticket and enters the engines (R142). -/
def routineAct (c : Ctx) (opc : Nat) (job : Job) (s : State) : State := (takeTicket c opc job (fun k t => t.placeRoutine k 0) s).setUp c.u

/-- A far operation takes its ticket and enters the remote store buffer or the fabric. -/
def farAct (c : Ctx) (opc : Nat) (job : Job) (op : FarOp) : State → State :=
  takeTicket c opc job fun k t =>
    { t with far := t.far ++ [{ op with tkt := some k, seq := t.opSeq }], opSeq := t.opSeq + 1 }

/-! ## Microcode dispatch (R146, R149 to R151) -/

/-- The operands of a redirected opcode (R151): DST is formed, SRC1 and SRC2 are read at 64 bits, all in the layout of Table 3-3; the addresses of the
sources are those that they form, 0 where their mode forms none. -/
structure TrapArgs where
  dst : DstRes
  a   : Src
  b   : Src
  a1  : Nat
  a2  : Nat

/-- The address a specifier forms, 0 where its mode forms none. -/
def trapAddr (c : Ctx) (sp : Nat) : Nat := if spIsMem sp then (spAddr c sp 8).1 else 0

/-- Form and read the operands of a redirected opcode. -/
def trapArgs (c : Ctx) (w : OpWord) : TrapArgs :=
  { dst := formDst c w.dst 8 false, a := readSrc c .int w.src1 8, b := readSrc c .int w.src2 8, a1 := trapAddr c w.src1, a2 := trapAddr c w.src2 }

/-- The specifiers of a redirected opcode are legal at 64 bits. -/
def trapLegal (c : Ctx) (w : OpWord) : Bool :=
  spLegal true c.ext w.dst 8 && spLegal false c.ext w.src1 8 && spLegal false c.ext w.src2 8 && decide (w.w = 0)

/-- The captured operation of a redirected opcode. -/
def TrapArgs.job (x : TrapArgs) (c : Ctx) (opc : Nat) : Job :=
  { Job.empty c opc with dst := x.dst.dest, src1 := BitVec.ofNat 64 x.a.val, src2 := BitVec.ofNat 64 x.b.val,
                         ga := BitVec.ofNat 64 x.a1, loc := x.a2 }

/-- The formed address of DST in a captured operation, 0 where its mode forms none. -/
def Job.trapDst (j : Job) : Nat := match j.dst with | .mem a => a | _ => 0

/-- Step 2 and 3 of R151: the operand block is written at MTRAP_BUF and the unit enters L2 at HADDR, with the next frond as return point. -/
def trapEntry (c : Ctx) (j : Job) (k : TicketIx) (haddr : Nat) (s : State) : State :=
  let s1 := s.localWrite c.u c.t.mtrapBuf.toNat
    (padTo 64 (Config.mtrapBlock j.opc.toNat k.val j.trapDst j.ga.toNat j.loc j.src1.toNat j.src2.toNat))
  enter c.u { vec := 0, level := 2, pos := c.pos, mtrap := true, faddr := 0, haddr := some haddr, vindex := none, wstate := 0 }
    (s1.tile c.u).pc s1

/-- MTRAP_LEVEL (R151). -/
def mtrapLevel : PFault := { vec := 9, faddr := 0, vindex := none }

/-- An opcode redirected to a macro-trap (R151): at L2 or L3 MTRAP_LEVEL; else the ticket is taken, the rest of the frond takes effect, post-modify
updates of its own operands among it, and the trap is entered. -/
def macroTrap (c : Ctx) (w : OpWord) (opc : Nat) (haddr : Nat) : OpOut :=
  if !trapLegal c w then { illegal := true }
  else if 2 ≤ c.t.level then { fault := some mtrapLevel }
  else
    let x := trapArgs c w
    let j := { x.job c opc with trap := true }
    { fault := firstFault [x.dst.fault, x.a.fault, x.b.fault, exhausted c]
      touch := x.a.touch ++ x.b.touch
      wr := atDist 2 (x.dst.upd ++ x.a.upd ++ x.b.upd)
      act := takeTicket c opc j fun _ t => t
      after := trapEntry c j (c.t.freeTicket.getD 0) haddr }

/-- A spare ROM routine, whose microcode the spec does not give: what it writes is free (log 9). -/
def spareOut (c : Ctx) (w : OpWord) (opc uaddr : Nat) : OpOut :=
  if !trapLegal c w then { illegal := true }
  else
    let x := trapArgs c w
    { fault := firstFault [x.dst.fault, x.a.fault, x.b.fault, exhausted c], touch := x.a.touch ++ x.b.touch
      wr := atDist 2 (x.dst.upd ++ x.a.upd ++ x.b.upd)
      act := routineAct c opc { x.job c opc with spare := some (BitVec.ofNat 13 uaddr) } }

/-- An L opcode under its dispatch override, if it has one. -/
def withOverride (c : Ctx) (w : OpWord) (opc : Nat) (normal : OpOut) : OpOut :=
  match c.t.override opc with
  | none => normal
  | some e =>
    if bitsOf e.toNat 8 8 = 1 then macroTrap c w opc (bitsOf e.toNat 52 32 / 8 * 8)
    else spareOut c w opc (bitsOf e.toNat 28 16)

/-- MACRO_TRAP: an opcode with no row of its own, assigned only by an override (R125, R151). -/
def macroTrapOut (c : Ctx) (w : OpWord) (opc : Nat) : OpOut := withOverride c w opc { illegal := true }

/-- A word whose OPC is not assigned in its slot's unit: ILLEGAL_OP, but for an L opcode that an override names (R81, R125). -/
def unassignedOut (c : Ctx) (x : DWord) : OpOut :=
  if wordSlot x = 6 then macroTrapOut c (opWordOf x) (wordOpc x) else { illegal := true }

/-! ## Ticket control (Table 5-2) -/

/-- TICKET_FAULT on a FAILED ticket; a GATHER or SCATTER ticket also writes VINDEX (R130, R171).  DESIGN CHOICE (log 88): whatever status it failed
with, ABORTED, UCODE_FAULT and those of TDONE included. -/
def ticketFault (t : Tile) (k : TicketIx) : PFault :=
  let x := t.ticket k
  { vec := 6, faddr := 0
    vindex := if x.opc = 0x30 ∨ x.opc = 0x31 then some (BitVec.ofNat 32 (x.elem.toNat % 128 + 2 ^ 7 + k.val * 2 ^ 8)) else none }

/-- TICKET_STATE (R136, R137, R151). -/
def ticketState : PFault := { vec := 7, faddr := 0, vindex := none }

/-- Consume a DONE ticket: FREE, and its floating-point flags reach FCSR at distance 2 (R130, R192). -/
def consumeWr (c : Ctx) (k : TicketIx) : List (Nat × Wr) :=
  let x := c.t.ticket k
  if x.fflags = 0 then []
  else [(2, .fflags x.fflags (if c.t.level = 0 then x.fflags &&& BitVec.ofNat 5 (fld c.t.fcsr 12 8) else 0) c.t.l0 x.pc 6)]

/-- JOIN (R130). -/
def joinOut (c : Ctx) (w : OpWord) : OpOut :=
  withOverride c w 0x01 <|
  if decide (w.bits 47 5 ≠ 0) || decide (w.w ≠ 0) then { illegal := true }
  else
    let k := ticketIx (w.bits 4 0)
    match (c.t.ticket k).st with
    | .pending => { wait := true }
    | .failed => { fault := some (ticketFault c.t k) }
    | .free => {}
    | .done => { wr := consumeWr c k, act := fun s => s.modTile c.u fun t => t.free k }

/-- JOINANY (R131). -/
def joinanyOut (c : Ctx) (w : OpWord) : OpOut :=
  withOverride c w 0x02 <|
  let mask := w.bits 31 0
  if decide (mask = 0) || decide (w.bits 47 36 ≠ 0) || decide (w.w ≠ 0) then { illegal := true }
  else
    let named := allTickets.filter fun k => Nat.testBit mask k.val
    let ad := BitVec.ofNat 4 (w.bits 35 32)
    let out := named.filter fun k => decide ((c.t.ticket k).st ≠ .free)
    match out.find? fun k => decide ((c.t.ticket k).st ≠ .pending) with
    | none => if out.isEmpty then { wr := [(2, .areg 0 ad 32)] } else { wait := true }
    | some k =>
      if (c.t.ticket k).st = .failed then { fault := some (ticketFault c.t k) }
      else { wr := (2, .areg 0 ad (BitVec.ofNat 32 k.val)) :: consumeWr c k, act := fun s => s.modTile c.u fun t => t.free k }

/-- The kind of a far opcode. -/
def farKindOf (opc : Nat) : Option FarKind :=
  match opc with
  | 0x08 => some .fld
  | 0x09 => some .fst
  | 0x0C => some .spore
  | 0x0D => some .semacq
  | 0x0E => some .semrel
  | 0x0F => some .cesub
  | _ => none

/-- The status a far load or store meets at the tile's fabric port, from values read at issue (R138). -/
def portStatus (ga len loc : Nat) : Nat :=
  if 2 ^ 36 ≤ ga ∨ regionOf ga = .unmapped then 2
  else if len = 0 ∨ 64 < len then 4
  else if !farAligned ga len || !farAligned loc len then 4
  else 0

/-- The ranges [a, a+n) and [b, b+m) overlap. -/
def overlaps (a n b m : Nat) : Bool := decide (a < b + m) && decide (b < a + n)

/-- A far store of the unit still in its buffer overlaps the range (R141). -/
def Tile.storeAhead (t : Tile) (ga len : Nat) : Bool :=
  t.far.any fun f => decide (f.kind = .fst) && overlaps f.ga.toNat f.len ga len &&
    (match f.phase with | .port _ => false | _ => true)

/-- The far operation a captured job issues, at first issue and at RETRY (R136, R138, R141). -/
def Job.farOp (j : Job) (kind : FarKind) (t : Tile) : FarOp :=
  let ps := if kind = .fld ∨ kind = .fst then portStatus j.ga.toNat j.len j.loc else 0
  { tkt := none, seq := 0, kind := kind
    phase := if ps ≠ 0 then .port (BitVec.ofNat 8 ps)
             else if kind = .fld ∧ t.storeAhead j.ga.toNat j.len then .held else .sent
    ga := BitVec.ofNat 36 j.ga.toNat, len := j.len, dst := j.dst, data := j.bytes }

/-- RETRY puts its ticket back into PENDING and reissues the captured operation from ELEM (R136). -/
def Tile.retry (t : Tile) (k : TicketIx) : Tile :=
  let x := t.ticket k
  let t1 := t.setTicket k { x with st := .pending, status := 0, faddr := 0, fglobal := false }
  match x.job with
  | none => t1
  | some j =>
    if j.trap then t1
    else match farKindOf x.opc.toNat, j.spare with
      | some kind, none => { t1 with far := t1.far ++ [{ j.farOp kind t1 with tkt := some k, seq := t1.opSeq }], opSeq := t1.opSeq + 1 }
      | _, _ => t1.placeRoutine k x.elem.toNat

/-- RETRY (R136).  A ticket of a macro-trap is redirected again, under the rules of R151 (DEDUCED, log 88): R146 dispatches at RETRY as at issue. -/
def retryOut (c : Ctx) (w : OpWord) : OpOut :=
  withOverride c w 0x03 <|
  if decide (w.bits 47 5 ≠ 0) || decide (w.w ≠ 0) then { illegal := true }
  else
    let k := ticketIx (w.bits 4 0)
    let again := (c.t.ticket k).job.filter (·.trap)
    if (c.t.ticket k).st ≠ .failed then { fault := some ticketState }
    else match again with
      | none => { act := fun s => (s.modTile c.u fun t => t.retry k).setUp c.u }
      | some j =>
        if 2 ≤ c.t.level then { fault := some mtrapLevel }
        else
          { act := fun s => s.modTile c.u fun t => t.retry k
            after := trapEntry c j k (bitsOf ((c.t.override j.opc.toNat).getD 0).toNat 52 32 / 8 * 8) }

/-- TREL (R137). -/
def trelOut (c : Ctx) (w : OpWord) : OpOut :=
  withOverride c w 0x04 <|
  if decide (w.bits 47 5 ≠ 0) || decide (w.w ≠ 0) then { illegal := true }
  else
    let k := ticketIx (w.bits 4 0)
    if (c.t.ticket k).st ≠ .failed then { fault := some ticketState }
    else { act := fun s => s.modTile c.u fun t => t.free k }

/-- TDONE (R151): completion at distance 2. -/
def tdoneOut (c : Ctx) (w : OpWord) : OpOut :=
  withOverride c w 0x05 <|
  if decide (w.bits 47 16 ≠ 0) || decide (w.bits 7 5 ≠ 0) || decide (w.w ≠ 0) then { illegal := true }
  else
    let k := ticketIx (w.bits 4 0)
    if (c.t.ticket k).st ≠ .pending then { fault := some ticketState }
    else { wr := [(2, .tdone k (BitVec.ofNat 8 (w.bits 15 8)))] }

/-! ## Far loads and stores (R138 to R141) -/

/-- LOC of FLD and FST: LOCAL_RANGE over LEN bytes, or the formed address alone (R138); FST also reads the bytes. -/
def locFault (c : Ctx) (a len : Nat) (reading : Bool) : Option PFault :=
  let n := if len = 0 ∨ 64 < len then 1 else len
  if localTop < a + n then some { vec := 2, faddr := a, vindex := none }
  else if reading && (decide (1 ≤ len) && decide (len ≤ 64)) && c.s.hasUe (localBase c.u + a) n then
    some { vec := 4, faddr := a, vindex := none, span := n }
  else none

/-- FLD and FST (R138). -/
def farOut (c : Ctx) (w : OpWord) (opc : Nat) (kind : FarKind) : OpOut :=
  if !(spAddrLegal c.ext w.dst && spLegal false c.ext w.src1 8 && spLegal false c.ext w.src2 1 && decide (w.w = 0))
  then { illegal := true }
  else
    let la := spAddr c w.dst 1
    let ga := readSrc c .int w.src1 8
    let ln := readSrc c .int w.src2 1
    let store := decide (kind = .fst)
    let data := if store ∧ ln.val ≤ 64 then c.s.bytes (localBase c.u + la.1) ln.val else []
    let j := { Job.empty c opc with dst := .mem la.1, ga := BitVec.ofNat 64 ga.val, len := ln.val, loc := la.1, bytes := data }
    { fault := firstFault [locFault c la.1 ln.val store, ga.fault, ln.fault, exhausted c]
      touch := (if store ∧ ln.val ≤ 64 then [(la.1, ln.val)] else []) ++ ga.touch ++ ln.touch
      wr := atDist 2 (la.2 ++ ga.upd ++ ln.upd)
      act := farAct c opc j (j.farOp kind c.t) }

/-- FLD. -/
def fldOut (c : Ctx) (w : OpWord) : OpOut := withOverride c w 0x08 (farOut c w 0x08 .fld)
/-- FST. -/
def fstOut (c : Ctx) (w : OpWord) : OpOut := withOverride c w 0x09 (farOut c w 0x09 .fst)

/-- SPORE (R250): 64 local bytes at a multiple of 64, a role read at 8 bits; SEQ is assigned at issue (Table 9-9). -/
def sporeOut (c : Ctx) (w : OpWord) : OpOut :=
  withOverride c w 0x0C <|
    if !(spAddrLegal c.ext w.dst && spLegal false c.ext w.src1 1 && decide (w.src2 = 0) && decide (w.w = 0))
    then { illegal := true }
    else
      let la := spAddr c w.dst 1
      let role := readSrc c .int w.src1 1
      let lf := if la.1 % 64 ≠ 0 then some { vec := 3, faddr := la.1, vindex := none } else locFault c la.1 64 true
      let stamp := c.u.val + role.val * 2 ^ 8 + c.t.sporeSeq.toNat * 2 ^ 32
      let data := leBytes 8 stamp ++ (c.s.bytes (localBase c.u + la.1) 64).drop 8
      let j := { Job.empty c 0x0C with ga := BitVec.ofNat 64 role.val, len := 64, loc := la.1, bytes := data }
      { fault := firstFault [lf, role.fault, exhausted c]
        touch := (la.1, 64) :: role.touch
        wr := atDist 2 (la.2 ++ role.upd)
        act := fun s => (farAct c 0x0C j (j.farOp .spore c.t) s).modTile c.u fun t => { t with sporeSeq := t.sporeSeq + 1 } }

/-- SEMACQ and SEMREL (R256): DST written at 32 bits on completion, IDX read at 16 bits. -/
def semOut (c : Ctx) (w : OpWord) (opc : Nat) (kind : FarKind) : OpOut :=
  withOverride c w opc <|
    if !(spLegal true c.ext w.dst 4 && spLegal false c.ext w.src1 2 && decide (w.src2 = 0) && decide (w.w = 0))
    then { illegal := true }
    else
      let d := formDst c w.dst 4 false
      let ix := readSrc c .int w.src1 2
      let j := { Job.empty c opc with dst := d.dest, ga := BitVec.ofNat 64 ix.val }
      { fault := firstFault [d.fault, ix.fault, exhausted c], touch := ix.touch
        wr := atDist 2 (d.upd ++ ix.upd)
        act := farAct c opc j (j.farOp kind c.t) }

/-- SEMACQ. -/
def semacqOut (c : Ctx) (w : OpWord) : OpOut := semOut c w 0x0D .semacq
/-- SEMREL. -/
def semrelOut (c : Ctx) (w : OpWord) : OpOut := semOut c w 0x0E .semrel

/-- CESUB (R276): engine, job and the block captured at issue (R279). -/
def cesubOut (c : Ctx) (w : OpWord) : OpOut :=
  withOverride c w 0x0F <|
    if decide (w.bits 45 40 ≠ 0) || decide (w.bits 31 0 ≠ 0) || decide (w.w ≠ 0) then { illegal := true }
    else
      let j := { Job.empty c 0x0F with
        ga := BitVec.ofNat 64 (w.bits 47 46), len := w.bits 39 32, bytes := leBytes 8 c.s.blk }
      { fault := exhausted c, act := farAct c 0x0F j (j.farOp .cesub c.t) }

/-! ## Routines (R120 to R124, R142, R518 to R520) -/

/-- A routine operation with a destination and sources read as values. -/
def valueRoutine (c : Ctx) (w : OpWord) (opc : Nat) (dw : Nat) (sw : Nat) (imm : ImmKind) (two : Bool) (div : Bool) : OpOut :=
  withOverride c w opc <|
    let laneOk := !div || decide (spMode w.dst ≠ 7) || decide (bitsOf w.dst 5 0 + 1 < 64 / dw)
    if !(spLegal true c.ext w.dst dw && laneOk && spLegal false c.ext w.src1 sw
        && (if two then spLegal false c.ext w.src2 sw else decide (w.src2 = 0)) && decide (w.w = 0))
    then { illegal := true }
    else
      let d := formDst c w.dst dw false
      let a := readSrc c imm w.src1 sw
      let b := if two then readSrc c imm w.src2 sw else { val := 0, upd := [], touch := [], fault := none }
      let j := { Job.empty c opc with dst := d.dest, src1 := BitVec.ofNat 64 a.val, src2 := BitVec.ofNat 64 b.val }
      { fault := firstFault [d.fault, a.fault, b.fault, exhausted c], touch := a.touch ++ b.touch
        wr := atDist 2 (d.upd ++ a.upd ++ b.upd), act := routineAct c opc j }

/-- MUL.S32. -/
def mulS32Out (c : Ctx) (w : OpWord) : OpOut := valueRoutine c w 0x10 8 4 .int true false
/-- MUL.U32. -/
def mulU32Out (c : Ctx) (w : OpWord) : OpOut := valueRoutine c w 0x11 8 4 .int true false
/-- MULL.64. -/
def mull64Out (c : Ctx) (w : OpWord) : OpOut := valueRoutine c w 0x12 8 8 .int true false
/-- MULH.S64. -/
def mulhS64Out (c : Ctx) (w : OpWord) : OpOut := valueRoutine c w 0x13 8 8 .int true false
/-- MULH.U64. -/
def mulhU64Out (c : Ctx) (w : OpWord) : OpOut := valueRoutine c w 0x14 8 8 .int true false
/-- MULQ31. -/
def mulq31Out (c : Ctx) (w : OpWord) : OpOut := valueRoutine c w 0x15 4 4 .int true false
/-- DIV.S32. -/
def divS32Out (c : Ctx) (w : OpWord) : OpOut := valueRoutine c w 0x18 4 4 .int true true
/-- DIV.U32. -/
def divU32Out (c : Ctx) (w : OpWord) : OpOut := valueRoutine c w 0x19 4 4 .int true true
/-- DIV.S64. -/
def divS64Out (c : Ctx) (w : OpWord) : OpOut := valueRoutine c w 0x1A 8 8 .int true true
/-- DIV.U64. -/
def divU64Out (c : Ctx) (w : OpWord) : OpOut := valueRoutine c w 0x1B 8 8 .int true true
/-- FDIV.S. -/
def fdivSOut (c : Ctx) (w : OpWord) : OpOut := valueRoutine c w 0x20 4 4 (.fp f32) true false
/-- FDIV.D. -/
def fdivDOut (c : Ctx) (w : OpWord) : OpOut := valueRoutine c w 0x21 8 8 (.fp f64) true false
/-- FSQRT.S: SRC2 = 0x0000. -/
def fsqrtSOut (c : Ctx) (w : OpWord) : OpOut := valueRoutine c w 0x22 4 4 (.fp f32) false false
/-- FSQRT.D. -/
def fsqrtDOut (c : Ctx) (w : OpWord) : OpOut := valueRoutine c w 0x23 8 8 (.fp f64) false false

/-- A block routine: DST and SRC1 are addresses at the widths of Table 5-17; SRC2 is an address (`src2Addr`) or a 32-bit value. -/
def blockRoutine (c : Ctx) (w : OpWord) (opc dw w1 : Nat) (src2Addr : Bool) : OpOut :=
  withOverride c w opc <|
    if !(spAddrLegal c.ext w.dst && spAddrLegal c.ext w.src1
        && (if src2Addr then spAddrLegal c.ext w.src2 else spLegal false c.ext w.src2 4) && decide (w.w = 0))
    then { illegal := true }
    else
      let d := spAddr c w.dst dw
      let a := spAddr c w.src1 w1
      let b := if src2Addr then
          let x := spAddr c w.src2 8
          { val := x.1, upd := x.2, touch := [], fault := addrFault c x.1 8 false }
        else readSrc c .int w.src2 4
      let j := { Job.empty c opc with
        dst := .mem d.1, src1 := BitVec.ofNat 64 a.1, src2 := BitVec.ofNat 64 b.val }
      { fault := firstFault [addrFault c d.1 dw false, addrFault c a.1 w1 false, b.fault, exhausted c], touch := b.touch
        wr := atDist 2 (d.2 ++ a.2 ++ b.upd), act := routineAct c opc j }

/-- BIQ. -/
def biqOut (c : Ctx) (w : OpWord) : OpOut := blockRoutine c w 0x28 4 4 true
/-- FFT4. -/
def fft4Out (c : Ctx) (w : OpWord) : OpOut := blockRoutine c w 0x29 8 8 true
/-- CMAC. -/
def cmacOut (c : Ctx) (w : OpWord) : OpOut := blockRoutine c w 0x2A 8 8 true
/-- NLMS. -/
def nlmsOut (c : Ctx) (w : OpWord) : OpOut := blockRoutine c w 0x2B 4 4 true
/-- BMOV. -/
def bmovOut (c : Ctx) (w : OpWord) : OpOut := blockRoutine c w 0x38 8 8 false
/-- PEAK. -/
def peakOut (c : Ctx) (w : OpWord) : OpOut := blockRoutine c w 0x3C 8 4 false
/-- RMS. -/
def rmsOut (c : Ctx) (w : OpWord) : OpOut := blockRoutine c w 0x3D 8 4 false

/-- GATHER and SCATTER (R169, Table 6-7). -/
def gatherOutOf (c : Ctx) (w : OpWord) (opc : Nat) : OpOut :=
  withOverride c w opc <|
    let far := decide (w.bits 37 37 = 1)
    let bw := if far then 8 else 4
    if !(decide (w.bits 36 35 ≠ 3) && decide (w.bits 34 32 = 0) && spLegal false c.ext w.src1 bw && decide (w.src2 = 0)
        && decide (w.w = 0))
    then { illegal := true }
    else
      let b := readSrc c .int w.src1 bw
      let vd := BitVec.ofNat 5 (w.bits 47 43)
      let act := (activeList c.t.vl (w.bits 36 35) (c.t.vreg 0)).foldl (fun n i => n + 2 ^ i) 0
      let j := { Job.empty c opc with
        src1 := BitVec.ofNat 64 b.val, vl := c.t.vl, sew := BitVec.ofNat 2 c.t.sew, act := BitVec.ofNat 64 act
        vi := c.t.vreg (BitVec.ofNat 5 (w.bits 42 38)), vd := c.t.vreg vd, vdReg := vd, far := far }
      { fault := firstFault [b.fault, exhausted c], touch := b.touch, wr := atDist 2 b.upd, act := routineAct c opc j }

/-- GATHER. -/
def gatherOut (c : Ctx) (w : OpWord) : OpOut := gatherOutOf c w 0x30
/-- SCATTER. -/
def scatterOut (c : Ctx) (w : OpWord) : OpOut := gatherOutOf c w 0x31

end Sys2Proof.Machine
end

