-- ==== Sys2Proof/Machine/Regs.lean ====
section
/-! DEFINITION. The CSR addresses of the registers that the meanings name (Tables 9-7 to 19-4). -/

namespace Sys2Proof.Machine.Csr

-- Fabric (Table 19-4)
def fabStat : Nat := 0x20300804
def crcCnt : Nat := 0x20300808
def crcPort : Nat := 0x2030080C
def wrDisc : Nat := 0x20300810

-- Power, clocks, governor (Table 16-12)
def supplyStat : Nat := 0x20900004
def supplyEvt : Nat := 0x20900008
def battMv : Nat := 0x2090000C
def battMin : Nat := 0x20900010
def battMax : Nat := 0x20900014
def supSlot : Nat := 0x20900018
def vid : Nat := 0x2090001C
def dipCnt : Nat := 0x20900020
def deepCnt : Nat := 0x20900024
def ldCnt : Nat := 0x20900028
def rstCause : Nat := 0x2090002C
def stbyCfg : Nat := 0x20900030
def wakeSrc : Nat := 0x20900034
def stbyLo : Nat := 0x20900038
def stbyHi : Nat := 0x2090003C
def aonCfg : Nat := 0x20900040
def aonStat : Nat := 0x20900044
def aonPpm : Nat := 0x20900048
def aonPhase : Nat := 0x2090004C
def pllStat : Nat := 0x20900050
def capStat : Nat := 0x20900058
def govStat : Nat := 0x20900060
def govBudget : Nat := 0x20900064
def govBooked : Nat := 0x20900068
def govInuse : Nat := 0x2090006C
def govBallast : Nat := 0x20900070
def govWait : Nat := 0x20900074
def govCut : Nat := 0x20900078
def govUnbooked : Nat := 0x2090007C
def leaveT (n : Nat) : Nat := 0x20900080 + 4 * n
def leaveCe (k : Nat) : Nat := 0x209000C0 + 4 * k
def leaveLk : Nat := 0x209000D0
def leaveMram : Nat := 0x209000D4
def leaveBist : Nat := 0x209000D8
def thermStat : Nat := 0x209000DC
def thermCnt : Nat := 0x209000E0
def pmicCfg : Nat := 0x209000E4
def pmicStat : Nat := 0x209000E8
def pmicWarnCnt : Nat := 0x209000EC
def pmicI2cErr : Nat := 0x209000F0

-- Ageing (Table 17-7)
def agePlanStat : Nat := 0x20900104
def ageEvt : Nat := 0x20900108
def bandStat : Nat := 0x2090010C
def opMin : Nat := 0x20900110
def sbMin : Nat := 0x20900114
def nextInt : Nat := 0x20900118
def excStat : Nat := 0x2090011C
def lastSeq : Nat := 0x20900120
def ageCfg : Nat := 0x20900124
def commonStep : Nat := 0x20900128
def fcastMin : Nat := 0x2090012C
def replanCnt : Nat := 0x20900130
def alarmCnt : Nat := 0x20900134
def backoffCnt : Nat := 0x20900138
def exhaust : Nat := 0x2090013C
def sramMrg (g : Nat) : Nat := 0x20900140 + 4 * g
def isdCnt (n : Nat) : Nat := 0x20900150 + 4 * n
def tileMplan (n : Nat) : Nat := 0x20900200 + 0x10 * n
def mrgNow (n : Nat) : Nat := 0x20900204 + 0x10 * n
def ageOf (n : Nat) : Nat := 0x20900208 + 0x10 * n
def fcast (n : Nat) : Nat := 0x2090020C + 0x10 * n

-- Safety (Table 15-7)
def safeStat : Nat := 0x20A00004
def faultStat : Nat := 0x20A00008
def condStat : Nat := 0x20A0000C
def fence : Nat := 0x20A00010
def lastCode : Nat := 0x20A00014
def lastBlkLo : Nat := 0x20A00018
def lastBlkHi : Nat := 0x20A0001C
def s0Tick : Nat := 0x20A00020
def wdogCfg : Nat := 0x20A00024
def bistCfg : Nat := 0x20A0002C
def bistStat : Nat := 0x20A00030
def bistErr : Nat := 0x20A00034
def verdictCtl : Nat := 0x20A00038
def verdictStat : Nat := 0x20A0003C
def vdTask (i : Nat) : Nat := 0x20A00040 + 4 * i
def vdCrcA (i : Nat) : Nat := 0x20A00060 + 4 * i
def vdCrcB (i : Nat) : Nat := 0x20A00080 + 4 * i
def wdStat (n : Nat) : Nat := 0x20A000A0 + 4 * n
/-- Counters: 0 SRAM_CE, 1 SRAM_UE, 2 FABRIC_CRC, 3 OVERRUN, 4 FL_MISS, 5 MISMATCH, 6 OWN_ERR, 7 RESEED. -/
def safeCnt (i : Nat) : Nat := 0x20A000E0 + 4 * i
def clkMon (i : Nat) : Nat := 0x20A00100 + 4 * i
def clkMonStat : Nat := 0x20A00114
def vmon (i : Nat) : Nat := 0x20A00120 + 4 * i
def vmonStat : Nat := 0x20A00140
def tmon (i : Nat) : Nat := 0x20A00180 + 4 * i
def tmonStat : Nat := 0x20A001E0
def tjMax : Nat := 0x20A001E4
def injCtl : Nat := 0x20A00200
def injStat : Nat := 0x20A00204
def sdoStat : Nat := 0x20A00208
def sdoCnt : Nat := 0x20A0020C
def restartCnt : Nat := 0x20A00210

-- Security, lifecycle, MRAM (Table 18-11)
def lcStat : Nat := 0x20B00004
def mramWipe : Nat := 0x20B00008
def lcNonce (i : Nat) : Nat := 0x20B00010 + 4 * i
def lcTokIdx : Nat := 0x20B00030
def lcTokStat : Nat := 0x20B0003C
def serial (i : Nat) : Nat := 0x20B00040 + 4 * i
def bootStat : Nat := 0x20B00050
def bootTSafe : Nat := 0x20B00054
def bootTFull : Nat := 0x20B00058
def fwStat : Nat := 0x20B0005C
def fwSvn : Nat := 0x20B00060
def splanStat : Nat := 0x20B00064
def calStat : Nat := 0x20B00068
def patchStat : Nat := 0x20B0006C
def provCtl : Nat := 0x20B00070
def provStat : Nat := 0x20B00078
def keyStat : Nat := 0x20B0007C
def dbgStat : Nat := 0x20B00080
def dbgChal (i : Nat) : Nat := 0x20B00090 + 4 * i
def dbgRespIdx : Nat := 0x20B000B0
def trngStat : Nat := 0x20B000BC
def mramStat : Nat := 0x20B000C0
def mramCe : Nat := 0x20B000C4
def mramUe : Nat := 0x20B000C8
def mramErrAddr : Nat := 0x20B000CC
def mramPass : Nat := 0x20B000D0
def mramWr : Nat := 0x20B000D4
def mramCmdAddr : Nat := 0x20B000DC
def mramCmdLen : Nat := 0x20B000E0
def mramCmdSrcLo : Nat := 0x20B000E4
def mramCmdSrcHi : Nat := 0x20B000E8
def mramCmdStat : Nat := 0x20B000EC
def partStat (i : Nat) : Nat := 0x20B000F0 + 4 * i

-- Host interface (Tables 12-11, 12-12)
def linkStat : Nat := 0x20700004
def linkEpoch : Nat := 0x20700008
def linkDown : Nat := 0x2070000C
def winLo : Nat := 0x20700010
def winHi : Nat := 0x20700014
def syncLo : Nat := 0x20700018
def syncHi : Nat := 0x2070001C
def shadowEn0 : Nat := 0x20700020
def shadowEn1 : Nat := 0x20700024
def poll : Nat := 0x20700028
def bar4Sel : Nat := 0x2070002C
def hostErr : Nat := 0x20700030
def errAddr : Nat := 0x20700034
def addrErrCnt : Nat := 0x20700038
def dbErrCnt : Nat := 0x2070003C
def aseq : Nat := 0x20700040
def ringErr0 : Nat := 0x20700044
def ringErr1 : Nat := 0x20700048
def underrun : Nat := 0x20700054
def overrun : Nat := 0x20700058
def hstrmOpen : Nat := 0x2070005C
def erMod (e : Nat) : Nat := 0x20700060 + 4 * e
def erLost (e : Nat) : Nat := 0x20700080 + 4 * e
def ringCtl (r : Nat) : Nat := 0x20700100 + 0x20 * r
def ringLo (r : Nat) : Nat := 0x20700104 + 0x20 * r
def ringHi (r : Nat) : Nat := 0x20700108 + 0x20 * r
def ringPi (r : Nat) : Nat := 0x2070010C + 0x20 * r
def ringCi (r : Nat) : Nat := 0x20700110 + 0x20 * r

-- Lichen (Table 14-13)
def pairCfg : Nat := 0x20800004
def pairStat : Nat := 0x20800008
def lkStat : Nat := 0x2080000C
def lkErr : Nat := 0x20800010
def evtLo : Nat := 0x20800014
def evtHi : Nat := 0x20800018
def lkVerdict : Nat := 0x2080001C
def misCnt : Nat := 0x20800020
def dropCnt : Nat := 0x20800024
def takeCnt : Nat := 0x20800028
def fecCorr : Nat := 0x2080002C
def fecUnc : Nat := 0x20800030
def replayCnt : Nat := 0x20800034
def lkCrcCnt : Nat := 0x20800038
def retrainCnt : Nat := 0x2080003C
def syncPhase : Nat := 0x20800040
def resyncStat : Nat := 0x20800044
def resyncBytes : Nat := 0x20800048
def jrnlStat : Nat := 0x2080004C
def commitLo : Nat := 0x20800050
def commitHi : Nat := 0x20800054
def crcOwn : Nat := 0x20800058
def crcPeer : Nat := 0x2080005C

-- CAN (Table 13-13)
def can (c o : Nat) : Nat := 0x20680000 + 0x100 * c + o

-- Tiles and engines
def unitBase (u : Nat) : Nat := if u = 16 then 0x20100000 else 0x20000000 + 0x10000 * u
def ceBase (k : Nat) : Nat := 0x20200000 + 0x10000 * k

end Sys2Proof.Machine.Csr
end

