-- ==== Sys2Proof/Machine/Common.lean ====
section
/-! DEFINITION. What every part of the device uses: device events, event records and the log, DTCs, R3 conditions and notices to the
host (R335, R336, R367, R374, R421, R494, R495). -/

namespace Sys2Proof.Machine

/-! ## Lists -/

/-- Replace the value of a Vector's element. -/
def vmod {α : Type} {n : Nat} (v : Vector α n) (i : Nat) (f : α → α) : Vector α n :=
  if h : i < n then v.set i (f v[i]) else v

/-- Unit number n < 17. -/
def unitIx (n : Nat) : UnitIx := ⟨n % 17, Nat.mod_lt _ (by decide)⟩

/-- Tiles T0 to T15. -/
def allTiles : List UnitIx := (upFrom 0 16).map unitIx

/-- Change the device record. -/
def State.modDev (s : State) (f : Device → Device) : State := { s with dev := f s.dev }
/-- Change the block timing. -/
def State.modSched (s : State) (f : Sched → Sched) : State := s.modDev fun d => { d with sched := f d.sched }
/-- Change the hub. -/
def State.modSafety (s : State) (f : Safety → Safety) : State := s.modDev fun d => { d with safety := f d.safety }
/-- Change supply and governor. -/
def State.modPower (s : State) (f : Power → Power) : State := s.modDev fun d => { d with power := f d.power }
/-- Change the planner. -/
def State.modAge (s : State) (f : Ageing → Ageing) : State := s.modDev fun d => { d with age := f d.age }
/-- Change the images. -/
def State.modImages (s : State) (f : Images → Images) : State := s.modDev fun d => { d with images := f d.images }
/-- Change the security block. -/
def State.modSec (s : State) (f : Security → Security) : State := s.modDev fun d => { d with sec := f d.sec }
/-- Change the host interface. -/
def State.modHost (s : State) (f : HostState → HostState) : State := { s with host := f s.host }
/-- Hand something outside. -/
def State.emit (s : State) (o : Out) : State := { s with out := o :: s.out }

/-- The running plan. -/
def State.plan (s : State) : Option Plan := s.dev.sched.plan
/-- The lifecycle, LC_STAT.LC (Table 18-12). -/
def State.lc (s : State) : Nat := fld (s.reg Csr.lcStat) 2 0
/-- BOOT_STAT.PHASE (Table 18-13). -/
def State.phase (s : State) : Nat := fld (s.reg Csr.bootStat) 3 0
/-- Set BOOT_STAT.PHASE. -/
def State.setPhase (s : State) (p : Nat) : State := s.setRegFld Csr.bootStat 3 0 p

/-! ## Device events (R494 to R496) -/

/-- A device event of vector v: it sets IPEND in every tile routed to it that is not DARK, and in the service core (R495). -/
def State.devEvent (s : State) (v : Nat) : State :=
  { s with tiles := s.tiles.mapIdx fun n (t : Tile) =>
      if n = 16 ∨ (t.state ≠ .dark ∧ 64 ≤ v ∧ t.evroute.getLsbD (v - 64)) then
        { t with ipend := t.ipend ||| BitVec.ofNat 256 (2 ^ v) }
      else t }

/-- A set of bits in a register whose 0-to-1 changes raise a device event (R494). -/
def State.orRegEvent (s : State) (a : Nat) (m : Word) (v : Nat) : State :=
  let s1 := s.orReg a m
  if (s.reg a ||| m) = s.reg a then s1 else s1.devEvent v

/-! ## CRC-32 of IEEE 802.3 -/

/-- One bit of the reflected CRC-32. -/
def crcBit (c : BitVec 32) : BitVec 32 := if c.getLsbD 0 then (c >>> 1) ^^^ 0xEDB88320#32 else c >>> 1

/-- One byte of CRC-32. -/
def crcByte (c : BitVec 32) (b : Byte) : BitVec 32 :=
  crcBit (crcBit (crcBit (crcBit (crcBit (crcBit (crcBit (crcBit (c ^^^ b.setWidth 32))))))))

/-- CRC-32 of IEEE 802.3 over bytes. -/
def crc32 (bs : List Byte) : Word := ~~~(bs.foldl crcByte 0xFFFFFFFF#32)

/-! ## MRAM writes by the firmware -/

/-- Codewords written are counted (Table 18-11). -/
def State.mramCount (s : State) (n : Nat) : State := s.modReg Csr.mramWr fun x => BitVec.ofNat 32 (min 0xFFFFFFFF (x.toNat + n))

/-- Write bytes at an MRAM offset: whole codewords, counted, with their errors gone (R61, Table 18-11). -/
def State.mramPut (s : State) (ofs : Nat) (bs : List Byte) : State :=
  let cw := if bs.length = 0 then [] else upFrom (ofs / 32) ((ofs + bs.length - 1) / 32 - ofs / 32 + 1)
  let s1 := { (s.setBytes (mramBase + ofs) bs) with merr := s.merr.filter fun e => !cw.contains e.1 }
  s1.mramCount cw.length

/-- Some codeword of an MRAM range is uncorrectable (R61). -/
def State.mramBad (s : State) (ofs n : Nat) : Bool :=
  s.merr.any fun e => decide (5 ≤ e.2) && decide (ofs / 32 ≤ e.1) && decide (32 * e.1 < ofs + n)

/-! ## MRAM reads by the firmware (R61) -/

/-- The wrong bits of a codeword. -/
def State.wrongBits (s : State) (cw : Nat) : Nat := match s.merr.find? fun e => decide (e.1 = cw) with | some e => e.2 | none => 0

/-- The PART_STAT index of an MRAM offset (Table 18-11). -/
def partOf (o : Nat) : Option Nat :=
  if o < 0x80000 then some 0 else if o < 0x100000 then some 1 else if o < 0x300000 then some 2 else if o < 0x320000 then some 3
  else if o < 0x360000 then some 4 else if o < 0x3A0000 then some 5 else if o < 0x3A4000 then some 6 else if o < 0x3B4000 then some 7 else none

/-- A codeword is read: an error corrected is counted; one beyond correction is counted, its first address kept and its partition marked. -/
def State.cwRead (s : State) (cw : Nat) : State :=
  let k := s.wrongBits cw
  if k = 0 then s
  else if k ≤ 4 then (s.bump Csr.mramCe).report 0x0103 23 [BitVec.ofNat 32 (32 * cw)]
  else
    let s1 := s.bump Csr.mramUe
    let s2 : State := if s1.fab.ueSeen then s1
      else { (s1.setReg Csr.mramErrAddr (BitVec.ofNat 32 (32 * cw))) with fab := { s1.fab with ueSeen := true } }
    let s3 := match partOf (32 * cw) with | some i => s2.setRegFld (Csr.partStat i) 2 2 1 | none => s2
    s3.report 0x0104 23 [BitVec.ofNat 32 (32 * cw)]

/-- Put an entry of the list of wrong codewords in its place by number. -/
def merrInsert (x : Nat × Nat) : List (Nat × Nat) → List (Nat × Nat)
  | [] => [x]
  | y :: r => if x.1 ≤ y.1 then x :: y :: r else y :: merrInsert x r

/-- The firmware reads codewords: each that has an error is counted and reported, in ascending order (R61). -/
def State.fwReadIf (s : State) (p : Nat → Bool) : State := ((s.merr.filter fun e => p e.1).foldr merrInsert []).foldl (fun s e => s.cwRead e.1) s

/-- The firmware reads the bytes of a range. -/
def State.fwRead (s : State) (o n : Nat) : State := s.fwReadIf fun cw => decide (o / 32 ≤ cw) && decide (32 * cw < o + n)

/-! ## Event records (R374, Table 13-8) -/

/-- The offset of the event log in the MRAM (Table 2-6). -/
def logBase : Nat := 0x360000

/-- The 64 bytes of a record. -/
def EventRec.bytes (e : EventRec) (seq boot : Word) : List Byte :=
  let b := leBytes 4 seq.toNat ++ leBytes 8 e.block.toNat ++ leBytes 4 boot.toNat ++ leBytes 2 e.code.toNat
    ++ [e.source, e.sev] ++ leBytes 4 e.dtc.toNat ++ padTo 32 e.detail ++ zeros 4
  b ++ leBytes 4 (crc32 b).toNat

/-- Write a record into the log: SEQ one above the previous record's, in a circle of 4,096. -/
def State.writeEvent (s : State) (e : EventRec) : State :=
  let q := s.dev.safety.nextSeq
  (s.mramPut (logBase + q.toNat % 4096 * 64) (e.bytes q s.dev.safety.boot)).modSafety fun f => { f with nextSeq := q + 1 }

/-- Make an event record; the safety monitor or the firmware writes it later (EVENT_LOG_WRITE). -/
def State.logEvent (s : State) (code source sev dtc : Nat) (detail : List Byte) : State :=
  s.modSafety fun f => { f with events := f.events ++
    [{ block := BitVec.ofNat 64 s.blk, code := BitVec.ofNat 16 code, source := BitVec.ofNat 8 source, sev := BitVec.ofNat 8 sev,
       dtc := BitVec.ofNat 24 dtc, detail := detail }] }

/-- The SEQ that the newest record made will take. -/
def State.lastEventSeq (s : State) : Word := s.dev.safety.nextSeq + BitVec.ofNat 32 (s.dev.safety.events.length - 1)

/-- The SEQ, BOOT pairs of the valid records held in the log: only a record with some listed byte can be valid. -/
def State.logSeqs (s : State) : List (Nat × Nat) :=
  let ixs := (s.mem.filterMap fun c =>
      if mramBase + logBase ≤ c.1 ∧ c.1 < mramBase + logBase + 0x40000 then some ((c.1 - mramBase - logBase) / 64) else none).eraseDups
  ixs.filterMap fun i =>
    let b := s.bytes (mramBase + logBase + 64 * i) 64
    if !s.mramBad (logBase + 64 * i) 64 && decide (leNat (b.drop 60) = (crc32 (b.take 60)).toNat) then
      some (leNat (b.take 4), leNat ((b.drop 12).take 4))
    else none

/-! ## DTCs (R367) -/

/-- The junction temperature now: the highest of the 24 sensors, signed 0.1 °C (R445). -/
def State.tj (s : State) : Int :=
  (upFrom 1 23).foldl (fun m i => max m (toInt 32 (s.reg (Csr.tmon i)).toNat)) (toInt 32 (s.reg (Csr.tmon 0)).toNat)

/-- A DTC's set condition occurs: testFailed, confirmedDTC and the bits ISO 14229-1 sets with them, under mask 0x2F; the first
failure takes the snapshot.  With ControlDTCSetting off only 0x9A5000 is recorded. -/
def State.setDtc (s : State) (dtc unit : Nat) : State :=
  if s.dev.safety.dtcOff ∧ dtc ≠ 0x9A5000 then s
  else (s.mramCount 4).modSafety fun f =>
    match f.dtcs.find? fun d => decide (d.dtc.toNat = dtc) with
    | some _ => { f with dtcs := f.dtcs.map fun (d : DtcRec) =>
        if d.dtc.toNat = dtc then { d with status := d.status ||| 0x2F, occ := d.occ + 1, unit := unit, cycles := 0, failed := true }
        else d }
    | none =>
      if 128 ≤ f.dtcs.length then f
      else { f with dtcs := f.dtcs ++
        [{ dtc := BitVec.ofNat 24 dtc, status := 0x2F, snapBlock := BitVec.ofNat 64 s.blk
           snapTj := BitVec.ofNat 32 (ofInt 32 s.tj), snapMv := BitVec.ofNat 32 (fld (s.reg Csr.battMv) 15 0)
           snapState := BitVec.ofNat 8 (fld (s.reg Csr.supplyStat) 2 0), occ := 1, unit := unit, cycles := 0, failed := true }] }

/-- An operating cycle ends: a DTC without a failure ages, and after 40 such cycles is gone; testFailed and pendingDTC clear for one
whose condition was not met (R367, R368). -/
def State.endOpCycle (s : State) : State :=
  s.modSafety fun f => { f with
    cycles := f.cycles + 1
    dtcs := (f.dtcs.map fun (d : DtcRec) =>
        if d.failed then { d with failed := false, cycles := 0, status := d.status &&& 0xFD }
        else { d with cycles := d.cycles + 1, status := d.status &&& 0xF8 }).filter fun d => decide (d.cycles < 40) }

/-! ## Notices to the host (R335, R336) -/

/-- The state of a ring, CTL.STATE: 0 DISABLED, 1 RUNNING, 2 ERROR, 3 RESETTING (Table 12-13). -/
def State.ringSt (s : State) (r : Nat) : Nat := fld (s.reg (Csr.ringCtl r)) 1 0
/-- The entry count of a ring. -/
def State.ringLen (s : State) (r : Nat) : Nat := 2 ^ fld (s.reg (Csr.ringCtl r)) 8 4
/-- PI − CI modulo 2^32 (R326). -/
def State.ringUsed (s : State) (r : Nat) : Nat := (s.reg (Csr.ringPi r) - s.reg (Csr.ringCi r)).toNat

/-- The PCIe tunnel stands and the function is not in D3hot. -/
def State.tunnel (s : State) : Bool := decide (fld (s.reg Csr.linkStat) 1 1 = 1) && decide (fld (s.reg Csr.linkStat) 2 2 = 0)

/-- A device notice: status code, detail and index (Table 12-8). -/
def noticeRec (s : State) (status info index : Nat) : HostRec :=
  { typ := 3, status := status, ring := 0x3F, tag := 0, block := BitVec.ofNat 64 s.blk, aseq := 0,
    info := BitVec.ofNat 32 info, index := BitVec.ofNat 32 index }

/-- A record arises for event ring e (48 + e): it waits to be written, behind one EVENT_LOST notice when records have been dropped before;
for a ring that is not RUNNING, or that is full while 1,024 records wait, it is dropped and counted (R336). -/
def State.pushRec (s : State) (e : Nat) (r : HostRec) : State :=
  if s.ringSt (48 + e) ≠ 1 ∨ (1024 ≤ s.host.waiting.length ∧ s.ringLen (48 + e) ≤ s.ringUsed (48 + e)) then
    (s.bump (Csr.erLost e)).modHost fun h => { h with lost := vmod h.lost e (· + 1) }
  else
    let n := s.host.lost.getD e 0
    s.modHost fun h => { h with
      waiting := h.waiting ++ (if n = 0 then [] else [(e, noticeRec s 0x22 n 0)]) ++ [(e, r)]
      lost := vmod h.lost e fun _ => 0 }

/-- Device notices go to ER0 (R335). -/
def State.notice (s : State) (status info index : Nat) : State := s.pushRec 0 (noticeRec s status info index)

/-! ## R3 conditions (R7, R421, Table 15-10) -/

/-- An R3 condition holds or is lost: COND_STAT, SAFE_STAT.COND_OK and DUP_OK, and a record of each loss and restoration. -/
def State.setCond (s : State) (c : Nat) (holds : Bool) : State :=
  let was := fld (s.reg Csr.condStat) c c = 1
  let s1 := s.setRegFld Csr.condStat c c (b2n holds)
  let s2 := (s1.setRegFld Csr.safeStat 2 2 (b2n (fld (s1.reg Csr.condStat) 4 0 = 0x1F))).setRegFld Csr.safeStat 3 3
    (fld (s1.reg Csr.condStat) 4 4)
  if was ∧ !holds then
    (s2.modSafety fun f => { f with condLost := c :: f.condLost }).logEvent 0x01C2 0xFF 0 0 [BitVec.ofNat 8 c]
  else if !was ∧ holds ∧ s.dev.safety.condLost.contains c then
    (s2.modSafety fun f => { f with condLost := f.condLost.filter (· ≠ c) }).logEvent 0x01C3 0xFF 0 0 [BitVec.ofNat 8 c]
  else s2

end Sys2Proof.Machine
end

