-- ==== Sys2Proof/Machine/Plans.lean ====
section
/-! DEFINITION. Plans in the device: their sections, schedules and variants, tiers, roles, semaphores and event routes (R232 to R241,
R249 to R257, R263, R264, R425, R426, R496, R521). -/

namespace Sys2Proof

open Machine

/-! ## Tiers (R30, R236) -/

/-- Tiers as numbers: 0 A, 1 B, 2 C. -/
def Tier.toNat : Tier → Nat
  | .a => 0
  | .b => 1
  | .c => 2

/-- A section belongs to a variant. -/
def Section.inVar (x : Section) (v : Tier) : Bool := x.vmask.getLsbD (Tier.toNat v)

/-- The sections of a variant. -/
def Plan.ofVar (p : Plan) (v : Tier) : List Section := p.sects.filter fun x => x.inVar v

/-- The schedule of a tile in a variant: its entries, address and certified count (R239). -/
def Plan.sched (p : Plan) (v : Tier) (n : Nat) : Option (List (Word × Word)) :=
  (p.ofVar v).findSome? fun x =>
    match x.body with
    | .sched _ es => if x.unit = n then some es else none
    | _ => none

/-- The fast-lane binding of a tile in a variant (R241). -/
def Plan.fast (p : Plan) (v : Tier) (n : Nat) : Option FastBind :=
  (p.ofVar v).findSome? fun x =>
    match x.body with
    | .fast b => if x.unit = n then some b else none
    | _ => none

/-- A plan gives a tile work when any variant gives it a SCHED or FASTLANE section (R521). -/
def Plan.hasWork (p : Plan) (n : Nat) : Bool :=
  p.sects.any fun x => decide (x.unit = n) && (decide (x.typ = 3) || decide (x.typ = 4))

/-- Every variant's fast-lane tile. -/
def Plan.isFast (p : Plan) (n : Nat) : Bool := p.sects.any fun x => decide (x.unit = n) && decide (x.typ = 4)

/-- Tiles that the safety table names (R410). -/
def Plan.safetyTiles (p : Plan) : List Nat := p.tasks.flatMap fun t => [t.lead, t.check]

/-- The role table of a variant (R249). -/
def Plan.roles (p : Plan) (v : Tier) : List RoleInit :=
  (p.ofVar v).flatMap fun x => match x.body with | .roles rs => rs | _ => []

/-- The semaphores that SEMINIT names: number, COUNT, MAX (R257). -/
def Plan.sems (p : Plan) (v : Tier) : List (Nat × Nat × Nat) :=
  (p.ofVar v).flatMap fun x => match x.body with | .seminit ss => ss | _ => []

/-- The parameter regions (R261). -/
def Plan.params (p : Plan) (v : Tier) : List ParamRegion :=
  (p.ofVar v).flatMap fun x => match x.body with | .params rs => rs | _ => []

/-- The HANDOVER regions (R264). -/
def Plan.handovers (p : Plan) (v : Tier) : List Handover :=
  (p.ofVar v).flatMap fun x => match x.body with | .handover hs => hs | _ => []

/-- The free ranges (R264). -/
def Plan.free (p : Plan) : List Range :=
  p.sects.flatMap fun x => match x.body with | .freemap rs => rs | _ => []

/-- The certified entry of a tile books leave in a block (R436). -/
def Plan.books (p : Plan) (v : Tier) (n i : Nat) : Bool :=
  (p.ofVar v).any fun x => match x.body with | .leave t bs => decide (t = n) && bs.getD i false | _ => false

/-- The booked peak of a variant (R438). -/
def Plan.peak (p : Plan) (v : Tier) : Nat := match v with | .a => p.peaks.1 | .b => p.peaks.2.1 | .c => p.peaks.2.2

/-- The ranges that tiles may write in the plan-table region (R59, R233). -/
def Plan.twr (p : Plan) (a n : Nat) : Bool :=
  p.sects.any fun x => x.twr && decide (x.unit = 22) && decide (x.dst ≤ a) && decide (a + n ≤ x.dst + x.len)

end Sys2Proof

namespace Sys2Proof.Machine

/-- The tier of a number; EXHAUSTED (3) counts as the slowest. -/
def tierOf (n : Nat) : Tier := if n = 0 then .a else if n = 1 then .b else .c

/-- The slower of two tiers. -/
def slower (x y : Tier) : Tier := tierOf (max (Tier.toNat x) (Tier.toNat y))
/-- The faster of two tiers. -/
def faster (x y : Tier) : Tier := tierOf (min (Tier.toNat x) (Tier.toNat y))
/-- One tier towards a target (R237). -/
def stepTier (x y : Tier) : Tier :=
  if Tier.toNat x < Tier.toNat y then tierOf (Tier.toNat x + 1) else if Tier.toNat y < Tier.toNat x then tierOf (Tier.toNat x - 1) else x

/-- The plan switch accepted for block n. -/
def State.switchAt (s : State) (n : Nat) : Option Plan :=
  s.host.changes.findSome? fun c => match c.kind with | .switch q => if c.block = n ∧ !c.old then some q else none | _ => none

/-- The plan that a switch puts in force at block n. -/
def State.planFrom (s : State) (n : Nat) : Option Plan := match s.dev.sched.target with | some q => some q | none => s.switchAt n

/-- Copy a section's bytes to its place in its unit's bank. -/
def State.putSection (s : State) (x : Section) : State :=
  match x.body with
  | .bytes bs => s.memWrite (bankBase x.unit + x.dst) bs 2
  | _ => s

/-- Write the sections of a variant. -/
def State.putVariant (s : State) (p : Plan) (v : Tier) : State := (p.ofVar v).foldl State.putSection s

/-- Write the sections of variant `v` that variant `u` lacks (R237). -/
def State.putNew (s : State) (p : Plan) (u v : Tier) : State :=
  ((p.ofVar v).filter fun x => !x.inVar u).foldl State.putSection s

/-! ## Margin tiers and steps (R236, R425) -/

/-- The temperature band in force (Table 17-2). -/
def State.band (s : State) : Nat := fld (s.reg Csr.bandStat) 2 0

/-- TIERb of a tile's plan in the band in force (Table 17-10); 3 is EXHAUSTED. -/
def State.mtierRaw (s : State) (n : Nat) : Nat := fld (s.reg (Csr.tileMplan n)) (6 * s.band + 1) (6 * s.band)
/-- The margin tier of a tile, with the back-offs taken on it (R457). -/
def State.mtier (s : State) (n : Nat) : Tier :=
  tierOf (s.mtierRaw n + (s.dev.age.lowered.filter (· = n)).length)
/-- STEPb of a tile in the band in force. -/
def State.mstep (s : State) (n : Nat) : Nat := fld (s.reg (Csr.tileMplan n)) (6 * s.band + 5) (6 * s.band + 2)

/-- The tiles with work in the running plan. -/
def State.workers (s : State) : List Nat := match s.plan with | some p => (upFrom 0 16).filter p.hasWork | none => []

/-- The slowest margin tier of any tile with work (R236). -/
def State.marginTier (s : State) : Tier := s.workers.foldl (fun m n => slower m (s.mtier n)) .a

/-- The cap tier of a budget: 100, 80 and 60 % of 240 units (R438). -/
def capTier (budget : Nat) : Tier := if 240 ≤ budget then .a else if 192 ≤ budget then .b else .c

/-- The cap tier now. -/
def State.cap (s : State) : Tier := capTier (fld (s.reg Csr.govBudget) 8 0)

/-- The tier that a tile can keep: its margin tier; a fast-lane tile also keeps a slower clock that it has (R238). -/
def State.keepTier (s : State) (n : Nat) : Tier :=
  let t := s.tile (unitIx n)
  if fld t.flCfg 0 0 = 1 ∧ t.state ≠ .dark then slower t.tier (s.mtier n) else s.mtier n

/-- The plan tier under a cap tier (R236): the slowest that any tile with work can keep, capped. -/
def State.planTier (s : State) (c : Tier) : Tier := s.workers.foldl (fun m n => slower m (s.keepTier n)) c

/-- The plan tier that the device moves towards (R236). -/
def State.wantTier (s : State) : Tier := s.planTier s.cap

/-- The largest step of the tiles with work and of the common logic in the band in force (R425). -/
def State.wantStep (s : State) : Nat :=
  s.workers.foldl (fun m n => max m (s.mstep n)) (fld (s.reg Csr.commonStep) (4 * s.band + 3) (4 * s.band))

/-- The code driven and the target code, VID (Table 16-12). -/
def State.vidCode (s : State) : Nat := fld (s.reg Csr.vid) 3 0
/-- The target code. -/
def State.vidTarget (s : State) : Nat := fld (s.reg Csr.vid) 7 4

/-- A new step is decided: a rise is taken at once, a fall waits for the tier changes it requires (R426).  A back-off in force keeps
its target (R458). -/
def State.decideStep (s : State) : State :=
  let w := s.wantStep
  let s1 := s.modPower fun p => { p with stepWant := w }
  if s.vidTarget < w then s1.setRegFld Csr.vid 7 4 w else s1

/-- A tile's own tier: its margin tier, capped by the governor, never slower than the plan tier (R236); a rise waits for its voltage (R426).
A fast-lane tile follows the margin plan alone (R439), and one that was bound before, `was`, never rises (R238). -/
def State.tileTier (s : State) (was : List Nat) (n : Nat) : Tier :=
  let t := s.tile (unitIx n)
  let fast := decide (fld t.flCfg 0 0 = 1)
  let r := if fast then (if was.contains n then slower t.tier (s.mtier n) else s.mtier n) else slower (s.mtier n) s.dev.sched.capTier
  if s.plan.isNone then t.nextTier
  else if Tier.toNat r < Tier.toNat t.nextTier ∧ !s.dev.sched.riseOk then faster t.nextTier s.dev.sched.variant
  else r

/-- Every tier change that the wanted step requires is in force (R426). -/
def State.tiersSettled (s : State) : Bool :=
  decide (s.dev.sched.variant = s.wantTier) && s.workers.all fun n => decide (Tier.toNat (s.mtier n) ≤ Tier.toNat (s.tile (unitIx n)).tier)

/-- CAP_STAT: plan tier, cap tier, slowest margin tier; GOV_STAT.CAP and STEPPING (Tables 16-12 and 16-16). -/
def State.showTiers (s : State) : State :=
  let v := Tier.toNat s.dev.sched.variant
  let s1 := s.setReg Csr.capStat (BitVec.ofNat 32 (v + 4 * Tier.toNat s.cap + 16 * Tier.toNat s.marginTier))
  let s2 := (s1.setRegFld Csr.govStat 1 0 (Tier.toNat s.cap)).setRegFld Csr.govStat 2 2 (b2n (s.plan.isSome && decide (v ≠ Tier.toNat s.wantTier)))
  if v ≠ fld (s.reg Csr.capStat) 1 0 then s2.devEvent 206 else s2

/-! ## Role table and spores (R249 to R254) -/

/-- The address of a role's entry. -/
def roleAddr (r : Nat) : Nat := 0x0D000000 + 16 * r
/-- HOLDER, VALID and EPOCH of a role (Table 9-8). -/
def State.role (s : State) (r : Nat) : Nat × Bool × Nat :=
  let w := s.load (roleAddr r) 4
  (bitsOf w 4 0, bitsOf w 7 7 = 1, bitsOf w 31 16)

/-- Write a role's entry. -/
def State.setRole (s : State) (r holder : Nat) (valid : Bool) (epoch planId : Nat) : State :=
  s.memWrite (roleAddr r) (leBytes 4 (holder + b2n valid * 128 + epoch % 65536 * 65536) ++ leBytes 4 planId ++ zeros 8) 2

/-- The role table takes a plan's roles; EPOCH increments, wrapping, where a role moves, is dissolved or is created. -/
def State.putRoles (s : State) (rs : List RoleInit) : State :=
  (upFrom 0 256).foldl (fun s r =>
    let (h, v, e) := s.role r
    match rs.find? fun x => decide (x.role.toNat = r) with
    | some x => s.setRole r x.holder.toNat true (if v ∧ h = x.holder.toNat then e else e + 1) x.planId.toNat
    | none => if v then s.setRole r 0 false (e + 1) 0 else s) s

/-- The slot of spore i in queue q (R251). -/
def sporeSlot (q i : Nat) : Nat := 0x0D008000 + q * 0x4000 + i % 256 * 64

/-- Deliver 64 bytes into queue q: the slot, SPQ_TAIL, vector 33, and a NAP wake (R251, Table 1-5). -/
def State.putSpore (s : State) (q : Nat) (bs : List Byte) : State :=
  let u := unitIx q
  let i := (s.tile u).spqTail
  (s.memWrite (sporeSlot q i.toNat) (padTo 64 bs) 2).modTile u fun t =>
    { t with spqTail := i + 1
             ipend := if t.state = .dark then t.ipend else t.ipend ||| BitVec.ofNat 256 (2 ^ 33)
             wakeDue := t.wakeDue || decide (t.state = .nap)
             wake := { t.wake with held := t.wake.held || decide (t.wake.from_ = some .nap) } }

/-- A queue is full (R251). -/
def State.spqFull (s : State) (q : Nat) : Bool := decide (256 ≤ ((s.tile (unitIx q)).spqTail - (s.tile (unitIx q)).spqHead).toNat)

/-- A spore moved in the switch window: into its queue, or, while that is full or others wait for it, behind those (R251, log 73). -/
def State.moveIn (s : State) (q : Nat) (bs : List Byte) : State :=
  if s.spqFull q ∨ s.fab.spill.any fun x => decide (x.1 = q) then { s with fab := { s.fab with spill := s.fab.spill ++ [(q, bs)] } }
  else s.putSpore q bs

/-- The spores that wait for a queue enter it, oldest first, while it has room. -/
def State.drainSpill (s : State) (q : Nat) : State :=
  (s.fab.spill.filter fun x => decide (x.1 = q)).foldl (fun s x =>
    if s.spqFull q then s else { (s.putSpore q x.2) with fab := { s.fab with spill := s.fab.spill.erase x } }) s

/-- Set bits of the stamp's byte 6: 1 MOVED, 2 RETURNED, 4 STALE (Table 9-9). -/
def stampOr (bs : List Byte) (m : Nat) : List Byte := bs.take 6 ++ [bs.getD 6 0 ||| BitVec.ofNat 8 m] ++ bs.drop 7
/-- Set EPOCH of a stamp. -/
def stampEpoch (bs : List Byte) (e : Nat) : List Byte := bs.take 2 ++ leBytes 2 e ++ bs.drop 4

/-- The spores held in queue q, oldest first. -/
def State.heldSpores (s : State) (q : Nat) : List (List Byte) :=
  let t := s.tile (unitIx q)
  (upFrom t.spqHead.toNat (t.spqTail - t.spqHead).toNat).map fun i => s.bytes (sporeSlot q (i % 2 ^ 32)) 64

/-- What becomes of one held spore of queue q under the new roles: none for one that stays, else the queue it goes to and its
bytes (R253).  A spore already returned counts as one delivered for its stamp's ROLE, and may be carried or returned again (DESIGN CHOICE,
log 89). -/
def moveSpore (old new : Nat → Nat × Bool × Nat) (q : Nat) (bs : List Byte) : Option (Nat × List Byte) :=
  let r := (bs.getD 1 0).toNat
  let (h, v, e) := new r
  if (old r).2.1 ∧ !v then some (bitsOf (bs.getD 0 0).toNat 4 0, stampOr bs 6)
  else if v ∧ (old r).2.1 ∧ (old r).1 = q ∧ h ≠ q then some (h, stampOr (stampEpoch bs e) 1)
  else none

/-- Compact queue q to the spores that stay (R253). -/
def State.keepSpores (s : State) (q : Nat) (stay : List (List Byte)) : State :=
  let h := (s.tile (unitIx q)).spqHead.toNat
  ((stay.zipIdx).foldl (fun s x => s.memWrite (sporeSlot q ((h + x.2) % 2 ^ 32)) (padTo 64 x.1) 2) s).modTile (unitIx q) fun t =>
    { t with spqTail := t.spqHead + BitVec.ofNat 32 stay.length }

/-- The role table is rewritten and queued spores are carried or returned (R253, the 4.0 µs point). -/
def State.rewriteRoles (s : State) (rs : List RoleInit) : State :=
  let old := s.role
  let s1 := s.putRoles rs
  let plans := (upFrom 0 17).map fun q => (q, s.heldSpores q)
  let s2 := plans.foldl (fun s x => s.keepSpores x.1 (x.2.filter fun b => (moveSpore old s1.role x.1 b).isNone)) s1
  let s3 := (upFrom 0 17).foldl State.drainSpill
    { s2 with fab := { s2.fab with spill := s.fab.spill.filter fun x => (moveSpore old s1.role x.1 x.2).isNone } }
  (plans.flatMap fun x => (x.2 ++ (s.fab.spill.filter fun y => decide (y.1 = x.1)).map (·.2)).filterMap (moveSpore old s1.role x.1)).foldl
    (fun s y => s.moveIn y.1 y.2) s3

/-! ## Semaphores (R255 to R257) -/

/-- The address of semaphore j. -/
def semAddr (j : Nat) : Nat := 0x0D001000 + 8 * j

/-- Every semaphore takes the COUNT and MAX of SEMINIT, or 0 and 0; LAST becomes 16 (R257). -/
def State.putSems (s : State) (ss : List (Nat × Nat × Nat)) : State :=
  (upFrom 0 1024).foldl (fun s j =>
    let (c, m) := match ss.find? fun x => decide (x.1 = j) with | some x => x.2 | none => (0, 0)
    s.memWrite (semAddr j) (leBytes 8 (c + m * 2 ^ 16 + 16 * 2 ^ 32)) 2) s

/-! ## Event routes (R496) -/

/-- The EVROUTE registers of the tiles are written from the table at common bank offset 0x5_2000. -/
def State.loadRoutes (s : State) : State :=
  allTiles.foldl (fun s u => s.modTile u fun t =>
    { t with evroute := BitVec.ofNat 192 (s.load (0x0D052000 + 24 * u.val) 24) }) s

/-! ## Fast-lane bindings (R241, R248) -/

/-- FL_CFG of a binding (Table 9-7). -/
def flCfgOf (b : FastBind) : Word := BitVec.ofNat 32 (1 + bitsOf b.ibase 20 13 * 2 + bitsOf (b.obase - 0x1000) 20 13 * 2 ^ 9)

/-- A tile leaves the fast lane: in NAP it goes to SLEEP, from which its schedule wakes it; in RUN it does so at its NAP (R239, Table 9-12,
log 32). -/
def Tile.unbind (t : Tile) : Tile :=
  if fld t.flCfg 0 0 = 0 then t
  else
    let t1 := { t with flCfg := 0, heldTick := false, wakeDue := false, doneInBlk := true }
    match t.bist with
    | some r => { t1 with bist := some { r with mode := if r.mode = .nap then .sleep else r.mode } }
    | none => { t1 with mode := if t.mode = .nap then .sleep else t.mode, offLane := decide (t.mode = .run) }

/-- The tiles bound to the fast lane. -/
def State.boundTiles (s : State) : List Nat := (upFrom 0 16).filter fun n => decide (fld (s.tile (unitIx n)).flCfg 0 0 = 1)

/-- Put the bindings of a variant in force; `fresh` says that the next wake is at the per-tick entry (R243). -/
def State.putFast (s : State) (p : Plan) (v : Tier) (fresh : Bool) : State :=
  let s1 := allTiles.foldl (fun s u =>
    match p.fast v u.val with
    | some b => s.modTile u fun t => { t with flCfg := flCfgOf b, flEntry := b.entry, offLane := false }
    | none => s.modTile u Tile.unbind) s
  if fresh then s1.modSched fun x => { x with flStart := (upFrom 0 16).filter fun n => (p.fast v n).isSome } else s1

/-! ## Powering tiles up and down (R521, R489) -/

/-- The architectural state of a unit at reset values; what lies outside its power domain stays (patches, UCODE_LVL, routes, fast-lane and
spore-queue registers). -/
def Tile.fresh (t : Tile) : Tile :=
  { Tile.reset with
    tier := t.tier, nextTier := t.nextTier, heldOff := t.heldOff, fenced := t.fenced
    ucodeLvl := t.ucodeLvl, upatchIdx := t.upatchIdx, patch := t.patch, evroute := t.evroute, trecSelCsr := t.trecSelCsr
    flCfg := t.flCfg, flStat := t.flStat, flEntry := t.flEntry, spqHead := t.spqHead, spqTail := t.spqTail, spqPub := t.spqPub
    sporeSeq := t.sporeSeq, opSeq := t.opSeq }

/-- A DARK tile is powered up: SLEEP, its architectural state at reset values (R521). -/
def Tile.powerUp (t : Tile) : Tile := if t.mode ≠ .dark then t else { t.fresh with mode := .sleep }

/-- A tile goes DARK: it stops issuing, its routines are aborted and its tickets stay as they stand (R407, R489). -/
def Tile.goDark (t : Tile) : Tile :=
  { t with mode := .dark, frond := [], waiting := false, re := Vector.replicate 2 none, susp := Vector.replicate 2 none,
           suspFor := Vector.replicate 2 none, rqueue := [], wakeDue := false, heldTick := false, halted := false, bist := none, offLane := false }

/-- A tile stops where it is and sleeps, unless it is DARK; one in a BIST slice does so when the slice ends. -/
def Tile.toSleep (t : Tile) : Tile :=
  let f := fun (m : TileMode) => if m = .dark then TileMode.dark else .sleep
  match t.bist with
  | some r => { t with bist := some { r with mode := f r.mode }, offLane := false }
  | none => { t with mode := f t.mode, offLane := false }

/-- A tile is to be DARK: one in a BIST slice returns to DARK when the slice ends. -/
def Tile.toDark (t : Tile) : Tile :=
  match t.bist with
  | some r => { t with bist := some { r with mode := .dark } }
  | none => t.goDark

/-- Power up every tile with work that is DARK and not fenced. -/
def State.powerFor (s : State) (p : Plan) : State :=
  allTiles.foldl (fun s u => s.modTile u fun t => if p.hasWork u.val ∧ !t.fenced then t.powerUp else t) s

/-- DARK or wake state per tile at the 2.0 µs point (Table 9-12): a tile without work in the plan goes DARK. -/
def State.setDark (s : State) (p : Plan) : State :=
  allTiles.foldl (fun s u => s.modTile u fun t =>
    if p.hasWork u.val ∨ t.mode = .dark then t else t.toDark) s

/-! ## What the safety block shows of a plan (Table 15-7) -/

/-- The verdict, watchdog and BIST configuration of a plan. -/
def State.putSafetyTable (s : State) (p : Plan) (v : Tier) : State :=
  let s1 := s.setReg Csr.verdictCtl (BitVec.ofNat 32 p.tasks.length)
  let s2 := (upFrom 0 8).foldl (fun s i => s.setReg (Csr.vdTask i)
    (match p.tasks[i]? with | some t => BitVec.ofNat 32 (t.lead + 256 * t.check) | none => 0)) s1
  let s3 := s2.setReg Csr.wdogCfg (BitVec.ofNat 32 ((upFrom 0 16).foldl (fun m n => m + b2n (p.hasWork n) * 2 ^ n) 0 + 0x10000))
  let bt := (upFrom 0 16).findSome? fun n => (p.fast v n).map fun b => b.bist
  s3.setReg Csr.bistCfg (BitVec.ofNat 32 (bt.getD 0))

/-! ## Leave that an entry books (R436) -/

/-- The entry of a tile's schedule in force in a block: its index (R239). -/
def Plan.entryIx (p : Plan) (v : Tier) (n : Nat) (blk k0 : Nat) : Nat :=
  match Plan.sched p v n with
  | some es => (((blk : Int) - k0) % (es.length : Int)).toNat
  | none => 0

/-- The entry that a tile runs in the present block books leave (R436). -/
def State.tileBooks (s : State) (n : Nat) : Bool :=
  match s.plan with
  | some p => Plan.books p s.dev.sched.variant n (Plan.entryIx p s.dev.sched.variant n s.blk s.dev.sched.k0)
  | none => false

end Sys2Proof.Machine
end

