-- ==== Sys2Proof/Machine/Banks.lean ====
section
/-! DEFINITION. Accesses at the banks: row transfers with their waits and withdrawals, the order of requests, the common bank's writers and the
pending copies of the vehicle slots (R42, R53 to R59, R358). -/

namespace Sys2Proof.Machine

/-! ## Requesters -/

/-- The fabric port of a requester (Table 1-2), 0x1F for the debug port (Table 12-11). -/
def portOf (q : Requester) : Nat :=
  match q with
  | .tile u => u.val
  | .ce k => 17 + k.val
  | .stream => 21
  | .mram => 23
  | .host => 24
  | .lichen => 25
  | .jtag => 31

/-- The requester at a fabric port. -/
def reqAt (p : PortIx) : Requester :=
  if h : p.val < 17 then .tile ⟨p.val, h⟩
  else if p.val < 21 then .ce ⟨(p.val - 17) % 4, Nat.mod_lt _ (by decide)⟩
  else if p.val = 21 then .stream
  else if p.val = 23 then .mram
  else if p.val = 24 then .host
  else .lichen

/-- The place of a port in the order of requests that meet in one cycle: ascending from S mod 27, wrapping (R57). -/
def portRank (S p : Nat) : Nat := (p + 27 - S % 27) % 27

/-- The SOURCE code of a requester at a bank (Table 2-12): the stream engine owns bank 21. -/
def eccSource (q : Requester) (a : Nat) : Nat :=
  match q with
  | .stream => if (locate a).map (·.1) = some 21 then 0 else 1
  | _ => 2

/-! ## Vehicle-signal slots (R358) -/

/-- Change the networks. -/
def State.modNet (s : State) (f : NetState → NetState) : State := { s with net := f s.net }

/-- The fabric address of slot i. -/
def slotAddr (i : Nat) : Nat := 0x0D004000 + 16 * i

/-- A pending copy that nothing has written. -/
def SlotCopy.none : SlotCopy := { val := 0, raw := 0, count := 0, valid := false, timeout := false, range := false, changed := false }

/-- The PRIMARY of a pair forwards inputs: both devices are PAIRED, or the peer is JOIN (R390). -/
def State.forwards (s : State) : Bool :=
  !s.dev.lkRole && decide (fld (s.reg Csr.lkStat) 2 0 = 3) && (decide (fld (s.reg Csr.pairStat) 2 0 = 3) || decide (fld (s.reg Csr.pairStat) 5 3 = 2))

/-- An input is forwarded to the PARTNER in a FORWARD flit: its kind and bytes (R390). -/
def State.forwardOut (s : State) (kind : Nat) (bs : List Byte) : State := if s.forwards then s.emit (.flit 7 (BitVec.ofNat 8 kind :: bs)) else s

/-- The pending copy of slot i, with a write that waits for the next block. -/
def State.slot (s : State) (i : Nat) : SlotCopy :=
  match s.net.late.find? fun e => decide (e.1 = i) with
  | some e => e.2
  | none => sget SlotCopy.none s.net.slots i

/-- Replace the pending copy of slot i. -/
def State.putSlot (s : State) (i : Nat) (x : SlotCopy) : State := s.modNet fun n => { n with slots := sset SlotCopy.none n.slots i x }

/-- A write now is published one block later: the PRIMARY of a pair publishes at a tick what it forwarded 2.0 µs before it (R390). -/
def State.slotLate (s : State) : Bool := s.forwards && decide (s.dev.sched.stage = .commit)

/-- The 16 bytes of a slot published in block `blk` (Table 13-2). -/
def SlotCopy.bytes (x : SlotCopy) (blk : Nat) : List Byte :=
  leBytes 4 x.val.toNat ++ leBytes 4 x.raw.toNat ++ leBytes 4 blk ++ leBytes 2 x.count.toNat
    ++ [BitVec.ofNat 8 (b2n x.valid + 2 * b2n x.timeout + 4 * b2n x.range), 0]

/-- A pending copy of given bytes, marked changed; BLK is set when it is published. -/
def SlotCopy.ofBytes (bs : List Byte) : SlotCopy :=
  let f := (bs.getD 14 0).toNat
  { val := BitVec.ofNat 32 (leNat (bs.take 4)), raw := BitVec.ofNat 32 (leNat ((bs.drop 4).take 4)), count := BitVec.ofNat 16 (leNat ((bs.drop 12).take 2))
    valid := decide (bitsOf f 0 0 = 1), timeout := decide (bitsOf f 1 1 = 1), range := decide (bitsOf f 2 2 = 1), changed := true }

/-- The pending copy of slot i is written, and the write forwarded; a write that waits for the next block gives way to it. -/
def State.setSlot (s : State) (i : Nat) (x : SlotCopy) : State :=
  let s1 := (s.forwardOut 0 (leBytes 2 i ++ x.bytes 0)).modNet fun n => { n with late := n.late.filter fun e => decide (e.1 ≠ i) }
  if s.slotLate then s1.modNet fun n => { n with late := (i, x) :: n.late } else s1.putSlot i x

/-- One byte at an offset of the slot region goes to its pending copy. -/
def State.slotByte (s : State) (o : Nat) (b : Byte) : State :=
  let i := (o - 0x4000) / 16
  s.setSlot i (SlotCopy.ofBytes (((s.slot i).bytes 0).set (o % 16) b))

/-- The service core writes bytes of the slot region: they go to the pending copies, and show at the next block tick (R42, R358). -/
def State.slotStore (s : State) : Nat → List Byte → State
  | _, [] => s
  | o, b :: r => State.slotStore (s.slotByte o b) (o + 1) r

/-! ## Writers of the common bank (R59) -/

/-- Whether a requester may write bytes [o, o+n) of the common bank (Table 2-5). -/
def State.commonOk (s : State) (q : Requester) (o n : Nat) : Bool :=
  let sc : Bool := decide (q = .tile 16)
  if o + n ≤ 0x1000 ∨ (0x4000 ≤ o ∧ o + n ≤ 0x5000) then sc
  else if 0x50000 ≤ o then
    sc || (match q, s.plan with | .tile _, some p => Plan.twr p o n | _, _ => false)
  else false

/-- The bytes [a, a+n) lie in one bank. -/
def oneBank (a n : Nat) : Bool :=
  match locate a with
  | some (b, o) => decide (o + n ≤ bankSize b)
  | none => false

/-! ## Row transfers (R53, R54, R56, R57) -/

/-- The pieces of a range that lie each in one 64-byte row (R53). -/
def rowPieces : Nat → Nat → Nat → List (Nat × Nat)
  | 0, _, _ => []
  | f + 1, a, n => if n = 0 then [] else (a, min n (64 - a % 64)) :: rowPieces f (a + min n (64 - a % 64)) (n - min n (64 - a % 64))

/-- The rows that a range touches. -/
def rowsOf (a n : Nat) : List (Nat × Nat) := rowPieces (n / 64 + 2) a n

/-- Change the fabric. -/
def State.modFab (s : State) (f : FabState → FabState) : State := { s with fab := f s.fab }

/-- The far operation of a number. -/
def State.farOf (s : State) (u : UnitIx) (seq : Nat) : Option FarOp := (s.tile u).far.find? fun f => decide (f.seq = seq)

/-- Change the far operation of a number. -/
def State.modFar (s : State) (u : UnitIx) (seq : Nat) (f : FarOp → FarOp) : State :=
  s.modTile u fun t => { t with far := t.far.map fun (g : FarOp) => if g.seq = seq then f g else g }

/-- The target has answered: status and data are on their way back. -/
def State.farDone (s : State) (u : UnitIx) (f : FarOp) (st : Nat) (data : List Byte) : State :=
  s.modFar u f.seq fun g => { g with phase := .done (BitVec.ofNat 8 st), data := data }

/-- A read of a bank by a requester: status and bytes. -/
def State.bankGet (s : State) (q : Requester) (a n : Nat) : State × Nat × List Byte :=
  let s1 := s.eccReadRange a n (eccSource q a)
  if s.hasUe a n then (s1, 6, []) else (s1, 0, s.bytes a n)

/-- A write to a bank by a requester, with its status. -/
def State.bankPut (s : State) (q : Requester) (a : Nat) (bs : List Byte) : State × Nat :=
  if 0x0D000000 ≤ a ∧ a < 0x0D200000 ∧ !s.commonOk q (a - 0x0D000000) bs.length then (s, 3)
  else if 0x0D004000 ≤ a ∧ a < 0x0D005000 then (s.slotStore (a - 0x0D000000) bs, 0)
  else (s.memWrite a bs (eccSource q a), 0)

/-- The sub-bank of a transfer. -/
def subOf (x : RowXfer) : Nat := x.ofs / 0x10000

/-- A transfer is performed.  That of a far operation answers it; a read hands its bytes to its requester. -/
def State.rowServe (s : State) (x : RowXfer) : State :=
  let a := bankBase x.bank.val + x.ofs
  if bankSize x.bank.val < x.ofs + x.bs.length ∨ 64 < x.ofs % 64 + x.bs.length then s
  else match x.far with
    | some (u, seq) =>
      match s.farOf u seq with
      | none => s
      | some f =>
        if f.kind = .fst then let r := s.bankPut (.tile u) a x.bs; r.1.farDone u f r.2 []
        else let r := s.bankGet (.tile u) a f.len; r.1.farDone u f r.2.1 r.2.2
    | none =>
      if x.wr then (s.bankPut (reqAt x.port) a x.bs).1
      else let r := s.bankGet (reqAt x.port) a x.bs.length; r.1.emit (.row x.port.val a (decide (r.2.1 = 6)) r.2.2)

/-- Transfer x is served before y: it arrived earlier, in one cycle its port comes first, of one access the lower address (R53, R57). -/
def rowBefore (S : Nat) (x y : RowXfer) : Bool :=
  let kx := (x.at_, portRank S x.port.val, x.ofs)
  let ky := (y.at_, portRank S y.port.val, y.ofs)
  decide (kx.1 < ky.1) || (decide (kx.1 = ky.1) && (decide (kx.2.1 < ky.2.1) || (decide (kx.2.1 = ky.2.1) && decide (kx.2.2 < ky.2.2))))

/-- The waiting transfer of a sub-bank that is served next. -/
def State.nextRow (s : State) (b : BankIx) (sub : Nat) : Option RowXfer :=
  (s.fab.rows.filter fun y => decide (y.bank = b) && decide (subOf y = sub)).foldl
    (fun m y => match m with | some x => if rowBefore s.sample.toNat y x then some y else some x | none => some y) none

/-- The next waiting transfer of a sub-bank is served. -/
def State.rowNext (s : State) (b : BankIx) (sub : Nat) : State :=
  match s.nextRow b sub with
  | some y => (s.modFab fun f => { f with rows := f.rows.erase y }).rowServe y
  | none => s

/-- Serve waiting transfers of a sub-bank, `n` of them. -/
def State.rowDrain (s : State) (b : BankIx) (sub : Nat) : Nat → State
  | 0 => s
  | n + 1 => (s.rowNext b sub).rowDrain b sub n

/-- The transfers that wait at a sub-bank are served ahead of an access that comes after them (R53). -/
def State.rowsAhead (s : State) (a : Nat) : State :=
  match locate a with
  | some (n, o) =>
    if h : n < 23 then s.rowDrain ⟨n, h⟩ (o / 0x10000) (s.fab.rows.filter fun y => decide (y.bank.val = n) && decide (subOf y = o / 0x10000)).length else s
  | none => s

/-- The pieces of an external read are read, behind what waits at their sub-banks. -/
def State.bankRead (s : State) (q : Requester) (a n : Nat) : State × Nat × List Byte :=
  (if s.fab.rows = [] then s else (rowsOf a n).foldl (fun s x => s.rowsAhead x.1) s).bankGet q a n

/-- One row of an external write: performed behind what waits at its sub-bank, or, withdrawn before, left waiting. -/
def State.rowWrite (s : State) (q : Requester) (p : PortIx) (x : Nat × List Byte) : State × Nat :=
  match s.fab.marks.find? fun m => decide (m.1 = x.1 / 64), locate x.1 with
  | some m, some (n, o) =>
    if h : n < 23 then
      ((s.modFab fun f => { f with
          marks := f.marks.erase m
          rows := f.rows ++ [{ bank := ⟨n, h⟩, port := p, wr := true, ofs := o, bs := x.2, far := none, at_ := m.2 }] }), 0)
    else (s, 2)
  | _, _ => (s.rowsAhead x.1).bankPut q x.1 x.2

/-- An external write to a bank: whole, or row by row where transfers wait or have been withdrawn. -/
def State.bankWrite (s : State) (q : Requester) (a : Nat) (bs : List Byte) : State × Nat :=
  if s.fab.rows = [] ∧ s.fab.marks = [] then s.bankPut q a bs
  else (rowsOf a bs.length).foldl (fun (x : State × Nat) r =>
    if h : portOf q < 27 then
      let y := x.1.rowWrite q ⟨portOf q, h⟩ (r.1, (bs.drop (r.1 - a)).take r.2)
      (y.1, if x.2 = 0 then y.2 else x.2)
    else x) (s, 0)

/-- A far operation's row waits or has been served. -/
def State.rowQueued (s : State) (u : UnitIx) (seq : Nat) : Bool := s.fab.rows.any fun x => decide (x.far = some (u, seq))

/-- A transfer as it arrives: one that carries out the far operation at a place in its unit's list takes everything from it. -/
def State.rowArrive (s : State) (x : RowXfer) : State :=
  match x.far with
  | none => s.modFab fun f => { f with rows := f.rows ++ [x] }
  | some (u, i) =>
    match (s.tile u).far[i]? with
    | none => s
    | some f =>
      match locate f.ga.toNat with
      | none => s
      | some (n, o) =>
        if h : n < 23 then
          if f.phase ≠ .sent ∨ (f.kind ≠ .fld ∧ f.kind ≠ .fst) ∨ s.rowQueued u f.seq then s
          else s.modFab fun g => { g with rows := g.rows ++
            [{ bank := ⟨n, h⟩, port := ⟨u.val, Nat.lt_of_lt_of_le u.isLt (by decide)⟩, wr := decide (f.kind = .fst), ofs := o
               bs := if f.kind = .fst then f.data else zeros f.len, far := some (u, f.seq), at_ := x.at_ }] }
        else s

/-- In an idle cycle of a sub-bank the first of its waiting transfers is performed; its wait is counted (R56). -/
def State.rowTransfer (s0 : State) (b : BankIx) (sub : Nat) (x : Option RowXfer) (now : Nat) : State :=
  let s := match x with | some y => s0.rowArrive y | none => s0
  match s.nextRow b sub with
  | none => s
  | some y =>
    let w := now - y.at_
    let s1 := s.rowNext b sub
    let s2 := if 64 < w then s1.bump (bankReg b.val 0x14) else s1
    s2.modReg (bankReg b.val 0x18) fun m => BitVec.ofNat 32 (max m.toNat (min w 0xFFFFFFFF))

/-- The owner takes a cycle given to a transfer, which is withdrawn and counted: one that waits or arrives now, or the part in the row at
`row` of a write that an access command brings next. -/
def State.rowWithdraw (s0 : State) (b : BankIx) (sub : Nat) (x : Option RowXfer) (row : Option Nat) (now : Nat) : State :=
  let s := match x with | some y => s0.rowArrive y | none => s0
  match row with
  | some o =>
    if o < bankSize b.val then
      (s.modFab fun f => { f with marks := f.marks ++ [((bankBase b.val + o) / 64, now)] }).bump (bankReg b.val 0x1C)
    else s
  | none => if (s.nextRow b sub).isSome then s.bump (bankReg b.val 0x1C) else s

end Sys2Proof.Machine
end

