-- ==== Sys2Proof/Machine/CtlOps.lean ====
section
/-! DEFINITION. The B slot: branches, loops, repeat, slice end, barriers and system registers (R96, R99, R196, R201 to R217,
R227, R230, R231). -/

namespace Sys2Proof.Machine

/-- The link of a branch in the frond of the context (R202). -/
def Ctx.link (c : Ctx) : Nat := linkAt c.s c.u c.pc.toNat c.len

/-! ## Branches (R202, R204) -/

/-- A branch that is performed: its target, checked for alignment, and its link if it writes one. -/
def branchOut (c : Ctx) (w : OpWord) (ok : Bool) (tgt : Word) (links : Bool) : OpOut :=
  if !(ok && decide (w.w = 0)) then { illegal := true }
  else if tgt.toNat % 8 ≠ 0 then { fault := some { vec := 3, faddr := tgt.toNat, vindex := none } }
  else
    { target := some tgt
      wr := if links then [(2, .areg 0 (BitVec.ofNat 4 (w.bits 47 44)) (BitVec.ofNat 32 c.link))] else [] }

/-- PC + 8 × sext(OFS). -/
def ofsTarget (c : Ctx) (w : OpWord) : Word := BitVec.ofNat 32 (ofInt 32 ((c.pc.toNat : Int) + 8 * toInt 24 (w.bits 23 0)))

/-- The register of field AS. -/
def asReg (c : Ctx) (w : OpWord) : Word := c.t.areg 0 (BitVec.ofNat 4 (w.bits 43 40))

/-- BR. -/
def brOut (c : Ctx) (w : OpWord) : OpOut := branchOut c w (decide (w.bits 47 24 = 0)) (ofsTarget c w) false
/-- BRX. -/
def brxOut (c : Ctx) (w : OpWord) : OpOut := branchOut c w (decide (w.bits 47 0 = 0) && c.ext.isSome) (c.ext.getD 0) false
/-- BRA. -/
def braOut (c : Ctx) (w : OpWord) : OpOut :=
  branchOut c w (decide (w.bits 47 44 = 0) && decide (w.bits 39 0 = 0)) (asReg c w) false
/-- CALL. -/
def callOut (c : Ctx) (w : OpWord) : OpOut := branchOut c w (decide (w.bits 43 24 = 0)) (ofsTarget c w) true
/-- CALLA. -/
def callaOut (c : Ctx) (w : OpWord) : OpOut := branchOut c w (decide (w.bits 39 0 = 0)) (asReg c w) true
/-- RET. -/
def retOut (c : Ctx) (w : OpWord) : OpOut :=
  branchOut c w (decide (w.bits 47 44 = 0) && decide (w.bits 39 0 = 0)) (asReg c w) false

/-! ## LOOP and REP (R207, R208, R212) -/

/-- A taken branch makes inactive every active loop whose range its target leaves (R210). -/
def Tile.leaveLoops (t : Tile) (tgt : Nat) : Tile :=
  let out := fun (l : Loop) => l.active && !(decide (l.first.toNat ≤ tgt) && decide (tgt ≤ l.last.toNat))
  { t with
    loops := t.loops.map fun l => if out l then { l with active := false } else l
    order := t.order.filter fun k => !(out (rfGet Loop.reset t.loops k.toNat)) }

/-- LOOP. -/
def loopOut (c : Ctx) (w : OpWord) : OpOut :=
  let src := w.bits 45 44
  let start := (c.pc.toNat + 8 * w.bits 23 12) % 2 ^ 32
  let last := (start + 8 * w.bits 11 0) % 2 ^ 32
  let n1 := (c.pc.toNat + c.len) % 2 ^ 32
  let n2 := nextFrond c.s c.u n1
  let count : Word := match src with
    | 0 => asReg c w
    | 1 => BitVec.ofNat 32 (w.bits 39 24)
    | _ => c.ext.getD 0
  let k := BitVec.ofNat 2 (w.bits 47 46)
  if !(decide (src ≠ 3) && (decide (src = 0) || decide (w.bits 43 40 = 0)) && (decide (src = 1) || decide (w.bits 39 24 = 0))
      && (decide (src ≠ 2) || c.ext.isSome) && decide (n2 < start) && decide (w.w = 0))
  then { illegal := true }
  else
    { wr := [(2, .loopSet k (BitVec.ofNat 32 start) (BitVec.ofNat 32 last) count)]
      act := fun s => if count = 0 then
          (s.discardFronds c.u 4 c.link none).modTile c.u fun t => { t.leaveLoops (nextFrond c.s c.u last) with
            br := { delay := 2, taken := true, target := BitVec.ofNat 32 (nextFrond c.s c.u last), gap := 4, open_ := true } }
        else s }

/-- REP: the count is latched (R212). -/
def repOut (c : Ctx) (w : OpWord) : OpOut :=
  let k := BitVec.ofNat 2 (w.bits 47 46)
  let fromLc := decide (w.bits 44 44 = 1)
  let n := if fromLc then min 4095 (rfGet 0 c.t.lc k.toNat).toNat else w.bits 11 0
  if decide (w.bits 45 45 ≠ 0) || decide (w.bits 43 12 ≠ 0) || decide (w.w ≠ 0) then { illegal := true }
  else
    { act := fun s => s.modTile c.u fun t =>
        if n = 0 then { t with repSkip := true }
        else { t with rep := { active := true, left := BitVec.ofNat 12 n, k := k, srcLc := fromLc, held := none, since := t.cycle } } }

/-! ## Slice end, barriers and predictor -/

/-- An operation without fields. -/
def bareOk (w : OpWord) : Bool := decide (w.bits 47 0 = 0) && decide (w.w = 0)

/-- DONE (R33, R215): valid at L0, TICKET_AT_DONE with a ticket outstanding; pending results retire, then SLEEP. -/
def doneOut (c : Ctx) (w : OpWord) : OpOut :=
  if !bareOk w || decide (c.t.level ≠ 0) then { illegal := true }
  else if c.t.outstanding then { fault := some { vec := 8, faddr := 0, vindex := none } }
  else { after := fun s => (drainPending c.u s).modTile c.u fun t => { t with mode := .sleep, doneInBlk := true } }

/-- The state that a NAP leaves: with a fast-lane tick held the tile goes straight on (R246); one that has left the fast lane while it ran is in
SLEEP, as at the end of a slice (log 32). -/
def Tile.endNap (t : Tile) : Tile :=
  if t.offLane then { t with mode := .sleep, doneInBlk := true, offLane := false }
  else if t.heldTick && decide (fld t.flCfg 0 0 = 1) then { t with heldTick := false }
  else { t with mode := .nap }

/-- NAP (R215): pending results retire, then NAP. -/
def napOut (c : Ctx) (w : OpWord) : OpOut :=
  if !bareOk w || decide (c.t.level ≠ 0) then { illegal := true }
  else { after := fun s => (drainPending c.u s).modTile c.u Tile.endNap }

/-- FBAR (R196): four empty fronds, then any pending trap. -/
def fbarOut (c : Ctx) (w : OpWord) : OpOut :=
  if !bareOk w then { illegal := true }
  else { after := fun s =>
    let s1 := emptyCycles c.u 4 s
    if (s1.tile c.u).trapReady then deliverTrap c.u s1 else s1.modTile c.u Tile.passPoint }

/-- IFENCE (R99, R100): ten empty fronds, and the fiddlehead buffer empty until the next LOOP entry. -/
def ifenceOut (c : Ctx) (w : OpWord) : OpOut :=
  if !bareOk w then { illegal := true }
  else
    { act := fun s => (s.discardFronds c.u 6 (c.pc.toNat + c.len) none).modTile c.u fun t =>
        { t with loops := t.loops.map fun l => { l with captured := false }, buffer := [] }
      after := fun s => emptyCycles c.u 10 s }

/-- PFLUSH (R206). -/
def pflushOut (c : Ctx) (w : OpWord) : OpOut :=
  if !bareOk w then { illegal := true }
  else { act := fun s => s.modTile c.u Tile.flushPredictor }

/-- PBAR (R206): every frond in the front end discarded, and six empty fronds. -/
def pbarOut (c : Ctx) (w : OpWord) : OpOut :=
  if !bareOk w then { illegal := true }
  else { act := fun s => s.discardFronds c.u 6 (c.pc.toNat + c.len) none, after := fun s => emptyCycles c.u 6 s }

/-- NOP (R201). -/
def nopOut (_c : Ctx) (w : OpWord) : OpOut := { illegal := !bareOk w }

/-! ## System registers (R216, Table 8-4) -/

/-- LSTAT (Table 8-4). -/
def Tile.lstat (t : Tile) : Nat :=
  (upFrom 0 4).foldl (fun n k => n + b2n (rfGet Loop.reset t.loops k).active * 2 ^ k) 0
    + b2n (t.loops.toList.any fun l => l.active && l.captured && l.passed && decide (fld t.ctl 1 1 = 0)) * 16

/-- ID_ISA0 to ID_ISA3 of a unit (Tables 8-12 to 8-15). -/
def idIsa (t : Tile) (u : UnitIx) (i : Nat) : Word :=
  match i with
  | 0 => if u.val = 16 then 0x00001310 else 0x00001F10
  | 1 => if u.val = 16 then 0x00120200 else 0x00120208
  | 2 => if u.val = 16 then 0x00001FCF else 0x00001FFF
  | _ => BitVec.ofNat 32 (fld t.ucodeLvl 15 0 + fld t.ucodeLvl 30 30 * 2 ^ 16)

/-- A system register as MFSR reads it; none for a number not in Table 8-4. -/
def sregRead (s : State) (u : UnitIx) (sr : Nat) : Option Word :=
  let t := s.tile u
  match sr with
  | 0x00 => some t.status
  | 0x01 => some t.ctl
  | 0x02 => some t.isp
  | 0x03 => some t.ivbase
  | 0x04 => some t.istat
  | 0x05 => some t.fcsr
  | 0x06 => some t.vcfg
  | 0x07 => some t.vindex
  | 0x08 => some t.ftrapPc
  | 0x09 => some t.ftrapInfo
  | 0x0A => some t.tktSplit
  | 0x0B => some t.trecSel
  | 0x14 => some (BitVec.ofNat 32 t.lstat)
  | 0x18 => some (BitVec.ofNat 32 s.blk)
  | 0x24 => some t.mtrapBuf
  | 0x28 => some 0
  | _ =>
    if 0x0C ≤ sr ∧ sr ≤ 0x0F then some ((t.ticket (ticketIx (fld t.trecSel 4 0))).trec (sr - 0x0C))
    else if 0x10 ≤ sr ∧ sr ≤ 0x13 then some (rfGet 0 t.lc (sr - 0x10))
    else if 0x20 ≤ sr ∧ sr ≤ 0x23 then some (idIsa t u (sr - 0x20))
    else if 0x30 ≤ sr ∧ sr ≤ 0x37 then some (word256 t.ien (sr - 0x30))
    else if 0x38 ≤ sr ∧ sr ≤ 0x3F then some (word256 t.ipendView (sr - 0x38))
    else if 0x40 ≤ sr ∧ sr ≤ 0x47 then some (word256 t.ilvl (sr - 0x40))
    else none

/-- MFSR (R216): SRC and IMM16 are fields it does not use. -/
def mfsrOut (c : Ctx) (w : OpWord) : OpOut :=
  match sregRead c.s c.u (w.bits 47 40) with
  | none => { illegal := true }
  | some v =>
    if decide (w.bits 35 0 ≠ 0) || decide (w.w ≠ 0) then { illegal := true }
    else { wr := [(2, .areg 0 (BitVec.ofNat 4 (w.bits 39 36)) v)] }

/-- MTSR (R216): distance 4, CTL.PRED_OFF distance 6 (R91). -/
def mtsrOut (c : Ctx) (w : OpWord) : OpOut :=
  let src := w.bits 35 34
  let sr := w.bits 47 40
  if !(decide (src ≠ 3) && decide (w.bits 33 16 = 0) && (decide (src = 0) || decide (w.bits 39 36 = 0))
      && (decide (src = 1) || decide (w.bits 15 0 = 0)) && (decide (src ≠ 2) || c.ext.isSome)
      && (sregRead c.s c.u sr).isSome && decide (w.w = 0))
  then { illegal := true }
  else
    let v : Word := match src with
      | 0 => c.t.areg 0 (BitVec.ofNat 4 (w.bits 39 36))
      | 1 => BitVec.ofNat 32 (w.bits 15 0)
      | _ => c.ext.getD 0
    { wr := (4, .sreg (BitVec.ofNat 8 sr) v) :: (if sr = 1 then [(6, .predOff (v.getLsbD 0))] else []) }

/-! ## RETI (R227, R230) -/

/-- The state a frame's WSTATE records. -/
def wstateMode (x : Nat) : Option TileMode := if x = 1 then some .nap else if x = 2 then some .sleep else none

/-- After RETI issues at r: the frame is written back at the end of r+5 and its frond issues at r+9; a frame of NAP or SLEEP
returns the tile to that state unless a wake event of it is held (R230). -/
def retiAfter (u : UnitIx) (s : State) : State :=
  let ws := wstateMode (bitsOf (s.localLoad u ((s.tile u).isp.toNat + 4) 4) 15 14)
  let s1 := restoreFrame u s (entryCycles u 5 (s.eccReadRange (localBase u + (s.tile u).isp.toNat) 128 0))
  match ws with
  | none => entryCycles u 3 s1
  | some m =>
    let held := (s.tile u).wake.held
    s1.modTile u fun t =>
      { t with mode := if held && decide (m = .nap) then .run else m
               wake := { from_ := none, held := false }
               heldTick := t.heldTick || (held && decide (m = .sleep)) }

/-- RETI: ILLEGAL_OP at L0. -/
def retiOut (c : Ctx) (w : OpWord) : OpOut :=
  if !bareOk w || decide (c.t.level = 0) then { illegal := true }
  else { act := fun s => s.discardFronds c.u 6 (c.pc.toNat + c.len) none, after := fun s => retiAfter c.u s }

end Sys2Proof.Machine
end

