-- ==== Sys2Proof/Machine/OpTable.lean ====
section
/-! DEFINITION. The operations of a frond by constructor: slot, word, class and effect. -/

namespace Sys2Proof.Machine

/-- What issue needs to know of one operation: its slot (Table 3-2), its word, whether it is a control operation (Table 8-1),
whether it is a vector operation, and its effect. -/
structure OpInfo where
  slot : Nat
  w    : OpWord
  ctl  : Bool := false
  out  : Ctx → OpOut

/-- The operation a command supplies; none for a command that is not an operation. -/
def opInfo (c : Instr) : Option OpInfo :=
  match c with
  | .ext _ w => some { slot := 3, w := w, out := fun x => extOut x w }
  | .fmovD _ w => some { slot := 3, w := w, out := fun x => fmovDOut x w }
  | .fmovS _ w => some { slot := 3, w := w, out := fun x => fmovSOut x w }
  | .sext _ w => some { slot := w.mSlot, w := w, out := fun x => sextOut x w }
  | .zext _ w => some { slot := w.mSlot, w := w, out := fun x => zextOut x w }
  | .mov _ w => some { slot := w.mSlot, w := w, out := fun x => movOut x w }
  | .add _ w => some { slot := w.mSlot, w := w, out := fun x => addOut x w }
  | .sub _ w => some { slot := w.mSlot, w := w, out := fun x => subOut x w }
  | .adds _ w => some { slot := w.mSlot, w := w, out := fun x => addsOut x w }
  | .subs _ w => some { slot := w.mSlot, w := w, out := fun x => subsOut x w }
  | .neg _ w => some { slot := w.mSlot, w := w, out := fun x => negOut x w }
  | .abss _ w => some { slot := w.mSlot, w := w, out := fun x => abssOut x w }
  | .and _ w => some { slot := w.mSlot, w := w, out := fun x => andOut x w }
  | .or _ w => some { slot := w.mSlot, w := w, out := fun x => orOut x w }
  | .xor _ w => some { slot := w.mSlot, w := w, out := fun x => xorOut x w }
  | .andn _ w => some { slot := w.mSlot, w := w, out := fun x => andnOut x w }
  | .shl _ w => some { slot := w.mSlot, w := w, out := fun x => shlOut x w }
  | .shr _ w => some { slot := w.mSlot, w := w, out := fun x => shrOut x w }
  | .sar _ w => some { slot := w.mSlot, w := w, out := fun x => sarOut x w }
  | .shls _ w => some { slot := w.mSlot, w := w, out := fun x => shlsOut x w }
  | .min _ w => some { slot := w.mSlot, w := w, out := fun x => minOut x w }
  | .max _ w => some { slot := w.mSlot, w := w, out := fun x => maxOut x w }
  | .minu _ w => some { slot := w.mSlot, w := w, out := fun x => minuOut x w }
  | .maxu _ w => some { slot := w.mSlot, w := w, out := fun x => maxuOut x w }
  | .cmp _ w => some { slot := w.mSlot, w := w, out := fun x => cmpOut x w }
  | .plog _ w => some { slot := w.mSlot, w := w, out := fun x => plogOut x w }
  | .mulq15 _ w => some { slot := w.mSlot, w := w, out := fun x => mulq15Out x w }
  | .macq15 _ w => some { slot := w.mSlot, w := w, out := fun x => macq15Out x w }
  | .rndq _ w => some { slot := w.mSlot, w := w, out := fun x => rndqOut x w }
  | .fadd _ w => some { slot := w.mSlot, w := w, out := fun x => faddOut x w }
  | .fsub _ w => some { slot := w.mSlot, w := w, out := fun x => fsubOut x w }
  | .fmul _ w => some { slot := w.mSlot, w := w, out := fun x => fmulOut x w }
  | .fma _ w => some { slot := w.mSlot, w := w, out := fun x => fmaOut x w }
  | .fnms _ w => some { slot := w.mSlot, w := w, out := fun x => fnmsOut x w }
  | .fcmp _ w => some { slot := w.mSlot, w := w, out := fun x => fcmpOut x w }
  | .fneg _ w => some { slot := w.mSlot, w := w, out := fun x => fnegOut x w }
  | .fabs _ w => some { slot := w.mSlot, w := w, out := fun x => fabsOut x w }
  | .fcvtDS _ w => some { slot := w.mSlot, w := w, out := fun x => fcvtDSOut x w }
  | .fcvtSD _ w => some { slot := w.mSlot, w := w, out := fun x => fcvtSDOut x w }
  | .fcvtHS _ w => some { slot := w.mSlot, w := w, out := fun x => fcvtHSOut x w }
  | .fcvtSH _ w => some { slot := w.mSlot, w := w, out := fun x => fcvtSHOut x w }
  | .fcvtI32S _ w => some { slot := w.mSlot, w := w, out := fun x => fcvtI32SOut x w }
  | .fcvtI32D _ w => some { slot := w.mSlot, w := w, out := fun x => fcvtI32DOut x w }
  | .fcvtI64D _ w => some { slot := w.mSlot, w := w, out := fun x => fcvtI64DOut x w }
  | .fcvtSI32 _ w => some { slot := w.mSlot, w := w, out := fun x => fcvtSI32Out x w }
  | .fcvtDI32 _ w => some { slot := w.mSlot, w := w, out := fun x => fcvtDI32Out x w }
  | .fcvtDI64 _ w => some { slot := w.mSlot, w := w, out := fun x => fcvtDI64Out x w }
  | .fcvtQ31S _ w => some { slot := w.mSlot, w := w, out := fun x => fcvtQ31SOut x w }
  | .fcvtSQ31 _ w => some { slot := w.mSlot, w := w, out := fun x => fcvtSQ31Out x w }
  | .amovi _ w => some { slot := 2, w := w, out := fun x => amoviOut x w }
  | .amovx _ w => some { slot := 2, w := w, out := fun x => amovxOut x w }
  | .amov _ w => some { slot := 2, w := w, out := fun x => amovOut x w }
  | .aaddi _ w => some { slot := 2, w := w, out := fun x => aaddiOut x w }
  | .aadd _ w => some { slot := 2, w := w, out := fun x => aaddOut x w }
  | .asub _ w => some { slot := 2, w := w, out := fun x => asubOut x w }
  | .ashli _ w => some { slot := 2, w := w, out := fun x => ashliOut x w }
  | .aaddx _ w => some { slot := 2, w := w, out := fun x => aaddxOut x w }
  | .aget _ w => some { slot := 2, w := w, out := fun x => agetOut x w }
  | .aput _ w => some { slot := 2, w := w, out := fun x => aputOut x w }
  | .setvl _ w => some { slot := if w.second then 5 else 4, w := w, out := fun x => setvlOut x w }
  | .vmov _ w => some { slot := if w.second then 5 else 4, w := w, out := fun x => vmovOut x w }
  | .vid _ w => some { slot := if w.second then 5 else 4, w := w, out := fun x => vidOut x w }
  | .vadd _ w => some { slot := if w.second then 5 else 4, w := w, out := fun x => vaddOut x w }
  | .vsub _ w => some { slot := if w.second then 5 else 4, w := w, out := fun x => vsubOut x w }
  | .vadds _ w => some { slot := if w.second then 5 else 4, w := w, out := fun x => vaddsOut x w }
  | .vsubs _ w => some { slot := if w.second then 5 else 4, w := w, out := fun x => vsubsOut x w }
  | .vand _ w => some { slot := if w.second then 5 else 4, w := w, out := fun x => vandOut x w }
  | .vor _ w => some { slot := if w.second then 5 else 4, w := w, out := fun x => vorOut x w }
  | .vxor _ w => some { slot := if w.second then 5 else 4, w := w, out := fun x => vxorOut x w }
  | .vshl _ w => some { slot := if w.second then 5 else 4, w := w, out := fun x => vshlOut x w }
  | .vshr _ w => some { slot := if w.second then 5 else 4, w := w, out := fun x => vshrOut x w }
  | .vsar _ w => some { slot := if w.second then 5 else 4, w := w, out := fun x => vsarOut x w }
  | .vmin _ w => some { slot := if w.second then 5 else 4, w := w, out := fun x => vminOut x w }
  | .vmax _ w => some { slot := if w.second then 5 else 4, w := w, out := fun x => vmaxOut x w }
  | .vmulq15 _ w => some { slot := if w.second then 5 else 4, w := w, out := fun x => vmulq15Out x w }
  | .vcmp _ w => some { slot := if w.second then 5 else 4, w := w, out := fun x => vcmpOut x w }
  | .vmerge _ w => some { slot := if w.second then 5 else 4, w := w, out := fun x => vmergeOut x w }
  | .vfadd _ w => some { slot := if w.second then 5 else 4, w := w, out := fun x => vfaddOut x w }
  | .vfsub _ w => some { slot := if w.second then 5 else 4, w := w, out := fun x => vfsubOut x w }
  | .vfmul _ w => some { slot := if w.second then 5 else 4, w := w, out := fun x => vfmulOut x w }
  | .vfma _ w => some { slot := if w.second then 5 else 4, w := w, out := fun x => vfmaOut x w }
  | .vfnms _ w => some { slot := if w.second then 5 else 4, w := w, out := fun x => vfnmsOut x w }
  | .vfmin _ w => some { slot := if w.second then 5 else 4, w := w, out := fun x => vfminOut x w }
  | .vfmax _ w => some { slot := if w.second then 5 else 4, w := w, out := fun x => vfmaxOut x w }
  | .vfcmp _ w => some { slot := if w.second then 5 else 4, w := w, out := fun x => vfcmpOut x w }
  | .vfcvt _ w => some { slot := if w.second then 5 else 4, w := w, out := fun x => vfcvtOut x w }
  | .vld _ w => some { slot := if w.second then 5 else 4, w := w, out := fun x => vldOut x w }
  | .vst _ w => some { slot := if w.second then 5 else 4, w := w, out := fun x => vstOut x w }
  | .join _ w => some { slot := 6, w := w, out := fun x => joinOut x w }
  | .joinany _ w => some { slot := 6, w := w, out := fun x => joinanyOut x w }
  | .retry _ w => some { slot := 6, w := w, out := fun x => retryOut x w }
  | .trel _ w => some { slot := 6, w := w, out := fun x => trelOut x w }
  | .tdone _ w => some { slot := 6, w := w, out := fun x => tdoneOut x w }
  | .macroTrap _ y => some { slot := wordSlot y, w := opWordOf y, out := fun x => unassignedOut x y }
  | .fld _ w => some { slot := 6, w := w, out := fun x => fldOut x w }
  | .fst _ w => some { slot := 6, w := w, out := fun x => fstOut x w }
  | .spore _ w => some { slot := 6, w := w, out := fun x => sporeOut x w }
  | .semacq _ w => some { slot := 6, w := w, out := fun x => semacqOut x w }
  | .semrel _ w => some { slot := 6, w := w, out := fun x => semrelOut x w }
  | .cesub _ w => some { slot := 6, w := w, out := fun x => cesubOut x w }
  | .mulS32 _ w => some { slot := 6, w := w, out := fun x => mulS32Out x w }
  | .mulU32 _ w => some { slot := 6, w := w, out := fun x => mulU32Out x w }
  | .mull64 _ w => some { slot := 6, w := w, out := fun x => mull64Out x w }
  | .mulhS64 _ w => some { slot := 6, w := w, out := fun x => mulhS64Out x w }
  | .mulhU64 _ w => some { slot := 6, w := w, out := fun x => mulhU64Out x w }
  | .mulq31 _ w => some { slot := 6, w := w, out := fun x => mulq31Out x w }
  | .divS32 _ w => some { slot := 6, w := w, out := fun x => divS32Out x w }
  | .divU32 _ w => some { slot := 6, w := w, out := fun x => divU32Out x w }
  | .divS64 _ w => some { slot := 6, w := w, out := fun x => divS64Out x w }
  | .divU64 _ w => some { slot := 6, w := w, out := fun x => divU64Out x w }
  | .fdivS _ w => some { slot := 6, w := w, out := fun x => fdivSOut x w }
  | .fdivD _ w => some { slot := 6, w := w, out := fun x => fdivDOut x w }
  | .fsqrtS _ w => some { slot := 6, w := w, out := fun x => fsqrtSOut x w }
  | .fsqrtD _ w => some { slot := 6, w := w, out := fun x => fsqrtDOut x w }
  | .biq _ w => some { slot := 6, w := w, out := fun x => biqOut x w }
  | .fft4 _ w => some { slot := 6, w := w, out := fun x => fft4Out x w }
  | .cmac _ w => some { slot := 6, w := w, out := fun x => cmacOut x w }
  | .nlms _ w => some { slot := 6, w := w, out := fun x => nlmsOut x w }
  | .gather _ w => some { slot := 6, w := w, out := fun x => gatherOut x w }
  | .scatter _ w => some { slot := 6, w := w, out := fun x => scatterOut x w }
  | .bmov _ w => some { slot := 6, w := w, out := fun x => bmovOut x w }
  | .peak _ w => some { slot := 6, w := w, out := fun x => peakOut x w }
  | .rms _ w => some { slot := 6, w := w, out := fun x => rmsOut x w }
  | .nop _ w => some { slot := 7, w := w, out := fun x => nopOut x w }
  | .br _ w => some { slot := 7, w := w, ctl := true, out := fun x => brOut x w }
  | .brx _ w => some { slot := 7, w := w, ctl := true, out := fun x => brxOut x w }
  | .bra _ w => some { slot := 7, w := w, ctl := true, out := fun x => braOut x w }
  | .call _ w => some { slot := 7, w := w, ctl := true, out := fun x => callOut x w }
  | .calla _ w => some { slot := 7, w := w, ctl := true, out := fun x => callaOut x w }
  | .ret _ w => some { slot := 7, w := w, ctl := true, out := fun x => retOut x w }
  | .loop _ w => some { slot := 7, w := w, ctl := true, out := fun x => loopOut x w }
  | .rep _ w => some { slot := 7, w := w, ctl := true, out := fun x => repOut x w }
  | .done _ w => some { slot := 7, w := w, ctl := true, out := fun x => doneOut x w }
  | .nap _ w => some { slot := 7, w := w, ctl := true, out := fun x => napOut x w }
  | .fbar _ w => some { slot := 7, w := w, ctl := true, out := fun x => fbarOut x w }
  | .ifence _ w => some { slot := 7, w := w, ctl := true, out := fun x => ifenceOut x w }
  | .pflush _ w => some { slot := 7, w := w, out := fun x => pflushOut x w }
  | .pbar _ w => some { slot := 7, w := w, ctl := true, out := fun x => pbarOut x w }
  | .mfsr _ w => some { slot := 7, w := w, out := fun x => mfsrOut x w }
  | .mtsr _ w => some { slot := 7, w := w, out := fun x => mtsrOut x w }
  | .reti _ w => some { slot := 7, w := w, ctl := true, out := fun x => retiOut x w }
  | _ => none

/-- The unit that an operation word goes to; none for a command that is not an operation. -/
def opUnit (c : Instr) : Option UnitIx :=
  match c with
  | .ext u _ => some u
  | .fmovD u _ => some u
  | .fmovS u _ => some u
  | .sext u _ => some u
  | .zext u _ => some u
  | .mov u _ => some u
  | .add u _ => some u
  | .sub u _ => some u
  | .adds u _ => some u
  | .subs u _ => some u
  | .neg u _ => some u
  | .abss u _ => some u
  | .and u _ => some u
  | .or u _ => some u
  | .xor u _ => some u
  | .andn u _ => some u
  | .shl u _ => some u
  | .shr u _ => some u
  | .sar u _ => some u
  | .shls u _ => some u
  | .min u _ => some u
  | .max u _ => some u
  | .minu u _ => some u
  | .maxu u _ => some u
  | .cmp u _ => some u
  | .plog u _ => some u
  | .mulq15 u _ => some u
  | .macq15 u _ => some u
  | .rndq u _ => some u
  | .fadd u _ => some u
  | .fsub u _ => some u
  | .fmul u _ => some u
  | .fma u _ => some u
  | .fnms u _ => some u
  | .fcmp u _ => some u
  | .fneg u _ => some u
  | .fabs u _ => some u
  | .fcvtDS u _ => some u
  | .fcvtSD u _ => some u
  | .fcvtHS u _ => some u
  | .fcvtSH u _ => some u
  | .fcvtI32S u _ => some u
  | .fcvtI32D u _ => some u
  | .fcvtI64D u _ => some u
  | .fcvtSI32 u _ => some u
  | .fcvtDI32 u _ => some u
  | .fcvtDI64 u _ => some u
  | .fcvtQ31S u _ => some u
  | .fcvtSQ31 u _ => some u
  | .amovi u _ => some u
  | .amovx u _ => some u
  | .amov u _ => some u
  | .aaddi u _ => some u
  | .aadd u _ => some u
  | .asub u _ => some u
  | .ashli u _ => some u
  | .aaddx u _ => some u
  | .aget u _ => some u
  | .aput u _ => some u
  | .setvl u _ => some u
  | .vmov u _ => some u
  | .vid u _ => some u
  | .vadd u _ => some u
  | .vsub u _ => some u
  | .vadds u _ => some u
  | .vsubs u _ => some u
  | .vand u _ => some u
  | .vor u _ => some u
  | .vxor u _ => some u
  | .vshl u _ => some u
  | .vshr u _ => some u
  | .vsar u _ => some u
  | .vmin u _ => some u
  | .vmax u _ => some u
  | .vmulq15 u _ => some u
  | .vcmp u _ => some u
  | .vmerge u _ => some u
  | .vfadd u _ => some u
  | .vfsub u _ => some u
  | .vfmul u _ => some u
  | .vfma u _ => some u
  | .vfnms u _ => some u
  | .vfmin u _ => some u
  | .vfmax u _ => some u
  | .vfcmp u _ => some u
  | .vfcvt u _ => some u
  | .vld u _ => some u
  | .vst u _ => some u
  | .join u _ => some u
  | .joinany u _ => some u
  | .retry u _ => some u
  | .trel u _ => some u
  | .tdone u _ => some u
  | .macroTrap u _ => some u
  | .fld u _ => some u
  | .fst u _ => some u
  | .spore u _ => some u
  | .semacq u _ => some u
  | .semrel u _ => some u
  | .cesub u _ => some u
  | .mulS32 u _ => some u
  | .mulU32 u _ => some u
  | .mull64 u _ => some u
  | .mulhS64 u _ => some u
  | .mulhU64 u _ => some u
  | .mulq31 u _ => some u
  | .divS32 u _ => some u
  | .divU32 u _ => some u
  | .divS64 u _ => some u
  | .divU64 u _ => some u
  | .fdivS u _ => some u
  | .fdivD u _ => some u
  | .fsqrtS u _ => some u
  | .fsqrtD u _ => some u
  | .biq u _ => some u
  | .fft4 u _ => some u
  | .cmac u _ => some u
  | .nlms u _ => some u
  | .gather u _ => some u
  | .scatter u _ => some u
  | .bmov u _ => some u
  | .peak u _ => some u
  | .rms u _ => some u
  | .nop u _ => some u
  | .br u _ => some u
  | .brx u _ => some u
  | .bra u _ => some u
  | .call u _ => some u
  | .calla u _ => some u
  | .ret u _ => some u
  | .loop u _ => some u
  | .rep u _ => some u
  | .done u _ => some u
  | .nap u _ => some u
  | .fbar u _ => some u
  | .ifence u _ => some u
  | .pflush u _ => some u
  | .pbar u _ => some u
  | .mfsr u _ => some u
  | .mtsr u _ => some u
  | .reti u _ => some u
  | _ => none

end Sys2Proof.Machine
end

