-- ==== Sys2Proof/Machine/Issue.lean ====
section
/-! DEFINITION. Issue: collecting the words of a frond, checking it, and issuing it (R73 to R87, R95, R96, R132, R203, R205, R208 to
R213, R221, R492). -/

namespace Sys2Proof.Machine

/-- One operation of a frond as issue sees it: its info, its output, its position, and whether its guard lets it be performed. -/
structure FOp where
  cmd  : Instr
  info : OpInfo
  pos  : Nat
  out  : OpOut
  perf : Bool

/-- The immediate of the frond's EXT syllable, if it holds one (R80). -/
def extOf (ws : List Instr) : Option Word :=
  ws.findSome? fun c => match c with
    | .ext _ w => some (extImm w)
    | _ => none

/-- The operations of a frond, evaluated against the state before it (R87). -/
def frondOps (s : State) (u : UnitIx) (ws : List Instr) : List FOp :=
  let t := s.tile u
  (ws.zipIdx).filterMap fun (c, i) =>
    (opInfo c).map fun o =>
      { cmd := c, info := o, pos := i, perf := o.w.performed t
        out := o.out { s := s, u := u, pc := t.pc, len := 8 * ws.length, pos := i, ext := extOf ws } }

/-- Whether `p` holds of an operation at a lower position. -/
def earlier (ops : List FOp) (i : Nat) (p : FOp → Bool) : Bool := ops.any fun o => decide (o.pos < i) && p o

/-- A frond at the end address of an active loop. -/
def Tile.atLoopEnd (t : Tile) : Bool := t.loops.toList.any fun l => l.active && decide (l.last = t.pc)

/-- A command that is a vector load. -/
def isVld (c : Instr) : Bool := match c with | .vld .. => true | _ => false
/-- A command that is a vector store. -/
def isVst (c : Instr) : Bool := match c with | .vst .. => true | _ => false
/-- A gather or a scatter. -/
def isGs (c : Instr) : Bool := match c with | .gather .. => true | .scatter .. => true | _ => false
/-- DONE or NAP, before which a pending trap is delivered (R194). -/
def isStop (c : Instr) : Bool := match c with | .done .. => true | .nap .. => true | _ => false

/-- The conditions that make one operation raise ILLEGAL_OP (Table 3-5, R203, R210, R213; R156 for two vector accesses;
R25 for the service core's missing vector unit). -/
def illegalAt (t : Tile) (u : UnitIx) (ops : List FOp) (o : FOp) : Bool :=
  o.out.illegal || !o.info.w.guardOk
    || earlier ops o.pos (fun e => decide (o.info.slot ≤ e.info.slot))
    || (decide (o.info.slot = 7) && !o.info.w.stop)
    || (o.info.ctl && (decide (0 < t.br.delay) || t.atLoopEnd || t.rep.active))
    || (isVld o.cmd && earlier ops o.pos (fun e => isVld e.cmd))
    || (isVst o.cmd && earlier ops o.pos (fun e => isVst e.cmd))
    || (decide (u.val = 16) && (decide (o.info.slot = 4) || decide (o.info.slot = 5) || isGs o.cmd))

/-! ## Branches and prediction (R96, R205) -/

/-- A branch issues: its outcome, its empty fronds, the loops it leaves and the predictor (R96, R205, R210).  `seen` is where it was steered to. -/
def Tile.branch (t : Tile) (pc : Word) (tgt seen : Option Word) (isCall isRet : Bool) (link : Word) : Tile :=
  let gap := if t.predOff then (if tgt.isSome then 4 else 0) else if seen = tgt then 0 else 4
  let t1 := { t with br := { delay := 2, taken := tgt.isSome, target := tgt.getD 0, gap := gap, open_ := false } }
  let t2 := if t.predOff then t1 else (t1.fetchBranch (t.cycle - 6) isCall isRet link).learn pc tgt
  match tgt with
  | some a => t2.leaveLoops a.toNat
  | none => t2

/-- The same on the unit: with empty fronds to come, the four fronds read behind the delay fronds on the wrong path are discarded (R97). -/
def State.branchAt (s : State) (u : UnitIx) (pc : Word) (len : Nat) (tgt : Option Word) (isCall isRet : Bool) : State :=
  let link := linkAt s u pc.toNat len
  let t := s.tile u
  let seen := if t.predOff then none else t.predict (t.cycle - 6) pc isRet
  let s1 := s.modTile u fun t => t.branch pc tgt seen isCall isRet (BitVec.ofNat 32 link)
  if (s1.tile u).br.gap = 0 then s1
  else s1.discardFronds u 4 (match seen with | some x => x.toNat | none => link) none

/-! ## Loops and the next frond (R208, R209, R212 to R214) -/

/-- The loop test at the end frond: the most recently entered loop that ends here first (R209). -/
def loopTest (pc : Word) : List (BitVec 2) → Tile → Tile × Bool
  | [], t => (t, false)
  | k :: ks, t =>
    let l := rfGet Loop.reset t.loops k.toNat
    if l.active && decide (l.last = pc) then
      let n := rfGet 0 t.lc k.toNat
      if 1 < n.toNat then
        ({ t with lc := rfSet t.lc k.toNat (n - 1), loops := rfSet t.loops k.toNat { l with passed := true }, pc := l.first }, true)
      else
        loopTest pc ks { t with
          lc := rfSet t.lc k.toNat 0, loops := rfSet t.loops k.toNat { l with active := false }, order := t.order.filter (· ≠ k) }
    else loopTest pc ks t

/-- The PC after a frond of `len` bytes, with the loop test unless a delay frond of a taken branch, the branch's last delay
frond, and REP.  The result's second part is the number of empty fronds that follow. -/
def Tile.advance (t : Tile) (len : Nat) : Tile × Nat :=
  if t.rep.active ∧ 1 < t.rep.left.toNat then ({ t with rep := { t.rep with left := t.rep.left - 1 } }, 0)
  else
    let seq := BitVec.ofNat 32 (t.pc.toNat + len)
    let t0 := { t with rep := { RepState.reset with held := none } }
    let fix := fun (x : Tile) => match (if t.rep.active then t.rep.held else none) with
      | some v => { x with lc := rfSet x.lc t.rep.k.toNat v }
      | none => x
    if 0 < t.br.delay ∧ t.br.taken then
      if t.br.delay = 1 then (fix { t0 with pc := t.br.target, br := Branch.reset }, t.br.gap)
      else (fix { t0 with pc := seq, br := { t.br with delay := t.br.delay - 1 } }, 0)
    else
      let lt := loopTest t.pc t.order t0
      let t1 := fix (if lt.2 then lt.1 else { lt.1 with pc := seq })
      if t.br.delay = 0 then (t1, 0)
      else if t.br.delay = 1 then ({ t1 with br := Branch.reset }, t.br.gap)
      else ({ t1 with br := { t.br with delay := t.br.delay - 1 } }, 0)

/-! ## Issue -/

/-- The bytes of the trace kept by the debug port (R492). -/
def Tile.traced (t : Tile) : Tile :=
  if fld t.dbgCtl 2 2 = 1 then { t with trace := (t.pc :: t.trace).take 93 } else t

/-- Halt at an acceptance point: the words collected are discarded and pending results retire in the halted cycles (R492), which are no
issue cycles (R85). -/
def haltTile (u : UnitIx) (s : State) : State :=
  entryCycles u 6 (s.modTile u fun t => { t with halted := true, frond := [], waiting := false })

/-- After a frond: a step halts again, a HALT request takes effect at an acceptance point (R492). -/
def afterFrond (u : UnitIx) (s : State) : State :=
  let t := s.tile u
  if t.halted then entryCycles u 6 (s.modTile u fun t => { t with stepping := false })
  else if fld t.dbgCtl 0 0 = 1 ∧ t.atAcceptance ∧ t.awake then haltTile u s
  else s

/-- A slice whose vector work has no booked leave is counted once (R437). -/
def State.countUnbooked (s : State) (u : UnitIx) (vec : Bool) : State :=
  if vec ∧ u.val < 16 ∧ !(s.tile u).vslice ∧ s.plan.isSome ∧ !s.tileBooks u.val then
    (s.bump Csr.govUnbooked).modTile u fun t => { t with vslice := true }
  else s

/-- The frond is read from the bank, once for all its repetitions under REP, and captured into the fiddlehead buffer in a captured loop's first pass
(R63, R211, R212). -/
def State.fetched (s : State) (u : UnitIx) (ws : List Instr) : State :=
  let t := s.tile u
  let s1 := if t.rep.active ∧ 1 < t.rep.left.toNat then s else s.fetchFrond u t.pc.toNat
  if t.captures t.pc.toNat then
    s1.modTile u fun t => { t with buffer := t.buffer.filter (fun e => e.1 ≠ t.pc) ++ [(t.pc, ws)] }
  else s1

/-- The frond takes effect: reads, results on their way, actions, the next PC, its cycle, the empty fronds that follow it and
what its control operation does then. -/
def commitFrond (u : UnitIx) (len : Nat) (ops : List FOp) (s : State) : State :=
  let t := s.tile u
  let run := ops.filter (·.perf)
  let s1 := ((run.flatMap (·.out.touch)).foldl (fun s r => s.eccReadRange (localBase u + r.1) r.2 0)
      (s.fetched u (ops.map (·.cmd)))).countUnbooked u
    (run.any fun o => decide (o.info.slot = 4) || decide (o.info.slot = 5))
  let ps := run.flatMap fun o => o.out.wr.map fun (k, w) =>
    ({ retire := t.cycle + k - 1, issue := t.cycle, slot := o.info.slot, w := w } : Pend)
  let s2 := s1.modTile u fun t => { t.traced with pend := t.pend ++ ps, frond := [], waiting := false, wakeDue := false }
  let adv := (s2.tile u).advance len
  let s3 := s2.setTile u adv.1
  let s4 := run.foldl (fun s o => o.out.act s) s3
  let s5 := ops.foldl (fun s o =>
    match branchKind o.cmd with
    | some (c, r) => s.branchAt u t.pc len (if o.perf then o.out.target else none) c r
    | none => s) s4
  let s6 := emptyCycles u adv.2 (issueCycle u s5)
  afterFrond u (run.foldl (fun s o => o.out.after s) s6)

/-- The first word of a frond, `n` words long, whose fetch faults: its address lies beyond the bank or it is uncorrectable (R82).  A frond from the
fiddlehead buffer is not fetched (R211). -/
def fetchFault (s : State) (u : UnitIx) (n : Nat) : Option Nat :=
  let t := s.tile u
  match t.fromBuffer t.pc.toNat with
  | some _ => none
  | none => firstIx n fun i => decide (localTop ≤ t.pc.toNat + 8 * i) || s.hasUe (localBase u + t.pc.toNat + 8 * i) 8

/-- An operation whose register read fails its parity (Table 8-10). -/
def wordBad (c : Instr) : Bool := (opInfo c).any (·.w.bad)

/-- The fault a frond meets, in the order of R82: fetch, ILLEGAL_OP, REG_PARITY at the first operation that reads a register failing its parity,
operand faults.  `bad` says for each word whether such a register is read. -/
def frondFault (s : State) (u : UnitIx) (bad : List Bool) (ops : List FOp) : Option (PFault × Nat) :=
  let t := s.tile u
  let pc := t.pc.toNat
  match fetchFault s u bad.length with
  | some i =>
    if localTop ≤ pc + 8 * i then some ({ vec := 2, faddr := pc + 8 * i, vindex := none }, i)
    else some ({ vec := 4, faddr := 0, vindex := none }, i)
  | none =>
    match ops.find? (illegalAt t u ops) with
    | some o => some ({ vec := 1, faddr := 0, vindex := none }, o.pos)
    | none =>
      if ops.any fun o => o.perf && o.out.wait then none
      else match ops.find? fun o => o.perf && bad.getD o.pos false with
        | some o => some ({ vec := 10, faddr := 0, vindex := none }, o.pos)
        | none => ops.findSome? fun o => if o.perf then o.out.fault.map fun f => (f, o.pos) else none

/-- Raise a precise fault of a frond: a vector operation's fault also writes VINDEX (R167), and every uncorrectable word of the operand that meets
MEM_UE is recorded (R64); those of the frond's own words are, as the front end is discarded. -/
def raiseFrond (u : UnitIx) (f : PFault) (pos : Nat) (s : State) : State :=
  let s1 := if f.vec ≠ 4 then s else s.eccReadRange (localBase u + f.faddr) f.span 0
  let vi := f.vindex.map fun v => if f.vec = 6 then v else BitVec.ofNat 32 (v.toNat + pos * 2 ^ 13)
  preciseFault u f.vec pos f.faddr vi s1

/-- A whole frond would issue: it is skipped by a REP of count 0, meets a pending trap, faults, meets an eligible interrupt (R221), waits in a JOIN, or
issues.  A frond of a loop that runs from the fiddlehead buffer is the one captured (R100, R211).  DESIGN CHOICE (log 87): a DONE or NAP whose guard is
false is a delivery point of R194 all the same. -/
def issueFrond (u : UnitIx) (sent : List Instr) (s : State) : State :=
  let t := s.tile u
  let ws := (t.fromBuffer t.pc.toNat).getD sent
  if t.repSkip then
    issueCycle u (s.modTile u fun t =>
      { t with frond := [], repSkip := false, pc := BitVec.ofNat 32 (t.pc.toNat + 8 * ws.length), wakeDue := false })
  else
    let ops := frondOps s u ws
    if t.trapReady && (t.trapDue || ws.any isStop) then deliverTrap u s
    else
      match frondFault s u (sent.map wordBad) ops with
      | some (f, pos) => afterFrond u (raiseFrond u f pos s)
      | none =>
        match t.interruptNow with
        | some v => enter u (vectorEntry v (t.vecLevel v) 0) t.pc s
        | none =>
          if ops.any fun o => o.perf && o.out.wait then
            s.modTile u fun t => { t with frond := ws, waiting := true, wakeDue := false }
          else commitFrond u (8 * ws.length) ops (if ws.any isStop then s.modTile u Tile.passPoint else s)

/-- The unit takes words: RUN, not waiting, stopped, fenced or halted (a step apart), and not at an enabled breakpoint (R492). -/
def Tile.fetching (t : Tile) : Bool :=
  t.awake && !t.waiting && !t.stopped && !t.fenced && (!t.halted || t.stepping)
    && (t.stepping || !(t.frond.isEmpty && t.bkpt.toList.any fun b =>
          decide (fld b 0 0 = 1) && decide (fld b 20 3 * 8 = t.pc.toNat)))

/-- An operation word reaches the front end of a unit.  The frond is whole at its stop word or at its eighth word (R75); a
word at the end of the bank ends it as well (R82). -/
def issueWord (u : UnitIx) (c : Instr) (stop : Bool) (s : State) : State :=
  let t := s.tile u
  if !t.fetching then s
  else
    let ws := t.frond ++ [c]
    if stop ∨ 8 ≤ ws.length ∨ localTop ≤ t.pc.toNat + 8 * (ws.length - 1) then issueFrond u ws s
    else s.modTile u fun t => { t with frond := ws }

/-- A waiting frond issues when nothing it waits for is pending any more (R85, R130). -/
def resumeJoin (u : UnitIx) (s : State) : State :=
  let t := s.tile u
  if t.waiting ∧ t.awake ∧ ¬ t.stopped ∧ ¬ t.fenced ∧ ¬ t.halted then issueFrond u t.frond s else s

end Sys2Proof.Machine
end

