-- ==== Sys2Proof/Machine/Ce.lean ====
section
/-! DEFINITION. The convolution engines: job tables, the queue, the phases of a job, filter switches and their registers (chapter 10).
-/

namespace Sys2Proof.Machine

/-- A job table entry (Table 10-1). -/
structure CeJob where
  valid : Bool
  td    : Bool
  half  : Bool
  logNp : Nat
  owner : Nat
  nsrc  : Nat
  nout  : Nat
  npart : Nat
  phase : Nat
  slotA : Nat
  slotB : Nat
  ring  : Nat
  stage : Nat
  inA   : Nat
  istr  : Nat
  outA  : Nat
  ostr  : Nat
  alt   : Nat
  statw : Nat
  /-- Every reserved bit is zero. -/
  clean : Bool
  deriving DecidableEq, Repr

/-- Read an entry from its 64 bytes. -/
def CeJob.ofBytes (bs : List Byte) : CeJob :=
  let w := fun o => leNat ((bs.drop o).take 4)
  { valid := decide (bitsOf (w 0) 0 0 = 1), td := decide (bitsOf (w 0) 1 1 = 1), half := decide (bitsOf (w 0) 2 2 = 1)
    logNp := bitsOf (w 0) 11 8, owner := bitsOf (w 0) 20 16, nsrc := bitsOf (w 4) 6 0, nout := bitsOf (w 4) 23 16
    npart := bitsOf (w 8) 11 0, phase := bitsOf (w 8) 17 12, slotA := w 0x0C, slotB := w 0x10, ring := w 0x14, stage := w 0x18
    inA := w 0x1C, istr := w 0x20, outA := w 0x24, ostr := w 0x28, alt := w 0x2C, statw := w 0x30
    clean := decide (bitsOf (w 0) 7 3 = 0) && decide (bitsOf (w 0) 15 12 = 0) && decide (bitsOf (w 0) 31 21 = 0)
      && decide (bitsOf (w 4) 15 7 = 0) && decide (bitsOf (w 4) 31 24 = 0) && decide (bitsOf (w 8) 31 18 = 0)
      && decide (w 0x34 = 0) && decide (w 0x38 = 0) && decide (w 0x3C = 0) }

/-- Np, the taps of a partition (R266). -/
def CeJob.np (j : CeJob) : Nat := 2 ^ j.logNp
/-- A single-slot job (Table 10-1). -/
def CeJob.single (j : CeJob) : Bool := decide (j.slotB = 0xFFFFFFFF)
/-- The blocks a segment spans, 1 where several segments share a block (R273). -/
def CeJob.dur (j : CeJob) (b : Nat) : Nat := if b ≤ j.np then j.np / b else 1
/-- The segments of one submission (R273). -/
def CeJob.segs (j : CeJob) (b : Nat) : Nat := if b ≤ j.np then 1 else b / j.np
/-- Bytes of one segment's input or output of one channel (R272). -/
def CeJob.segBytes (j : CeJob) : Nat := j.np * (if j.td then 4 else 8)

/-- Bytes of a filter slot (Table 10-2). -/
def CeJob.slotBytes (j : CeJob) : Nat := j.nout * j.nsrc * j.npart * j.np * (if j.half then 4 else 8)
/-- Bytes of the ring. -/
def CeJob.ringBytes (j : CeJob) : Nat := (j.npart + 1) * j.nsrc * j.np * 8 + (if j.td then 2 * j.nsrc * j.np * 4 else 0)
/-- Bytes of the staging area. -/
def CeJob.stageBytes (j : CeJob) : Nat := j.nout * j.np * 8 * (if !j.td && !j.single then 2 else 1)

/-- The regions of a job in its engine's bank. -/
def CeJob.regions (j : CeJob) : List (Nat × Nat) :=
  [(j.slotA, j.slotBytes)] ++ (if j.single then [] else [(j.slotB, j.slotBytes)]) ++ [(j.ring, j.ringBytes), (j.stage, j.stageBytes)]

/-- The conditions of one VALID entry (R275). -/
def CeJob.ok (j : CeJob) (b : Nat) : Bool :=
  j.clean && decide (4 ≤ j.logNp) && decide (j.logNp ≤ 11) && decide (j.owner ≤ 16) && decide (1 ≤ j.nsrc) && decide (j.nsrc ≤ 64)
    && decide (1 ≤ j.nout) && decide (j.nout ≤ 128) && decide (1 ≤ j.npart) && decide (j.dur b ≤ 64)
    && (j.regions.all fun r => decide (r.1 % 64 = 0) && decide (0x10000 ≤ r.1) && decide (r.1 + r.2 ≤ 0x600000))
    && decide (j.inA + (j.nsrc - 1) * j.istr + j.segs b * j.segBytes ≤ 0x200000)
    && decide (j.outA + (j.nout - 1) * j.ostr + j.segs b * j.segBytes ≤ 0x200000)
    && (if j.td then decide (j.alt = 0)
        else decide (j.alt % 64 = 0) && decide (j.alt + (j.nout - 1) * j.ostr + j.segs b * j.segBytes ≤ 0x200000))
    && decide (j.inA % 64 = 0) && decide (j.outA % 64 = 0) && decide (j.statw % 16 = 0) && decide (j.statw + 16 ≤ 0x200000)

/-- No two of the regions overlap. -/
def disjoint : List (Nat × Nat) → Bool
  | [] => true
  | r :: rs => (rs.all fun q => !overlaps r.1 r.2 q.1 q.2) && disjoint rs

/-- The entries of a CEJOB section. -/
def jobsOf : Nat → List Byte → List CeJob
  | 0, _ => []
  | n + 1, bs => CeJob.ofBytes (bs.take 64) :: jobsOf n (bs.drop 64)

end Sys2Proof.Machine

namespace Sys2Proof

open Machine

/-- The CEJOB entries of an engine in a variant. -/
def Plan.ceJobs (p : Plan) (v : Tier) (k : Nat) : List CeJob :=
  (p.sects.filter fun x => decide (x.typ = 0x0A) && decide (x.unit = 17 + k) && x.vmask.getLsbD (Tier.toNat v)).flatMap fun x =>
    match x.body with
    | .bytes bs => jobsOf (bs.length / 64) bs
    | _ => []

/-- The device's check of every VALID entry of a plan (R275). -/
def Plan.ceOk (p : Plan) : Bool :=
  [Tier.a, .b, .c].all fun v => (upFrom 0 4).all fun k =>
    let js := (p.ceJobs v k).filter fun j => j.valid
    (js.all fun j => j.ok p.block) && disjoint (js.flatMap fun j => j.regions)

end Sys2Proof

namespace Sys2Proof.Machine

/-! ## State -/

/-- An engine. -/
def State.eng (s : State) (k : Fin 4) : CeState := s.ce[k]
/-- Change an engine. -/
def State.modEng (s : State) (k : Fin 4) (f : CeState → CeState) : State := { s with ce := s.ce.set k (f s.ce[k]) }
/-- The fabric address of an offset in an engine's bank. -/
def ceAddr (k : Fin 4) (o : Nat) : Nat := bankBase (17 + k.val) + o
/-- CTL.EN. -/
def State.ceEn (s : State) (k : Fin 4) : Bool := decide (fld (s.reg (Csr.ceBase k.val)) 0 0 = 1)

/-- A fabric operation of a unit completes: it leaves the unit, and its ticket, if it still has it, leaves PENDING (R129). -/
def Tile.endFar (t : Tile) (seq status faddr : Nat) (glob : Bool) : Tile :=
  match t.far.find? fun f => decide (f.seq = seq) with
  | none => t
  | some f =>
    let t1 := { t with far := t.far.filter fun g => decide (g.seq ≠ seq) }
    match f.tkt with
    | some k => t1.complete k status 0 faddr glob
    | none => t1

/-! ## Queue (R276) -/

/-- The oldest CESUB of a unit that has not reached its engine's queue. -/
def Tile.nextSub (t : Tile) : Option FarOp := t.far.find? fun f => decide (f.kind = .cesub) && decide (f.phase = .sent)

/-- The operation captured under a ticket, which RETRY keeps (R136): its issue order. -/
def Tile.opId (t : Tile) (f : FarOp) : Nat :=
  match f.tkt with
  | some k => match (t.ticket k).job with | some j => j.seq | none => f.seq
  | none => f.seq

/-- A submission reaches its engine's queue; it waits in the store buffer while the queue is full (R276). -/
def State.ceQueue (s : State) (u : UnitIx) : State :=
  match (s.tile u).nextSub with
  | none => s
  | some f =>
    let k : Fin 4 := ⟨f.ga.toNat % 4, Nat.mod_lt _ (by decide)⟩
    if 64 ≤ (s.eng k).queue.length then s
    else
      (s.modTile u fun t => { t with far := t.far.map fun (g : FarOp) => if g.seq = f.seq then { g with phase := .queued } else g }).modEng k
        fun e => { e with queue := e.queue ++ [{ unit := u, far := f.seq, op := (s.tile u).opId f, job := f.len, block := leNat f.data }] }

/-! ## Completion (R277, R278, Table 10-14) -/

/-- A submission's ticket completes, and a frond of its unit that waits for it issues (R129, R130). -/
def State.ceEnd (s : State) (e : CeEntry) (status faddr : Nat) (glob : Bool) : State :=
  resumeJoin e.unit (s.modTile e.unit fun t => t.endFar e.far status faddr glob)

/-- A job completes FAILED: the ticket, the captured failure, the report and the event. -/
def State.ceFail (s : State) (k : Fin 4) (e : CeEntry) (status faddr : Nat) : State :=
  let b := Csr.ceBase k.val
  let s1 := (s.ceEnd e status faddr true).bump (b + 0x14)
  let s2 :=
    if fld (s1.reg (b + 0x0C)) 0 0 = 1 then s1.orReg (b + 0x0C) 2
    else (((s1.modReg (b + 0x0C) fun x => setFld (setFld (setFld (x ||| 1) 15 8 status) 23 16 e.job) 27 24 (faddr / 2 ^ 32)).setReg
      (b + 0x10) (BitVec.ofNat 32 faddr))).devEvent (160 + k.val)
  s2.report 0x01A0 (17 + k.val) [BitVec.ofNat 32 (e.job + 256 * status), BitVec.ofNat 32 e.unit.val]

/-- The running job ends FAILED; the flags of its operations so far join CE[k].FLAGS (R269). -/
def State.ceFailRun (s : State) (k : Fin 4) (r : CeRunning) (status faddr : Nat) : State :=
  ((s.modEng k fun x => { x with run := none }).orReg (Csr.ceBase k.val + 0x1C) (r.flags.setWidth 32)).ceFail k r.ent status faddr

/-- EN becomes 0 (R288, R407): every queued job completes FAILED with CE_DISABLED, and the running one will at its next phase boundary. -/
def State.ceFlush (s : State) (k : Fin 4) : State :=
  ((s.eng k).queue.foldl (fun s e => s.ceFail k e 0x43 0) (s.modEng k fun x => { x with queue := [], run := x.run.map fun (r : CeRunning) => { r with dead := true } }))

/-! ## Taking a job (R273, R277, R287) -/

/-- A switch window is open: from its start until its tick (R287). -/
def State.winOpen (s : State) : Bool :=
  match s.dev.sched.stage with | .start => true | .roles => true | .commit => true | _ => false

/-- A job is due in a block (R273). -/
def CeJob.dueIn (j : CeJob) (b k0 blk : Nat) : Bool :=
  decide (((blk : Int) - k0 - j.phase) % (j.dur b : Int) = 0)

/-- The status of the first failed check (Table 10-3). -/
def State.ceCheck (s : State) (k : Fin 4) (e : CeEntry) : Option Nat :=
  let j := CeJob.ofBytes (s.bytes (ceAddr k (64 * e.job)) 64)
  if fld (s.reg (Csr.ceBase k.val)) 9 1 ≤ e.job ∨ !j.valid then some 0x40
  else if j.owner ≠ e.unit.val then some 0x41
  else if !j.dueIn s.bsize s.dev.sched.k0 e.block ∨
    (s.eng k).served.any (fun x => decide (x.1 = e.job) && decide (x.2.1 = e.block) && !(decide (x.2.2.1 = e.unit.val) && decide (x.2.2.2 = e.op)))
    then some 0x42
  else if !s.ceEn k then some 0x43
  else none

/-- No job starts in a switch window, in the safety phase or in DEEP (R287, R443, R468). -/
def State.ceHeld (s : State) : Bool :=
  s.winOpen || s.dev.sched.kf.isSome || decide (fld (s.reg Csr.supplyStat) 4 4 = 1)

/-- The engine takes the job at the head of its queue and checks it. -/
def State.ceTake (s : State) (k : Fin 4) : State :=
  match (s.eng k).run, (s.eng k).queue with
  | none, e :: rest =>
    if s.ceHeld then s
    else
      let s1 := s.modEng k fun x => { x with queue := rest, cur := e.job }
      match s.ceCheck k e with
      | some st => s1.ceFail k e st 0
      | none => s1.modEng k fun x => { x with
          served := if x.served.contains (e.job, e.block, e.unit.val, e.op) then x.served else (e.job, e.block, e.unit.val, e.op) :: x.served
          run := some { ent := e, phase := .start, entry := [], setB := false, xfade := false, flags := 0, b := s.bsize, k0 := s.dev.sched.k0
                        seg := 0, dead := false, outs := [] } }
  | _, _ => s

/-! ## Arithmetic (R269, R270) -/

/-- The engines' floating-point mode: RNE, no FTZ, no DAZ. -/
def ceMode : FMode := { rm := 0, ftz := false, daz := false }

/-- A complex value and the flags raised on the way to it. -/
abbrev Cplx := Nat × Nat × BitVec 5

/-- One term of the accumulation of slot i. -/
def ceTerm (i : Nat) (acc0 : Cplx) (x h : Cplx) : Cplx :=
  let acc : Cplx := (acc0.1, acc0.2.1, acc0.2.2 ||| h.2.2)
  if i = 0 then
    let a := f32.fma ceMode false x.1 h.1 acc.1
    let b := f32.fma ceMode false x.2.1 h.2.1 acc.2.1
    (a.bits, b.bits, acc.2.2 ||| a.flags ||| b.flags)
  else
    let a := f32.fma ceMode false x.1 h.1 acc.1
    let a2 := f32.fma ceMode true x.2.1 h.2.1 a.bits
    let b := f32.fma ceMode false x.1 h.2.1 acc.2.1
    let b2 := f32.fma ceMode false x.2.1 h.1 b.bits
    (a2.bits, b2.bits, acc.2.2 ||| a.flags ||| a2.flags ||| b.flags ||| b2.flags)

/-- The complex slot at a bank address: binary32, or binary16 converted as FCVT.S.H does. -/
def State.ceSlot (s : State) (a : Nat) (half : Bool) : Cplx :=
  if half then
    let re := fcvt f16 f32 ceMode (s.load a 2)
    let im := fcvt f16 f32 ceMode (s.load (a + 2) 2)
    (re.bits, im.bits, re.flags ||| im.flags)
  else (s.load a 4, s.load (a + 4) 4, 0)

/-- The segment index of segment t of a submission (R274). -/
def CeJob.segIx (j : CeJob) (b k0 blk t : Nat) : Int :=
  if b ≤ j.np then ((blk : Int) - k0 - j.phase) / (j.dur b : Int) else ((blk : Int) - k0) * (b / j.np : Nat) + t

/-- The ring slot of a segment index. -/
def CeJob.ringIx (j : CeJob) (i : Int) : Nat := (i % ((j.npart : Int) + 1)).toNat

/-- The bank address of slot i of source q in ring slot r. -/
def CeJob.ringAt (j : CeJob) (k : Fin 4) (r q i : Nat) : Nat := ceAddr k (j.ring + ((r * j.nsrc + q) * j.np + i) * 8)

/-- The bank address of slot i of Hp for path (o, q) in a filter slot (R275). -/
def CeJob.coefAt (j : CeJob) (k : Fin 4) (slotB : Bool) (o q p i : Nat) : Nat :=
  ceAddr k ((if slotB then j.slotB else j.slotA) + (((o * j.nsrc + q) * j.npart + (p - 1)) * j.np + i) * (if j.half then 4 else 8))

/-- Slot i of output o: sources ascending, and within each partition 1 to NPART ascending (R269). -/
def State.ceAcc (s : State) (k : Fin 4) (j : CeJob) (slotB : Bool) (seg : Int) (o i : Nat) : Cplx :=
  (upFrom 0 j.nsrc).foldl (fun acc q =>
    (upFrom 1 j.npart).foldl (fun acc (p : Nat) =>
      ceTerm i acc (s.ceSlot (j.ringAt k (j.ringIx (seg - (p : Int) + 1)) q i) false) (s.ceSlot (j.coefAt k slotB o q p i) j.half)) acc)
    (0, 0, 0)

/-- The accumulated spectrum of output o. -/
def State.ceSpec (s : State) (k : Fin 4) (j : CeJob) (slotB : Bool) (seg : Int) (o : Nat) : List Cplx :=
  (upFrom 0 j.np).map (s.ceAcc k j slotB seg o)

/-- The bytes of a packed spectrum. -/
def specBytes (c : List Cplx) : List Byte := c.flatMap fun x => leBytes 4 x.1 ++ leBytes 4 x.2.1
/-- The flags of a spectrum. -/
def specFlags (c : List Cplx) : BitVec 5 := c.foldl (fun f x => f ||| x.2.2) 0
/-- A spectrum as words. -/
def specWords (c : List Cplx) : List (BitVec 32 × BitVec 32) := c.map fun x => (BitVec.ofNat 32 x.1, BitVec.ofNat 32 x.2.1)

/-- One crossfaded sample of the first B of a run (R285). -/
def ceBlend (b t : Nat) (ynew yold : Nat) : Nat × BitVec 5 :=
  if b ≤ t + 1 then (ynew, 0)
  else
    let w := f32.ofExact ceMode (t + 1) (-(Nat.log2 b : Int)) false
    let v := f32.ofExact ceMode (b - (t + 1) : Int) (-(Nat.log2 b : Int)) false
    let m := f32.mul ceMode v.bits yold
    let r := f32.fma ceMode false w.bits ynew m.bits
    (r.bits, m.flags ||| r.flags)

/-! ## Phases (R278) -/

/-- The place of source q's kept input segment i in a TD ring: after the spectra (Table 10-2; log 30). -/
def CeJob.keptAt (j : CeJob) (k : Fin 4) (i : Int) (q : Nat) : Nat :=
  ceAddr k (j.ring + (j.npart + 1) * j.nsrc * j.np * 8 + ((i % 2).toNat * j.nsrc + q) * j.np * 4)

/-- Phase 2 for segment t: FD copies Z(s − 1) into its ring slot; TD keeps the samples and transforms segments s − 2 and s − 1. -/
def State.ceInput (s : State) (k : Fin 4) (j : CeJob) (u : UnitIx) (seg : Int) (t : Nat) (fl : BitVec 5) : State × BitVec 5 :=
  (upFrom 0 j.nsrc).foldl (fun (sf : State × BitVec 5) q =>
    let src := localBase u + j.inA + q * j.istr + t * j.segBytes
    let bs := sf.1.bytes src j.segBytes
    if j.td then
      let prev := sf.1.bytes (j.keptAt k (seg - 2) q) (j.np * 4)
      let smp := (upFrom 0 (2 * j.np)).map fun i => BitVec.ofNat 32 (leNat (((prev ++ bs).drop (4 * i)).take 4))
      let z := Config.ceForward smp
      let zb := padTo (8 * j.np) (z.flatMap fun c => leBytes 4 c.1.toNat ++ leBytes 4 c.2.toNat)
      (((sf.1.memWrite (j.keptAt k (seg - 1) q) bs 0).memWrite (j.ringAt k (j.ringIx seg) q 0) zb 0), sf.2 ||| Config.ceForwardFlags smp)
    else (sf.1.memWrite (j.ringAt k (j.ringIx seg) q 0) bs 0, sf.2)) (s, fl)

/-- Phase 3 for output o of segment t: the writes to the owner's bank it prepares, and the flags. -/
def State.ceOutput (s : State) (k : Fin 4) (j : CeJob) (r : CeRunning) (seg : Int) (t o : Nat) : List (Nat × List Byte) × BitVec 5 :=
  let new := s.ceSpec k j r.setB seg o
  let old := if r.xfade then s.ceSpec k j (!r.setB) seg o else []
  let dst := j.outA + o * j.ostr + t * j.segBytes
  if j.td then
    let yn := Config.ceInverse (specWords new)
    if r.xfade then
      let yo := Config.ceInverse (specWords old)
      let ys := (upFrom 0 j.np).map fun i => ceBlend r.b (t * j.np + i) ((yn.getD i 0).toNat) ((yo.getD i 0).toNat)
      ([(dst, ys.flatMap fun y => leBytes 4 y.1)],
        ys.foldl (fun f y => f ||| y.2) (specFlags new ||| specFlags old ||| Config.ceInverseFlags (specWords new) ||| Config.ceInverseFlags (specWords old)))
    else ([(dst, (upFrom 0 j.np).flatMap fun i => leBytes 4 (yn.getD i 0).toNat)], specFlags new ||| Config.ceInverseFlags (specWords new))
  else if r.xfade then
    ([(dst, specBytes new), (j.alt + o * j.ostr + t * j.segBytes, specBytes old)], specFlags new ||| specFlags old)
  else ([(dst, specBytes new)], specFlags new)

/-- The staging area of output o after phase 3: the new set, and behind it the old set of an FD crossfade (Table 10-2). -/
def CeJob.stageAt (j : CeJob) (k : Fin 4) (g o : Nat) : Nat := ceAddr k (j.stage + (g * j.nout + o) * j.np * 8)

/-- The status word (Table 10-4). -/
def CeRunning.statw (r : CeRunning) : List Byte :=
  leBytes 8 r.ent.block ++ [BitVec.ofNat 8 (b2n r.setB + 2 * b2n r.xfade), r.flags.setWidth 8] ++ zeros 6

/-- The running job after its start phase: its entry, active slot and crossfade (R283, R285); those of its first run, when it runs again
(R279). -/
def State.ceLatch (s : State) (k : Fin 4) (r : CeRunning) : State :=
  let e := r.ent
  let bs := s.bytes (ceAddr k (64 * e.job)) 64
  let x := s.eng k
  match x.runs.find? fun y => decide (y.1 = e.job) && decide (y.2.1 = e.block) with
  | some y => s.modEng k fun x => { x with run := some { r with phase := .input, entry := bs, setB := y.2.2.1, xfade := y.2.2.2 } }
  | none =>
    let first := x.pend.any fun p => decide (p.job = e.job) && p.done && decide (p.xblk = none) && decide (p.block ≤ e.block)
    s.modEng k fun x => { x with
      run := some { r with phase := .input, entry := bs, setB := x.setB.contains e.job, xfade := first }
      pend := if first then x.pend.map fun (p : CeSwitch) => if p.job = e.job ∧ p.done ∧ p.xblk = none then { p with xblk := some e.block } else p
              else x.pend
      runs := (e.job, e.block, x.setB.contains e.job, first) :: x.runs }

/-- What phase 2 reads for a segment: the owner's input, and in TD the kept segment before it in the engine's own bank. -/
def CeJob.inputReads (j : CeJob) (k : Fin 4) (own : Nat) (seg : Int) (t : Nat) : List (Nat × Nat) × List (Nat × Nat) :=
  ((upFrom 0 j.nsrc).map fun q => (own + j.inA + q * j.istr + t * j.segBytes, j.segBytes),
   if j.td then (upFrom 0 j.nsrc).map fun q => (j.keptAt k (seg - 2) q, j.np * 4) else [])

/-- What phase 3 reads for a segment: the ring slots of Z(s − 1) to Z(s − NPART) and the filter slots (R269). -/
def CeJob.accReads (j : CeJob) (k : Fin 4) (r : CeRunning) (seg : Int) : List (Nat × Nat) :=
  ((upFrom 1 j.npart).map fun (p : Nat) => (j.ringAt k (j.ringIx (seg - (p : Int) + 1)) 0 0, j.nsrc * j.np * 8))
    ++ [(ceAddr k (if r.setB then j.slotB else j.slotA), j.slotBytes)]
    ++ (if r.xfade then [(ceAddr k (if r.setB then j.slotA else j.slotB), j.slotBytes)] else [])

/-- What phase 4 copies from STAGE: local address of the owner, address in STAGE and bytes; OUT first, then OUT_ALT. -/
def CeJob.staged (j : CeJob) (k : Fin 4) (r : CeRunning) : List (Nat × Nat × Nat) :=
  ((upFrom 0 j.nout).map fun o => (j.outA + o * j.ostr + r.seg * j.segBytes, j.stageAt k 0 o, j.segBytes))
    ++ (if r.xfade && !j.td then (upFrom 0 j.nout).map fun o => (j.alt + o * j.ostr + r.seg * j.segBytes, j.stageAt k 1 o, j.segBytes) else [])

/-- The writes of phase 4 into the owner's bank, row by row in order. -/
def State.ceRows (s : State) (k : Fin 4) (j : CeJob) (r : CeRunning) : List (Nat × List Byte) :=
  let own := localBase r.ent.unit
  (r.outs ++ (j.staged k r).map fun w => (w.1, s.bytes w.2.1 w.2.2)).flatMap fun w =>
    (rowsOf (own + w.1) w.2.length).map fun p => (p.1, (w.2.drop (p.1 - (own + w.1))).take p.2)

/-- The first uncorrectable word among ranges of fabric addresses. -/
def State.ueIn (s : State) (rs : List (Nat × Nat)) : Option Nat := rs.findSome? fun r => s.firstUe r.1 r.2

/-- Read ranges for the engine, correcting and recording (Table 2-12: SOURCE 2 for another bank, 0 for its own). -/
def State.ceReads (s : State) (src : Nat) (rs : List (Nat × Nat)) : State := rs.foldl (fun s r => s.eccReadRange r.1 r.2 src) s

/-- A running job completes its phase and moves to the next.  `ferr` is the address of a fabric transfer of the phase that was
discarded (R28); `cyc` the engine cycles the phase took (BUSY_CYC). -/
def State.ceAdvance (s : State) (k : Fin 4) (ferr : Option (BitVec 36)) (cyc : Nat) : State :=
  match (s.eng k).run with
  | none => s
  | some r =>
    let b := Csr.ceBase k.val
    let s := s.modReg (b + 0x18) fun x => BitVec.ofNat 32 (min 0xFFFFFFFF (x.toNat + cyc))
    let j := CeJob.ofBytes r.entry
    let own := localBase r.ent.unit
    let t := r.seg
    let seg := j.segIx r.b r.k0 r.ent.block t
    if r.dead ∨ !s.ceEn k then s.ceFailRun k r 0x43 0
    else match r.phase, ferr with
    | .start, none =>
      if s.reg (Csr.leaveCe k.val) = 0 then s
      else
        let rs := [(ceAddr k (64 * r.ent.job), 64)]
        match s.ueIn rs with
        | some a => (s.ceReads 0 rs).ceFailRun k r 6 a
        | none => (s.ceReads 0 rs).ceLatch k r
    | .input, none =>
      let rs := j.inputReads k own seg t
      let s0 := (s.ceReads 2 rs.1).ceReads 0 rs.2
      match s.ueIn (rs.1 ++ rs.2) with
      | some a => s0.ceFailRun k r 6 a
      | none =>
        let q := s0.ceInput k j r.ent.unit seg t r.flags
        q.1.modEng k fun x => { x with run := some { r with phase := .accumulate, flags := q.2 } }
    | .accumulate, none =>
      let rs := j.accReads k r seg
      match s.ueIn rs with
      | some a => (s.ceReads 0 rs).ceFailRun k r 6 a
      | none =>
        let res := (upFrom 0 j.nout).map fun o => (o, s.ceOutput k j r seg t o)
        let s1 := res.foldl (fun s x => (x.2.1.zipIdx).foldl (fun s w => s.memWrite (j.stageAt k w.2 x.1) w.1.2 0) s) (s.ceReads 0 rs)
        let fl := res.foldl (fun f x => f ||| x.2.2) r.flags
        s1.modEng k fun x => { x with run := some (
          if t + 1 < j.segs r.b then { r with phase := .input, seg := t + 1, flags := fl, outs := r.outs ++ res.flatMap fun x => x.2.1 }
          else { r with phase := .output, flags := fl }) }
    | .output, none =>
      let rs := (j.staged k r).map (·.2)
      match s.ueIn rs with
      | some a => (s.ceReads 0 rs).ceFailRun k r 6 a
      | none =>
        let s1 := (s.ceRows k j r).foldl (fun s w => (s.bankWrite (.ce k) w.1 w.2).1) (s.ceReads 0 rs)
        let s2 := (s1.bankWrite (.ce k) (own + j.statw) r.statw).1
        (((s2.modEng k fun x => { x with run := none }).bump (b + 0x14)).orReg (b + 0x1C) (r.flags.setWidth 32)).ceEnd r.ent 0 0 false
    | .output, some a =>
      -- rows ahead of the faulting address are in place, the status word is not written
      let rs := (j.staged k r).map (·.2)
      let s1 := ((s.ceRows k j r).takeWhile fun w => decide (w.1 + w.2.length ≤ a.toNat ∨ a.toNat < w.1)).foldl
        (fun s w => (s.bankWrite (.ce k) w.1 w.2).1) (s.ceReads 0 rs)
      s1.ceFailRun k r 9 a.toNat
    | _, some a => s.ceFailRun k r 9 a.toNat

/-! ## CTL (R288) and filter switches (R284 to R286) -/

/-- The service core writes CTL; a change of EN to 0 fails every queued job, and the running one at its next phase boundary. -/
def State.ceCtl (s : State) (k : Fin 4) (v : Word) : State :=
  let was := s.ceEn k
  let s1 := s.setReg (Csr.ceBase k.val) (v &&& 0x3FF)
  if was ∧ fld v 0 0 = 0 then s1.ceFlush k else s1

/-- The engine keeps in its bank the active slot of a job and the block at which it came into force (R271); the layout of the 16 bytes is not
given (log 17). -/
def State.ceKeep (s : State) (k : Fin 4) (job blk : Nat) (slotB : Bool) : State :=
  s.memWrite (ceAddr k (0x4000 + 16 * job)) (padTo 16 (Config.ceStateBytes slotB blk)) 0

/-- CTL at plan load: enabled when the plan holds jobs for the engine, NJOBS the length of its table (R288); every job has slot A active. -/
def State.ceLoad (s : State) (p : Plan) (v : Tier) : State :=
  (upFrom 0 4).foldl (fun s n =>
    let k : Fin 4 := ⟨n % 4, Nat.mod_lt _ (by decide)⟩
    let c := (p.ceJobs v n).length
    (upFrom 0 c).foldl (fun s i => s.ceKeep k i s.dev.sched.k0 false)
      (if fld (s.reg Csr.fence) (16 + n) (16 + n) = 1 then s else s.ceCtl k (BitVec.ofNat 32 (b2n (decide (0 < c)) + 2 * c)))) s

/-- A new plan: every job starts with slot A active and no switch pending (R286). -/
def State.ceNewPlan (s : State) : State :=
  { s with ce := s.ce.map fun (x : CeState) => { x with setB := [], pend := [], runs := [], served := [] } }

/-- The switches of an engine for blocks up to n: the active slots change (R285). -/
def CeState.switched (x : CeState) (n : Nat) : CeState :=
  let now := x.pend.filter fun p => !p.done && decide (p.block ≤ n)
  { x with
    setB := now.foldl (fun l p => if l.contains p.job then l.filter (· ≠ p.job) else p.job :: l) x.setB
    pend := x.pend.map fun (p : CeSwitch) => if !p.done ∧ p.block ≤ n then { p with done := true } else p }

/-- The 2.0 µs point of block n: the active slots of the switches for blocks up to n change, and the engines keep them (R271, R285). -/
def State.ceSwitch (s : State) (n : Nat) : State :=
  let s1 := { s with ce := s.ce.map fun (x : CeState) => x.switched n }
  (upFrom 0 4).foldl (fun x i =>
    let k : Fin 4 := ⟨i % 4, Nat.mod_lt _ (by decide)⟩
    ((s.eng k).pend.filter fun p => !p.done && decide (p.block ≤ n)).foldl (fun y p => y.ceKeep k p.job n ((s1.eng k).setB.contains p.job)) x) s1

/-- A block tick ends the crossfade blocks before it (XPEND, Table 10-10). -/
def State.ceTick (s : State) (blk : Nat) : State :=
  { s with ce := s.ce.map fun (x : CeState) => { x with
      pend := x.pend.filter fun p => match p.xblk with | some b => decide (blk ≤ b) | none => true } }

/-- What the engine's derived registers read (Tables 10-12 and 10-13, SETSEL, XPEND, QENT). -/
def State.ceView (s : State) (k : Fin 4) (ofs : Nat) : Option Word :=
  let x := s.eng k
  let bitsFor := fun (l : List Nat) (r : Nat) =>
    BitVec.ofNat 32 ((upFrom 0 32).foldl (fun m i => m + b2n (l.contains (32 * r + i)) * 2 ^ i) 0)
  if ofs = 4 then
    let ph := match x.run with
      | none => 0
      | some r => match r.phase with | .start => 1 | .input => 2 | .accumulate => 3 | .output => 4
    some (BitVec.ofNat 32 (b2n x.run.isSome + 2 * b2n s.winOpen + 4 * (x.cur % 256) + ph * 2 ^ 16))
  else if ofs = 8 then some (BitVec.ofNat 32 (x.queue.length + 128 * b2n (decide (x.queue.length = 64))))
  else if 0x40 ≤ ofs ∧ ofs < 0x60 ∧ ofs % 4 = 0 then some (bitsFor x.setB ((ofs - 0x40) / 4))
  else if 0x60 ≤ ofs ∧ ofs < 0x80 ∧ ofs % 4 = 0 then some (bitsFor (x.pend.map (·.job)) ((ofs - 0x60) / 4))
  else if 0x100 ≤ ofs ∧ ofs < 0x200 ∧ ofs % 4 = 0 then
    some (match x.queue[(ofs - 0x100) / 4]? with
      | some e => BitVec.ofNat 32 (e.job % 256 + 256 * e.unit.val + 2 ^ 31)
      | none => 0)
  else none

end Sys2Proof.Machine
end

