-- ==== Sys2Proof/Machine/AudioCore.lean ====
section
/-! DEFINITION. Audio ports and streams: the checks of a plan's maps and programs, sample conversion, gains, TDM and PDM frames, input and
output buffers, AVTP streams (R241, R242, R289 to R303, R309 to R313, R405). -/

namespace Sys2Proof.Machine

/-! ## Register addresses -/

/-- A TDM register (Table 11-12). -/
def tdmReg (n o : Nat) : Nat := 0x20500000 + 0x40 * n + o
/-- CH_CFG, CH_STAT, CH_POS, CH_CNT (R316). -/
def chReg (c o : Nat) : Nat := 0x20400000 + 0x10 * c + o
/-- STRM_STAT: talkers 0-31, listeners 32-63. -/
def strmReg (i : Nat) : Nat := 0x20400600 + 4 * i
/-- PDM_CFG of a pin. -/
def pdmCfg (p : Nat) : Nat := 0x20500700 + 4 * p
/-- PDM_STAT of a channel. -/
def pdmStat (c : Nat) : Nat := 0x20500740 + 4 * c

/-! ## Stream steps (Table 11-4) -/

/-- A step of a channel program. -/
structure Step where
  op    : Nat
  ndst  : Nat
  zero  : Bool
  count : Nat
  sstr  : Nat
  dstr  : Nat
  src   : Nat
  dsts  : List Nat
  clean : Bool
  deriving DecidableEq, Repr

/-- Read a step from its 64 bytes. -/
def Step.ofBytes (bs : List Byte) : Step :=
  let f := fun o n => leNat ((bs.drop o).take n)
  { op := bitsOf (f 0 4) 7 0, ndst := bitsOf (f 0 4) 9 8 + 1, zero := decide (bitsOf (f 0 4) 10 10 = 1), count := f 4 4
    sstr := f 8 4, dstr := f 0x0C 4, src := bitsOf (f 0x10 8) 35 0
    dsts := ((upFrom 0 4).map fun i => bitsOf (f (0x18 + 8 * i) 8) 35 0).take (bitsOf (f 0 4) 9 8 + 1)
    clean := decide (bitsOf (f 0 4) 31 11 = 0) && decide (f 0x38 8 = 0) }

/-- The trigger that a step's operation belongs to: 1 TICK, 2 BLOCK, 3 DRAIN (Table 11-5); COPY fits any. -/
def stepFits (op trig : Nat) : Bool :=
  match op with
  | 1 => decide (trig = 1)
  | 2 => decide (trig = 2)
  | 3 => decide (trig = 3)
  | 4 => true
  | _ => false

/-- The bytes of the stream bank that a plan's STREAM sections give. -/
def streamByte (ss : List Section) (o : Nat) : Byte :=
  (ss.findSome? fun x =>
    match x.body with
    | .bytes bs => if x.dst ≤ o ∧ o < x.dst + bs.length then bs[o - x.dst]? else none
    | _ => none).getD 0

/-- The steps of a program from a stream-bank offset fit its trigger up to END. -/
def progOk (ss : List Section) (trig : Nat) : Nat → Nat → Bool
  | 0, _ => false
  | n + 1, o =>
    let st := Step.ofBytes ((upFrom o 64).map (streamByte ss))
    if st.op = 0 then true else stepFits st.op trig && st.clean && progOk ss trig n (o + 64)

/-! ## Checks of a plan (R241, R292, R301 to R303, Table 11-13) -/

/-- No value occurs twice. -/
def noDup {α : Type} [DecidableEq α] : List α → Bool
  | [] => true
  | x :: xs => !xs.contains x && noDup xs

/-- A logical number fits its sample of a tick: one at 48 kHz; at 96 kHz the first at an even number and the second at the next, both mapped
(R301).  `x2` is the rate, `half` the sample, `has` whether a number has the other sample of the same source or destination. -/
def pairOk (x2 : Bool) (ix half : Nat) (has : Nat → Nat → Bool) : Bool :=
  if x2 then (decide (half = 0) && decide (ix % 2 = 0) && has (ix + 1) 1) || (decide (half = 1) && decide (ix % 2 = 1) && has (ix - 1) 0)
  else decide (half = 0)

end Sys2Proof.Machine

namespace Sys2Proof

open Machine

/-- The settings of a TDM port. -/
def Plan.tdmOf (p : Plan) (n : Nat) : Option TdmSet := p.tdm.find? fun t => decide (t.port = n)

/-- A port of the plan runs at 96 kHz. -/
def Plan.tdmX2 (p : Plan) (n : Nat) : Bool := match p.tdmOf n with | some t => decide (fld t.cfg 2 2 = 1) | none => false

/-- A stream of the plan carries two samples per tick: listeners are numbered from 32. -/
def Plan.strmX2 (p : Plan) (ix : Nat) : Bool := p.streams.any fun x => decide (x.ix = ix) && x.x2

/-- A logical input takes one sample per tick, or both samples of a 96 kHz source at two numbers (R301). -/
def Plan.inOk (p : Plan) (e : Nat × InSrc) : Bool :=
  match e.2 with
  | .tdm q c h => pairOk (p.tdmX2 q) e.1 h fun n k => p.inMap.contains (n, .tdm q c k)
  | .avtp i c h => pairOk (p.strmX2 (32 + i)) e.1 h fun n k => p.inMap.contains (n, .avtp i c k)
  | .pdm c => decide (c < 32)

/-- The same of a logical output. -/
def Plan.outOk (p : Plan) (e : OutEntry) : Bool :=
  match e.dst with
  | .tdm q c h => pairOk (p.tdmX2 q) e.ix h fun n k => p.outMap.any fun x => decide (x.ix = n) && decide (x.dst = .tdm q c k)
  | .avtp i c h => pairOk (p.strmX2 i) e.ix h fun n k => p.outMap.any fun x => decide (x.ix = n) && decide (x.dst = .avtp i c k)

/-- The limits of the logical maps (R301). -/
def Plan.mapsOk (p : Plan) : Bool :=
  noDup (p.inMap.map (·.1)) && noDup (p.inMap.map (·.2)) && (p.inMap.all fun e => decide (e.1 < 256))
    && noDup (p.outMap.map (·.ix)) && noDup (p.outMap.map (·.dst)) && (p.outMap.all fun e => decide (e.ix < 128))
    && p.inMap.all p.inOk && p.outMap.all p.outOk

/-- Bits of a frame (R293). -/
def frameBits (cfg : Word) : Nat := 1024 / 2 ^ fld cfg 5 3 / (if fld cfg 2 2 = 1 then 2 else 1)

/-- The codes of a port's CFG that refuse the plan (Table 11-13), and slots that do not fit the frame (R293, log 90). -/
def TdmSet.ok (t : TdmSet) : Bool :=
  let slotw := if fld t.cfg 11 11 = 1 then 32 else 16
  decide (fld t.cfg 5 3 ≤ 4) && decide (fld t.cfg 13 12 ≠ 3)
    && decide (8 * (fld t.cfg 13 12 + 2) ≤ slotw ∨ fld t.cfg 13 12 = 0)
    && decide ((fld t.cfg 10 6 + 1) * slotw ≤ frameBits t.cfg) && decide (fld t.cfg 2 2 = 0 ∨ fld t.cfg 10 6 < 16)

/-- The channels' programs match their triggers (R302, R303). -/
def Plan.streamOk (p : Plan) : Bool :=
  let ss := p.sects.filter fun x => decide (x.typ = 0x0C) && decide (x.unit = 21)
  p.chans.all fun c => decide (fld c.cfg 0 0 = 0) || progOk ss (fld c.cfg 3 1) 4096 (fld c.cfg 23 8 * 64)

/-- A TDM slot of the plan that carries logical channels one way: the port exists and is enabled at 48 kHz, and the slot is one of its frame
that the mask names (R241, R292). -/
def Plan.slotHas (p : Plan) (q i h : Nat) (mask : TdmSet → Word) : Bool :=
  match p.tdmOf q with
  | some t => decide (q < 24) && decide (fld t.cfg 0 0 = 1) && decide (h = 0) && decide (i ≤ fld t.cfg 10 6) && decide (fld (mask t) i i = 1)
  | none => false

/-- The bindings of a variant, with their tiles. -/
def Plan.binds (p : Plan) (v : Tier) : List (Nat × FastBind) :=
  (p.ofVar v).filterMap fun x => match x.body with | .fast b => some (x.unit, b) | _ => none

/-- The limits of the fast lane in one variant (R241): tiles, sections, channels, and inputs and outputs that exist. -/
def Plan.fastOk (p : Plan) (v : Tier) : Bool :=
  let bs := p.binds v
  let ins := bs.flatMap fun b => b.2.ins
  let outs := bs.flatMap fun b => b.2.outs
  let fastOuts : List OutDst := outs
  let blockPorts := (p.outMap.filter fun e => !fastOuts.contains e.dst).filterMap fun e => match e.dst with | .tdm q _ _ => some q | _ => none
  decide (bs.length ≤ 8) && noDup (bs.map (·.1)) && noDup ins && noDup outs
    && (bs.all fun b => decide (b.2.ins.length ≤ 64) && decide (b.2.outs.length ≤ 32))
    && (ins.all fun i => match i with
      | .avtp .. => false
      | .tdm q c h => !blockPorts.contains q && p.slotHas q c h fun t => t.inM
      | .pdm c => decide (c < 32))
    && (outs.all fun o => match o with
      | .tdm q c h => !blockPorts.contains q && p.slotHas q c h fun t => t.outM
      | .avtp .. => false)

/-- The audio part of the FORMAT check (R234, R241, R301, R303, Table 11-13). -/
def Plan.audioOk (p : Plan) : Bool :=
  p.mapsOk && (p.tdm.all fun t => t.ok) && p.streamOk && [Tier.a, .b, .c].all fun v => p.fastOk v

end Sys2Proof

namespace Sys2Proof.Machine

/-! ## Sample conversion (R295, R296) -/

/-- WORD in bits. -/
def wordBits (cfg : Word) : Nat := 8 * (fld cfg 13 12 + 2)
/-- SLOTW in bits. -/
def slotBits (cfg : Word) : Nat := if fld cfg 11 11 = 1 then 32 else 16

/-- A two's-complement code of w bits as binary32: code × 2^−(w−1) (R295). -/
def codeToF (w code : Nat) : Word := BitVec.ofNat 32 (f32.ofExact ceMode (toInt w code) (-((w : Int) - 1)) false).bits

/-- A quotient rounded to an integer, ties to even. -/
def divRne (n d : Int) : Int :=
  let q := n / d
  let r := n % d
  if 2 * r < d then q else if d < 2 * r then q + 1 else if q % 2 = 0 then q else q + 1

/-- A binary32 value times gain g/240, scaled by 2^(w−1), rounded and clamped; whether it clips.  NaN, and infinity under gain 0,
become 0 (R295). -/
def fToCode (w : Nat) (y : Word) (g : Nat) : Nat × Bool :=
  let hi : Int := 2 ^ (w - 1) - 1
  let lo : Int := -(2 ^ (w - 1))
  match f32.read false y.toNat with
  | .nan _ => (0, true)
  | .inf s => if g = 0 then (0, true) else (ofInt w (if s then lo else hi), true)
  | .fin s m e =>
    let x := sgn s (m * g)
    let k := e + ((w : Int) - 1)
    let z := if 0 ≤ k then divRne (x * 2 ^ k.toNat) 240 else divRne x (240 * 2 ^ (-k).toNat)
    if hi < z then (ofInt w hi, true) else if z < lo then (ofInt w lo, true) else (ofInt w z, false)

/-- A slot word of a port as a sample (R295, R296); a status byte counts whatever its VALID bit (R297). -/
def slotSample (cfg : Word) (fb : Bool) (x : Word) : InSample :=
  if fb then
    let st := BitVec.ofNat 8 (fld x 7 0)
    if st.getLsbD 7 then { val := codeToF 24 (fld x 31 8), ok := true, fb := st &&& 0x7F } else { val := 0, ok := false, fb := st &&& 0x7F }
  else { val := codeToF (wordBits cfg) (x.toNat % 2 ^ slotBits cfg / 2 ^ (slotBits cfg - wordBits cfg)), ok := true, fb := 0 }

/-! ## Gains (R405, R409, R443, R468) -/

/-- The falling gain at the sample emitted at tick E, in 240ths: 1 − (i+1)/240 from S0 on. -/
def fallGain (s0 : Option Nat) (e : Nat) : Nat :=
  match s0 with
  | none => 240
  | some s => if e < s then 240 else 240 - min 240 (e - s + 1)

/-- The rising gain, from the first emitted sample of a block whose outputs play from tick `r` on. -/
def riseGain (r : Option Nat) (delay e : Nat) : Nat :=
  match r with
  | none => 240
  | some b => if e < b + delay then 0 else min 240 (e - (b + delay) + 1)

/-- An output that a fast-lane binding names, whose values play one block earlier than a block-rate output's. -/
def State.isFastOut (s : State) (o : OutEntry) : Bool :=
  match s.plan with
  | some p => p.sects.any fun x => match x.body with | .fast b => b.outs.contains o.dst | _ => false
  | none => false

/-- The first tick at which the outputs of the rising block play. -/
def State.riseAt (s : State) (o : OutEntry) : Option Nat :=
  s.dev.safety.rise.map fun t => if s.isFastOut o then t else t + s.bsize

/-- The gain of an output at tick E, in 240ths: the lowest that applies. -/
def State.gain (s : State) (o : OutEntry) (delay e : Nat) : Nat :=
  let f := s.dev.safety
  let all := fallGain f.fallAll e
  if o.safety ∧ !f.ramped.contains o.ix then all
  else min (min (min all (fallGain f.fall e)) (min (fallGain f.fallDeep e) (fallGain f.fallStop e))) (riseGain (s.riseAt o) delay e)

/-! ## Input frames -/

/-- Change the audio part. -/
def State.modAud (s : State) (f : Audio → Audio) : State := { s with aud := f s.aud }
/-- Change a port. -/
def State.modPort (s : State) (n : Nat) (f : PortState → PortState) : State :=
  s.modAud fun a => { a with ports := vmod a.ports n f }
/-- A port. -/
def State.port (s : State) (n : Nat) : PortState := s.aud.ports.getD n PortState.reset

/-- The value of a source in a frame: 0.0 and invalid where it is missing (R294). -/
def frameVal (fr : List (InSrc × InSample)) (x : InSrc) : InSample :=
  match fr.find? fun e => decide (e.1 = x) with
  | some e => e.2
  | none => { val := 0, ok := false, fb := 0 }

/-- FOFS of a port, signed. -/
def State.fofs (s : State) (n : Nat) : Int := toInt 8 (fld (s.reg (tdmReg n 4)) 7 0)

/-- STAT of a port gains bits: device event 164 + n when one becomes 1 (R494). -/
def State.tdmStat (s : State) (n : Nat) (bits : Word) : State := s.orRegEvent (tdmReg n 0x1C) bits (164 + n)

/-- A slip: counted, STAT.SLIP (R294). -/
def State.tdmSlip (s : State) (n : Nat) : State := (s.bump (tdmReg n 0x24)).tdmStat n 2

/-- A sync at `phase` AUDCLK cycles from the tick lies within ±3 steps of its expected position (R294). -/
def State.inWindow (s : State) (n : Nat) (phase : Int) : Bool :=
  decide (-(3 * 2048) ≤ 125 * phase - 2048 * s.fofs n) && decide (125 * phase - 2048 * s.fofs n ≤ 3 * 2048)

/-- This device drives a logical output (R381, Table 14-6): all of them in SOLO or with ALLOWN, none in WAIT and JOIN, else those it
owns. -/
def State.owns (s : State) (ix : Nat) : Bool :=
  let st := s.reg 0x20800008
  if fld st 2 0 = 0 ∨ fld st 7 7 = 1 then true
  else if fld st 2 0 = 1 ∨ fld st 2 0 = 2 then false
  else s.lk.own.contains ix

/-- This device drives a port's clocks: a master port outside a pair; in a pair the clock owner does, and on a fast-lane port the owner of its
outputs (R381, R394). -/
def State.drivesClk (s : State) (n : Nat) : Bool :=
  let cfg := s.reg (tdmReg n 0)
  decide (fld cfg 1 1 = 1) && (decide (fld (s.reg Csr.pairStat) 2 0 = 0)
    || (if fld cfg 18 18 = 1 then
          (match s.plan with
          | some p => p.outMap.any fun e => (match e.dst with | .tdm q _ _ => decide (q = n) | _ => false) && s.owns e.ix
          | none => false)
        else decide (fld (s.reg Csr.pairStat) 6 6 = 1)))

/-- A sync of a slave port is measured against its expected position: PHASE, and PHASE_ERR outside the window (R294); the port that steers the
always-on clock gives its phase error in ns (R430). -/
def State.tdmSync (s : State) (n : Nat) (phase : Word) : State :=
  if s.drivesClk n then s
  else
    let err := (125 * toInt 32 phase.toNat - 2048 * s.fofs n) * 125 / 1536
    let src := decide (fld (s.reg Csr.aonCfg) 1 0 = 2) && decide (fld (s.reg Csr.aonCfg) 6 2 = n)
    let s0 := s.setReg (tdmReg n 0x20) phase
    let s1 := if src then s0.setReg Csr.aonPhase (BitVec.ofNat 32 (ofInt 32 err)) else s0
    if s.inWindow n (toInt 32 phase.toNat) then s1 else s1.tdmStat n 1

/-- A TDM input frame (at 96 kHz the pair, both frames' words) completes (R291, R294, R296).  `phase` is the measured sync offset of a
slave port. -/
def State.tdmIn (s : State) (n : Nat) (phase : Word) (words : List Word) : State :=
  let cfg := s.reg (tdmReg n 0)
  let ok := s.drivesClk n || s.inWindow n (toInt 32 phase.toNat)
  if fld cfg 0 0 = 0 ∨ (s.port n).stopped.isSome then s
  else if fld (s.reg (tdmReg n 0x1C)) 3 3 = 1 then s.tdmSync n phase
  else if (s.port n).inSeen then (s.tdmSync n phase).tdmSlip n
  else
    let ns := fld cfg 10 6 + 1
    let smp := (words.zipIdx).filterMap fun (w, i) =>
      if fld (s.reg (tdmReg n 8)) (i % ns) (i % ns) = 1 then
        let x := slotSample cfg (decide (fld (s.reg (tdmReg n 0x14)) (i % ns) (i % ns) = 1)) w
        some (InSrc.tdm n (i % ns) (i / ns), { x with ok := x.ok && ok })
      else none
    ((s.tdmSync n phase).modPort n fun p => { p with inSeen := true, sync := s.sample.toNat }).modAud fun a => { a with next := a.next ++ smp }

/-- No sync for 2 ticks: a slave port enters NOCLK (R294). -/
def State.tdmNoClk (s : State) (n : Nat) : State :=
  let cfg := s.reg (tdmReg n 0)
  if fld cfg 0 0 = 1 ∧ !s.drivesClk n ∧ fld (s.reg (tdmReg n 0x1C)) 3 3 = 0 ∧ (s.port n).sync + 2 ≤ s.sample.toNat
  then s.tdmStat n 8 else s

/-- The first sync within the window ends NOCLK. -/
def State.tdmClkBack (s : State) (n : Nat) (phase : Word) : State :=
  if fld (s.reg (tdmReg n 0x1C)) 3 3 = 1 ∧ s.inWindow n (toInt 32 phase.toNat) then
    (((s.modReg (tdmReg n 0x1C) fun x => x &&& ~~~8#32).setReg (tdmReg n 0x20) phase)).modPort n
      fun p => { p with sync := s.sample.toNat }
  else s

/-- A port restarts in its new format, at most 64 ticks after it stopped (R313). -/
def State.tdmRestart (s : State) (n : Nat) : State := s.modPort n fun p => { p with stopped := none }

/-! ## Output frames (R291, R293, R295) -/

/-- The output of a logical channel for a tick, 0 where nothing gives one (R38). -/
def State.outVal (s : State) (t ix : Nat) : Word :=
  match s.aud.played.find? fun e => decide (e.1 = t) with
  | some e => (e.2.find? fun x => decide (x.1 = ix)).elim 0 (·.2)
  | none => 0

/-- The logical output of a slot. -/
def Plan.outAt (p : Plan) (d : OutDst) : Option OutEntry := p.outMap.find? fun e => decide (e.dst = d)

/-- One output slot word: code left-justified in its slot, and whether it clips; a stopped port drives 0, an unused slot 0 or
high impedance. -/
def State.slotOut (s : State) (n i half : Nat) : Option Word × Bool :=
  let cfg := s.reg (tdmReg n 0)
  let dly := fld (s.reg (tdmReg n 0x18)) 7 0
  let unused := if fld (s.reg (tdmReg n 0x10)) i i = 1 then none else some 0
  let gone := (s.port n).stopped.isSome
  let idle := if gone then some 0 else unused
  if fld (s.reg (tdmReg n 0x0C)) i i = 0 then (idle, false)
  else match s.plan with
    | none => (idle, false)
    | some p =>
      match Plan.outAt p (.tdm n i half) with
      | none => (idle, false)
      | some e =>
        if !s.owns e.ix then (none, false) else if gone then (some 0, false) else
        let r := fToCode (wordBits cfg) (s.outVal (s.sample.toNat - dly) e.ix) (s.gain e dly s.sample.toNat)
        (some (BitVec.ofNat 32 (r.1 * 2 ^ (slotBits cfg - wordBits cfg))), r.2)

/-- A port emits its output frame (at 96 kHz its pair) for the present tick; a second one in a tick is a slip (R291, R294). -/
def State.tdmOut (s : State) (n : Nat) : State :=
  let cfg := s.reg (tdmReg n 0)
  if fld cfg 0 0 = 0 then s
  else
    let ns := fld cfg 10 6 + 1
    let slots := (upFrom 0 (if fld cfg 2 2 = 1 then 2 * ns else ns)).map fun i => s.slotOut n (i % ns) (i / ns)
    let noclk := fld (s.reg (tdmReg n 0x1C)) 3 3 = 1
    let s1 := s.emit (.tdm n (s.sample.toNat - fld (s.reg (tdmReg n 0x18)) 7 0) (slots.map fun x => if noclk then none else x.1))
    let clips := (slots.filter (·.2)).length
    let s2 := if clips = 0 then s1
      else (s1.modReg (tdmReg n 0x28) fun x => BitVec.ofNat 32 (min 0xFFFFFFFF (x.toNat + clips))).tdmStat n 4
    let s3 := if (s.port n).outSeen then s2.tdmSlip n else s2
    s3.modPort n fun p => { p with outSeen := true }

/-! ## PDM (R298 to R300) -/

/-- The clock outputs that run: each while an enabled pin selects it (R298). -/
def State.pdmClk (s : State) (k : Nat) : Bool :=
  (upFrom 0 16).any fun i => decide (fld (s.reg (pdmCfg i)) 0 0 = 1) && decide (fld (s.reg (pdmCfg i)) 2 1 = k)

/-- Equal bits of a PDM channel: how many in a row and their value, the longest row so far, and whether a bit has changed after 4,096 equal
ones, or while STUCK. -/
structure PdmRun where
  run  : Nat
  last : Bool
  top  : Nat
  chg  : Bool
  deriving DecidableEq, Repr

/-- One more bit. -/
def PdmRun.bit (stuck : Bool) (r : PdmRun) (b : Bool) : PdmRun :=
  if b = r.last then { r with run := r.run + 1, top := max r.top (r.run + 1) }
  else { run := 1, last := b, top := if stuck then 1 else max r.top 1, chg := r.chg || stuck || decide (4096 ≤ r.run) }

/-- The rows after 64 more bits, oldest first in bit 0. -/
def pdmRunOf (stuck : Bool) (p : PdmState) (bits : BitVec 64) : PdmRun :=
  (upFrom 0 64).foldl (fun r i => r.bit stuck (bits.getLsbD i)) { run := p.run, last := p.last, top := p.top, chg := false }

/-- The value of a sample: the decimator's, of which the coefficients are not given; without the high-pass filter ±1.0 once the bits of 64
ticks are equal, the time in which the filter fills (R299, R300, log 15). -/
def pdmValue (prof filt : Nat) (bits : BitVec 64) (r : PdmRun) : Word :=
  if prof / 2 = 0 ∧ 4096 ≤ r.run then (if r.last then 0x3F800000 else 0xBF800000) else Config.pdmOut prof filt bits

/-- A channel completes its decimated sample for the next tick (R299). -/
def State.pdmSample (s : State) (c : Nat) (bits : BitVec 64) : State :=
  let cfg := s.reg (pdmCfg (c / 2))
  if fld cfg 0 0 = 0 then s
  else
    let p := s.aud.pdm.getD c { filt := 0, run := 0, last := false, top := 0, start := none, change := none }
    let prof := fld cfg 4 3
    let st := s.reg (pdmStat c)
    let r := pdmRunOf (decide (fld st 1 1 = 1)) p bits
    let good := fld st 1 0 = 0
    let chg := if p.change = none ∧ r.chg then some s.sample.toNat else p.change
    s.modAud fun a => { a with
      pdm := vmod a.pdm c fun _ => { p with filt := Config.pdmNext prof p.filt bits, run := r.run, last := r.last, top := r.top, change := chg }
      next := a.next ++ [(.pdm c, { val := pdmValue prof p.filt bits r, ok := good, fb := 0 })] }

/-- 64 ticks after its clock started, a channel's samples become valid (R300). -/
def State.pdmFilled (s : State) (c : Nat) : State :=
  match (s.aud.pdm.getD c { filt := 0, run := 0, last := false, top := 0, start := none, change := none }).start with
  | some t =>
    if t + 64 ≤ s.sample.toNat then
      (s.setRegFld (pdmStat c) 0 0 0).modAud fun a => { a with pdm := vmod a.pdm c fun p => { p with start := none } }
    else s
  | none => s

/-- After 4,096 equal bits a channel becomes STUCK; device event 188 with STUCK_SEEN (R300, R494). -/
def State.pdmStuck (s : State) (c : Nat) : State :=
  let p := s.aud.pdm.getD c { filt := 0, run := 0, last := false, top := 0, start := none, change := none }
  if 4096 ≤ p.top ∧ fld (s.reg (pdmStat c)) 1 1 = 0 then
    let s1 := if fld (s.reg (pdmStat c)) 2 2 = 1 then s else s.devEvent 188
    (s1.orReg (pdmStat c) 6).modAud fun a => { a with pdm := vmod a.pdm c fun p => { p with top := p.run } }
  else s

/-- 64 ticks after the first change of bit a STUCK channel is valid again (R300). -/
def State.pdmFree (s : State) (c : Nat) : State :=
  let p := s.aud.pdm.getD c { filt := 0, run := 0, last := false, top := 0, start := none, change := none }
  match p.change with
  | some t =>
    if fld (s.reg (pdmStat c)) 1 1 = 1 ∧ t + 64 ≤ s.sample.toNat then
      (s.setRegFld (pdmStat c) 1 1 0).modAud fun a => { a with pdm := vmod a.pdm c fun p => { p with change := none } }
    else s
  | none => s

/-! ## Listeners and talkers (R309 to R312) -/

/-- A payload word of a format as binary32 (R309); a feedback channel keeps its status. -/
def pduSample (fmt : Nat) (fb : Bool) (x : Word) : InSample :=
  match fmt with
  | 0 => { val := codeToF 16 (x.toNat % 65536), ok := true, fb := 0 }
  | 1 => { val := codeToF 24 (x.toNat % 2 ^ 24), ok := true, fb := 0 }
  | 2 => if fb then slotSample 0 true x else { val := codeToF 32 x.toNat, ok := true, fb := 0 }
  | _ => { val := x, ok := true, fb := 0 }

/-- The presentation time's distance from the gPTP time of the present tick, in ns: the difference modulo 2^32, signed (R311). -/
def presAhead (ts : Word) (now : DWord) : Int := toInt 32 (ts - now.setWidth 32).toNat

/-- The half tick at which a presentation time falls: tick S holds half ticks 2S − 1 and 2S; a half tick is 62,500/6 ns. -/
def presHalf (sample : Nat) (ahead : Int) : Nat := (2 * (sample : Int) + (-((-(ahead * 6)) / 62500))).toNat

/-- A listener of the running plan by stream ID. -/
def Plan.listener (p : Plan) (sid : DWord) : Option AvtpStream :=
  p.streams.find? fun x => decide (x.sid = sid) && decide (32 ≤ x.ix)

/-- A STRM_STAT bit is set; LATE, SEQ and SLIP mark the block bad (Table 13-4). -/
def State.strmSet (s : State) (i : Nat) (m : Word) : State :=
  (s.orReg (strmReg i) m).modAud fun a =>
    if m &&& 0x54 = 0 then a else { a with listen := vmod a.listen (i - 32) fun l => { l with bad := true } }

/-- A register of MAC m (Table 13-10). -/
def ethReg (m o : Nat) : Nat := 0x20600000 + 0x100 * m + o

/-- The enabled SLAVE port (R352). -/
def State.slavePort (s : State) : Option Nat :=
  (upFrom 0 4).find? fun m => decide (fld (s.reg (ethReg m 0)) 0 0 = 1) && decide (fld (s.reg (ethReg m 0)) 4 3 = 2)

/-- The device is synchronised: a follower whose PTP_STAT.SYNCED is 1, or the grandmaster (R353). -/
def State.gptpSync (s : State) : Bool :=
  match s.slavePort with
  | some m => decide (fld (s.reg (ethReg m 0x18)) 0 0 = 1)
  | none => true

/-- The gPTP time of a tick, by whole ticks of 62,500/3 ns from the time latched at the present block's tick (R352, R354). -/
def State.tickTime (s : State) (x : Nat) : DWord :=
  ((s.reg (ethReg 0 0x24)).setWidth 64 <<< 32 ||| (s.reg (ethReg 0 0x20)).setWidth 64)
    + BitVec.ofInt 64 (((x : Int) - (s.blk * s.bsize : Nat)) * 62500 / 3)

/-- The half tick of the first instant of an accepted PDU, and the half ticks from one instant to the next (R311). -/
def State.avtpFirst (s : State) (l : ListenState) (d : Pdu) (now : DWord) : Nat :=
  if d.tv then presHalf s.sample.toNat (presAhead d.ts now) else l.next.getD (2 * s.sample.toNat + 2)

/-- Half ticks from one instant of a PDU to the next. -/
def pduStep (d : Pdu) : Nat := if d.x2 then 1 else 2

/-- A PDU's discards: samples late, early, or for an instant already held. -/
structure Slips where
  late  : Bool
  early : Bool
  slip  : Bool
  deriving DecidableEq, Repr

/-- Instant `j` of a PDU is placed, or discarded (Table 11-8). -/
def State.avtpInstant (d : Pdu) (ix h0 : Nat) (r : State × Slips) (j : Nat) : State × Slips :=
  let h := h0 + j * pduStep d
  let tick := (h + 1) / 2
  let key := if d.x2 then h else 2 * tick
  let l := r.1.aud.listen.getD (ix - 32) { held := [], seq := none, next := none, bad := false }
  if tick ≤ r.1.sample.toNat then (r.1.strmSet ix 4, { r.2 with late := true })
  else if r.1.sample.toNat + 512 < tick then (r.1.strmSet ix 8, { r.2 with early := true })
  else if l.held.any fun e => decide (e.1 = key) then (r.1.strmSet ix 0x10, { r.2 with slip := true })
  else (r.1.modAud fun a => { a with listen := vmod a.listen (ix - 32) fun l =>
    { l with held := l.held ++ [(key, (d.smps.drop (j * d.chans)).take d.chans)] } }, r.2)

/-- A listener accepts a PDU and places its samples (R311, Table 11-8). -/
def State.avtpIn (s0 : State) (d : Pdu) : State :=
  match s0.plan with
  | none => s0
  | some p =>
    match Plan.listener p d.sid with
    | none => s0
    | some x =>
      let l := s0.aud.listen.getD (x.ix - 32) { held := [], seq := none, next := none, bad := false }
      let s := s0.bump (ethReg d.port.val 0xC4)
      if 4 ≤ x.fmt ∨ d.fmt ≠ x.fmt ∨ d.x2 ≠ x.x2 ∨ d.chans ≠ x.chans ∨ d.chans = 0 then (s.strmSet x.ix 0x20).bump (ethReg d.port.val 0xC8)
      else
        let s1 := match l.seq with
          | some q => if d.seq = q + 1 then s else (s.strmSet x.ix 0x40).bump (ethReg d.port.val 0xCC)
          | none => s
        let s2 := if s.gptpSync then s1.modReg (strmReg x.ix) fun v => v &&& ~~~2#32 else s1.strmSet x.ix 2
        let h0 := s.avtpFirst l d (s.tickTime s.sample.toNat)
        let n := d.smps.length / d.chans
        let r := (upFrom 0 n).foldl (State.avtpInstant d x.ix h0) (s2, ({ late := false, early := false, slip := false } : Slips))
        let s4 := [(r.2.late, 0xD0), (r.2.early, 0xD4), (r.2.slip, 0xD8)].foldl
          (fun s e => if e.1 then s.bump (ethReg d.port.val e.2) else s) r.1
        s4.modAud fun a => { a with listen := vmod a.listen (x.ix - 32) fun l =>
          { l with seq := some d.seq, next := some (h0 + n * pduStep d) } }

/-- At tick S − 1.0 µs the held value becomes the stream's input frame of tick S (R311). -/
def State.avtpTick (s : State) (i : Nat) : State :=
  match s.plan with
  | none => s
  | some p =>
    match p.streams.find? fun x => decide (x.ix = 32 + i) with
    | none => s
    | some x =>
      let tick := s.sample.toNat + 1
      let l := s.aud.listen.getD i { held := [], seq := none, next := none, bad := false }
      let keys := if x.x2 then [(2 * tick - 1, 0), (2 * tick, 1)] else [(2 * tick, 0)]
      let miss := keys.any fun k => !l.held.any fun e => decide (e.1 = k.1)
      let smp := keys.flatMap fun k =>
        (upFrom 0 x.chans).map fun c =>
          (InSrc.avtp i c k.2,
            match l.held.find? fun e => decide (e.1 = k.1) with
            | some e => pduSample x.fmt (x.fb.contains c) (e.2.getD c 0)
            | none => { val := 0, ok := false, fb := 0 })
      -- the PRIMARY of a pair forwards the values (R390)
      let s0 := s.forwardOut 1 ([BitVec.ofNat 8 i] ++ leBytes 8 tick ++ smp.flatMap fun e => BitVec.ofNat 8 (b2n e.2.ok) :: leBytes 4 e.2.val.toNat)
      let s1 := if miss then s0.strmSet x.ix 4 else s0
      s1.modAud fun a => { a with
        next := a.next ++ smp
        listen := vmod a.listen i fun l => { l with held := l.held.filter fun e => decide (2 * tick < e.1) } }

/-- The timestamp of a PDU whose first sample's output tick has gPTP time `t` ns: plus PRES_DELAY ticks and PRES_OFS / 6 µs (R310). -/
def presStamp (x : AvtpStream) (t : DWord) : Word := (t + BitVec.ofNat 64 ((x.presDly * 125000 + x.presOfs * 1000) / 6)).setWidth 32

/-- A value of a talker in its format: gain, then the integer formats as R295; FLOAT_32BIT under gain 1 passes unchanged. -/
def talkWord (fmt : Nat) (y : Word) (g : Nat) : Word :=
  match fmt with
  | 0 => BitVec.ofNat 32 (fToCode 16 y g).1
  | 1 => BitVec.ofNat 32 (fToCode 24 y g).1
  | 2 => BitVec.ofNat 32 (fToCode 32 y g).1
  | _ =>
    if g = 240 then y
    else match f32.read false y.toNat with
      | .fin sg m e =>
        -- g/240 × y rounded once: the quotient to 60 bits with a sticky bit
        let n := m * g * 2 ^ 60
        BitVec.ofNat 32 (f32.round ceMode sg (n / 240) (e - 60) (decide (n % 240 ≠ 0))).bits
      | _ => if g = 0 then BitVec.ofNat 32 f32.nan else y

/-- The CRF talker sends the PDU of the last whole group of its event ticks, each stamped as a sample's output tick is (R310, Table 11-7).  The
event ticks are the multiples of the stream's interval (log 90). -/
def State.crfOut (s : State) (x : AvtpStream) (t : TalkState) : State :=
  let g := if x.spp * x.ivl = 0 then 0 else s.sample.toNat / (x.spp * x.ivl)
  if g = 0 ∨ g = t.blk then s
  else
    let times := (upFrom 0 x.spp).map fun j => s.tickTime (((g - 1) * x.spp + j) * x.ivl)
    let fr : TxFrame := { port := x.port, q := x.pcp % 8, vid := x.vid, cls := 0, len := 42 + 8 * times.length
                          what := .avtp x.ix t.seq (presStamp x (times.headD 0)) (times.map (presStamp x)) }
    let s1 := { (s.bump (ethReg x.port 0xC0)) with net := { s.net with tx := s.net.tx ++ [fr] } }
    (s1.modReg (strmReg x.ix) fun v => v &&& ~~~2#32).modAud fun a =>
      { a with talk := vmod a.talk x.ix fun t => { t with seq := t.seq + 1, blk := g } }

/-- A talker builds and sends its next PDU (R310).  It sends only while gPTP is synchronised, else sets NOSYNC. -/
def State.avtpOut (s : State) (i : Nat) : State :=
  match s.plan with
  | none => s
  | some p =>
    match p.streams.find? fun x => decide (x.ix = i) && decide (x.ix < 32) with
    | none => s
    | some x =>
      let t := s.aud.talk.getD i { seq := 0, blk := 0, pdu := 0 }
      let per := if x.x2 then 2 * s.bsize else s.bsize
      if !s.gptpSync then s.orReg (strmReg i) 2
      else if x.fmt = 4 then s.crfOut x t
      else if x.spp = 0 ∨ s.bsize = 0 ∨ s.dev.sched.kf.isSome
        ∨ p.outMap.any (fun e => (match e.dst with | .avtp k _ _ => decide (k = i) | _ => false) && !s.owns e.ix) then s
      else
        let blk := s.blk
        let pdu := if t.blk = blk then t.pdu else 0
        if per / x.spp ≤ pdu then s
        else
          let smps := (upFrom 0 x.spp).flatMap fun j => (upFrom 0 x.chans).map fun c =>
            let k := pdu * x.spp + j
            let tick := blk * s.bsize + (if x.x2 then k / 2 else k)
            match p.outMap.find? fun e => decide (e.dst = .avtp i c (if x.x2 then k % 2 else 0)) with
            | some e =>
              let v := match s.aud.playing.find? fun b => decide (b.1 = e.ix) with
                | some b => b.2.getD (tick - blk * s.bsize) 0
                | none => 0
              talkWord x.fmt v (s.gain e x.presDly (tick + x.presDly))
            | none => 0
          let now := s.tickTime (blk * s.bsize + (if x.x2 then pdu * x.spp / 2 else pdu * x.spp))
          let fr : TxFrame := { port := x.port, q := x.pcp % 8, vid := x.vid, cls := 0, len := 46 + (if x.fmt = 0 then 2 else if x.fmt = 1 then 3 else 4) * smps.length, what := .avtp i t.seq (presStamp x now) smps }
          let s1 := { (s.bump (ethReg x.port 0xC0)) with net := { s.net with tx := s.net.tx ++ [fr] } }
          (s1.modReg (strmReg i) fun v => v &&& ~~~2#32).modAud fun a =>
            { a with talk := vmod a.talk i fun t => { seq := t.seq + 1, blk := blk, pdu := pdu + 1 } }

/-- The CRF listener measures a CRF event's phase and frequency (R312); with AON_CLK_CFG.SRC = CRF it is what the loop steers by. -/
def State.crfIn (s : State) (m : Nat) (phase ppb : Word) : State :=
  let s1 := ((s.bump (ethReg m 0xDC)).setReg 0x20500610 phase).setReg 0x20500614 ppb
  if fld (s.reg Csr.aonCfg) 1 0 = 3 then s1.setReg Csr.aonPhase phase else s1

/-! ## What a sample tick does -/

/-- The input map in force for the input frame of the present tick (R313): that of the plan of the block whose input it belongs to (R34). -/
def State.inMap (s : State) : List (Nat × InSrc) :=
  let k := if s.bsize = 0 then 0 else (s.sample.toNat + s.bsize - 1) / s.bsize
  match s.plan with
  | none => []
  | some p => ((s.planFrom k).getD p).inMap

/-- Consecutive blocks of a DTC condition: the count for a key, 0 where it ends. -/
def State.runCount (s : State) (key : Nat) (on : Bool) : State :=
  s.modAud fun a => { a with runs := sset 0 a.runs key (if on then sget 0 a.runs key + 1 else 0) }

/-- The mirrored output blocks that a survivor plan plays in block k: those of block k − 2, as its ports carry them at DELAY reduced by B (R396). -/
def State.mirroredAt (s : State) (k : Nat) : List (Nat × List Word) :=
  s.lk.mirrored.filterMap fun e => if e.2.1 + 2 = k then some (e.1, e.2.2) else none

/-- An earlier tick of the output history with the mirrored outputs in place (R396). -/
def State.mirrorBack (s : State) (h : Nat × List (Nat × Word)) : Nat × List (Nat × Word) :=
  let ms := (s.mirroredAt (h.1 / s.bsize)).map fun e => (e.1, e.2.getD (h.1 % s.bsize) 0)
  (h.1, ms ++ h.2.filter fun x => !ms.any fun y => decide (y.1 = x.1))

/-- The tick's input frame takes effect: slips of ports without a frame, invalid inputs and feedback status of the block, and the outputs of
the tick enter the history (R291, R294, R297, R301). -/
def State.audioTick (s : State) : State :=
  let S := s.sample.toNat
  let s0 := if s.bsize ≠ 0 ∧ (S - 1) % s.bsize = 0 then s.modAud fun a => { a with badIn := [], fbOr := [] } else s
  let s1 := (upFrom 0 24).foldl (fun s n =>
    let cfg := s.reg (tdmReg n 0)
    let live := fld cfg 0 0 = 1 ∧ !s.drivesClk n ∧ (s.port n).stopped = none
    let a := if live ∧ !(s.port n).inSeen ∧ s.reg (tdmReg n 8) ≠ 0 then s.tdmSlip n else s
    let b := if live ∧ !(s.port n).outSeen ∧ s.reg (tdmReg n 0x0C) ≠ 0 then a.tdmSlip n else a
    b.modPort n fun p => { p with inSeen := false, outSeen := false }) s0
  let cur := s1.aud.next
  let s2 := s1.modAud fun a => { a with cur := cur, next := [] }
  match s.plan with
  | none => s2
  | some p =>
    let bad := (s.inMap.filter fun e => !(frameVal cur e.2).ok).map (·.1)
    let fb := s.inMap.filterMap fun e => let x := (frameVal cur e.2).fb; if x = 0 then none else some (e.1, x)
    -- at a block tick the drained block begins to play (R36, R291)
    let from_ := if s.bsize ≠ 0 ∧ S % s.bsize = 0 then s2.aud.draining else s2.aud.playing
    -- in its first block a survivor plan's outputs are the mirrored ones (R396)
    let from_ := if s.bsize ≠ 0 ∧ s.lk.surv = some (S / s.bsize) then s.mirroredAt (S / s.bsize) ++ from_ else from_
    let hist := if s.bsize ≠ 0 ∧ S % s.bsize = 0 ∧ s.lk.surv = some (S / s.bsize) then s.aud.played.map s.mirrorBack else s.aud.played
    let vals := p.outMap.map fun e =>
      (e.ix, match from_.find? fun b => decide (b.1 = e.ix) with
        | some b => b.2.getD (if s.bsize = 0 then 0 else S % s.bsize) 0
        | none => 0)
    s2.modAud fun a => { a with
      badIn := a.badIn ++ bad.filter fun i => !a.badIn.contains i
      fbOr := fb.foldl (fun l x => (x.1, (match l.find? fun y => decide (y.1 = x.1) with | some y => y.2 | none => 0) ||| x.2)
                :: l.filter fun y => decide (y.1 ≠ x.1)) a.fbOr
      played := ((S, vals) :: hist).take 257 }

/-- At a drain start every logical output's block buffer is set to zero (R303); the outputs are those of the plan in force from the next tick
on (R313). -/
def State.zeroOut (s : State) : State :=
  match s.plan with
  | none => s.modAud fun a => { a with draining := [] }
  | some p => s.modAud fun a => { a with
      draining := ((s.planFrom (s.blk + 1)).getD p).outMap.map fun e => (e.ix, List.replicate s.bsize 0) }

/-- The steps of a channel's program from stream-bank offset `o`, up to END. -/
def State.stepsAt (s : State) : Nat → Nat → List Step
  | 0, _ => []
  | n + 1, o =>
    let st := Step.ofBytes (s.bytes (bankBase 21 + o) 64)
    if st.op = 0 then [] else st :: State.stepsAt s n (o + 64)

/-- No landing or drain is in progress: traffic of the HOST class goes after theirs (R304, R324). -/
def State.hostGoes (s : State) : Bool :=
  (upFrom 0 96).all fun c => (s.aud.chans.getD c { next := none, restart := none }).next.isNone || decide (3 < fld (s.reg (chReg c 0)) 6 4)

/-- The logical inputs of a channel's landings. -/
def State.landInputs (s : State) (c : Nat) : List Nat :=
  (s.stepsAt 4096 (fld (s.reg (chReg c 0)) 23 8 * 64)).flatMap fun st => if st.op = 1 then upFrom st.src st.count else []

/-- Inputs become invalid in the present block. -/
def State.badInputs (s : State) (is : List Nat) : State :=
  s.modAud fun a => { a with badIn := a.badIn ++ is.filter fun i => !a.badIn.contains i }

/-- A channel whose restart is due at its named block (R307): it is no longer stopped, and its inputs are invalid in the block so far. -/
def State.chanBack (s : State) (c : Nat) : State :=
  match (s.aud.chans.getD c { next := none, restart := none }).restart with
  | some b =>
    if b ≤ s.blk then
      ((s.badInputs (s.landInputs c)).modReg (chReg c 4) fun x => x &&& 4).modAud fun a => { a with chans := vmod a.chans c fun x => { x with restart := none } }
    else s
  | none => s

/-- A channel of a trigger is served (R302): its program starts at its first step, unless it is stopped. -/
def State.serve (s0 : State) (c : Nat) : State :=
  let s := s0.chanBack c
  if fld (s.reg (chReg c 0)) 0 0 = 1 ∧ fld (s.reg (chReg c 4)) 1 1 = 0 then
    ((s.bump (chReg c 0x0C)).orReg (chReg c 4) 1).modAud fun a => { a with chans := vmod a.chans c fun x => { x with next := some 0 } }
  else s

/-- The joining device of a resync whose channels have not started (R398). -/
def State.joining (s : State) : Bool :=
  decide (fld (s.reg Csr.pairStat) 2 0 = 2) && s.lk.recv && decide (fld (s.reg Csr.resyncStat) 1 0 ≠ 3)

/-- The channels of a trigger are served. -/
def State.trigger (s : State) (trig : Nat) : State :=
  if s.joining then s else
  (upFrom 0 96).foldl (fun s c =>
    if fld (s.reg (chReg c 0)) 3 1 = trig ∧ !(s.dev.sched.kf.isSome && decide (trig = 3)) then s.serve c else s) s

/-- Consecutive blocks of the feedback, input and stream conditions of Table 13-4, and their DTCs. -/
def State.audioDtcs (s : State) : State :=
  match s.plan with
  | none => s
  | some p =>
    let fbOf := fun (s : State) (i : Nat) => match s.aud.fbOr.find? fun y => decide (y.1 = i) with | some y => y.2 | none => 0
    let s1 := s.inMap.foldl (fun s e =>
      [(6, 64, 0x9A1013), (5, 4, 0x9A1019), (3, 4, 0x9A1049), (2, 64, 0x9A1098), (4, 64, 0x9A1016)].foldl (fun s c =>
        let key := e.1 * 8 + c.1
        let s2 := s.runCount key ((fbOf s e.1).getLsbD c.1)
        if sget 0 s2.aud.runs key = c.2.1 then s2.setDtc c.2.2 e.1 else s2) s) s
    let s2 := ((p.mics.map fun m => (m, 0x9A2000)) ++ (p.accels.map fun m => (m, 0x9A2100))).foldl (fun (s : State) (m : Nat × Nat) =>
      let key := 4096 + m.1
      let s2 := s.runCount key (s.aud.badIn.contains m.1)
      if sget 0 s2.aud.runs key = 1500 then s2.setDtc m.2 m.1 else s2) s1
    let s3 := (upFrom 0 32).foldl (fun s i =>
      let key := 8192 + i
      let s2 := s.runCount key (s.aud.listen.getD i { held := [], seq := none, next := none, bad := false }).bad
      if sget 0 s2.aud.runs key = 100 then s2.setDtc 0x9A3200 i else s2) s2
    s3.modAud fun a => { a with listen := a.listen.map fun (l : ListenState) => { l with bad := false } }

/-- A block tick plays what the drain collected, and triggers the BLOCK channels (R36, R303). -/
def State.audioBlock (s : State) : State :=
  (s.audioDtcs.modAud fun a => { a with playing := a.draining, draining := [] }).trigger 2

/-! ## Ports and channels of a plan (R313, R315) -/

/-- A PDM clock that did not run before and now does starts: the channels of the pins that select it fill for 64 ticks (R298, R300, log 90). -/
def State.pdmStart (s0 s : State) : State :=
  (upFrom 0 32).foldl (fun s c =>
    let v := s.reg (pdmCfg (c / 2))
    if fld v 0 0 = 1 ∧ !s0.pdmClk (fld v 2 1) then
      (s.orReg (pdmStat c) 1).modAud fun a => { a with pdm := vmod a.pdm c fun x => { x with start := some s.sample.toNat } }
    else s) s

/-- The port, PDM and channel registers of a plan.  A port whose CFG or FOFS changes stops until it has restarted. -/
def State.putPorts (s : State) (p : Plan) : State :=
  let s1 := (upFrom 0 24).foldl (fun s n =>
    let old := (s.reg (tdmReg n 0), s.reg (tdmReg n 4))
    match p.tdm.find? fun t => decide (t.port = n) with
    | some t =>
      let s2 := [(0, t.cfg &&& 0x7FFFF), (4, t.fofs &&& 0xFF), (8, t.inM), (0x0C, t.outM), (0x10, t.triM), (0x14, t.fbM), (0x18, t.dly &&& 0xFF)].foldl
        (fun s x => s.setReg (tdmReg n x.1) x.2) s
      if old ≠ (t.cfg &&& 0x7FFFF, t.fofs &&& 0xFF) ∧ fld old.1 0 0 = 1 then
        s2.modPort n fun q => { q with stopped := some s.sample.toNat }
      else s2.modPort n fun q => { q with sync := s.sample.toNat }
    | none => [0, 4, 8, 0x0C, 0x10, 0x14, 0x18].foldl (fun s o => s.setReg (tdmReg n o) 0) s) s
  let s2 := s.pdmStart ((upFrom 0 16).foldl (fun s i =>
    s.setReg (pdmCfg i) (match p.pdm.find? fun x => decide (x.1 = i) with | some x => x.2 &&& 0x1F | none => 0)) s1)
  let s3 := (upFrom 0 96).foldl (fun s c =>
    let v := match p.chans.find? fun x => decide (x.ch = c) with | some x => x.cfg &&& 0xFFFF7F | none => 0
    (s.setReg (chReg c 0) v).setReg (chReg c 4) (s.reg (chReg c 4) &&& 4)) (s2.modAud fun a =>
      { a with chans := a.chans.map fun (_ : ChanState) => { next := none, restart := none } })
  (upFrom 0 64).foldl (fun s i =>
    s.setRegFld (strmReg i) 0 0 (b2n (p.streams.any fun x => decide (x.ix = i)))) s3

/-! ## Fast-lane frames (R242, R243, R246) -/

/-- The header and samples of the frame of tick S for a binding (Table 9-5). -/
def State.fastFrame (s : State) (b : FastBind) (missed : Bool) : List Byte :=
  let S := s.sample.toNat + 1
  let smp := b.ins.map (frameVal s.aud.next)
  leBytes 8 S ++ leBytes 4 (if s.bsize = 0 then 0 else S / s.bsize) ++ leBytes 2 (if s.bsize = 0 then 0 else S % s.bsize)
    ++ [if s.bsize ≠ 0 ∧ S % s.bsize = 0 then s.dev.sched.pselNext else s.dev.sched.psel,
        BitVec.ofNat 8 (b2n (smp.any fun x => !x.ok) + 2 * b2n missed)]
    ++ zeros 48 ++ smp.flatMap fun x => leBytes 4 x.val.toNat

/-- The binding of a bound tile. -/
def State.bindOf (s : State) (u : UnitIx) : Option FastBind :=
  if fld (s.tile u).flCfg 0 0 = 0 then none
  else match s.plan with | some p => p.fast s.dev.sched.variant u.val | none => none

/-- IBASE and OBASE as local addresses (Table 9-7). -/
def Tile.flIn (t : Tile) : Nat := fld t.flCfg 8 1 * 8192
/-- OBASE. -/
def Tile.flOut (t : Tile) : Nat := fld t.flCfg 16 9 * 8192 + 0x1000

/-- The frame engine writes the input frame of the next tick into a bound tile's bank (R242). -/
def State.flInput (s : State) (u : UnitIx) : State :=
  match s.bindOf u with
  | none => s
  | some b =>
    let t := s.tile u
    (s.memWrite (localBase u + t.flIn + (s.sample.toNat + 1) % 2 * 0x200) (s.fastFrame b t.flMissed) 1).modTile u
      fun t => { t with flMissed := false }

/-- In the 4.0 µs after tick S+1 the frame engine takes the output buffer of tick S (R243): its values are the outputs for tick S.  At a
plan switch the take of the old block's last tick is by the binding in force, which is the new one from 2.0 µs before the tick on (DESIGN CHOICE,
log 89). -/
def State.flTake (s : State) (u : UnitIx) : State :=
  match s.bindOf u, s.plan with
  | some b, some p =>
    let S := s.sample.toNat - 1
    let base := localBase u + (s.tile u).flOut + S % 2 * 0x100
    let vals := (b.outs.zipIdx).filterMap fun (d, i) =>
      (Plan.outAt p d).map fun e => (e.ix, if (s.tile u).fenced then 0 else BitVec.ofNat 32 (s.load (base + 4 * i) 4))
    (s.eccReadRange base (4 * b.outs.length) 1).modAud fun a => { a with
      played := a.played.map fun e => if e.1 = S then (S, vals ++ e.2.filter fun x => !vals.any fun y => decide (y.1 = x.1)) else e }
  | _, _ => s

end Sys2Proof.Machine
end

