-- ==== Sys2Proof/Machine/AudioCmds.lean ====
section
/-! DEFINITION. The commands of the convolution engines, the TDM and PDM ports and the AVTP streams (chapters 10 and 11). -/

namespace Sys2Proof.Machine

/-- CE_JOB_QUEUE: the oldest CESUB of unit `u` reaches its engine's queue (R276). -/
def execCeJobQueue (u : UnitIx) (s : State) : Host.Outcome State Fault Refusal := .next (s.ceQueue u)

/-- CE_JOB_TAKE (R273, R277, R287). -/
def execCeJobTake (k : Fin 4) (s : State) : Host.Outcome State Fault Refusal := .next (s.ceTake k)

/-- CE_PHASE_ADVANCE (R278, R280): `ferr` is a fabric transfer of the phase that was discarded, `cyc` its cycles. -/
def execCePhaseAdvance (k : Fin 4) (ferr : Option (BitVec 36)) (cyc : Nat) (s : State) : Host.Outcome State Fault Refusal :=
  .next (s.ceAdvance k ferr cyc)

/-- CE_CTL_WRITE (R288): the service core and the device write CTL; a write of any other requester is discarded and counted. -/
def execCeCtlWrite (k : Fin 4) (r : Requester) (v : Word) (s : State) : Host.Outcome State Fault Refusal :=
  .next (if r = .tile 16 then s.ceCtl k v else s.bump Csr.wrDisc)

/-- TDM_INPUT_FRAME (R291, R294 to R296): `phase` is the sync offset measured on a slave port, `words` its slot words. -/
def execTdmInputFrame (n : Fin 24) (phase : Word) (words : List Word) (s : State) : Host.Outcome State Fault Refusal :=
  .next (s.tdmIn n.val phase words)

/-- TDM_OUTPUT_FRAME (R291, R293 to R295, R313). -/
def execTdmOutputFrame (n : Fin 24) (s : State) : Host.Outcome State Fault Refusal := .next (s.tdmOut n.val)

/-- TDM_NOCLK (R294). -/
def execTdmNoclk (n : Fin 24) (s : State) : Host.Outcome State Fault Refusal := .next (s.tdmNoClk n.val)

/-- TDM_NOCLK_EXIT (R294): `phase` is the offset of the sync seen. -/
def execTdmNoclkExit (n : Fin 24) (phase : Word) (s : State) : Host.Outcome State Fault Refusal := .next (s.tdmClkBack n.val phase)

/-- PORT_RESTART (R313): a port that stopped for a new format restarts. -/
def execPortRestart (n : Fin 24) (s : State) : Host.Outcome State Fault Refusal := .next (s.tdmRestart n.val)

/-- PDM_SAMPLE (R298, R299): `bits` are the 64 bits of the channel's tick. -/
def execPdmSample (c : Fin 32) (bits : BitVec 64) (s : State) : Host.Outcome State Fault Refusal := .next (s.pdmSample c.val bits)

/-- PDM_FILL_DONE (R300). -/
def execPdmFillDone (c : Fin 32) (s : State) : Host.Outcome State Fault Refusal := .next (s.pdmFilled c.val)

/-- PDM_STUCK (R300). -/
def execPdmStuck (c : Fin 32) (s : State) : Host.Outcome State Fault Refusal := .next (s.pdmStuck c.val)

/-- PDM_STUCK_CLEAR (R300). -/
def execPdmStuckClear (c : Fin 32) (s : State) : Host.Outcome State Fault Refusal := .next (s.pdmFree c.val)

/-- AVTP_PDU_RECEIVE (R309, R311). -/
def execAvtpPduReceive (d : Pdu) (s : State) : Host.Outcome State Fault Refusal := .next (s.avtpIn d)

/-- AVTP_LISTENER_TICK (R311), listener stream `k`. -/
def execAvtpListenerTick (k : Fin 32) (s : State) : Host.Outcome State Fault Refusal := .next (s.avtpTick k.val)

/-- AVTP_PDU_SEND (R309, R310), talker stream `k`. -/
def execAvtpPduSend (k : Fin 32) (s : State) : Host.Outcome State Fault Refusal := .next (s.avtpOut k.val)

/-- CRF_EVENT_RECEIVE (R312): port, phase and frequency of the event against the ticks. -/
def execCrfEventReceive (m : Fin 4) (phase ppb : Word) (s : State) : Host.Outcome State Fault Refusal := .next (s.crfIn m.val phase ppb)

end Sys2Proof.Machine
end

