-- ==== Sys2Proof/Machine/HostCore.lean ====
section
/-! DEFINITION. The host interface: rings, records and host streams (R323 to R345). -/

namespace Sys2Proof.Machine

/-! ## Rings -/

/-- CI of a ring advances by k, and is due to be written back (R330). -/
def State.ringAdd (s : State) (r k : Nat) : State :=
  (s.modReg (Csr.ringCi r) fun x => x + BitVec.ofNat 32 k).modHost fun h => { h with wb := if h.wb.contains r then h.wb else h.wb ++ [r] }

/-- The base of a ring in host memory. -/
def State.ringBase (s : State) (r : Nat) : Nat := (s.reg (Csr.ringLo r)).toNat + (s.reg (Csr.ringHi r)).toNat * 2 ^ 32

/-- HOST.WIN_BASE. -/
def State.winBase (s : State) : Nat := (s.reg Csr.winLo).toNat + (s.reg Csr.winHi).toNat * 2 ^ 32

/-- A range of host memory lies in the window (R323). -/
def State.inWin (s : State) (a n : Nat) : Bool := decide (s.winBase ≤ a) && decide (a + n ≤ s.winBase + 2 ^ 35)

/-- The event ring of a ring's completions. -/
def State.ringEr (s : State) (r : Nat) : Nat := fld (s.reg (Csr.ringCtl r)) 11 9

/-- A ring enters ERROR with its cause: RING_ERR, ERR_STAT and the RING_ERROR notice (R343). -/
def State.ringFail (s : State) (r cause : Nat) : State :=
  let s1 := (s.setRegFld (Csr.ringCtl r) 2 0 2).setRegFld (Csr.ringCtl r) 31 24 cause
  let s2 := s1.orReg (if r < 32 then Csr.ringErr0 else Csr.ringErr1) (BitVec.ofNat 32 (2 ^ (r % 32)))
  let s3 := s2.orReg Csr.hostErr (if cause = 0x27 then 8 else 16)
  s3.notice 0x23 r (s.reg (Csr.ringCi r)).toNat

/-! ## Command completions (R332, R335) -/

/-- The completion of a command; one that was accepted before a link loss, or that the partner forwarded, has none (R345, R390). -/
def State.cmdDone (s : State) (c : HostCmd) (status blk info : Nat) : State :=
  if 16 ≤ c.ring then s
  else s.pushRec (s.ringEr c.ring)
    { typ := 1, status := status, ring := c.ring, tag := c.tag, block := BitVec.ofNat 64 blk, aseq := c.aseq,
      info := BitVec.ofNat 32 info, index := c.index }

/-- A command leaves its ring, at acceptance or refusal: CI advances and it takes the next ASEQ. -/
def State.cmdTake (s : State) (c : HostCmd) : State × HostCmd :=
  let s1 := ((s.ringAdd c.ring 1).modReg Csr.aseq fun x => x + 1).modHost fun h => { h with cur := h.cur.filter fun d => decide (d.ring ≠ c.ring) }
  (s1, { c with aseq := s1.reg Csr.aseq })

/-- A command is refused and completes at its refusal. -/
def State.cmdRefuse (s : State) (c : HostCmd) (status : Nat) : State :=
  let r := s.cmdTake c
  r.1.cmdDone r.2 status s.blk 0

/-! ## Host streams (R339 to R342) -/

/-- Change the stream of an endpoint. -/
def State.modStream (s : State) (ep : Nat) (f : HStream → HStream) : State :=
  s.modHost fun h => { h with streams := h.streams.map fun x => if x.ep.ix = ep then f x else x }

/-- The stream of an endpoint. -/
def State.streamOf (s : State) (ep : Nat) : Option HStream := s.host.streams.find? fun x => decide (x.ep.ix = ep)

/-- The stream bound to a ring. -/
def State.streamOn (s : State) (r : Nat) : Option HStream := s.host.streams.find? fun x => decide (x.ring = r)

/-- A descriptor completes, and CI of its ring advances. -/
def State.descDone (s : State) (x : HStream) (d : StreamDesc) (status info : Nat) : State :=
  let s1 := (s.ringAdd x.ring 1).modStream x.ep.ix fun y => { y with descs := y.descs.filter fun e => decide (e.index ≠ d.index) }
  if x.quiet then s1
  else s1.pushRec (s.ringEr x.ring)
    { typ := 2, status := status, ring := x.ring, tag := d.tag, block := BitVec.ofNat 64 (d.first.getD 0), aseq := 0,
      info := BitVec.ofNat 32 info, index := d.index }

/-- The completion of an H2D descriptor whose last block has been written or missed. -/
def State.h2dDone (s : State) (x : HStream) (d : StreamDesc) : State :=
  s.descDone x d (if d.done = 0 then 1 else 0) (d.done + d.missed * 65536)

/-- The stream serves block n. -/
def HStream.serves (x : HStream) (n : Nat) : Bool :=
  decide (x.start ≤ n) && (match x.stop with | some e => decide (n < e) | none => true)

/-- The fabric address of an endpoint's area. -/
def epBase (e : HostEp) : Nat := bankBase e.tile + e.area

/-- One H2D area at the switch window of block n. -/
def State.h2dArea (s : State) (n : Nat) (e : HostEp) : State :=
  let put := fun (s : State) (miss : Bool) (bs : List Byte) =>
    s.memWrite (epBase e) (leBytes 8 n ++ [BitVec.ofNat 8 (b2n miss)] ++ zeros 55 ++ padTo e.bpb bs) 1
  match s.streamOf e.ix with
  | some x =>
    if !x.serves n then put s true []
    else
      let got := x.staged.find? fun b => decide (b.1 = n)
      let s0 := s.forwardOut 2 ([BitVec.ofNat 8 e.ix] ++ leBytes 8 n ++ match got with | some b => 0 :: b.2 | none => [1])
      let s1 := match got with
        | some b => put s0 false b.2
        | none => (put s0 true []).bump Csr.underrun
      let s2 := if got.isNone ∧ !x.inRun then s1.notice 0x20 e.ix 0 else s1
      let cnt := fun (d : StreamDesc) =>
        if d.first.getD 0 ≤ n ∧ n < d.first.getD 0 + d.blocks then
          (if got.isSome then { d with done := d.done + 1 } else { d with missed := d.missed + 1 }) else d
      let s3 := s2.modStream e.ix fun x => { x with inRun := got.isNone, descs := x.descs.map cnt, staged := x.staged.filter fun b => decide (n < b.1) }
      ((x.descs.map cnt).filter fun d => decide (d.blocks ≤ d.done + d.missed)).foldl (fun s d => s.h2dDone x d) s3
  | none => put s true []

/-- Every H2D area of a plan is written in the switch window of block n (R340). -/
def State.h2dWrite (s : State) (p : Plan) (n : Nat) : State := (p.eps.filter fun e => !e.d2h).foldl (fun s e => s.h2dArea n e) s

/-- The last block whose window has opened. -/
def State.lastWin (s : State) : Nat := match s.dev.sched.stage with | .none => s.blk | .drain => s.blk | _ => s.blk + 1

/-- The first block whose cutoff at the start of its switch window is ahead. -/
def State.firstWin (s : State) : Nat := match s.dev.sched.stage with | .none => s.blk + 1 | _ => s.blk + 2

/-- A descriptor read from the ring is checked and joins its stream (R339): those of its H2D blocks whose windows have passed are missed. -/
def State.descAdd (s : State) (x : HStream) (bs : List Byte) : State :=
  let f := fun (o n : Nat) => leNat ((bs.drop o).take n)
  let d : StreamDesc :=
    { index := s.reg (Csr.ringCi x.ring) + BitVec.ofNat 32 x.descs.length, tag := f 2 2, addr := f 8 8, blocks := f 0x10 4 / x.ep.bpb
      first := if x.ep.d2h then none else some x.assign, done := 0, missed := 0 }
  let zero := decide (f 0 2 = 0) && decide (f 4 4 = 0) && (bs.drop 0x14).all (· = 0)
  if !zero ∨ f 0x10 4 = 0 ∨ f 0x10 4 % x.ep.bpb ≠ 0 then (s.modStream x.ep.ix fun y => { y with descs := y.descs ++ [{ d with blocks := 0 }] }).descDone x { d with first := none } 0x11 0
  else if d.addr % 64 ≠ 0 ∨ !s.inWin d.addr (f 0x10 4) then (s.modStream x.ep.ix fun y => { y with descs := y.descs ++ [{ d with blocks := 0 }] }).descDone x { d with first := none } 0x12 0
  else if x.ep.d2h then s.modStream x.ep.ix fun y => { y with descs := y.descs ++ [d] }
  else
    let late := min d.blocks (s.lastWin + 1 - x.assign)
    let d2 := { d with missed := late }
    let s1 := s.modStream x.ep.ix fun y => { y with descs := y.descs ++ [d2], assign := y.assign + d.blocks }
    if d.blocks ≤ late then s1.h2dDone x d2 else s1

/-- The bytes of the next block of an H2D stream arrive, or the read fails (R340, R323). -/
def State.h2dFetch (s : State) (ep : Nat) (data : Option (List Byte)) : State :=
  match s.streamOf ep with
  | none => s
  | some x =>
    let k := max x.next (max x.start (s.lastWin + 1))
    if x.ep.d2h ∨ s.blk + 8 < k ∨ !x.serves k ∨ !s.tunnel then s
    else match x.descs.find? fun d => decide (d.first.getD 0 ≤ k) && decide (k < d.first.getD 0 + d.blocks) with
      | none => s
      | some d =>
        let s0 := s.emit (.hostRead (d.addr + (k - d.first.getD 0) * x.ep.bpb) x.ep.bpb)
        match data with
        | some bs => s0.modStream ep fun y => { y with staged := y.staged ++ [(k, padTo x.ep.bpb bs)], next := k + 1 }
        | none => (s0.orReg Csr.hostErr 16).descDone x d 0x13 (d.done + d.missed * 65536)

/-- The current D2H descriptor completes with the blocks it holds. -/
def State.d2hDone (s : State) (x : HStream) (d : StreamDesc) : State :=
  if d.done = 0 then s.descDone x d 0x16 0 else s.descDone x d 0 d.done

/-- At the drain of block k every open D2H endpoint's payload is staged, or dropped when 8 blocks wait (R341). -/
def State.d2hStage (s : State) (k : Nat) : State :=
  (s.host.streams.filter fun x => x.ep.d2h && x.serves k && !(x.quiet && !s.tunnel)).foldl (fun s x =>
    let s := s.eccReadRange (epBase x.ep + 64) x.ep.bpb 1
    if 8 ≤ x.staged.length then
      let s1 := s.bump Csr.overrun
      let s2 := if x.inRun then s1 else s1.notice 0x21 x.ep.ix 0
      s2.modStream x.ep.ix fun y => { y with inRun := true }
    else s.modStream x.ep.ix fun y => { y with inRun := false, staged := y.staged ++ [(k, s.bytes (epBase x.ep + 64) x.ep.bpb)] }) s

/-- A closed stream ends: its descriptors complete and its ring is unbound (R342). -/
def State.closeEnd (s : State) (x : HStream) : State :=
  let s1 := x.descs.foldl (fun s d =>
    if x.ep.d2h then s.d2hDone x d
    else if d.done = 0 then s.descDone x d 0x16 0 else s.descDone x d 0 (d.done + d.missed * 65536)) s
  (s1.modHost fun h => { h with streams := h.streams.filter fun y => decide (y.ep.ix ≠ x.ep.ix) }).setRegFld Csr.hstrmOpen x.ep.ix x.ep.ix 0

/-- A stream whose last block has been served ends, for D2H once its staged blocks are written. -/
def State.closeDue (s : State) (ep : Nat) : State :=
  match s.streamOf ep with
  | some x =>
    let gone := match x.stop with | some n => decide (n ≤ s.blk) | none => false
    if gone && (!x.ep.d2h || x.staged.isEmpty || x.descs.isEmpty || x.quiet) then s.closeEnd x else s
  | none => s

/-- The oldest staged D2H block is written to host memory (R341). -/
def State.d2hWrite (s : State) (ep : Nat) : State :=
  match s.streamOf ep with
  | none => s
  | some x =>
    match x.staged, x.descs with
    | (k, bs) :: rest, d :: ds =>
      if !x.ep.d2h ∨ !s.tunnel then s
      else
        -- a descriptor holds consecutive blocks only
        let gap := match d.first with | some f => decide (f + d.done ≠ k) | none => false
        if gap then s.d2hDone x d
        else
          let d2 := { d with first := some (d.first.getD k), done := d.done + 1 }
          let s1 := (s.emit (.hostWrite (d.addr + d.done * x.ep.bpb) bs)).modStream ep fun y => { y with staged := rest, descs := d2 :: ds }
          let dropped := match rest with | (n, _) :: _ => decide (n ≠ k + 1) | [] => x.inRun
          (if d2.blocks ≤ d2.done ∨ dropped then s1.d2hDone { x with staged := rest } d2 else s1).closeDue ep
    | _, _ => s

end Sys2Proof.Machine
end

