-- ==== Sys2Proof/Machine/NetCore.lean ====
section
/-! DEFINITION. Vehicle networks: slots, CAN reception, time synchronisation and the Ethernet ports (R42, R349 to R359, R442). -/

namespace Sys2Proof.Machine

/-! ## Vehicle-signal slots (R358, R359, R442) -/

/-- In the cycle of a block tick every changed pending copy becomes the visible slot; a slot that gains TIMEOUT raises event 195. -/
def State.publishSlots (s0 : State) : State :=
  let s := s0.net.slots.foldl (fun s e =>
    if !e.2.changed then s
    else
      let was := bitsOf (s.load (slotAddr e.1 + 14) 1) 1 1 = 1
      let s1 := (s.memWrite (slotAddr e.1) (e.2.bytes s.blk) 2).putSlot e.1 { e.2 with changed := false }
      if e.2.timeout ∧ !was then s1.devEvent 195 else s1) s0
  (s.net.late.foldr (fun e s => s.putSlot e.1 e.2) s).modNet fun n => { n with late := [] }

/-- The supply slot of a block: mean voltage of the block's samples, last code, supply state (R442).  With no sample in the block the mean
voltage keeps its last value (log 42). -/
def State.publishSupply (s : State) : State :=
  match s.net.cal with
  | none => s
  | some c =>
    let p := s.dev.power
    -- sum × 45 / 4,096 ÷ num, as a quotient to 64 bits with a sticky bit, rounded once
    let n := p.sum * 45 * 2 ^ 64
    let v := if p.num = 0 then (s.slot c.supSlot).val else BitVec.ofNat 32 (f32.round ceMode false (n / p.num) (-76) (decide (n % p.num ≠ 0))).bits
    let raw := fld (s.reg Csr.battMv) 27 16 + 65536 * fld (s.reg Csr.supplyStat) 2 0
    let x : SlotCopy :=
      { val := v, raw := BitVec.ofNat 32 raw, count := BitVec.ofNat 16 (p.pubs + 1), valid := true, timeout := false, range := false, changed := true }
    (s.setSlot c.supSlot x).modPower fun p => { p with sum := 0, num := 0, pubs := p.pubs + 1 }

/-- a < b as binary32. -/
def f32lt (a b : Word) : Bool := match fcompare (f32.read false a.toNat) (f32.read false b.toNat) with | .lt => true | _ => false

/-- The published copies of the wheel-speed slots. -/
def State.wheels (s : State) : List (Word × Nat) :=
  match s.net.cal with
  | none => []
  | some c => (c.sigMap.filter fun e => e.wheel).map fun e =>
      (BitVec.ofNat 32 (s.load (slotAddr e.slot) 4), s.load (slotAddr e.slot + 14) 1)

/-- Stationary or moving, evaluated at every block tick (R359): below 3.0 km/h, from 5.0 km/h. -/
def State.evalMotion (s : State) : State :=
  let ws := s.wheels
  let live := ws.all fun w => decide (bitsOf w.2 1 0 = 1)
  if !live ∨ ws.any fun w => !f32lt w.1 0x40A00000 then s.modNet fun n => { n with moving := true }
  else if ws.all fun w => f32lt w.1 0x40400000 then s.modNet fun n => { n with moving := false }
  else s

/-! ## CAN (R356, R357) -/

/-- One byte of CRC-8 with polynomial 0x1D. -/
def crc8Byte (c b : Byte) : Byte :=
  (upFrom 0 8).foldl (fun (c : Byte) _ => if c.getLsbD 7 then (c <<< 1) ^^^ 0x1D else c <<< 1) (c ^^^ b)

/-- CRC-8 of R357: initial value and final XOR 0xFF. -/
def crc8 (bs : List Byte) : Byte := bs.foldl crc8Byte 0xFF ^^^ 0xFF

/-- Bit i of a frame's data, little-endian numbering. -/
def frameBit (bs : List Byte) (i : Nat) : Nat := b2n ((bs.getD (i / 8) 0).getLsbD (i % 8))

/-- The bit numbers of a signal from its least significant bit up: little-endian from its start bit; big-endian with the start bit as the
most significant, stepping down through the bytes (PRESUMED, log 43). -/
def sigBits (e : SigEntry) : List Nat :=
  if e.bigEnd then
    let m := e.startBit / 8 * 8 + (7 - e.startBit % 8)
    ((upFrom 0 e.bits).map fun i => let j := m + i; j / 8 * 8 + (7 - j % 8)).reverse
  else upFrom e.startBit e.bits

/-- The raw value of a signal. -/
def sigRaw (e : SigEntry) (bs : List Byte) : Nat := (sigBits e).foldr (fun i acc => frameBit bs i + 2 * acc) 0

/-- The converted value: raw × factor + offset in binary64, rounded to binary32 (R357). -/
def sigValue (e : SigEntry) (raw : Nat) : Word :=
  let z : Int := if e.signed then toInt e.bits raw else raw
  let x := (f64.ofExact ceMode z 0 false).bits
  let m := (f64.mul ceMode x (fcvt f32 f64 ceMode e.scale.toNat).bits).bits
  let y := (f64.add ceMode m (fcvt f32 f64 ceMode e.offset.toNat).bits).bits
  BitVec.ofNat 32 (fcvt f64 f32 ceMode y).bits

/-- a ≤ b as binary32. -/
def f32le (a b : Word) : Bool := match fcompare (f32.read false a.toNat) (f32.read false b.toNat) with | .lt => true | .eq => true | _ => false

/-- The ERR_STAT of a controller gains a bit: device event 193 + c. -/
def State.canErr (s : State) (c : Nat) (m : Word) : State := s.orRegEvent (Csr.can c 0x18) m (193 + c)

/-- This device is the PARTNER of a pair that publishes what the PRIMARY forwards (R390). -/
def State.forwarded (s : State) : Bool :=
  s.dev.lkRole && (decide (fld (s.reg Csr.pairStat) 2 0 = 3) || decide (fld (s.reg Csr.pairStat) 2 0 = 2))

/-- A received frame meets entry `ix` of the signal map (R357). -/
def State.sigRx (s : State) (c : Fin 2) (bs : List Byte) (ix : Nat) (e : SigEntry) : State :=
  let rx := sget { ref := none, last := 0 } s.net.sig ix
  let others := fun (k : Nat) => bs.take k ++ bs.drop (k + 1)
  let crcOk := match e.crc with | some k => decide (bs[k]? = some (crc8 (others k))) | none => true
  let cnt := e.alive.map fun b => frameBit bs b + 2 * frameBit bs (b + 1) + 4 * frameBit bs (b + 2) + 8 * frameBit bs (b + 3)
  let cntOk := match cnt, rx.ref with | some n, some r => decide (n = (r + 1) % 16) | _, _ => true
  let raw := sigRaw e bs
  let v := sigValue e raw
  let inR := f32le e.lo v && f32le v e.hi
  let x := s.slot e.slot
  if crcOk && cntOk && inR then
    let s1 := s.modNet fun n => { n with sig := sset { ref := none, last := 0 } n.sig ix { ref := cnt, last := s.sample.toNat } }
    if s.forwarded then { s1 with lk := { s1.lk with heard := (e.slot, v) :: s1.lk.heard.filter fun y => decide (y.1 ≠ e.slot) } }
    else s1.setSlot e.slot { val := v, raw := BitVec.ofNat 32 raw, count := x.count + 1, valid := true, timeout := false, range := false, changed := true }
  else
    let s1 := ((s.bump (Csr.can c.val 0x2C)).bump (ethReg 0 0xFC)).canErr c.val 4
    if inR ∨ s.forwarded then s1 else s1.setSlot e.slot { x with range := true, changed := true }

/-- An identifier passes an acceptance filter: bits [28:0] under the mask, bit [29] extended. -/
def State.canPass (s : State) (c : Fin 2) (id : BitVec 30) : Bool :=
  (upFrom 0 14).any fun i =>
    let f := s.reg (Csr.can c.val (0x30 + 8 * i))
    let m := s.reg (Csr.can c.val (0x34 + 8 * i))
    decide (fld f 29 29 = b2n (id.getLsbD 29)) && decide ((f ^^^ id.setWidth 32) &&& m &&& 0x1FFFFFFF = 0)

/-- A frame is received by controller c (R356, R357): a CAN frame also counts as activity (R433). -/
def State.canRx (s : State) (c : Fin 2) (id : BitVec 30) (bs : List Byte) : State :=
  if fld (s.reg (Csr.can c.val 0)) 0 0 = 0 ∨ 2 ≤ fld (s.reg (Csr.can c.val 0x10)) 1 0 then s
  else
    let s1 := (s.bump (Csr.can c.val 0x20)).modPower fun p => { p with lastAct := s.sample.toNat }
    if !s.canPass c id then s1.bump (Csr.can c.val 0x28)
    else match s.net.cal with
      | none => s1
      | some k => (k.sigMap.zipIdx).foldl (fun s e => if e.1.bus = c ∧ e.1.id = id.setWidth 32 then s.sigRx c bs e.2 e.1 else s) s1

/-- The timeout of entry `ix` expires: the slot shows TIMEOUT with the substitute, the counter has no reference, the DTC is set (R357,
R358). -/
def State.sigTimeout (s : State) (ix : Nat) : State :=
  match s.net.cal with
  | none => s
  | some k =>
    match k.sigMap[ix]? with
    | none => s
    | some e =>
      let rx := sget { ref := none, last := 0 } s.net.sig ix
      let x := s.slot e.slot
      if e.timeout = 0 ∨ s.sample.toNat < rx.last + 48 * e.timeout ∨ x.timeout then s
      else
        let s1 := ((s.setSlot e.slot { x with val := e.sub, timeout := true, changed := true }).canErr e.bus.val 8).modNet fun n =>
          { n with sig := sset { ref := none, last := 0 } n.sig ix { rx with ref := none } }
        s1.setDtc 0x9A3000 e.slot

/-- A controller enters bus-off and starts its recovery (R356). -/
def State.busOff (s : State) (c : Nat) : State :=
  if 2 ≤ fld (s.reg (Csr.can c 0x10)) 1 0 then s
  else (((s.setReg (Csr.can c 0x10) 6).canErr c 1).bump (Csr.can c 0x1C)).setDtc 0x9A3100 c

/-- The standard's recovery sequence has ended. -/
def State.busBack (s : State) (c : Nat) : State :=
  if fld (s.reg (Csr.can c 0x10)) 2 2 = 1 then (s.setReg (Csr.can c 0x10) 0).setReg (Csr.can c 0x14) 0 else s

/-- The error counters move a controller between error active and error passive. -/
def State.canCounts (s : State) (c tec rec_ : Nat) : State :=
  if 2 ≤ fld (s.reg (Csr.can c 0x10)) 1 0 then s
  else
    let pas := decide (128 ≤ tec) || decide (128 ≤ rec_)
    let s1 := (s.setReg (Csr.can c 0x14) (BitVec.ofNat 32 (min 255 tec + 256 * min 255 rec_))).setRegFld (Csr.can c 0x10) 1 0 (b2n pas)
    if pas ∧ fld (s.reg (Csr.can c 0x10)) 1 0 = 0 then s1.canErr c 2 else s1

/-! ## Ethernet (R350, R355) -/

/-- ERR_STAT of a port gains bits: device event 189 + m. -/
def State.ethErr (s : State) (m : Nat) (b : Word) : State := s.orRegEvent (ethReg m 0x3C) b (189 + m)

/-- A received frame is counted and goes to its consumer or is discarded (R349, R350, Table 13-1). -/
def State.ethRx (s : State) (m : Nat) (f : EthFrame) : State :=
  if fld (s.reg (ethReg m 0)) 0 0 = 0 then s
  else if !f.fcsOk then (s.bump (ethReg m 0x44)).ethErr m 1
  else if 1522 < f.len then (s.bump (ethReg m 0x48)).ethErr m 2
  else
    let s1 := s.bump (ethReg m 0x40)
    let s2 := if f.tagged then s1.bump (ethReg m 0x54) else s1
    let known := fun (sid : DWord) => match s.plan with
      | some p => p.streams.any fun x => decide (32 ≤ x.ix) && decide (x.sid = sid)
      | none => false
    let cls := match f.kind with
      | .avtp sid _ => if known sid then some 0 else none
      | .ptp => some 1
      | .arp => some 2
      | .icmp t => if t then some 2 else none
      | .doip t _ => if t then some 2 else none
      | .other => none
    match cls with
    | none => s2.bump (ethReg m 0x4C)
    | some c =>
      if f.full then (s2.bump (ethReg m 0x50)).ethErr m 4
      else if c = 0 then s2.bump (ethReg m 0x58) else if c = 2 then s2.bump (ethReg m 0x5C) else s2

/-- The gates open at a gPTP time and the ns until they next change: the list's entries in turn from the cycle's start. -/
def gateAt : List (Byte × Nat) → Nat → Byte × Nat
  | [], t => (0xFF, t)
  | (g, n) :: r, t => if t < n then (g, n - t) else gateAt r (t - n)

/-- The time for which the gate of queue q stays open from now on: none where it is closed; a port without a gate list holds its gates
open. -/
def gateOpen (x : Option EthSet) (now : DWord) (q : Nat) : Option Nat :=
  match x with
  | none => some (2 ^ 64)
  | some e =>
    if e.gates = [] ∨ e.cycle = 0 then some (2 ^ 64)
    else
      let t := (now - e.base).toNat % e.cycle
      let g := gateAt e.gates t
      if g.1.getLsbD q then some (min g.2 (e.cycle - t)) else none

/-- Nanoseconds a frame takes on the wire at the port's speed, with preamble and gap. -/
def wireNs (speed len : Nat) : Nat := (len + 20) * 8 * 10 / (match speed with | 0 => 10 | 1 => 25 | 2 => 50 | _ => 100)

/-- A port sends its next frame: the highest queue that holds a frame, has credit where it is shaped, and whose gate stays open long enough.
Frames that a gate holds are counted (R355). -/
def State.ethTx (s : State) (m : Nat) (now : DWord) (credit : BitVec 2) : State :=
  if fld (s.reg (ethReg m 0)) 0 0 = 0 then s
  else
    let gate := (s.net.gates.getD m { now := none, next := none }).now
    let head := fun (q : Nat) => s.net.tx.find? fun f => decide (f.port = m) && decide (f.q = q)
    let free := fun (q : Nat) => match head q with
      | none => false
      | some f => match gateOpen gate now q with
        | some t => decide (wireNs (fld (s.reg (ethReg m 0)) 2 1) f.len ≤ t)
        | none => false
    let shaped := fun (q : Nat) => (decide (q ≠ 3) || credit.getLsbD 0) && (decide (q ≠ 2) || credit.getLsbD 1)
    let held := (upFrom 0 8).filter fun q => (head q).isSome && !free q
    let s1 := held.foldl (fun s q => (s.bump (ethReg m (0xA0 + 4 * q))).bump (ethReg m 0x64)) s
    match (upFrom 0 8).reverse.find? fun q => free q && shaped q with
    | none => s1
    | some q =>
      match head q with
      | none => s1
      | some f =>
        let s2 := ((s1.bump (ethReg m 0x60)).bump (ethReg m (0x80 + 4 * q))).bump (ethReg m (match f.cls with | 0 => 0x68 | 1 => 0x6C | _ => 0x70))
        (s2.modNet fun n => { n with tx := n.tx.erase f }).emit (.frame m q f.vid f.what)

/-- A gate list whose change time has come takes effect at the first start of a cycle (R355). -/
def State.gateChange (s : State) (m : Nat) (now : DWord) : State :=
  let g := s.net.gates.getD m { now := none, next := none }
  match g.next with
  | none => s
  | some e =>
    if now.toNat < e.change.toNat ∨ (e.cycle ≠ 0 ∧ (now - e.base).toNat % e.cycle ≠ 0) then s
    else
      let s1 := s.modNet fun n => { n with gates := vmod n.gates m fun _ => { now := some e, next := none } }
      (s1.setReg (ethReg m 0x2C) (BitVec.ofNat 32 (min 64 e.gates.length))).setReg (ethReg m 0x30) (BitVec.ofNat 32 e.cycle)

/-- The shaping of a plan: slopes at once, gate lists at their change times. -/
def State.putShaping (s : State) (p : Plan) : State :=
  p.eth.foldl (fun s e =>
    if 4 ≤ e.port then s
    else ((s.setReg (ethReg e.port 0x34) e.cbsA).setReg (ethReg e.port 0x38) e.cbsB).modNet fun n =>
      { n with gates := vmod n.gates e.port fun g => { g with next := some e } }) s

/-- The PHY link of a port changes (R349). -/
def State.ethLink (s : State) (m : Nat) (up : Bool) (speed : BitVec 2) : State :=
  s.setReg (ethReg m 4) (BitVec.ofNat 32 (b2n up + (if up then 2 * speed.toNat else 0)))

/-! ## Time synchronisation (R352 to R354) -/

/-- A port's gPTP role. -/
def State.ptpRole (s : State) (m : Nat) : Nat := if fld (s.reg (ethReg m 0)) 0 0 = 0 then 0 else fld (s.reg (ethReg m 0)) 4 3

/-- Change a port's synchronisation. -/
def State.modPtp (s : State) (m : Nat) (f : PtpState → PtpState) : State := s.modNet fun n => { n with ptp := vmod n.ptp m f }

/-- A follower stops being synchronised. -/
def State.ptpLose (s : State) (m : Nat) : State :=
  if fld (s.reg (ethReg m 0x18)) 0 0 = 0 then s
  else ((s.setRegFld (ethReg m 0x18) 0 0 0).ethErr m 8).modPtp m fun p => { p with lost := s.sample.toNat }

/-- Saturate to a signed 32-bit register. -/
def sat32 (z : Int) : Word := BitVec.ofNat 32 (ofInt 32 (max (-2147483648) (min 2147483647 z)))

/-- A Sync with its Follow_Up is received: offset measured in ns (R352, R353). -/
def State.ptpSync (s : State) (m : Nat) (ofs : Int) : State :=
  if s.ptpRole m ≠ 2 then s
  else
    let p := s.net.ptp.getD m { lost := 0, seen := false, good := 0 }
    let s1 := ((((s.bump (ethReg m 0xE4)).bump (ethReg m 0xE8)).setReg (ethReg m 0x1C) (sat32 ofs)).setRegFld (ethReg m 0x18) 15 8 0).modPtp m
      fun p => { p with seen := true }
    let s2 := if fld (s.reg Csr.aonCfg) 1 0 = 1 then s1.setReg Csr.aonPhase (sat32 ofs) else s1
    if 1000 ≤ ofs.natAbs then s2.ptpLose m
    else if 2 ≤ p.good then s2.setRegFld (ethReg m 0x18) 0 0 1
    else s2

/-- A Sync interval ends (R353): at the third one in a row without a Sync the follower stops being synchronised. -/
def State.ptpInterval (s : State) (m : Nat) : State :=
  if s.ptpRole m ≠ 2 then s
  else if (s.net.ptp.getD m { lost := 0, seen := false, good := 0 }).seen then s.modPtp m fun p => { p with seen := false, good := p.good + 1 }
  else
    let n := min 255 (fld (s.reg (ethReg m 0x18)) 15 8 + 1)
    let s1 := ((s.bump (ethReg m 0xF4)).setRegFld (ethReg m 0x18) 15 8 n).modPtp m fun p => { p with good := 0 }
    if 3 ≤ n then s1.ptpLose m else s1

/-- A MASTER port sends Sync; every port sends Pdelay_Req.  gPTP frames go untagged in queue 7 (R352, R355). -/
def State.ptpSend (s : State) (m typ : Nat) : State :=
  let s1 := s.bump (ethReg m (if typ = 0 then 0xE0 else 0xEC))
  s1.modNet fun n => { n with tx := n.tx ++ [{ port := m, q := 7, vid := 0, cls := 2, len := 68, what := .ptp m typ }] }

/-- The answer to a Pdelay_Req: the link delay in ns, none where no answer came; 800 ns is the threshold. -/
def State.ptpDelay (s : State) (m : Nat) (ns : Option Nat) : State :=
  match ns with
  | none => s.setRegFld (ethReg m 0x18) 2 2 0
  | some d => ((s.bump (ethReg m 0xF0)).setReg (ethReg m 0x28) (BitVec.ofNat 32 (min 0xFFFFFFFF d))).setRegFld (ethReg m 0x18) 2 2 (b2n (decide (d < 800)))

/-- A block tick latches its gPTP time on every port (R354). -/
def State.ptpLatch (s : State) (t : DWord) : State :=
  (upFrom 0 4).foldl (fun s m => (s.setReg (ethReg m 0x20) (t.setWidth 32)).setReg (ethReg m 0x24) ((t >>> 32).setWidth 32)) s

/-- A follower that has not been synchronised for 1 s sets its DTC (Table 13-4). -/
def State.ptpDtc (s : State) : State :=
  match s.slavePort with
  | none => s
  | some m =>
    if fld (s.reg (ethReg m 0x18)) 0 0 = 0 ∧ (s.net.ptp.getD m { lost := 0, seen := false, good := 0 }).lost + 48000 = s.sample.toNat
    then s.setDtc 0x9A3300 m else s

end Sys2Proof.Machine
end

