-- ==== Sys2Proof/Machine/PairCore.lean ====
section
/-! DEFINITION. The pair's state, the moves of ownership and the drop-out of a device that has found a fault in itself (R386 to R388, R393,
R394), which the hub calls. -/

namespace Sys2Proof.Machine

/-- Change the pair. -/
def State.modLk (s : State) (f : Lichen → Lichen) : State := { s with lk := f s.lk }
/-- PSTATE: 0 SOLO, 1 WAIT, 2 JOIN, 3 PAIRED, 4 ALONE, 5 DROPPED. -/
def State.pst (s : State) : Nat := fld (s.reg Csr.pairStat) 2 0
/-- LSTATE: 0 OFF, 1 TRAIN, 2 ALIGN, 3 UP, 4 RETRAIN, 5 CONFLICT. -/
def State.lst (s : State) : Nat := fld (s.reg Csr.lkStat) 2 0
/-- Change PSTATE, with device event 197. -/
def State.setPst (s : State) (n : Nat) : State :=
  if s.pst = n then s else (s.setRegFld Csr.pairStat 2 0 n).devEvent 197
/-- The mode of the running plan: 0 SOLO, 1 SHADOW, 2 SPLIT. -/
def State.pairMode (s : State) : Nat := fld (s.reg Csr.pairCfg) 2 1
/-- EVT_BLK takes the present block. -/
def State.evtBlk (s : State) : State := (s.setReg Csr.evtLo (BitVec.ofNat 32 s.blk)).setReg Csr.evtHi (BitVec.ofNat 32 (s.blk / 2 ^ 32))

/-- Every logical output of the running plan. -/
def State.allOuts (s : State) : List Nat := match s.plan with | some p => p.outMap.map fun e => e.ix | none => []

/-- The shadowed outputs: all in SHADOW, those of the bitmap in SPLIT. -/
def State.shadowed (s : State) : List OutEntry :=
  match s.plan with
  | some p => p.outMap.filter fun e => decide (s.pairMode = 1) || p.pair.shadow.getLsbD e.ix
  | none => []

/-- Those of a list of outputs that a fast-lane binding names. -/
def State.fastOuts (s : State) (outs : List Nat) : List Nat :=
  match s.plan with | some p => (p.outMap.filter fun e => s.isFastOut e && outs.contains e.ix).map fun e => e.ix | none => []

/-- The first block tick whose switch window is still ahead, as a sample count. -/
def State.moveTick (s : State) : Nat := (if s.dev.sched.stage = .none then s.blk + 1 else s.blk + 2) * s.bsize

/-- The moves of a set of outputs (R394): the block-rate ones at the moving tick; the fast-lane ones at the first OWNERSHIP_MOVE from now on,
which the sender sends at their first frame sync at least 2.0 µs later (log 51). -/
def State.movesOf (s : State) (outs : List Nat) (take : Bool) : List OwnMove :=
  let fast := s.fastOuts outs
  (if fast = [] then [] else [{ at_ := s.sample.toNat, outs := fast, take := take, fast := true }])
    ++ [{ at_ := s.moveTick, outs := outs.filter fun o => !fast.contains o, take := take, fast := false }]

/-- A drop is recorded: whether its device drives shadowed fast-lane outputs, whose frames CRC_FL covers (Table 14-9). -/
def State.dropOf (s : State) (outs : List Nat) : State :=
  s.modLk fun l => { l with
    dropFast := (s.fastOuts outs).any fun o => s.shadowed.any fun e => decide (e.ix = o)
    fastMoved := none }

/-- A PAIRED device drops out (R393): DROP on the sideband and in its next STATE flit; its outputs move to the peer. -/
def State.leavePair (s : State) (latent : Bool) : State :=
  let mine := s.allOuts.filter s.owns
  let s1 := ((s.setPst 5).evtBlk.emit (.lkSync true)).dropOf mine
  s1.modLk fun l => { l with ownDrop := some s.sample.toNat, latent := latent, moves := l.moves ++ s.movesOf mine false }

/-- Report codes whose mechanisms are latent (Tables 14-10 and 15-1). -/
def latentCode (c : Nat) : Bool := [0x0151, 0x0160, 0x0161, 0x0162, 0x0170, 0x0171, 0x0172].contains c

end Sys2Proof.Machine
end

