-- ==== Sys2Proof/Machine/LinkCore.lean ====
section
/-! DEFINITION. Pair and link states of the Lichen interface, and the mode that a plan sets (R386 to R388). -/

namespace Sys2Proof.Machine

/-- Partner-window accesses that await a response end with LINK_DOWN when the link leaves UP (R50); the host's end with Completer Abort (R322). -/
def State.reqsFail (s : State) : State :=
  let s1 := s.lk.reqs.foldl (fun (s : State) r =>
    match r.unit with
    | some u => s.modTile u fun t => t.answer r.seq 7 []
    | none => (s.emit (.completion r.seq 2 false [])).orReg Csr.hostErr 0x40) s
  s1.modLk fun l => { l with reqs := [] }
/-- The base of the registers of lane l: TX0-TX3, then RX0-RX3 (Table 14-14). -/
def laneReg (l o : Nat) : Nat := 0x20800100 + 0x40 * l + o

/-- The lanes in a link state: powered but in OFF and CONFLICT, locked and aligned in ALIGN and UP (R377, R386). -/
def State.putLanes (s : State) (n : Nat) : State :=
  (upFrom 0 8).foldl (fun s l =>
    (s.setRegFld (laneReg l 0) 0 0 (b2n (decide (n ≠ 0) && decide (n ≠ 5)))).setReg (laneReg l 4) (if n = 2 ∨ n = 3 then 3 else 0)) s

/-- The settings that training has found: the taps of the TX lanes, equaliser and eye of the RX lanes, whose values the spec does not give. -/
def State.laneTrained (s : State) : State :=
  (upFrom 0 8).foldl (fun s l =>
    ((if l < 4 then [8, 0xC, 0x10] else [0x14, 0x18, 0x1C, 0x20]).foldl (fun s o => s.setReg (laneReg l o) (Config.laneTrain l o)) s)) s

/-- Change LSTATE. -/
def State.setLst (s : State) (n : Nat) : State :=
  let s1 := (s.setRegFld Csr.lkStat 2 0 n).putLanes n
  if n = 3 then s1 else s1.reqsFail
/-- ERR_STAT gains bits, with device event 198. -/
def State.lkErrs (s : State) (m : Word) : State := s.orRegEvent Csr.lkErr m 198
/-- PAIR_EN. -/
def State.pairEn (s : State) : Bool := decide (fld (s.reg Csr.pairCfg) 0 0 = 1)
/-- ALLOWN. -/
def State.setAllOwn (s : State) (b : Bool) : State := s.setRegFld Csr.pairStat 7 7 (b2n b)

/-! ## Modes and ownership (R387, R388) -/

/-- The outputs of a bitmap. -/
def bitOuts (m : BitVec 128) : List Nat := (upFrom 0 128).filter fun i => m.getLsbD i

/-- The pair state as pairing is configured: SOLO without PAIR_EN; a PRIMARY is ALONE and owns everything, a PARTNER waits. -/
def State.pairStart (s : State) : State :=
  if !s.pairEn then (s.setPst 0).setLst 0
  else
    let s1 := if s.lst = 0 then s.setLst 1 else s
    if s.dev.lkRole then s1.setPst 1 else ((s1.setPst 4).setAllOwn true).setRegFld Csr.pairStat 6 6 1

/-- A plan's mode comes into force: SOLO makes the device SOLO; a PRIMARY that was SOLO because of its plan goes ALONE. -/
def State.putPair (s : State) (p : Plan) : State :=
  let s1 := s.setRegFld Csr.pairCfg 2 1 p.pair.mode.toNat
  if p.pair.mode = 0 ∨ !s.pairEn then s1.setPst 0
  else if s.pst = 0 ∧ !s.dev.lkRole ∧ s.lst ≠ 5 then ((s1.setPst 4).setAllOwn true).setRegFld Csr.pairStat 6 6 1
  else s1

end Sys2Proof.Machine
end

