-- ==== Sys2Proof/Machine/Hub.lean ====
section
/-! DEFINITION. The safety hub: its response to each report, the safe output state, fences and the verdict (chapter 15). -/

namespace Sys2Proof.Machine

/-! ## Fences (R407) -/

/-- The lead or check tile of some safety task. -/
def State.isCopy (s : State) (n : Nat) : Bool := match s.plan with | some p => (Plan.safetyTiles p).contains n | none => false

/-- A tile is fenced: it goes DARK; a safety task of which it runs a copy runs on one copy alone (R415). -/
def State.fenceTile (s : State) (n : Nat) : State :=
  if 16 ≤ n then s
  else
    let s1 := (s.modTile (unitIx n) fun t => { t.goDark with fenced := true }).orReg Csr.fence (BitVec.ofNat 32 (2 ^ n))
    let s2 := s1.setRegFld (Csr.wdStat n) 16 16 1
    if s.isCopy n then s2.setCond 4 false else s2

/-- An engine is fenced: every queued job fails with CE_DISABLED, and the running one at its next phase boundary. -/
def State.fenceCe (s : State) (k : Fin 4) : State :=
  ((s.orReg Csr.fence (BitVec.ofNat 32 (2 ^ (16 + k.val)))).setRegFld (Csr.ceBase k.val) 0 0 0).ceFlush k

/-- Every fence ends (R409). -/
def State.liftFences (s : State) : State :=
  let s1 := { (s.setReg Csr.fence 0) with tiles := s.tiles.map fun (t : Tile) => { t with fenced := false, stopped := t.stopped && !t.fenced } }
  (upFrom 0 16).foldl (fun s n => s.setRegFld (Csr.wdStat n) 16 16 0) s1

/-! ## The outputs that a fault reaches (R404) -/

/-- The logical outputs a tile produces: those the map names it for, and those of its FASTLANE binding. -/
def State.outsOf (s : State) (n : Nat) : List Nat :=
  match s.plan with
  | none => []
  | some p =>
    let bound := match p.fast s.dev.sched.variant n with | some b => b.outs | none => []
    (p.outMap.filter fun e => decide (e.tile = n) || bound.contains e.dst).map fun e => e.ix

/-- The logical outputs that a channel drains to. -/
def State.drainOuts (s : State) (c : Nat) : List Nat :=
  (s.stepsAt 4096 (fld (s.reg (chReg c 0)) 23 8 * 64)).flatMap fun st =>
    if st.op = 3 then upFrom (st.dsts.getD 0 0) st.count else []

/-- Outputs become invalid: for the tick at a fast-lane miss, else for the block (R37, R246, R404). -/
def State.invalidate (s : State) (code : Nat) (os : List Nat) : State :=
  if code = 0x0141 then s.modSafety fun f => { f with invTick := f.invTick ++ os.filter fun o => !f.invTick.contains o }
  else s.modSafety fun f => { f with invalid := f.invalid ++ os.filter fun o => !f.invalid.contains o }

/-- Some output of a list is not safety-class. -/
def State.someNonSafety (s : State) (os : List Nat) : Bool :=
  match s.plan with
  | some p => p.outMap.any fun e => os.contains e.ix && !e.safety
  | none => false

/-! ## The safe output state (R405, R406, R409) -/

/-- Change SAFE_STAT.STATE, with device event 205. -/
def State.setSafe (s : State) (st : Nat) : State :=
  if fld (s.reg Csr.safeStat) 1 0 = st then s else (s.setRegFld Csr.safeStat 1 0 st).devEvent 205

/-- The device is in the safe output state. -/
def State.isSafe (s : State) : Bool := decide (fld (s.reg Csr.safeStat) 1 0 = 1) || decide (fld (s.reg Csr.safeStat) 1 0 = 2)

/-- A restart asked for, or one whose held parts have not started, is abandoned: the held tiles run on with the plan (R408). -/
def State.dropRestart (s : State) : State :=
  let late := s.dev.sched.kf.isSome && decide (fld (s.reg Csr.bootStat) 8 8 = 1)
  let s1 := s.modSched fun x => { x with warm := false, kf := if late then none else x.kf }
  if late then { s1 with tiles := s1.tiles.map fun (t : Tile) => { t with heldOff := false } } else s1

/-- Entry: S0 is the next sample tick; the event and the SAFE_STATE notice with its SEQ.  A fault during a restart abandons it
(R408). -/
def State.enterSafe (s : State) : State :=
  if s.isSafe then s.dropRestart
  else
    let s0 := s.sample.toNat + 1
    let s1 := ((s.dropRestart.setSafe 1).setReg Csr.s0Tick (BitVec.ofNat 32 s0)).modSafety fun f => { f with fall := some s0, rise := none, noticed := false }
    let s2 := s1.logEvent 0x01C0 0xFF 3 0x9A5000 []
    (s2.notice 0x26 s2.lastEventSeq.toNat 0).setDtc 0x9A5000 0xFF

/-- The safe output state is left at a plan change or restart whose first tick is `t`: every fence is lifted and the gain rises. -/
def State.leaveSafe (s : State) (t : Nat) : State :=
  let s1 := s.liftFences.modSafety fun f => { f with ramped := [], swapped := [], alone := [], streak := [], lastDet := none }
  if s.isSafe ∨ fld (s.reg Csr.safeStat) 1 0 = 3 then
    ((s1.setSafe 3).modSafety fun f => { f with fall := none, rise := some t, noticed := false }).logEvent 0x01C1 0xFF 0 0 []
  else s1

/-- What a sample tick does to the ramp: RAMP ends in SAFE at gain 0, RESTART in NORMAL at gain 1; GAIN is the gain of an output
without delay × 255, rounded. -/
def State.safeTick (s : State) : State :=
  let f := s.dev.safety
  let g := min (min (fallGain f.fall s.sample.toNat) (fallGain f.fallAll s.sample.toNat)) (riseGain (f.rise.map (· + s.bsize)) 0 s.sample.toNat)
  let s1 := s.setRegFld Csr.safeStat 15 8 ((2 * 255 * g + 240) / 480)
  let st := fld (s.reg Csr.safeStat) 1 0
  if st = 1 ∧ fallGain f.fall s.sample.toNat = 0 then s1.setSafe 2
  else if st = 3 ∧ riseGain (f.rise.map (· + s.bsize)) 0 s.sample.toNat = 240 then s1.setSafe 0
  else s1

/-! ## Reports (R400, R404, R421, Tables 15-2, 15-6 and 15-9) -/

/-- The FAULT_STAT bit of an event code (Table 15-9). -/
def faultBit (code : Nat) : Option Nat :=
  match code with
  | 0x0102 => some 0
  | 0x0104 => some 1
  | 0x0110 => some 2
  | 0x0113 => some 2
  | 0x0111 => some 3
  | 0x0112 => some 4
  | 0x0120 => some 5
  | 0x0140 => some 6
  | 0x0143 => some 6
  | 0x0141 => some 7
  | 0x0142 => some 8
  | 0x0144 => some 9
  | 0x0151 => some 10
  | 0x0160 => some 11
  | 0x0161 => some 12
  | 0x0162 => some 12
  | 0x0170 => some 13
  | 0x0171 => some 14
  | 0x0172 => some 15
  | 0x0180 => some 16
  | 0x0181 => some 16
  | 0x0190 => some 17
  | 0x01A0 => some 18
  | 0x01B0 => some 19
  | _ => none

/-- The counter of an event code, by index from 0x0E0 (Table 15-7). -/
def faultCounter (code : Nat) : Option Nat :=
  match code with
  | 0x0101 => some 0
  | 0x0102 => some 1
  | 0x0120 => some 2
  | 0x0140 => some 3
  | 0x0141 => some 4
  | 0x01D0 => some 6
  | _ => none

/-- The address of the uncorrectable word of a report lies in a restorable region of its tile's bank (R404). -/
def State.restorable (s : State) (r : Report) : Bool :=
  match s.plan with
  | some p => p.restor.any fun x => decide (x.unit = r.unit.toNat) && decide (x.ofs ≤ (r.detail.getD 1 0).toNat)
      && decide ((r.detail.getD 1 0).toNat < x.ofs + x.len)
  | none => false

/-- The severity of a report's record (Tables 15-2 and 15-6).  A SRAM_UE or FABRIC_CRC that a tile contains has severity 1. -/
def State.severity (s : State) (r : Report) : Nat :=
  match r.code.toNat with
  | 0x0101 => 0
  | 0x0103 => 0
  | 0x01D0 => 0
  | 0x0102 => if s.restorable r then 1 else 2
  | 0x0120 => if r.unit.toNat ≤ 16 then 1 else 2
  | 0x0161 => 1
  | 0x0162 => 1
  | _ => 2

/-- A corrected error is logged at most once per bank per operating hour. -/
def State.ceDue (s : State) (r : Report) : Bool :=
  let h := (s.reg Csr.opMin).toNat / 60
  !(s.dev.safety.ceLogged.any fun x => decide (x.1 = r.unit.toNat) && decide (x.2 = h))

/-- The record of a report: every report has one but for a corrected error logged in this hour. -/
def State.recordReport (s : State) (r : Report) : State :=
  let c := r.code.toNat
  let sev := s.severity r
  let dtc := if 2 ≤ sev ∨ c = 0x0161 ∨ c = 0x0162 then 0x9A5000 else 0
  let det := r.detail.flatMap fun w => leBytes 4 w.toNat
  if c = 0x0101 ∨ c = 0x0103 then
    if s.ceDue r then
      (s.logEvent c r.unit.toNat 0 0 det).modSafety fun f => { f with
        ceLogged := (r.unit.toNat, (s.reg Csr.opMin).toNat / 60) :: f.ceLogged.filter fun x => decide (x.1 ≠ r.unit.toNat) }
    else s
  else
    let s1 := s.logEvent c r.unit.toNat sev dtc det
    if dtc = 0 then s1 else s1.setDtc dtc r.unit.toNat

/-- The service core is reset and its firmware restarts (R416); it routes every produced device event, 64 to 206, to the core (R493). -/
def State.scRestart (s : State) : State :=
  s.modTile 16 fun t => { t.fresh with mode := .run, tier := .a, nextTier := .a, evroute := BitVec.ofNat 192 (2 ^ 143 - 1) }

/-- The outputs that the jobs of an engine, or the channels of the stream engine or the fabric, feed. -/
def State.fedBy (s : State) (u : Nat) : List Nat :=
  if u < 21 then
    (s.ce[(⟨(u - 17) % 4, Nat.mod_lt _ (by decide)⟩ : Fin 4)].queue ++
      (match s.ce[(⟨(u - 17) % 4, Nat.mod_lt _ (by decide)⟩ : Fin 4)].run with | some x => [x.ent] | none => [])).flatMap fun e => s.outsOf e.unit.val
  else (upFrom 0 96).flatMap fun c => if fld (s.reg (chReg c 0)) 0 0 = 1 then s.drainOuts c else []

/-- The outputs that a report makes invalid (Table 15-2). -/
def State.reportOuts (s : State) (r : Report) : List Nat :=
  let u := r.unit.toNat
  let tile := if u < 16 then s.outsOf u else []
  match r.code.toNat with
  | 0x0102 => if s.restorable r then [] else tile
  | 0x0110 => tile ++ (if 17 ≤ u ∧ u < 25 then s.fedBy u else [])
  | 0x0111 => tile ++ (if 17 ≤ u ∧ u < 25 then s.fedBy u else [])
  | 0x0112 => tile ++ (if 17 ≤ u ∧ u < 25 then s.fedBy u else [])
  | 0x0140 => tile
  | 0x0141 => tile
  | 0x0142 => tile
  | 0x0143 => tile
  | 0x0160 => tile ++ (if 17 ≤ u ∧ u < 25 then s.fedBy u else [])
  | 0x0190 => s.drainOuts (r.detail.getD 0 0).toNat
  | 0x01A0 => s.outsOf (r.detail.getD 1 0).toNat
  | _ => []

/-- Every tile clocked from a PLL is fenced (Table 16-3). -/
def State.fenceTier (s : State) (t : Tier) : State :=
  (upFrom 0 16).foldl (fun s n => if (s.tile (unitIx n)).tier = t ∧ (s.tile (unitIx n)).state ≠ .dark then s.fenceTile n else s) s

/-- What a report does to its unit (Table 15-2, R407, Table 16-3). -/
def State.respond (s : State) (r : Report) : State :=
  let u := r.unit.toNat
  let ce : Fin 4 := ⟨(u - 17) % 4, Nat.mod_lt _ (by decide)⟩
  let fence := if u < 16 then s.fenceTile u else s
  let parity :=
    if u < 16 then s.fenceTile u
    else if 17 ≤ u ∧ u < 21 then
      match (s.eng ce).run with
      | some x => (s.ceFailRun ce x 0x43 0).ceFlush ce
      | none => s.ceFlush ce
    else s
  let c := r.code.toNat
  let d := (r.detail.getD 0 0).toNat
  if c = 0x0110 ∨ c = 0x0111 ∨ c = 0x0112 then parity
  else if c = 0x0142 ∨ c = 0x0143 then fence
  else if c = 0x0144 then s.scRestart
  else if c = 0x0160 then
    let s1 := s.orReg Csr.bistErr (BitVec.ofNat 32 (2 ^ u))
    if u < 16 then s1.fenceTile u else if 17 ≤ u ∧ u < 21 then s1.fenceCe ce else s1
  else if c = 0x0180 ∨ c = 0x0181 then (s.orReg Csr.sdoStat (BitVec.ofNat 32 (2 ^ d))).bump Csr.sdoCnt
  else if c = 0x0170 then
    if d = 2 then s.fenceTier .b
    else if d = 3 then s.fenceTier .c
    else if d = 0 then ((s.setRegFld Csr.aonStat 0 0 0).orReg Csr.aonStat 4).modSafety fun f => { f with resetAt := some (3, s.sample.toNat + 241) }
    else if d = 5 then s.modSafety fun f => { f with resetAt := some (3, s.sample.toNat) }
    else s.modSafety fun f => { f with resetAt := some (3, s.sample.toNat + 241) }
  else if c = 0x0171 then s.setCond 0 false
  else if c = 0x0172 then s.setCond 1 false
  else s

/-- A report enters the safe output state whatever its outputs (Table 15-2, R4, R400, R420, R432): the clock, voltage and temperature monitors,
HUB_MISMATCH, UCODE_FAULT, a missed heartbeat, and the conversion check and SDO readback. -/
def alwaysSafe (code : Nat) : Bool :=
  [0x0170, 0x0171, 0x0172, 0x01B0, 0x0113, 0x0144, 0x0180, 0x0181].contains code

/-- A detected fault of this device (R393, R397, R405): PAIRED, it drops out and its outputs go on unchanged until they move (R6, log 34); an owner
whose peer is still joining enters the safe output state; another device does where the fault asks for it. -/
def State.selfFault (s : State) (latent safe : Bool) : State :=
  if s.pst = 3 ∧ s.lk.ownDrop.isNone then s.leavePair latent
  else if s.pst = 5 then s
  else if safe ∨ (s.pst = 4 ∧ fld (s.reg Csr.pairStat) 5 3 = 2) then s.enterSafe
  else s

/-- LAST_CODE and LAST_BLK of a report (Table 15-7). -/
def State.lastReport (s : State) (c : Nat) : State :=
  ((s.setReg Csr.lastCode (BitVec.ofNat 32 c)).setReg Csr.lastBlkLo (BitVec.ofNat 32 s.blk)).setReg Csr.lastBlkHi (BitVec.ofNat 32 (s.blk / 2 ^ 32))

/-- The hub takes a report. -/
def State.hubTake (s : State) (r : Report) : State :=
  let c := r.code.toNat
  let outs := s.reportOuts r
  let sev := s.severity r
  let s1 := match faultCounter c with | some i => s.bump (Csr.safeCnt i) | none => s
  let s2 := match faultBit c with | some b => s1.orRegEvent Csr.faultStat (BitVec.ofNat 32 (2 ^ b)) 204 | none => s1
  let s4 := ((s2.lastReport c).recordReport r).respond r
  let s5 := (s4.invalidate c outs).modSafety fun f => { f with
    selfDet := if 1 ≤ sev ∧ r.unit.toNat < 16 ∧ !f.selfDet.contains r.unit.toNat then r.unit.toNat :: f.selfDet else f.selfDet
    lastDet := if 2 ≤ sev then some s.sample.toNat else f.lastDet }
  if 2 ≤ sev then s5.selfFault (latentCode c) (alwaysSafe c || s.someNonSafety outs) else s5

/-! ## The verdict (R410 to R415, Table 15-3) -/

/-- The tiles that lead and check a task, after exchanges. -/
def State.copies (s : State) (i : Nat) (t : SafetyTask) : Nat × Nat :=
  if s.dev.safety.swapped.contains i then (t.check, t.lead) else (t.lead, t.check)

/-- The output areas of a task's lead and check copies, as fabric addresses and lengths, after exchanges. -/
def State.areas (s : State) (i : Nat) (t : SafetyTask) : (Nat × Nat) × (Nat × Nat) :=
  let l := (bankBase t.lead + t.areaL.1, t.areaL.2)
  let c := (bankBase t.check + t.areaC.1, t.areaC.2)
  if s.dev.safety.swapped.contains i then (c, l) else (l, c)

/-- The stream engine reads both copies' output areas of every task (R411). -/
def State.readAreas (s : State) : State :=
  match s.plan with
  | none => s
  | some p => (p.tasks.zipIdx).foldl (fun s x =>
      let (al, ac) := s.areas x.2 x.1
      (s.eccReadRange al.1 al.2 1).eccReadRange ac.1 ac.2 1) s

/-- The samples of a copy's area become the drained blocks of the task's outputs, B samples each in order. -/
def State.takeArea (s : State) (t : SafetyTask) (a : Nat) (live : Bool) : State :=
  (t.outs.zipIdx).foldl (fun s x =>
    let ws := (upFrom 0 s.bsize).map fun j => if live then BitVec.ofNat 32 (s.load (a + (x.2 * s.bsize + j) * 4) 4) else 0
    s.modAud fun u => { u with draining := (x.1, ws) :: u.draining.filter fun e => decide (e.1 ≠ x.1) }) s

/-- Both copies' restart images are copied over their restart regions (R414). -/
def State.reseed (s : State) (t : SafetyTask) : State :=
  let cp := fun (s : State) (n : Nat) (r : Nat × Nat × Nat) =>
    (s.eccReadRange (bankBase n + r.2.1) r.2.2 1).memWrite (bankBase n + r.1) (s.bytes (bankBase n + r.2.1) r.2.2) 1
  (cp (cp s t.lead t.rstL) t.check t.rstC).bump (Csr.safeCnt 7)

/-- The verdict on task i of the running plan. -/
def State.verdictOn (s : State) (i : Nat) (t : SafetyTask) : State :=
  let (al, ac) := s.areas i t
  let (nl, nc) := s.copies i t
  let alone := (s.tile (unitIx nl)).fenced || (s.tile (unitIx nc)).fenced
  let ca := crc32 (s.bytes al.1 al.2)
  let cb := crc32 (s.bytes ac.1 ac.2)
  let dl := s.dev.safety.selfDet.contains nl
  let dc := s.dev.safety.selfDet.contains nc
  let det := leBytes 4 ca.toNat ++ leBytes 4 cb.toNat ++ leBytes 4 i
  let s1 := (s.setReg (Csr.vdCrcA i) ca).setReg (Csr.vdCrcB i) cb
  let s2 := s1.modReg Csr.verdictStat fun x =>
    x ||| BitVec.ofNat 32 (b2n (decide (ca ≠ cb) && !alone) * 2 ^ i + b2n (dl || dc) * 2 ^ (8 + i))
  let s2 := if ca ≠ cb ∧ !alone then s2.bump (Csr.safeCnt 5) else s2
  let streak := (s.dev.safety.streak.find? fun x => decide (x.1 = i)).elim 0 (·.2)
  let setStreak := fun (s : State) (n : Nat) => s.modSafety fun f => { f with streak := (i, n) :: f.streak.filter fun x => decide (x.1 ≠ i) }
  let detected := fun (s : State) (ev sev : Nat) => (s.logEvent ev nl sev 0x9A5000 det).setDtc 0x9A5000 nl
  let masked := fun (s : State) (n : Nat) => ((s.lastReport 0x0150).logEvent 0x0150 n 1 0 det).fenceTile n
  let hit := fun (s : State) => ((s.orRegEvent Csr.faultStat 0x400 204).lastReport 0x0151).modSafety fun f => { f with lastDet := some s.sample.toNat }
  if alone then s2.takeArea t (if (s.tile (unitIx nl)).fenced then ac.1 else al.1) (!((s.tile (unitIx nl)).fenced && (s.tile (unitIx nc)).fenced))
  else if dl ∧ dc then
    let s3 := (hit (detected (s2.takeArea t al.1 true) 0x0151 2)).modSafety fun f => { f with ramped := f.ramped ++ t.outs }
    ((s3.fenceTile nl).fenceTile nc).selfFault true true
  else if dl then
    ((masked (s2.takeArea t ac.1 true) nl).setReg (Csr.vdTask i) (BitVec.ofNat 32 (nc + nl * 256))).modSafety fun f => { f with
      swapped := if f.swapped.contains i then f.swapped.filter (· ≠ i) else i :: f.swapped, alone := i :: f.alone }
  else if dc then
    (masked (s2.takeArea t al.1 true) nc).modSafety fun f => { f with alone := i :: f.alone }
  else if ca ≠ cb then
    let s3 := hit (detected (s2.takeArea t al.1 true) 0x0151 2)
    let s4 := setStreak (s3.reseed t) (streak + 1)
    (if streak = 8 then detected s4 0x0152 2 else s4).selfFault true true
  else setStreak (s2.takeArea t al.1 true) 0

/-- The verdict of the block (R411): every task's areas are read, compared and drained; then the self-detection list starts anew. -/
def State.verdict (s : State) : State :=
  match s.plan with
  | none => s
  | some p =>
    let s1 := s.modReg Csr.verdictStat fun _ => 0
    ((p.tasks.zipIdx).foldl (fun s x => s.verdictOn x.2 x.1) s1).modSafety fun f => { f with selfDet := [] }

end Sys2Proof.Machine
end

