-- ==== Sys2Proof/Machine/Reset.lean ====
section
/-! DEFINITION. The device reset: every register at its reset value, and what the always-on domain, the fuses and the MRAM keep (R20,
R368, R428, R467, R489). -/

namespace Sys2Proof.Machine

/-- The registers that a reset leaves: OP_MIN, SB_MIN, STBY_TIME, the stored key slots and the fuses (R20, R467, R489). -/
def keptRegs : List Nat :=
  [Csr.opMin, Csr.sbMin, Csr.stbyLo, Csr.stbyHi, Csr.fwSvn, Csr.keyStat] ++ (upFrom 0 4).map Csr.serial

/-- The register file after a reset: reset values, the kept registers, the correction C of each tile, the lifecycle and
PROV_DONE. -/
def State.resetRegs (s : State) : List (Nat × Word) :=
  let r1 := keptRegs.foldl (fun l a => sset 0 l a (s.reg a)) resetCsr
  let r2 := (upFrom 0 16).foldl (fun l n => sset 0 l (Csr.ageOf n) (s.reg (Csr.ageOf n) &&& 0x00FF0000)) r1
  sset 0 r2 Csr.lcStat (s.reg Csr.lcStat &&& 0x17)

/-- A device reset: `cause` and the rail go into RST_CAUSE (Table 16-14); the operating cycle ends (R368).  The SRAM keeps its contents
until the wipe of the next start. -/
def State.deviceReset (s0 : State) (cause rail : Nat) : State :=
  let s := s0.endOpCycle
  let f := s.dev.safety
  let z := State.reset
  { z with
    mem := s.mem, ecc := s.ecc, merr := s.merr, out := s.out, freeCtr := s.freeCtr, pending := s.pending
    csr := sset 0 s.resetRegs Csr.rstCause (BitVec.ofNat 32 (cause + rail * 16))
    dev := { z.dev with
      lkRole := s.dev.lkRole
      hold := decide (cause = 4)
      images := { s.dev.images with written := false }
      safety := { z.dev.safety with nextSeq := f.nextSeq, boot := f.boot, dtcs := f.dtcs, cycles := f.cycles }
      age := { z.dev.age with lastOp := s.dev.age.lastOp, nextSeq := s.dev.age.nextSeq, resume := s.dev.age.resume, fuses := s.dev.age.fuses } } }

end Sys2Proof.Machine
end

