-- ==== Sys2Proof/Machine/Power.lean ====
section
/-! DEFINITION. Supply, clocks, heat and the current governor (chapter 16). -/

namespace Sys2Proof.Machine

/-! ## The budget (R429, R438, R441, R445) -/

/-- The supply state: 0 NORMAL, 1 DIP, 2 DEEP, 3 LOAD_DUMP. -/
def State.supply (s : State) : Nat := fld (s.reg Csr.supplyStat) 2 0

/-- The lowest budget that its sources set. -/
def State.budgetNow (s : State) : Nat :=
  min (min (if s.supply = 1 ∨ s.supply = 2 then 144 else 240) (if fld (s.reg Csr.supplyStat) 3 3 = 1 then 144 else 240))
    (if s.dev.power.thermCap then 160 else 240)

/-- The lowest source, GOV_STAT.REASON; of equal ones the first of DIP, DEEP, PMIC_WARN, thermal (log 40). -/
def State.budgetReason (s : State) : Nat :=
  let b := s.budgetNow
  if b = 240 then 0
  else if b = 144 ∧ s.supply = 1 then 1
  else if b = 144 ∧ s.supply = 2 then 2
  else if b = 144 then 3
  else 4

/-- The budget follows its sources; a new value has not yet held for 10 ms (R438). -/
def State.setBudget (s : State) : State :=
  let b := s.budgetNow
  let s1 := s.setRegFld Csr.govStat 5 3 s.budgetReason
  if fld (s.reg Csr.govBudget) 8 0 = b then s1
  else ((s1.setReg Csr.govBudget (BitVec.ofNat 32 b)).modPower fun p => { p with mayRise := false, budgetAt := s.sample.toNat }).showTiers

/-! ## Leave (R436, R437, R439) -/

/-- The units of a holder's leave (Table 16-6). -/
def State.leaveUnits (s : State) (h : LeaveHolder) : Nat :=
  match h with
  | .tile n =>
    match (s.tile (unitIx n.val)).tier with
    | .a => 12
    | .b => 11
    | .c => 9
  | .ce _ => 16
  | .lichen => 20
  | .mram => 4
  | .wipe => 160
  | .bist => 3

/-- Unbooked classes compete for headroom. -/
def isUnbooked (h : LeaveHolder) : Bool :=
  match h with
  | .lichen => true
  | .mram => true
  | .wipe => true
  | .tile _ => false
  | .ce _ => false
  | .bist => false

/-- Units held by a holder. -/
def State.held (s : State) (h : LeaveHolder) : Nat :=
  (s.dev.power.granted.filter fun r => decide (r.who = h)).foldl (fun m r => m + r.units) 0

/-- Unbooked grants outstanding. -/
def State.unbookedHeld (s : State) : Nat :=
  (s.dev.power.granted.filter fun r => isUnbooked r.who).foldl (fun m r => m + r.units) 0

/-- The budget less the reserve, the booked peak and the unbooked grants. -/
def State.headroom (s : State) : Int :=
  (fld (s.reg Csr.govBudget) 8 0 : Int) - 12 - (fld (s.reg Csr.govBooked) 8 0 : Int) - (s.unbookedHeld : Int)

/-- The leave registers of Table 16-12. -/
def State.showLeave (s : State) : State :=
  let w := fun (h : LeaveHolder) => BitVec.ofNat 32 (s.held h)
  let s1 := (upFrom 0 16).foldl (fun (s : State) n => s.setReg (Csr.leaveT n) (w (.tile ⟨n % 16, Nat.mod_lt _ (by decide)⟩))) s
  let s2 := (upFrom 0 4).foldl (fun (s : State) k => s.setReg (Csr.leaveCe k) (w (.ce ⟨k % 4, Nat.mod_lt _ (by decide)⟩))) s1
  let s3 := ((s2.setReg Csr.leaveLk (w .lichen)).setReg Csr.leaveMram (w .mram)).setReg Csr.leaveBist (w .bist)
  (s3.setReg Csr.govInuse (BitVec.ofNat 32 (s.dev.power.granted.foldl (fun m r => m + r.units) 0))).setReg Csr.govWait
    (BitVec.ofNat 32 (min 63 (s.dev.power.waiting.filter fun r => isUnbooked r.who).length))

/-- The ballast and GOV_STAT.RAMP. -/
def State.setBallast (s : State) (n : Nat) : State :=
  (s.setReg Csr.govBallast (BitVec.ofNat 32 (min 511 n))).setRegFld Csr.govStat 6 6 (b2n (decide (n ≠ 0)))
/-- The ballast now. -/
def State.ballast (s : State) : Nat := fld (s.reg Csr.govBallast) 8 0

/-- A holder may ask: a tile that is awake and booked, an engine in its start phase, at most 4 BIST slices, one grant of the others. -/
def State.mayAsk (s : State) (h : LeaveHolder) : Bool :=
  let asked := (s.dev.power.waiting ++ s.dev.power.granted).filter fun r => decide (r.who = h)
  match h with
  | .tile n => decide (asked = []) && s.tileBooks n.val
      && (decide ((s.tile (unitIx n.val)).state = .run) || decide ((s.tile (unitIx n.val)).state = .nap))
  | .ce k => decide (asked = []) && (match (s.eng k).run with | some r => decide (r.phase = .start) | none => false)
  | .bist => decide (asked.length < 4)
  | _ => decide (asked = [])

/-- A request: booked and reserved leave raises the ballast at once, unbooked leave when it fits (R437). -/
def State.leaveAsk (s : State) (h : LeaveHolder) : State :=
  if !s.mayAsk h then s
  else
    let u := s.leaveUnits h
    let s1 := s.modPower fun p => { p with waiting := p.waiting ++ [{ who := h, units := u, again := false }] }
    (if isUnbooked h then s1 else s1.setBallast (s1.ballast + u)).showLeave

/-- The oldest waiting unbooked request. -/
def State.headUnbooked (s : State) : Option LeaveReq := s.dev.power.waiting.find? fun r => isUnbooked r.who

/-- Take the first request of a holder out of a list. -/
def dropReq (h : LeaveHolder) : List LeaveReq → List LeaveReq
  | [] => []
  | r :: rs => if r.who = h then rs else r :: dropReq h rs

/-- A grant: the ballast drops by its size.  An unbooked request is granted in arrival order and when the headroom covers it. -/
def State.leaveGive (s : State) (h : LeaveHolder) : State :=
  match s.dev.power.waiting.find? fun r => decide (r.who = h) with
  | none => s
  | some r =>
    let ok := if isUnbooked h then
        (match s.headUnbooked with | some q => decide (q.who = h) | none => false) && decide ((r.units : Int) ≤ s.headroom)
      else true
    if !ok then s
    else
      ((s.modPower fun p => { p with waiting := dropReq h p.waiting, granted := p.granted ++ [r] }).setBallast
        (if isUnbooked h then s.ballast else s.ballast - r.units)).showLeave

/-- What a holder still needs its leave for: an awake booked tile, a bound one, a running job (Table 16-6). -/
def State.needsLeave (s : State) (h : LeaveHolder) : Bool :=
  match h with
  | .tile n => decide ((s.tile (unitIx n.val)).state = .run) || (decide (fld (s.tile (unitIx n.val)).flCfg 0 0 = 1) && decide ((s.tile (unitIx n.val)).state ≠ .dark))
  | .ce k => (s.eng k).run.isSome
  | _ => false

/-- A release: the ballast takes over the current, and then falls. -/
def State.leaveEnd (s : State) (h : LeaveHolder) : State :=
  match s.dev.power.granted.find? fun r => decide (r.who = h) with
  | none => s
  | some r =>
    if s.needsLeave h then s
    else ((s.modPower fun p => { p with granted := dropReq h p.granted }).setBallast (s.ballast + r.units)).showLeave

/-- An unbooked grant above the headroom is withdrawn and asked for again at the head of the queue (R439). -/
def State.leaveCut (s : State) (h : LeaveHolder) : State :=
  match s.dev.power.granted.find? fun r => decide (r.who = h) with
  | none => s
  | some r =>
    if !(isUnbooked h) ∨ 0 ≤ s.headroom then s
    else
      (((s.modPower fun p => { p with granted := dropReq h p.granted, waiting := { r with again := true } :: p.waiting }).setBallast
        (s.ballast + r.units)).bump Csr.govCut).showLeave

/-- At a sample tick the ballast has fallen to what booked requests hold ready. -/
def State.ballastTick (s : State) : State :=
  s.setBallast ((s.dev.power.waiting.filter fun r => !(isUnbooked r.who)).foldl (fun m r => m + r.units) 0)

/-! ## VDD_CORE (R424 to R426) -/

/-- One code towards the target, also written into the PMIC with VID_MODE 1 (R424), or the end of the last code's hold. -/
def State.vidStep (s : State) : State :=
  let c := s.vidCode
  let t := s.vidTarget
  if c = t then s.modPower fun p => { p with vidHeld := true, vidFrom := c }
  else
    let n := if c < t then c + 1 else c - 1
    let s1 := ((s.setRegFld Csr.vid 3 0 n).modPower fun p => { p with vidHeld := false }).emit (.vid n)
    match s.net.cal with
    | some x => if fld (s.reg Csr.pmicCfg) 0 0 = 1 then s1.emit (.pmicReg (fld (s.reg Csr.pmicCfg) 7 1) x.vidReg n) else s1
    | none => s1

/-- At a block tick a fall begins when every tier change it needs is in force, unless a back-off is in force (R426, R458). -/
def State.vidFall (s : State) : State :=
  if s.dev.power.stepWant < s.vidTarget ∧ s.tiersSettled ∧ fld (s.reg Csr.agePlanStat) 7 7 = 0 then
    s.setRegFld Csr.vid 7 4 s.dev.power.stepWant
  else s

/-- A rise of a tier has its voltage: the code for the wanted step is driven and held (R426). -/
def State.vidReady (s : State) : Bool := decide (s.wantStep ≤ s.vidCode) && s.dev.power.vidHeld

/-! ## Battery and supply states (R440 to R443) -/

/-- Battery millivolts of a code. -/
def battMvOf (code : Nat) : Nat := code * 45000 / 4096

/-- A battery code lies beyond threshold i: 955, 1,002, 546, 592, 2,549 and 2,457. -/
def battBeyond (i code : Nat) : Bool :=
  match i with
  | 0 => decide (code ≤ 955)
  | 1 => decide (1002 ≤ code)
  | 2 => decide (code ≤ 546)
  | 3 => decide (592 ≤ code)
  | 4 => decide (2549 ≤ code)
  | _ => decide (code ≤ 2457)

/-- The move of Table 16-7: of two possible ones the lower in the table.  100 µs are 10 samples, 10 ms are 1,000. -/
def supplyMove (st : Nat) (run : Nat → Nat) : Option Nat :=
  if st = 3 ∧ 1000 ≤ run 5 then some 0
  else if st = 0 ∧ 10 ≤ run 4 then some 3
  else if st = 2 ∧ 1000 ≤ run 3 then some 1
  else if st ≠ 2 ∧ 10 ≤ run 2 then some 2
  else if st = 1 ∧ 1000 ≤ run 1 then some 0
  else if (st = 0 ∨ st = 3) ∧ 10 ≤ run 0 then some 1
  else none

/-- The supply state changes: event 199, the record and DTC of Table 16-17, the counters and the budget.  DEEP starts the ramp of the
outputs that are not safety-class (R443). -/
def State.setSupply (s : State) (st : Nat) : State :=
  let old := s.supply
  let dtc := if st = 1 ∨ st = 2 then 0x9A4000 else if st = 3 then 0x9A4100 else 0
  let s1 := ((s.setRegFld Csr.supplyStat 2 0 st).devEvent 199).logEvent 0x0401 0xFF 0 dtc [BitVec.ofNat 8 old, BitVec.ofNat 8 st]
  let s2 := if dtc = 0 then s1 else s1.setDtc dtc 0xFF
  let s3 := match st with
    | 1 => (s2.orReg Csr.supplyEvt 1).bump Csr.dipCnt
    | 2 => ((s2.orReg Csr.supplyEvt 2).bump Csr.deepCnt).modSafety fun f => { f with fallDeep := some (s.sample.toNat + 1), rise := none }
    | 3 => (s2.orReg Csr.supplyEvt 4).bump Csr.ldCnt
    | _ => s2
  s3.setBudget

/-- A sample of BATT_SENSE (R440, R442). -/
def State.battSample (s : State) (code : Nat) : State :=
  let mv := battMvOf code
  let lo := (s.reg Csr.battMin).toNat
  let s1 := (((s.setReg Csr.battMv (BitVec.ofNat 32 (mv % 65536 + code * 65536))).setReg Csr.battMin
      (BitVec.ofNat 32 (if lo = 0 then mv else min lo mv))).modReg Csr.battMax fun x => BitVec.ofNat 32 (max x.toNat mv)).modPower fun p =>
    { p with sum := p.sum + code, num := p.num + 1, runs := p.runs.mapIdx fun i n => if battBeyond i code then n + 1 else 0 }
  match supplyMove s1.supply fun i => s1.dev.power.runs.getD i 0 with
  | some st => s1.setSupply st
  | none => s1

/-- From the first block whose switch window starts after the DEEP ramp, the tiles without a safety task are held (R443). -/
def State.deepHold (s : State) : State :=
  match s.dev.safety.fallDeep with
  | some s0 =>
    if s.supply = 2 ∧ s0 + 240 ≤ s.sample.toNat ∧ fld (s.reg Csr.supplyStat) 4 4 = 0 then
      { (s.setRegFld Csr.supplyStat 4 4 1) with tiles := s.tiles.mapIdx fun n (t : Tile) => if n < 16 ∧ !s.isCopy n then { t with heldOff := true } else t }
    else s
  | none => s

/-- After the return from DEEP the held tiles wake again at the next block, from which their outputs ramp in. -/
def State.deepRelease (s : State) : State :=
  if s.supply = 2 ∨ s.dev.safety.fallDeep.isNone ∨ s.winOpen then s
  else
    let s1 := { (s.setRegFld Csr.supplyStat 4 4 0) with
      tiles := s.tiles.map fun (t : Tile) => { t with heldOff := if s.dev.sched.kf.isSome then t.heldOff else false } }
    s1.modSafety fun f => { f with fallDeep := none, rise := if s.plan.isSome then some ((s.blk + 1) * s.bsize) else none }

/-! ## PMIC (R427 to R429) -/

/-- PMIC_WARN is recognised: the budget falls to 144 units, event 200, the record. -/
def State.pmicWarn (s : State) : State :=
  let s1 := (((s.orReg Csr.pmicStat 2).bump Csr.pmicWarnCnt).orReg Csr.supplyEvt 8).setRegFld Csr.supplyStat 3 3 1
  let s2 := (s1.devEvent 200).logEvent 0x0402 0xFF 0 0 []
  (s2.modPower fun p => { p with warnPin := true, warnFall := none }).setBudget

/-- PMIC_WARN falls: its lowering ends 10 ms later. -/
def State.pmicWarnFall (s : State) : State :=
  if s.dev.power.warnPin then
    (s.setRegFld Csr.pmicStat 1 1 0).modPower fun p => { p with warnPin := false, warnFall := some s.sample.toNat }
  else s

/-- 10 ms (480 ticks) after the fall, the lowering ends. -/
def State.pmicWarnEnd (s : State) : State :=
  match s.dev.power.warnFall with
  | some t =>
    if !s.dev.power.warnPin ∧ t + 480 ≤ s.sample.toNat then
      ((s.setRegFld Csr.supplyStat 3 3 0).modPower fun p => { p with warnFall := none }).setBudget
    else s
  | none => s

/-- PWR_GOOD falls (R428, R504): with ARM it completes the entry into parked standby, whose wake sources stay armed, else the device
resets with cause PWR_GOOD. -/
def State.pwrGoodFall (s : State) : State :=
  if fld (s.reg Csr.stbyCfg) 1 1 = 1 then
    let s1 := s.deviceReset 7 0
    (s1.setReg Csr.stbyCfg (s.reg Csr.stbyCfg)).modPower fun p => { p with inStby := true }
  else s.deviceReset 1 0

/-! ## Rails and clocks (R432, R444) -/

/-- The lower and the higher of the old and the new step while a change is in progress, else the step driven (R426). -/
def State.vidSpan (s : State) : Nat × Nat :=
  if s.vidCode = s.vidTarget ∧ s.dev.power.vidHeld then (s.vidCode, s.vidCode)
  else (min s.dev.power.vidFrom s.vidTarget, max s.dev.power.vidFrom s.vidTarget)

/-- The window of a rail in mV (Table 16-9). -/
def State.railWindow (s : State) (i : Nat) : Nat × Nat :=
  match i with
  | 0 => (((650 + 25 * s.vidSpan.1) * 95 + 99) / 100, (650 + 25 * s.vidSpan.2) * 105 / 100)
  | 1 => (760, 840)
  | 2 => (760, 840)
  | 3 => (855, 945)
  | 4 => (1140, 1260)
  | 5 => (1710, 1890)
  | 6 => (1710, 1890)
  | _ => (3135, 3465)

/-- A rail lies beyond its reset limit. -/
def State.railReset (s : State) (i mv : Nat) : Bool :=
  match i with
  | 0 => decide (mv * 100 < (650 + 25 * s.vidSpan.1) * 90)
  | 1 => decide (mv < 720)
  | 2 => decide (mv < 720)
  | 6 => decide (mv < 1620)
  | _ => false

/-- A voltage monitor's measurement of a rail; a rail beyond its reset limit resets the device. -/
def State.railSample (s : State) (i mv : Nat) : State :=
  if s.railReset i mv then s.deviceReset 2 (2 ^ i)
  else
    let w := s.railWindow i
    let out := decide (mv < w.1) || decide (w.2 < mv)
    let was := fld (s.reg Csr.supplyStat) (5 + i) (5 + i) = 1
    let s1 := (s.setReg (Csr.vmon i) (BitVec.ofNat 32 mv)).setRegFld Csr.supplyStat (5 + i) (5 + i) (b2n out)
    if out then
      let s2 := (s1.orReg Csr.vmonStat (BitVec.ofNat 32 (2 ^ i))).orReg Csr.supplyEvt 16
      if was then s2 else s2.report 0x0171 0xFF [BitVec.ofNat 32 i, BitVec.ofNat 32 mv]
    else if fld (s1.reg Csr.supplyStat) 12 5 = 0 then s1.setCond 0 true
    else s1

/-- A clock monitor's measurement in signed ppm: sources XTAL, A, B, C, F, AUDCLK; outside ±1 % it is reported, and the lock of a PLL
is lost (Table 15-1, R432). -/
def State.clockSample (s : State) (i : Nat) (ppm : Int) : State :=
  let s1 := if i < 5 then s.setReg (Csr.clkMon i) (BitVec.ofNat 32 (ofInt 32 ppm)) else s
  if ppm < -10000 ∨ 10000 < ppm then
    let was := fld (s.reg Csr.clkMonStat) i i = 1
    let s2 := s1.orReg Csr.clkMonStat (BitVec.ofNat 32 (2 ^ i))
    let s3 := if 1 ≤ i then s2.setRegFld Csr.pllStat (i - 1) (i - 1) 0 else s2
    if was then s3 else s3.report 0x0170 0xFF [BitVec.ofNat 32 i, BitVec.ofNat 32 (ofInt 32 ppm)]
  else s1

/-- PLL_B or PLL_C has relocked (R432). -/
def State.pllRelock (s : State) (i : Nat) : State := s.setRegFld Csr.pllStat i i 1

/-! ## Heat (R445) -/

/-- The thermal cap is entered or removed. -/
def State.setCap (s : State) (on : Bool) : State :=
  let dtc := if on then 0x9A4200 else 0
  let s1 := (((s.setRegFld Csr.thermStat 0 0 (b2n on)).devEvent 201).logEvent 0x0404 0xFF 0 dtc []).modPower fun p => { p with thermCap := on }
  (if on then (s1.bump Csr.thermCnt).setDtc 0x9A4200 0xFF else s1).setBudget

/-- The 24 sensors are sampled (Table 16-10); the counts of samples for the band, the cap and the excursion follow Tj. -/
def State.tempSample (s : State) (ts : List Word) : State :=
  let s1 := (upFrom 0 24).foldl (fun s i => s.setReg (Csr.tmon i) (ts.getD i 0)) s
  let above := (upFrom 0 24).foldl (fun m i => m + b2n (decide (1500 < toInt 32 (ts.getD i 0).toNat)) * 2 ^ i) 0
  let tj := s1.tj
  let first := s.dev.age.tjMax = -640 ∧ s.reg Csr.tjMax = 0
  let s2 := (s1.orReg Csr.tmonStat (BitVec.ofNat 32 above)).modReg Csr.tjMax fun x =>
    if first ∨ toInt 32 x.toNat < tj then BitVec.ofNat 32 (ofInt 32 tj) else x
  let ret : Int := match s.band with | 1 => -30 | 2 => 420 | 3 => 870 | 4 => 1220 | _ => -100000
  let s3 := s2.modAge fun a => { a with
    tjMax := max a.tjMax tj
    coolRun := if tj < ret then a.coolRun + 1 else 0
    capRun := if tj < 1300 then a.capRun + 1 else 0
    hotRun := if 1400 < tj then a.hotRun + 1 else 0 }
  if 1650 ≤ tj then s3.deviceReset 4 0
  else
    let s4 := if 1350 < tj ∧ !s3.dev.power.thermCap then s3.setCap true else s3
    let was := fld (s.reg Csr.thermStat) 1 1 = 1
    let s5 := s4.setRegFld Csr.thermStat 1 1 (b2n (decide (1500 < tj)))
    let s6 := ((s5.setRegFld Csr.excStat 0 0 (b2n (decide (1400 < tj)))).setRegFld Csr.excStat 31 16 (min 65535 (s5.dev.age.hotRun / 1000)))
    let s7 := if tj < 1350 then s6.setRegFld Csr.excStat 1 1 1 else s6
    if 1500 < tj then
      if was then s7 else s7.report 0x0172 0xFF [BitVec.ofNat 32 (ofInt 32 tj)]
    else s7.setCond 1 true

/-- Tj has stayed below 130.0 °C for 1 s: 1,000 samples. -/
def State.capEnd (s : State) : State :=
  if s.dev.power.thermCap ∧ 1000 ≤ s.dev.age.capRun then s.setCap false else s

/-! ## Always-on steering and standby (R430 to R434) -/

/-- The steering loop at a tick: it follows its source within ±250 ppm, by at most 2 ppm in a second (a step of 0.001 ppm each 24 ticks); how it
moves within that is not given.  It holds without its source, and the crystal needs none (R431). -/
def State.aonSteer (s : State) : State :=
  if fld (s.reg Csr.aonCfg) 1 0 = 0 ∨ fld (s.reg Csr.aonStat) 1 1 = 1 ∨ s.sample.toNat % 24 ≠ 0 then s
  else
    let p := toInt 32 (s.reg Csr.aonPpm).toNat + ((Config.aonMove s.sample.toNat).val : Int) - 1
    s.setReg Csr.aonPpm (BitVec.ofNat 32 (ofInt 32 (max (-250000) (min 250000 p))))

/-- The steering source is lost: the loop holds, and the event is logged. -/
def State.aonLoss (s : State) : State :=
  if fld (s.reg Csr.aonCfg) 1 0 = 0 ∨ fld (s.reg Csr.aonStat) 1 1 = 1 then s
  else (s.setRegFld Csr.aonStat 1 1 1).logEvent 0x0403 0xFF 0 0 [1]

/-- The first valid measurement: the loop steers again. -/
def State.aonReturn (s : State) : State :=
  if fld (s.reg Csr.aonStat) 1 1 = 0 then s
  else (s.setRegFld Csr.aonStat 1 1 0).logEvent 0x0403 0xFF 0 0 [0]

/-- A step of a plan's tier or a budget has held its value for 10 ms: the plan tier may rise. -/
def State.budgetHeld (s : State) : State :=
  if s.dev.power.budgetAt + 480 ≤ s.sample.toNat then s.modPower fun p => { p with mayRise := true } else s

end Sys2Proof.Machine
end

