-- ==== Sys2Proof/Machine/Age.lean ====
section
/-! DEFINITION. Margin monitors, the margin planner and its history (chapter 17).  Slacks are integers of 0.0001 ps. -/

namespace Sys2Proof.Machine

/-! ## Prediction (R453, R454, R462) -/

/-- The largest number below `hi` with a monotone property, at or above `lo`, by halving. -/
def bisect (p : Nat → Bool) : Nat → Nat → Nat → Nat
  | 0, lo, _ => lo
  | n + 1, lo, hi =>
    if hi ≤ lo + 1 then lo
    else if p ((lo + hi) / 2) then bisect p n ((lo + hi) / 2) hi else bisect p n lo ((lo + hi) / 2)

/-- The period of a tier in 0.0001 ps. -/
def tierPeriod : Nat → Int
  | 0 => 6250000
  | 1 => 7142860
  | _ => 8333330

/-- The ends of a band's valid range in 0.1 °C (Table 17-2). -/
def bandRange : Nat → Int × Int
  | 0 => (-450, 50)
  | 1 => (-50, 500)
  | 2 => (400, 950)
  | 3 => (850, 1300)
  | _ => (1200, 1550)

/-- CFG fields (Table 17-9). -/
def State.stepMax (s : State) : Nat := min 10 (fld (s.reg Csr.ageCfg) 3 0)
/-- GUARD_PS. -/
def State.guardPs (s : State) : Int := fld (s.reg Csr.ageCfg) 11 4 * 10000
/-- ALARM_PS. -/
def State.alarmPs (s : State) : Int := fld (s.reg Csr.ageCfg) 19 12
/-- ISD_LIMIT. -/
def State.isdLimit (s : State) : Nat := max 1 (fld (s.reg Csr.ageCfg) 23 20)

/-- The loss that the fit predicts for the next 64 operating hours, in 0.0001 ps rounded up: the least g with
(L + g)^q m^p ≥ L^q (m + 3840)^p, for m minutes and n = p/q. -/
def ageGrowth (x : TileMeasure) (f : CharFuse) (m : Nat) : Nat :=
  let l := x.loss * 100
  if l = 0 then 0
  else if m = 0 then Config.ageGrowth0 x.loss
  else
    let short := fun g => decide ((l + g) ^ f.expD * m ^ f.expN < l ^ f.expD * (m + 3840) ^ f.expN)
    if short 0 then bisect short 64 0 (2 ^ 40) + 1 else 0

/-- The term A: the larger of 0.5 ps and the fit's prediction. -/
def ageA (x : TileMeasure) (f : CharFuse) (m : Nat) : Int := max 5000 (ageGrowth x f m)

/-- The predicted slack, for a change of period, a change of step, band and correction. -/
def predict (x : TileMeasure) (f : CharFuse) (dper : Int) (dstep : Int) (tj : Int) (b : Nat) (a c : Int) : Int :=
  let r := bandRange b
  let tw := min (f.t * (r.1 - tj)) (f.t * (r.2 - tj))
  x.smin * 10000 + dper + f.v * dstep + tw / 10 - a - c

/-- The lowest feasible step of tier X, if one exists. -/
def State.feasible (s : State) (x : TileMeasure) (f : CharFuse) (dper : Int) (b : Nat) (a c : Int) : Option Nat :=
  (upFrom 0 (s.stepMax + 1)).find? fun st =>
    decide (s.guardPs ≤ predict x f dper ((st : Int) - s.vidCode) s.tj b a c)

/-- Tier and step of a tile's band: the fastest feasible tier with its lowest step, else EXHAUSTED at STEP_MAX. -/
def State.planBand (s : State) (x : TileMeasure) (f : CharFuse) (now : Nat) (b : Nat) (a c : Int) : Nat × Nat :=
  match (upFrom 0 3).findSome? fun X => (s.feasible x f (tierPeriod X - tierPeriod now) b a c).map fun st => (X, st) with
  | some e => e
  | none => (3, s.stepMax)

/-- The characterisation fuses of a tile, or of the shared logic. -/
def State.fuse (s : State) (n : Nat) : CharFuse := s.dev.age.fuses.getD n { v := 0, t := 0, expN := 1, expD := 1 }

/-- The correction C of a tile, in 0.0001 ps. -/
def State.corr (s : State) (n : Nat) : Int := fld (s.reg (Csr.ageOf n)) 23 16 * 10000

/-- Operating hours per year as a quotient (R462). -/
def State.opRate (s : State) : Nat × Nat :=
  let op := (s.reg Csr.opMin).toNat
  let all := op + (s.reg Csr.sbMin).toNat
  if op < 60000 then (800, 1) else if 8766 * op < 400 * all then (400, 1) else (8766 * op, all)

/-- The forecast of one band in 0.01 year: until the loss has grown by H. -/
def State.forecast (s : State) (x : TileMeasure) (f : CharFuse) (h : Int) : Nat :=
  let l := x.loss * 100
  let m := (s.reg Csr.opMin).toNat
  let (rn, rd) := s.opRate
  if h ≤ 0 then 0
  else if l = 0 then 0xFFFF
  else if m = 0 then min 0xFFFF (Config.ageForecast0 x.loss h)
  else
    let ok := fun y => decide ((m * 100 * rd + 60 * y * rn) ^ f.expN * l ^ f.expD ≤ (l + h.toNat) ^ f.expD * (m * 100 * rd) ^ f.expN)
    if ok 65535 then 0xFFFF else bisect ok 20 0 65535

/-- The plan of one tile: TILE_MPLAN, and FCAST with its binding band (Tables 17-7 and 17-10). -/
def State.planTile (s : State) (n : Nat) (x : TileMeasure) : Word × Word :=
  let now := Tier.toNat (s.tile (unitIx n)).tier
  let f := s.fuse n
  let a := ageA x f (s.reg Csr.opMin).toNat
  let c := s.corr n
  let es := (upFrom 0 5).map fun b => s.planBand x f now b a c
  let mp := (es.zipIdx).foldl (fun m e => m + (e.1.1 + 4 * e.1.2) * 2 ^ (6 * e.2)) 0
  let fs := (es.zipIdx).map fun e =>
    if e.1.1 = 3 then 0
    else s.forecast x f (predict x f (tierPeriod e.1.1 - tierPeriod now) ((s.stepMax : Int) - s.vidCode) s.tj e.2 0 c - s.guardPs)
  let best := (fs.zipIdx).foldl (fun (m : Nat × Nat) y => if y.1 < m.1 then y else m) (0xFFFF, 0)
  (BitVec.ofNat 32 mp, BitVec.ofNat 32 (best.1 + best.2 * 65536))

/-! ## Events and records -/

/-- The in-situ flags of a tile in the last 1 ms (48 ticks). -/
def State.isdNow (s : State) (n : Nat) : Nat := (s.dev.age.isd.filter fun x => decide (x.1 = n) && decide (s.sample.toNat < x.2 + 48)).length

/-- The monitors of a tile are unpowered: it is DARK, and no re-plan measures (R447). -/
def State.monOff (s : State) (n : Nat) : Bool :=
  decide ((s.tile (unitIx n)).state = .dark) && decide (fld (s.reg Csr.agePlanStat) 1 0 ≠ 1)

/-- MRG_NOW of a tile (Table 17-11). -/
def State.mrgView (s : State) (n : Nat) : Word :=
  setFld (setFld (s.reg (Csr.mrgNow n)) 23 16 (min 255 (s.isdNow n))) 24 24 (b2n (s.monOff n))

/-- An event of the planner, with the tile's registers (R464). -/
def State.ageEvent (s : State) (code n sev dtc : Nat) : State :=
  let det := if n < 16 then [s.reg (Csr.tileMplan n), s.mrgView n, s.reg (Csr.ageOf n), s.reg (Csr.fcast n)].flatMap fun w => leBytes 4 w.toNat else []
  s.logEvent code n sev dtc det

/-- The offset of the margin history (Table 2-6). -/
def histBase : Nat := 0x320000

/-- The OPMIN and SBMIN of the valid margin record with the highest SEQ: only one with some listed byte can be valid. -/
def State.newestRecord (s : State) : Option (Nat × Nat) :=
  let ixs := (s.mem.filterMap fun c =>
      if mramBase + histBase ≤ c.1 ∧ c.1 < mramBase + histBase + 0x40000 then some ((c.1 - mramBase - histBase) / 64) else none).eraseDups
  let rs := ixs.filterMap fun i =>
    let b := s.bytes (mramBase + histBase + 64 * i) 64
    if !s.mramBad (histBase + 64 * i) 64 && decide (leNat (b.drop 60) = (crc32 (b.take 60)).toNat) then some b else none
  (rs.foldl (fun (m : Option (List Byte)) b => match m with
    | some c => if leNat (c.take 4) ≤ leNat (b.take 4) then some b else m
    | none => some b) none).map fun b => (leNat ((b.drop 4).take 4), leNat ((b.drop 8).take 4))

/-- After a loss of VDD_AON the firmware resumes the minute counts from the newest margin record (R461). -/
def State.resumeCounts (s : State) : State :=
  if !s.dev.age.resume then s
  else
    let s1 := (s.fwRead histBase 0x40000).modAge fun a => { a with resume := false }
    match s.newestRecord with
    | some r => (s1.setReg Csr.opMin (BitVec.ofNat 32 r.1)).setReg Csr.sbMin (BitVec.ofNat 32 r.2)
    | none => s1

/-- Write a margin record (Table 13-9). -/
def State.marginRecord (s : State) (trig : Nat) : State :=
  let q := s.dev.age.nextSeq
  let tier := (upFrom 0 16).foldl (fun m n => m + Tier.toNat (s.mtier n) * 4 ^ n) 0
  let step := (upFrom 0 16).foldl (fun m n => m + s.mstep n * 16 ^ n) 0
  let b := leBytes 4 q.toNat ++ leBytes 4 (s.reg Csr.opMin).toNat ++ leBytes 4 (s.reg Csr.sbMin).toNat
    ++ [BitVec.ofNat 8 trig, BitVec.ofNat 8 s.band, BitVec.ofNat 8 (ofInt 8 (s.dev.age.tjMax / 10 + 64)), 0]
    ++ leBytes 4 tier ++ leBytes 8 step ++ ((upFrom 0 16).map fun n => BitVec.ofNat 8 (fld (s.reg (Csr.mrgNow n)) 7 0))
    ++ ((upFrom 0 4).map fun g => BitVec.ofNat 8 (fld (s.reg (Csr.sramMrg g)) 7 0))
    ++ leBytes 2 (fld (s.reg Csr.fcastMin) 15 0) ++ [BitVec.ofNat 8 (fld (s.reg Csr.fcastMin) 19 16)] ++ zeros 9
  ((s.mramPut (histBase + q.toNat % 4096 * 64) (b ++ leBytes 4 (crc32 b).toNat)).setReg Csr.lastSeq q).modAge fun a =>
    { a with nextSeq := q + 1, tjMax := s.tj }

/-! ## Exhaustion (R455) -/

/-- While Tj lies in a band in which a tile is EXHAUSTED, the hub fences it. -/
def State.exhaust (s : State) : State :=
  (upFrom 0 16).foldl (fun s n =>
    if s.mtierRaw n = 3 ∧ !(s.tile (unitIx n)).fenced then
      let outs := s.outsOf n
      let s1 := ((s.orReg Csr.ageEvt 8).ageEvent 0x0203 n 2 0x9A5300).setDtc 0x9A5300 n
      let s2 := (((s1.setDtc 0x9A5000 n).lastReport 0x0203).fenceTile n).invalidate 0x0203 outs
      let s3 := s2.modSafety fun f => { f with
        selfDet := if f.selfDet.contains n then f.selfDet else n :: f.selfDet, lastDet := some s.sample.toNat }
      s3.selfFault false (s.someNonSafety outs)
    else s) s

/-! ## Putting a plan in force (R458, R460) -/

/-- The plan is in force once its voltage is driven and held; the re-plan's trigger is then no longer outstanding, and a back-off
ends. -/
def State.ageSettle (s : State) : State :=
  let s1 := if s.vidReady then s.setRegFld Csr.bandStat 3 3 0 else s
  match s.dev.age.putting with
  | none => s1
  | some t =>
    if !s.vidReady then s1
    else
      let s2 := ((s1.setRegFld Csr.agePlanStat 5 3 t).setRegFld Csr.agePlanStat 7 7 0).modAge fun a => { a with putting := none, lowered := [] }
      let s3 := if s2.dev.age.running.isSome then s2 else s2.setRegFld Csr.agePlanStat 1 0 0
      let more := s3.dev.age.trigs ≠ [] ∨ s3.dev.age.alarms ≠ [] ∨ s3.dev.age.running = some 3 ∨ s3.dev.age.running = some 4
      if more then s3 else (s3.setRegFld Csr.agePlanStat 2 2 0).setCond 2 true

/-- A trigger is outstanding (R460). -/
def State.outstand (s : State) : State := (s.setRegFld Csr.agePlanStat 2 2 1).setCond 2 false

/-- A re-plan starts, or is queued behind the one that runs (R459). -/
def State.startReplan (s : State) (t : Nat) : State :=
  match s.dev.age.running with
  | none => (s.setRegFld Csr.agePlanStat 1 0 1).modAge fun a => { a with running := some t }
  | some _ => (s.setRegFld Csr.agePlanStat 6 6 1).modAge fun a => { a with queued := some (max t (a.queued.getD 0)) }

/-- REPLAN_TRIGGER t (Table 17-3): the cold start once, from PHASE 5 on; the interval when 64 operating hours have passed; excursion
and alarm when they have fired. -/
def State.replanTrigger (s : State) (t : Nat) : State :=
  match t with
  | 1 => if fld (s.reg Csr.agePlanStat) 5 3 = 0 ∧ s.dev.age.running.isNone ∧ s.dev.age.putting.isNone ∧ 5 ≤ s.phase then s.startReplan 1 else s
  | 2 => if s.dev.age.lastOp + 3840 ≤ (s.reg Csr.opMin).toNat ∧ s.dev.age.running.isNone then s.startReplan 2 else s
  | _ => if s.dev.age.trigs.contains t then (s.startReplan t).modAge fun a => { a with trigs := a.trigs.erase t } else s

/-- The measures of a unit; 16 is the shared logic. -/
def measureOf (ms : List TileMeasure) (n : Nat) : TileMeasure :=
  ms.getD n { smin := 0, worst := 0, loss := 0 }

/-- The registers of one tile after a re-plan: its plan, its forecast, its measures. -/
def State.replanTile (s : State) (n : Nat) (pl : Word × Word) (x : TileMeasure) : State :=
  let s1 := s.modReg (Csr.mrgNow n) fun y => setFld (setFld y 7 0 (min 255 x.smin.toNat)) 11 8 x.worst.toNat
  (((s1.setReg (Csr.tileMplan n) pl.1).setReg (Csr.fcast n) pl.2).setRegFld (Csr.ageOf n) 15 0 (min 65535 x.loss)).modAge fun a =>
    { a with smin := vmod a.smin n fun _ => x.smin }

/-- A re-plan ends: the new plan from measures of T0 to T15 and the shared logic, its forecast, its record; its steps are decided, and
it is in force when they are driven (R452 to R462). -/
def State.replanDone (s : State) (ms : List TileMeasure) : State :=
  match s.dev.age.running with
  | none => s
  | some t =>
    let m := (s.reg Csr.opMin).toNat
    let common := (upFrom 0 5).foldl (fun acc b =>
        let x := measureOf ms 16
        acc + ((s.feasible x (s.fuse 16) 0 b (ageA x (s.fuse 16) m) 0).getD s.stepMax) * 16 ^ b) 0
    let s1 := ((upFrom 0 16).foldl (fun s' n => s'.replanTile n (s.planTile n (measureOf ms n)) (measureOf ms n)) s).setReg Csr.commonStep (BitVec.ofNat 32 common)
    let least := (upFrom 0 16).foldl (fun (b : Nat × Nat) n =>
        let f := fld (s1.reg (Csr.fcast n)) 15 0
        if f < b.1 then (f, n) else b) (0x10000, 0)
    let ex := (upFrom 0 16).foldl (fun acc n =>
        acc + b2n ((upFrom 0 5).any fun b => decide (fld (s1.reg (Csr.tileMplan n)) (6 * b + 1) (6 * b) = 3)) * 2 ^ n) 0
    let s2 := ((s1.setReg Csr.fcastMin (BitVec.ofNat 32 (least.1 % 65536 + least.2 * 65536))).setReg Csr.exhaust (BitVec.ofNat 32 ex)).bump Csr.replanCnt
    let s3 := if least.1 < 200 then ((s2.orReg Csr.ageEvt 32).ageEvent 0x0205 least.2 0 0x9A5300).setDtc 0x9A5300 least.2 else s2
    let s4 := ((s3.ageEvent 0x0202 16 0 0).marginRecord t).modAge fun a =>
      { a with running := a.queued, queued := none, putting := some t, lastOp := m }
    let s5 := (s4.setRegFld Csr.agePlanStat 6 6 0).setRegFld Csr.agePlanStat 1 0 (if s.dev.age.queued.isSome then 1 else 2)
    (((s5.setReg Csr.nextInt 3840).exhaust).decideStep).showTiers.ageSettle

/-! ## Monitors (R447, R448, R450, R457) -/

/-- A monitor raises an alarm: counted, logged, outstanding. -/
def State.alarm (s : State) (n : Nat) (isd : Bool) : State :=
  ((((s.bump Csr.alarmCnt).orReg Csr.ageEvt 1).ageEvent 0x0201 n 1 0).outstand).modAge fun a => { a with alarms := a.alarms ++ [(n, isd)] }

/-- A replica measurement of a unit; the monitors of a DARK tile report nothing but in a re-plan. -/
def State.replica (s : State) (n : Nat) (slack : Int) (mon : Nat) : State :=
  if n < 16 ∧ s.monOff n then s
  else
    let s1 := if n < 16 then
        (s.modReg (Csr.mrgNow n) fun y => setFld (setFld y 7 0 (min 255 slack.toNat)) 11 8 mon).modAge fun a =>
          { a with smin := vmod a.smin n fun _ => slack }
      else s
    if slack < s.alarmPs then s1.alarm n false else s1

/-- An in-situ detector of a tile flags. -/
def State.isdFlag (s : State) (n : Nat) : State :=
  if (s.tile (unitIx n)).state = .dark then s
  else
    let s1 := (s.bump (Csr.isdCnt n)).modAge fun a => { a with isd := (n, s.sample.toNat) :: a.isd.filter fun x => decide (s.sample.toNat < x.2 + 48) }
    if s.isdLimit ≤ s1.isdNow n then s1.alarm n true else s1

/-- The back-off on the oldest alarm: one code up, or at code 10 one tier down; at most one in 100 µs (4.8 ticks, taken as 5); an in-situ
alarm sets the correction; the re-plan's trigger fires. -/
def State.backoff (s : State) : State :=
  match s.dev.age.alarms with
  | [] => s
  | (n, isd) :: rest =>
    let merged := match s.dev.age.lastOff with | some t => decide (s.sample.toNat < t + 5) | none => false
    let s1 := s.modAge fun a => { a with alarms := rest, trigs := if a.trigs.contains 4 then a.trigs else a.trigs ++ [4] }
    let c := max (s.corr n) ((s.dev.age.smin.getD n 0 - 30) * 10000)
    let s2 := if isd ∧ n < 16 then s1.setRegFld (Csr.ageOf n) 23 16 (min 255 (c / 10000).toNat) else s1
    if merged then s2
    else
      let s3 := (((s2.bump Csr.backoffCnt).orReg Csr.ageEvt 2).devEvent 203).setRegFld Csr.agePlanStat 7 7 1
      let s4 := s3.modAge fun a => { a with lastOff := some s.sample.toNat }
      if s.vidCode < 10 then s4.setRegFld Csr.vid 7 4 (max s.vidTarget (s.vidCode + 1))
      else if n < 16 then (s4.modAge fun a => { a with lowered := n :: a.lowered }).showTiers
      else s4

/-- A SRAM read-margin measurement of a bank group. -/
def State.sramMargin (s : State) (g mv : Nat) : State :=
  let w := fld (s.reg (Csr.sramMrg g)) 15 8
  let s1 := s.modReg (Csr.sramMrg g) fun x => setFld (setFld x 7 0 (min 255 mv)) 15 8 (min 255 (if w = 0 then mv else min w mv))
  if mv < 50 ∧ !s.dev.safety.sramLow.contains g then
    ((s1.orReg Csr.ageEvt 16).logEvent 0x0204 16 1 0 [BitVec.ofNat 8 g, BitVec.ofNat 8 mv]).modSafety fun f => { f with sramLow := g :: f.sramLow }
  else s1

/-! ## Bands, excursions and time (R451, R456, R461) -/

/-- The band entered from below by a junction temperature. -/
def bandUp (tj : Int) (b : Nat) : Nat :=
  let f := fun (b : Nat) => if (b = 0 ∧ 0 < tj) ∨ (b = 1 ∧ 450 < tj) ∨ (b = 2 ∧ 900 < tj) ∨ (b = 3 ∧ 1250 < tj) then b + 1 else b
  f (f (f (f b)))

/-- Tj has crossed a band limit, or stayed below the return limit for 1 s (1,000 samples). -/
def State.bandChange (s : State) : State :=
  let up := bandUp s.tj s.band
  let nb := if s.band < up then up else if 1000 ≤ s.dev.age.coolRun ∧ 0 < s.band then s.band - 1 else s.band
  if nb = s.band then s
  else
    let s1 := (((s.setRegFld Csr.bandStat 2 0 nb).setRegFld Csr.bandStat 3 3 1).devEvent 202).modAge fun a => { a with coolRun := 0 }
    (s1.exhaust.decideStep).showTiers.ageSettle

/-- Tj has stayed above 140.0 °C for 10 s (10,000 samples), and the trigger is armed. -/
def State.excursion (s : State) : State :=
  if 10000 ≤ s.dev.age.hotRun ∧ fld (s.reg Csr.excStat) 1 1 = 1 then
    ((((s.setRegFld Csr.excStat 1 1 0).orReg Csr.ageEvt 4).ageEvent 0x0206 16 0 0).outstand).modAge fun a =>
      { a with trigs := if a.trigs.contains 3 then a.trigs else a.trigs ++ [3] }
  else s

/-- A minute passes: operating minutes while VDD_CORE is on, standby minutes and the standby timebase in parked standby. -/
def State.minute (s : State) : State :=
  if s.dev.power.inStby then
    let t := (s.reg Csr.stbyLo).toNat + (s.reg Csr.stbyHi).toNat * 2 ^ 32 + 60 * 32768
    ((s.bump Csr.sbMin).setReg Csr.stbyLo (BitVec.ofNat 32 t)).setReg Csr.stbyHi (BitVec.ofNat 32 (t / 2 ^ 32))
  else if s.dev.up then
    let s1 := s.bump Csr.opMin
    s1.setReg Csr.nextInt (BitVec.ofNat 32 (s.dev.age.lastOp + 3840 - (s1.reg Csr.opMin).toNat))
  else s

end Sys2Proof.Machine
end

