-- ==== Sys2Proof/Machine/SysCmds.lean ====
section
/-! DEFINITION. The commands of the governor, the supply, clock and temperature monitors, the margin planner and the verdict unit
(chapters 15 to 17).  While the device is held in reset they have no effect. -/

namespace Sys2Proof.Machine

/-- Act only while the device is out of reset. -/
def State.whenUp (s : State) (f : State → State) : State := if s.dev.up then f s else s

/-- A device reset whose time has come takes place (R432). -/
def State.resetDue (s : State) : State :=
  match s.dev.safety.resetAt with
  | some (c, t) => if t ≤ s.sample.toNat then s.deviceReset c 0 else s
  | none => s

/-! ## Leave -/

/-- LEAVE_REQUEST (R437). -/
def execLeaveRequest (h : LeaveHolder) (s : State) : Host.Outcome State Fault Refusal := .next (s.leaveAsk h)

/-- LEAVE_GRANT (R437). -/
def execLeaveGrant (h : LeaveHolder) (s : State) : Host.Outcome State Fault Refusal := .next (s.leaveGive h)

/-- LEAVE_RELEASE (R437). -/
def execLeaveRelease (h : LeaveHolder) (s : State) : Host.Outcome State Fault Refusal := .next (s.leaveEnd h)

/-- LEAVE_WITHDRAW (R439). -/
def execLeaveWithdraw (h : LeaveHolder) (s : State) : Host.Outcome State Fault Refusal := .next (s.leaveCut h)

/-! ## Verdict and event log -/

/-- VERDICT (R411 to R415). -/
def execVerdict (s : State) : Host.Outcome State Fault Refusal := .next s.verdict

/-- The oldest record made is written into the log, once the START record of this start stands in it (R374, R400). -/
def State.flushEvent (s : State) : State :=
  match s.dev.safety.events with
  | [] => s
  | e :: rest => if s.dev.safety.logReady then (s.modSafety fun f => { f with events := rest }).writeEvent e else s

/-- EVENT_LOG_WRITE (R400, R374). -/
def execEventLogWrite (s : State) : Host.Outcome State Fault Refusal := .next s.flushEvent

/-! ## Monitors, supply and PMIC -/

/-- CLOCK_MONITOR (R432): sources 0 crystal, 1 to 4 PLL A, B, C and F, 5 AUDCLK; `ppm` is the measured deviation. -/
def execClockMonitor (src : Fin 6) (ppm : Int) (s : State) : Host.Outcome State Fault Refusal :=
  .next (s.whenUp fun s => s.clockSample src.val ppm)

/-- VOLTAGE_MONITOR (R444): rail of Table 16-9 in its order, in mV. -/
def execVoltageMonitor (rail : Fin 8) (mv : BitVec 16) (s : State) : Host.Outcome State Fault Refusal :=
  .next (s.whenUp fun s => s.railSample rail.val mv.toNat)

/-- TEMPERATURE_SAMPLE (R445): the 24 sensors in signed 0.1 °C. -/
def execTemperatureSample (ts : List Word) (s : State) : Host.Outcome State Fault Refusal :=
  .next (s.whenUp fun s => s.tempSample ts)

/-- THERMAL_CAP_REMOVE (R445). -/
def execThermalCapRemove (s : State) : Host.Outcome State Fault Refusal := .next (s.whenUp State.capEnd)

/-- BATT_SENSE_SAMPLE (R440, R442): the 12-bit code. -/
def execBattSenseSample (code : BitVec 12) (s : State) : Host.Outcome State Fault Refusal :=
  .next (s.whenUp fun s => s.battSample code.toNat)

/-- DEEP_TILE_RELEASE (R443). -/
def execDeepTileRelease (s : State) : Host.Outcome State Fault Refusal := .next (s.whenUp State.deepRelease)

/-- PMIC_WARN_ASSERT (R429). -/
def execPmicWarnAssert (s : State) : Host.Outcome State Fault Refusal := .next (s.whenUp State.pmicWarn)

/-- PMIC_WARN_FALL (R429). -/
def execPmicWarnFall (s : State) : Host.Outcome State Fault Refusal := .next (s.whenUp State.pmicWarnFall)

/-- PMIC_WARN_LOWERING_END (R429). -/
def execPmicWarnLoweringEnd (s : State) : Host.Outcome State Fault Refusal := .next (s.whenUp State.pmicWarnEnd)

/-- PWR_GOOD_FALL (R428). -/
def execPwrGoodFall (s : State) : Host.Outcome State Fault Refusal := .next (s.whenUp State.pwrGoodFall)

/-- BUDGET_HOLD_EXPIRE (R438). -/
def execBudgetHoldExpire (s : State) : Host.Outcome State Fault Refusal := .next (s.whenUp State.budgetHeld)

/-- VID_STEP (R426). -/
def execVidStep (s : State) : Host.Outcome State Fault Refusal := .next (s.whenUp fun s => s.vidStep.ageSettle)

/-- PLL_RELOCK (R432): PLL_B is 1, PLL_C is 2; the others lead to a reset and do not relock by themselves. -/
def execPllRelock (src : Fin 2) (s : State) : Host.Outcome State Fault Refusal :=
  .next (s.whenUp fun s => s.pllRelock (src.val + 1))

/-- AON_SOURCE_LOSS (R431). -/
def execAonSourceLoss (s : State) : Host.Outcome State Fault Refusal := .next (s.whenUp State.aonLoss)

/-- AON_SOURCE_RETURN (R431). -/
def execAonSourceReturn (s : State) : Host.Outcome State Fault Refusal := .next (s.whenUp State.aonReturn)

/-! ## Margin planner -/

/-- REPLICA_MEASURE (R447): unit 16 is the shared logic; slack in ps, monitor 0 to 11. -/
def execReplicaMeasure (u : UnitIx) (slack : Int) (mon : Fin 12) (s : State) : Host.Outcome State Fault Refusal :=
  .next (s.whenUp fun s => s.replica u.val slack mon.val)

/-- ISD_FLAG (R448): an in-situ detector of tile `n`. -/
def execIsdFlag (n : Fin 16) (s : State) : Host.Outcome State Fault Refusal := .next (s.whenUp fun s => s.isdFlag n.val)

/-- MARGIN_ALARM (R457): the oldest alarm raised is acted on. -/
def execMarginAlarm (s : State) : Host.Outcome State Fault Refusal := .next (s.whenUp State.backoff)

/-- SRAM_MARGIN_MEASURE (R450): bank group and margin in mV. -/
def execSramMarginMeasure (g : Fin 4) (mv : BitVec 8) (s : State) : Host.Outcome State Fault Refusal :=
  .next (s.whenUp fun s => s.sramMargin g.val mv.toNat)

/-- REPLAN_TRIGGER (R456, R459): trigger of Table 17-3. -/
def execReplanTrigger (t : Fin 5) (s : State) : Host.Outcome State Fault Refusal := .next (s.whenUp fun s => s.replanTrigger t.val)

/-- REPLAN_COMPLETE (R452 to R462): the measures of T0 to T15 and of the shared logic. -/
def execReplanComplete (ms : List TileMeasure) (s : State) : Host.Outcome State Fault Refusal :=
  .next (s.whenUp fun s => s.replanDone ms)

/-- BAND_CHANGE (R451). -/
def execBandChange (s : State) : Host.Outcome State Fault Refusal := .next (s.whenUp State.bandChange)

/-- EXCURSION (R456). -/
def execExcursion (s : State) : Host.Outcome State Fault Refusal := .next (s.whenUp State.excursion)

/-- MINUTE_COUNT (R461): operating minutes while VDD_CORE is on, standby minutes in parked standby. -/
def execMinuteCount (s : State) : Host.Outcome State Fault Refusal := .next s.minute

end Sys2Proof.Machine
end

