-- ==== Sys2Proof/Machine/Verify.lean ====
section
/-! DEFINITION. The device's checks of a plan image (R233, R234, R239 to R241, R257) and of the other images (Table 18-5). -/

namespace Sys2Proof

open Machine

/-! ## The bytes of an image (R232, R233, R239, R249) -/

/-- A little-endian field of an image. -/
def PlanImage.le (g : PlanImage) (o n : Nat) : Nat := leNat ((g.bytes.drop o).take n)

/-- NSECT and SECT_OFS (Table 9-1). -/
def PlanImage.nsect (g : PlanImage) : Nat := g.le 0x1E 2
/-- The offset of a section's 16-byte entry. -/
def PlanImage.entryAt (g : PlanImage) (i : Nat) : Nat := g.le 0x20 4 + 16 * i
/-- A section's bytes in the image. -/
def PlanImage.sectBytes (g : PlanImage) (i : Nat) : List Byte :=
  (g.bytes.drop (g.le (g.entryAt i + 12) 4)).take (g.le (g.entryAt i + 8) 4)

/-- The entries of a SCHED section: local entry address and certified count (R239).  The period is the number of entries (DEDUCED, log 61). -/
def schedOf (bs : List Byte) : SectBody :=
  .sched (bs.length / 8) ((upFrom 0 (bs.length / 8)).map fun i =>
    (BitVec.ofNat 32 (leNat ((bs.drop (8 * i)).take 4)), BitVec.ofNat 32 (leNat ((bs.drop (8 * i + 4)).take 4))))

/-- The roles of a role table image (Table 9-8). -/
def rolesOf (bs : List Byte) : SectBody :=
  .roles ((upFrom 0 256).filterMap fun r =>
    let w := leNat ((bs.drop (16 * r)).take 4)
    if bitsOf w 7 7 = 1 then
      some { role := BitVec.ofNat 8 r, holder := BitVec.ofNat 5 w, planId := BitVec.ofNat 32 (leNat ((bs.drop (16 * r + 4)).take 4)) }
    else none)

/-- Contents brought for a section are of its type (Table 9-2). -/
def bodyFits : Nat → SectBody → Bool
  | 4, .fast _ => true
  | 6, .seminit _ => true
  | 7, .params _ => true
  | 8, .handover _ => true
  | 9, .freemap _ => true
  | 0x0D, .leave _ _ => true
  | _, _ => false

/-- The contents of section `i`: decoded from its bytes where the spec lays them out. -/
def PlanImage.body (g : PlanImage) (i : Nat) : SectBody :=
  let typ := g.le (g.entryAt i) 1
  if typ = 3 then schedOf (g.sectBytes i)
  else if typ = 5 then rolesOf (g.sectBytes i)
  else if typ = 0x0E then .cert
  else match g.bodies.find? fun x => decide (x.1 = i) && bodyFits typ x.2 with
    | some x => x.2
    | none => .bytes (g.sectBytes i)

/-- Section `i` by its entry (R233). -/
def PlanImage.sect (g : PlanImage) (i : Nat) : Section :=
  let e := g.entryAt i
  { typ := g.le e 1, unit := g.le (e + 1) 1, vmask := BitVec.ofNat 3 (g.le (e + 2) 1), twr := decide (bitsOf (g.le (e + 3) 1) 0 0 = 1)
    dst := g.le (e + 4) 4, len := g.le (e + 8) 4, body := g.body i }

/-- The plan of an image: header fields (Table 9-1), sections, and the tables whose bytes the spec does not lay out. -/
def PlanImage.plan (g : PlanImage) : Plan :=
  { g.rest with
    block := g.le 0x0C 2, ucode := g.le 0x0E 2, isaReq := BitVec.ofNat 32 (g.le 0x10 4), planId := BitVec.ofNat 32 (g.le 0x14 4)
    ver := BitVec.ofNat 32 (g.le 0x18 4), lcMask := g.le 0x1D 1, sects := (upFrom 0 g.nsect).map g.sect }

/-- The bytes of an image of which `n` were read. -/
def PlanImage.ofLen (n : Nat) (g : PlanImage) : PlanImage := { g with bytes := padTo n g.bytes }

/-- The section table lies before the signature. -/
def PlanImage.tableOk (g : PlanImage) : Bool := decide (g.entryAt g.nsect + 96 ≤ g.bytes.length)

/-- A section's bytes lie before the signature, its FLAGS are zero but for TWR, and a role table holds 256 entries. -/
def PlanImage.sectOk (g : PlanImage) (i : Nat) : Bool :=
  let e := g.entryAt i
  decide (g.le (e + 12) 4 + g.le (e + 8) 4 + 96 ≤ g.bytes.length) && decide (bitsOf (g.le (e + 3) 1) 7 1 = 0)
    && (decide (g.le e 1 ≠ 5) || decide (g.le (e + 8) 4 = 4096))

/-! ## The checks -/

/-- The frequency of a tier in MHz (Table 1-1). -/
def Tier.mhz : Tier → Nat
  | .a => 1600
  | .b => 1400
  | .c => 1200

/-- The window of a block-rate slice in whole cycles (R240). -/
def sliceWindow (b : Nat) (t : Tier) : Nat := t.mhz * (1000 * b - 576) / 48

/-- The bounds, flags and unit of a section (R233). -/
def Section.ok (x : Section) : Bool :=
  decide (1 ≤ x.typ) && decide (x.typ ≤ 0x0E) && decide (x.unit ≤ 22) && decide (x.dst + x.len ≤ bankSize x.unit)
    && (!x.twr || (decide (x.typ = 2) && decide (x.unit = 22) && decide (0x50000 ≤ x.dst)))
    && (match x.body with | .seminit ss => ss.all fun y => decide (y.2.1 ≤ y.2.2) | _ => true)

/-- The SCHED sections of a tile in a variant. -/
def Plan.schedsOf (p : Plan) (v : Tier) (n : Nat) : List Section :=
  (p.ofVar v).filter fun x => decide (x.typ = 3) && decide (x.unit = n)

/-- A SCHED section fits its variant: period, entries, and certified counts within the window. -/
def Section.schedOk (x : Section) (b : Nat) (v : Tier) : Bool :=
  match x.body with
  | .sched p es => decide (1 ≤ p) && decide (p ≤ 64) && decide (es.length = p) && decide (x.len % 8 = 0)
      && es.all fun e => decide (e.1.toNat % 8 = 0) && decide (e.1.toNat < 0x200000) && decide (e.2.toNat ≤ sliceWindow b v)
  | _ => false

/-- The schedules are consistent (R234, R239). -/
def Plan.schedsOk (p : Plan) : Bool :=
  (upFrom 0 16).all fun n =>
    let has := [Tier.a, .b, .c].any fun v => decide ((p.schedsOf v n) ≠ [])
    [Tier.a, .b, .c].all fun v =>
      (!has || decide ((p.schedsOf v n).length = 1)) && (p.schedsOf v n).all fun x => x.schedOk p.block v

/-- The header and sections of an image (Table 9-1, the FORMAT row of R234): MAGIC, FORMAT, IMAGE_LEN, VARIANTS, section bounds and reserved bytes. -/
def PlanImage.headOk (g : PlanImage) : Bool :=
  let p := g.plan
  decide (g.le 0 4 = 0x50564E48) && decide (g.le 4 2 = 1) && decide (g.le 8 4 = g.bytes.length) && decide (g.le 8 4 ≤ 50331648)
    && decide (g.le 0x1C 1 = 7) && decide (g.le 6 2 = 0) && decide (g.le 0x24 28 = 0) && [8, 16, 32, 64, 128, 256].contains p.block
    && decide (1 ≤ g.nsect) && decide (g.nsect ≤ 4096) && g.tableOk && (upFrom 0 g.nsect).all g.sectOk && p.sects.all fun x => x.ok

/-- The limits of the plan's own tables that refuse it with FORMAT (R241, R275, R301, R303). -/
def Plan.tablesOk (p : Plan) : Bool := p.ceOk && p.audioOk

end Sys2Proof

namespace Sys2Proof.Machine

/-- The MRAM offset of the key slots (Table 2-6). -/
def keyBase : Nat := 0x3A0000

/-- The security block reads key slot k (R61). -/
def State.keyRead (s : State) (k : Nat) : State := s.fwRead (keyBase + 1024 * k) 1024

/-- A check under key slot k can pass: the slot holds a key and no codeword of it is lost (R480, Table 18-6). -/
def State.keyOk (s : State) (k : Nat) : Bool :=
  decide (fld (s.reg Csr.keyStat) k k = 1) && !s.mramBad (keyBase + 1024 * k) 1024

/-- The plan-key slot of a lifecycle (Table 18-7). -/
def planKey (lc : Nat) : Option Nat :=
  match lc with
  | 1 => some 1
  | 2 => some 2
  | 3 => some 2
  | _ => none

/-- The plan key of a lifecycle is read. -/
def State.planKeyRead (s : State) : State := match planKey s.lc with | some k => s.keyRead k | none => s

/-- An image's signature verifies under the plan key of a lifecycle. -/
def State.sigOk (s : State) (lc : Nat) (slot : Option Nat) : Bool :=
  match planKey lc with
  | some k => decide (slot = some k) && s.keyOk k
  | none => false

/-- The checks of R234 in their order: none, or the status of Table 12-7 with which the image is refused.  R234 gives no place to the FORMAT
refusals of other rules (R241, R257, R275, R301, R303, Table 11-13): they are checked with its FORMAT row, before LIFECYCLE (DESIGN CHOICE,
log 89). -/
def State.verifyPlan (s : State) (g : PlanImage) : Option Nat :=
  let p := g.plan
  let level := fld (s.tile 0).ucodeLvl 15 0
  if s.lc = 0 ∨ 4 ≤ s.lc then some 6
  else if !s.sigOk s.lc g.sigSlot then some 4
  else if !g.headOk ∨ !p.tablesOk then some 5
  else if bitsOf p.lcMask s.lc s.lc = 0 then some 6
  else if p.ucode ≠ level then some 7
  else if p.isaReq &&& 0xFFFFFF0F &&& ~~~0x1F10#32 ≠ 0 ∨ fld p.isaReq 7 4 ≠ 1 then some 8
  else if (p.sects.filter fun x => decide (x.typ = 0x0E)).length ≠ 1 ∨ !p.schedsOk then some 5
  else none

/-- A stored plan is checked against the lifecycle and patch level that hold after the next reset (Table 18-5), and its size. -/
def State.verifyStored (s : State) (g : PlanImage) : Option Nat :=
  if 2097152 < g.bytes.length then some 5
  else
    let lvl := match s.dev.images.patch with | some q => if q.ok then q.level else 0 | none => 0
    { s with tiles := s.tiles.set 0 { s.tile 0 with ucodeLvl := setFld (s.tile 0).ucodeLvl 15 0 lvl } }.verifyPlan g

/-- A firmware image passes (R469). -/
def State.fwOk (s : State) (g : FwImage) : Bool := g.sigOk && decide (fld (s.reg Csr.fwSvn) 5 0 ≤ g.svn)

/-- A calibration image passes (Table 18-5). -/
def State.calOk (s : State) (g : CalImage) : Bool := g.ok && s.sigOk s.lc g.sigSlot

end Sys2Proof.Machine
end

