-- ==== Sys2Proof/Machine/Timing.lean ====
section
/-! DEFINITION. Block timing: the sample tick and the block tick, the drain, the switch window, wakes and the fast lane (R29 to R39, R215,
R236 to R248, R257, R262 to R265, R416). -/

namespace Sys2Proof.Machine

/-! ## Which sections are put in force when (Table 9-12, R468) -/

/-- A section that the 2.0 µs point puts in force: job tables, stream programs and the plan tables of the common bank. -/
def lateSect (x : Section) : Bool :=
  decide (x.typ = 0x0A) || decide (x.typ = 0x0C) || (decide (x.unit = 22) && decide (0x50000 ≤ x.dst) && decide (x.dst < 0x52180))

/-- A section of the safety phase: the safety tiles, the service core, the stream engine and the plan tables. -/
def safeSect (p : Plan) (x : Section) : Bool :=
  (Plan.safetyTiles p).contains x.unit || decide (x.unit = 16) || decide (x.unit = 21) || decide (x.unit = 22)

/-- Write those sections of variant `v`, absent from variant `u`, that a test selects. -/
def State.putSome (s : State) (p : Plan) (u : Option Tier) (v : Tier) (f : Section → Bool) : State :=
  ((Plan.ofVar p v).filter fun x => f x && (match u with | some w => !(Section.inVar x w) | none => true)).foldl State.putSection s

/-- Whether a section counts in the present phase: in the safety phase only its own. -/
def State.inPhase (s : State) (p : Plan) (x : Section) : Bool := s.dev.sched.kf.isNone || safeSect p x

/-! ## Variants (R236, R237) -/

/-- The cap tier of the next block: one tier towards the governor's; a rise waits until the budget has held its value (R438). -/
def State.nextCap (s : State) : Tier :=
  let c := s.dev.sched.capTier
  let x := stepTier c s.cap
  if Tier.toNat x < Tier.toNat c ∧ !s.dev.power.mayRise then c else x

/-- The variant under a cap tier: that of the plan tier (R236); a rise waits for its voltage (R426). -/
def State.nextVariant (s : State) (c : Tier) : Tier :=
  let v := s.dev.sched.variant
  let x := s.planTier c
  if Tier.toNat x < Tier.toNat v ∧ !s.vidReady then v else x

/-- The plan tier under a target. -/
def State.underPlan (s : State) (p : Plan) : State := s.modSched fun x => { x with plan := some p }

/-! ## The tile's tiers (R30, R238) -/

/-- Every tile is given its tier of the variant in force, in DARK at once; in SLEEP it applies from the next block tick, and for a fast-lane tile
in NAP from its next wake (R30).  `was`: the tiles bound to the fast lane before. -/
def State.putTiers (s : State) (was : List Nat) : State :=
  (upFrom 0 16).foldl (fun s n =>
    let r := s.tileTier was n
    s.modTile (unitIx n) fun t => { t with nextTier := r, tier := if t.state = .dark then r else t.tier }) s

/-! ## Ticks -/

/-- The tile takes no tick: fenced, stopped or held. -/
def Tile.away (t : Tile) : Bool := t.heldOff || t.fenced || t.stopped || decide (t.mode = .dark)

/-- A sample tick reaches a fast-lane tile (R39, R243, R246). -/
def Tile.fastTick (t : Tile) : Tile :=
  if t.away ∨ fld t.flCfg 0 0 = 0 then t
  else if t.bist.isSome then { t with heldTick := true }
  else match t.mode with
    | .run => if t.wake.from_ = some .nap then { t with wake := { t.wake with held := true } } else { t with heldTick := true }
    | _ => { t with wakeDue := true }

/-- A tile that sleeps takes its new tier at the block tick (R30, R426). -/
def Tile.tickTier (t : Tile) : Tile := if t.state = .sleep ∧ fld t.flCfg 0 0 = 0 then { t with tier := t.nextTier } else t

/-- A block tick reaches a block-rate tile (R32, R37). -/
def Tile.blockTick (t0 : Tile) : Tile :=
  let t := t0.tickTier
  if t.away ∨ fld t.flCfg 0 0 = 1 then t
  else
    let t1 := { t with doneInBlk := false }
    if t.bist.isSome then { t1 with heldTick := true }
    else match t.mode with
      | .sleep => { t1 with wakeDue := true }
      | _ => if t.wake.from_ = some .sleep then { t1 with wake := { t.wake with held := true } } else { t1 with heldTick := true }

/-- A tile with work in the running plan. -/
def State.works (s : State) (n : Nat) : Bool := match s.plan with | some p => Plan.hasWork p n | none => false

/-- A replace-mode load stops the running plan at its block (R265): the tiles without a safety task are held, and their outputs ramp. -/
def State.replaceStop (s : State) : State :=
  match s.dev.sched.replace with
  | some r =>
    if r.stopped ∨ r.block ≠ s.blk then s
    else
      let s1 := s.modSched fun x => { x with replace := some { r with stopped := true } }
      let s2 := s1.modSafety fun f => { f with fallStop := some s.sample.toNat, rise := none }
      { s2 with tiles := s2.tiles.mapIdx fun n (t : Tile) => if n < 16 ∧ !s.isCopy n then { t with heldOff := true } else t }
  | none => s

/-- The programming session takes effect (R363): the outputs that are not safety-class ramp, and the tiles without safety tasks go DARK. -/
def State.progStart (s : State) : State :=
  if s.dev.sched.prog = some s.blk then
    let s1 := s.modSafety fun f => { f with fallStop := some s.sample.toNat, rise := none }
    { s1 with tiles := s1.tiles.mapIdx fun n (t : Tile) => if n < 16 ∧ !s.isCopy n then t.toDark else t }
  else s

/-- The block tick reaches the tiles: SPQ_PUB is latched (R251), and tiles with work wake or hold the tick. -/
def State.tileTicks (s : State) : State :=
  { s with tiles := s.tiles.mapIdx fun n (t : Tile) =>
      let t1 := { t with spqPub := t.spqTail }
      if n < 16 ∧ s.works n then t1.blockTick else t1 }

/-- In SPLIT a PAIRED device without a fault of its own sends what its carried regions hold, and COMMIT, at the drain start (R396; the writes into
the regions are sent as the regions' bytes, log 91). -/
def State.mirrorOut (s : State) : State :=
  match s.plan with
  | some p =>
    if s.pairMode ≠ 2 ∨ s.pst ≠ 3 ∨ s.lst ≠ 3 ∨ s.lk.ownDrop.isSome then s
    else
      (p.pair.carried.foldl (fun s x => s.emit (.flit 8 (leBytes 5 x.2 ++ s.bytes (bankBase x.1.unit + x.1.ofs) x.1.len))) s).emit (.flit 9 (leBytes 8 s.blk))
  | none => s

/-- In SPLIT a device mirrors the output blocks that it has drained for outputs it owns and does not shadow (R396). -/
def State.mirrorDrained (s : State) : State :=
  if s.pairMode ≠ 2 ∨ s.pst ≠ 3 ∨ s.lst ≠ 3 then s
  else s.aud.draining.foldl (fun s e =>
    if s.owns e.1 && !(s.shadowed.any fun o => decide (o.ix = e.1)) then
      s.emit (.flit 8 (leBytes 2 e.1 ++ leBytes 8 (s.blk - 1) ++ e.2.flatMap fun w => leBytes 4 w.toNat))
    else s) s

/-- What every block tick does (R29, R32, R37, R251, R262, R354, R358, R416). -/
def State.blockTick (s : State) : State :=
  let k := s.dev.sched.kicked
  let s2 := s.replaceStop.progStart.deepHold.tileTicks
  let s3 := if k then s2.publishSupply.publishSlots else s2
  let s4 := if !k ∧ fld (s.reg Csr.wdogCfg) 16 16 = 1 then s3.report 0x0144 16 [] else s3
  let s5 := ((s4.ptpLatch s.dev.sched.now).evalMotion).mirrorDrained.audioBlock
  let s6 := (s5.ceTick s.blk).modSched fun x => { x with psel := x.pselNext, stage := .none }
  (s6.vidFall.ageSettle).modSafety fun f => { f with invalid := [] }

/-- A condition of R433 fails now: a session, a connection, the USB4 link, or a peer. -/
def State.busyNow (s : State) : Bool :=
  decide (s.net.session ≠ 1) || s.net.conns.toList.any (·.isSome) || decide (fld (s.reg Csr.linkStat) 1 1 = 1)
    || [2, 3].contains (fld (s.reg Csr.pairStat) 5 3)

/-- The bytes of this device's STATE flit (Table 14-4): sample count, pair state, DROP, mode, plan identity, and the next sequence number of each
talker. -/
def State.stateFlit (s : State) : List Byte :=
  leBytes 8 s.sample.toNat ++ [BitVec.ofNat 8 s.pst, BitVec.ofNat 8 (b2n s.lk.ownDrop.isSome), BitVec.ofNat 8 s.pairMode]
    ++ leBytes 4 (match s.plan with | some p => p.planId.toNat | none => 0) ++ s.aud.talk.toList.map fun t => t.seq

/-- At a tick a device that is not SOLO pulses its sideband output, and at UP sends a STATE flit (R378, R383); a tick without one from the peer is
counted (Table 14-5). -/
def State.lkTick (s0 : State) : State :=
  let s1 := if s0.pst = 0 then s0 else s0.emit (.lkSync false)
  let s := if s0.lst = 3 then s1.emit (.flit 5 s0.stateFlit) else s1
  { s with lk := { s.lk with flSeen := false, flGap := if s.lk.flSeen then 0 else s.lk.flGap + 1 } }

/-- The tick reaches every fast-lane tile. -/
def State.fastTicks (s : State) : State :=
  { s with tiles := s.tiles.mapIdx fun n (t : Tile) => if n < 16 then t.fastTick else t }

/-- This tick is a block tick of the running plan (R29). -/
def State.atBlock (s : State) : Bool := decide (s.bsize ≠ 0) && s.plan.isSome && decide (s.sample.toNat % s.bsize = 0)

/-- The tiles that may wake at their per-tick entry at this tick: those waiting at the tick that begins the plan or the switch (R243). -/
def State.flFirst (s : State) : State :=
  s.modSched fun x => { x with flStart := if s.atBlock then x.flStart.filter fun n => decide ((s.tile (unitIx n)).state ≠ .run) else [] }

/-- The gPTP time of the present tick: on a grandmaster it advances by 62,500/3 ns a tick (R352), a follower measures it. -/
def State.gptpNow (s : State) (measured : DWord) : DWord :=
  if s.slavePort.isSome then measured else Config.gmEpoch + BitVec.ofNat 64 (s.sample.toNat * 62500 / 3)

/-- The sample tick (R29): the counter advances, and what waits for a tick happens. -/
def State.sampleTick (s : State) (now : DWord) : State :=
  let s1 := { s with sample := s.sample + 1 }.resetDue
  if !s1.dev.up then s1
  else
    let s2 := (((((s1.modSched fun x => { x with now := s1.gptpNow now }).modSafety fun f => { f with invTick := [] }).safeTick).ballastTick.aonSteer.audioTick).trigger 1).ptpDtc
    let s3 := s2.flFirst.lkTick.fastTicks
    let s4 := if s3.busyNow then s3.modPower fun p => { p with lastAct := s3.sample.toNat } else s3
    if s4.atBlock then s4.blockTick else s4

/-! ## The drain (R36, R37, R303, R341) -/

/-- What a tile's registers give for DETAIL (R421): CAUSE and FADDR, 0 where no entry was taken, and the selected ticket's record. -/
def tileDetail (t : Tile) : List Word :=
  [0, 0] ++ t.trecs

/-- A block-rate tile that has not executed DONE overruns (R37). -/
def State.overruns (s : State) : State :=
  (upFrom 0 16).foldl (fun s n =>
    let t := s.tile (unitIx n)
    if s.works n ∧ fld t.flCfg 0 0 = 0 ∧ !t.away ∧ t.bist.isNone ∧ (!t.doneInBlk ∨ t.heldTick) ∧ s.dev.sched.k0 ≤ s.blk then
      (s.modReg (Csr.wdStat n) fun x => setFld x 15 0 (satInc 0xFFFF (fld x 15 0))).report 0x0140 n (tileDetail t)
    else s) s

/-- The drain start, 10 µs before a block tick. -/
def State.drainStart (s : State) : State :=
  if s.plan.isNone ∨ s.bsize = 0 ∨ (s.sample.toNat + 1) % s.bsize ≠ 0 ∨ s.dev.sched.stage ≠ .none then s
  else ((((s.overruns.zeroOut.readAreas).trigger 3).d2hStage s.blk).mirrorOut).modSched fun x => { x with stage := .drain, kicked := false }

/-! ## The switch window (R263, R264) -/

/-- The block of the open window. -/
def State.winBlk (s : State) : Nat := (s.sample.toNat + 1) / s.bsize

/-- A parameter write of block n (R261, R262): into its region, or into the copy of a double-buffered one that is not in force, whose PSEL
bit then changes at the first tick of the block. -/
def State.putParam (s : State) (r : ParamRegion) (ofs : Nat) (bs : List Byte) : State :=
  match r.fast with
  | none => s.memWrite (bankBase r.loc.unit + r.loc.ofs + ofs) bs 2
  | some (b, second) =>
    let cur := s.dev.sched.psel.getLsbD b
    let s1 := s.memWrite (bankBase r.loc.unit + (if cur then r.loc.ofs else second) + ofs) bs 2
    s1.modSched fun x => { x with pselNext := blend x.pselNext (BitVec.ofNat 8 (2 ^ b)) (if cur then 0 else 0xFF) }

/-- The parameter writes of block n in acceptance order. -/
def State.putParams (s : State) (n : Nat) : State :=
  s.host.changes.foldl (fun s c => match c.kind with
    | .param r o bs => if c.block = n ∧ !c.old then s.putParam r o bs else s
    | _ => s) s

/-- A HANDOVER copy. -/
def State.handover (s : State) (h : Handover) : State :=
  let a := bankBase h.src.unit + h.src.ofs
  (s.eccReadRange a h.src.len 2).memWrite (bankBase h.dst.1 + h.dst.2) (s.bytes a h.src.len) 2

/-- Tick n − 10 µs: the target is fixed, parameter writes, HANDOVER copies, the sections a new variant needs, and the H2D blocks. -/
def State.windowStart (s : State) : State :=
  match s.plan with
  | none => s
  | some p =>
    if s.dev.sched.stage ≠ .drain then s
    else
      let n := s.winBlk
      let v := s.dev.sched.variant
      let tgt := s.planFrom n
      let cap := s.nextCap
      let sq := match tgt with | some q => s.underPlan q | none => s
      let nv := sq.nextVariant cap
      let q := tgt.getD p
      let had := match tgt with
        | some q => (s.dev.sched.loaded.find? fun x => decide (x.1.planId = q.planId)).map (·.2)
        | none => some v
      let s1 := s.putParams n
      let hs := (Plan.handovers q nv).filter fun h => match h.fromV with
        | none => tgt.isSome && decide (h.planId = p.planId)
        | some w => tgt.isNone && decide (w = v) && decide (nv ≠ v)
      let s2 := hs.foldl State.handover (s1.putSome q had nv fun x => !lateSect x && (tgt.isSome || s.inPhase p x))
      (s2.h2dWrite q n).modSched fun x => { x with stage := .start, target := tgt, nextVar := some nv, capTier := cap, riseOk := sq.vidReady }

/-- Tick n − 4.0 µs: the role table is rewritten, and queued spores are carried or returned (R253). -/
def State.windowRoles (s : State) : State :=
  match s.plan with
  | none => s
  | some p =>
    if s.dev.sched.stage ≠ .start then s
    else
      let q := s.dev.sched.target.getD p
      (s.rewriteRoles (Plan.roles q (s.dev.sched.nextVar.getD s.dev.sched.variant))).modSched fun x => { x with stage := .roles }

/-- The filter switches of the new plan, accepted before it runs (R286). -/
def State.ceRepend (s : State) : State :=
  s.host.changes.foldl (fun s c => match c.kind with
    | .filter k j _ => if c.old then s else
        { s with ce := vmod s.ce k fun x => { x with pend := x.pend ++ [{ job := j, block := c.block, done := false, xblk := none }] } }
    | _ => s) s

/-- COND_STAT.PLAN and DUP of the running plan (Table 15-10, R415). -/
def State.putConds (s : State) (p : Plan) : State :=
  (s.setCond 3 (p.tasks ≠ [])).setCond 4 ((Plan.safetyTiles p).all fun n => !(s.tile (unitIx n)).fenced)

/-- A new plan comes into force at block n (R264, R265, R409): engines, bindings, ports, shaping and the safety table; streams whose
endpoint it does not declare alike end. -/
def State.enforce (s : State) (q : Plan) (v : Tier) (n : Nat) : State :=
  let s1 := s.modSched fun x => { x with
    plan := some q, stored := false, k0 := n, target := none, loaded := x.loaded.filter fun y => decide (y.1.planId ≠ q.planId) }
  let s2 := ((s1.ceNewPlan.ceLoad q v).ceRepend).modHost fun h => { h with
    streams := h.streams.map fun x => if q.eps.contains x.ep then x else { x with stop := some (min n (x.stop.getD n)) } }
  ((((s2.putPorts q).putShaping q).putSafetyTable q v).liftFences.putConds q).putPair q

/-- Tick n − 2.0 µs: semaphores, job tables, stream programs, routes, bindings, leave bookings, variant and wake states of block n are put in
force. -/
def State.windowCommit (s : State) : State :=
  match s.plan with
  | none => s
  | some p =>
    if s.dev.sched.stage ≠ .roles then s
    else
      let n := s.winBlk
      let v := s.dev.sched.variant
      let nv := s.dev.sched.nextVar.getD v
      let tgt := s.dev.sched.target
      let q := tgt.getD p
      let s1 := (s.putSems (Plan.sems q nv)).putSome q (if tgt.isSome then none else some v) nv fun x => lateSect x && (tgt.isSome || s.inPhase p x)
      let s2 := match tgt with | some q => s1.enforce q nv n | none => s1
      let s3 := (s2.ceSwitch n).loadRoutes.modSched fun x => { x with variant := nv, nextVar := none, stage := .commit }
      let s4 := if s.dev.sched.kf.isSome then s3 else s3.putFast q nv (tgt.isSome || decide (nv ≠ v))
      let s5 := (((s4.putTiers s.boundTiles).setDark q).setReg Csr.govBooked (BitVec.ofNat 32 (Plan.peak q nv))).showTiers.decideStep
      if tgt.isSome then (s5.leaveSafe (n * s.bsize)).exhaust else s5

/-! ## Wakes (R30, R32, R37, R215, R239, R243, R246, R416, R521) -/

/-- The entry address of a tile's schedule in the present block. -/
def State.schedEntry (s : State) (n : Nat) : Option Word :=
  match s.plan with
  | some p =>
    (Plan.sched p s.dev.sched.variant n).bind fun es => (es[Plan.entryIx p s.dev.sched.variant n s.blk s.dev.sched.k0]?).map (·.1)
  | none => none

/-- The tier at which a tile leaves NAP: a fast-lane tile takes its new one, another keeps its own until the next block (R30). -/
def Tile.napTier (t : Tile) : Tier := if fld t.flCfg 0 0 = 1 then t.nextTier else t.tier

/-- The tile starts its slice: RUN at an address, at its tier. -/
def Tile.begin (t : Tile) (pc : Word) : Tile :=
  { t with mode := .run, tier := t.nextTier, pc := pc, frond := [], waiting := false, vslice := false, doneInBlk := false, heldTick := false }

/-- A tile in SLEEP wakes at the entry of its block, a fast-lane tile at its per-tick entry. -/
def State.tileWake (s : State) (u : UnitIx) : State :=
  let t := s.tile u
  if u.val = 16 ∨ t.mode ≠ .sleep ∨ !t.wakeDue ∨ t.away ∨ t.bist.isSome then s
  else if fld t.flCfg 0 0 = 1 then
    (s.modTile u fun t => t.begin t.flEntry).modSched fun x => { x with flStart := x.flStart.filter (· ≠ u.val) }
  else match s.schedEntry u.val with
    | some pc => s.modTile u fun t => t.begin pc
    | none => s

/-- A late tile that has executed DONE with a block tick held runs the newest block's entry at once (R37); one bound to the fast lane since starts
at its per-tick entry. -/
def State.heldWake (s : State) (u : UnitIx) : State :=
  let t := s.tile u
  if u.val = 16 ∨ t.mode ≠ .sleep ∨ !t.heldTick ∨ t.away ∨ t.bist.isSome then s
  else if fld t.flCfg 0 0 = 1 then s.modTile u fun t => { t.begin t.flEntry with wakeDue := true }
  else match s.schedEntry u.val with
    | some pc => s.modTile u fun t => { t.begin pc with wakeDue := true }
    | none => s

/-- A tile in NAP wakes at the frond after its NAP; at the tick that begins a plan or a switch, a bound tile at its per-tick entry. -/
def State.napWake (s : State) (u : UnitIx) : State :=
  let t := s.tile u
  if t.mode ≠ .nap ∨ !t.wakeDue ∨ t.away ∨ t.bist.isSome then s
  else if s.dev.sched.flStart.contains u.val ∧ fld t.flCfg 0 0 = 1 then
    (s.modTile u fun t => t.begin t.flEntry).modSched fun x => { x with flStart := x.flStart.filter (· ≠ u.val) }
  else s.modTile u fun t => { t with mode := .run, tier := t.napTier, vslice := false, heldTick := false }

/-- The plans for which tiles are powered up now: the running one, the stored one that waits for its start, a switch's target from its
cutoff on, and a verified replacement (R521). -/
def State.powerPlans (s : State) : List Plan :=
  s.plan.toList ++ s.dev.sched.ready.toList ++ (s.switchAt (s.blk + 1)).toList ++ s.dev.sched.target.toList
    ++ (match s.dev.sched.replace with | some r => r.plan.toList | none => [])

/-- A DARK tile to which such a plan gives work is powered up; the programming session keeps tiles without safety tasks DARK. -/
def State.tilePower (s : State) (u : UnitIx) : State :=
  let t := s.tile u
  let shut := match s.dev.sched.prog with | some b => decide (b ≤ s.blk) && !s.isCopy u.val | none => false
  if decide (u.val = 16) || t.fenced || shut || !(s.powerPlans.any fun p => Plan.hasWork p u.val) then s
  else s.modTile u fun t =>
    if t.mode = .dark then
      let r := if s.powerPlans.any fun p => Plan.isFast p u.val then s.mtier u.val else slower (s.mtier u.val) (if s.plan.isSome then s.dev.sched.capTier else s.cap)
      { t.powerUp with tier := r, nextTier := r, doneInBlk := true }
    else t

/-- No frond within 2.5 µs of a wake (R416). -/
def State.wakeFail (s : State) (u : UnitIx) : State :=
  let t := s.tile u
  if u.val < 16 ∧ t.wakeDue ∧ !t.away then
    (s.modTile u fun t => { t with wakeDue := false }).report 0x0143 u.val (tileDetail t)
  else s

/-- A bound tile that has not issued NAP by the output deadline misses the tick (R246). -/
def State.flDeadline (s : State) (u : UnitIx) : State :=
  let t := s.tile u
  if fld t.flCfg 0 0 = 1 ∧ t.mode = .run ∧ t.heldTick ∧ !t.away ∧ t.bist.isNone then
    (s.modTile u fun t => { t with
      flStat := setFld (setFld t.flStat 15 0 (satInc 0xFFFF (fld t.flStat 15 0))) 16 16 1, flMissed := true }).report 0x0141 u.val (tileDetail t)
  else s

end Sys2Proof.Machine
end

