-- ==== Sys2Proof/Machine/Lichen.lean ====
section
/-! DEFINITION. The Lichen pair: link and pair states, drop-out and takeover, comparison records, mirroring and resynchronisation
(R377 to R398).  What the peer's flits say comes with their commands. -/

namespace Sys2Proof.Machine

/-! ## Dropping out and taking over (R393 to R397) -/

/-- A drop notice of the peer is received: counted, and this device takes over what the peer owned (in SPLIT the shadowed outputs; the
rest comes with the survivor plan). -/
def State.dropSeen (s : State) (latent : Bool) : State :=
  if s.lk.peerDrop.isSome ∨ s.pst = 0 then s
  else
    let s1 := ((s.bump Csr.dropCnt).evtBlk).modLk fun l => { l with peerDrop := some s.sample.toNat, latent := latent }
    if s.pst ≠ 3 then s1
    else
      let rest := s.allOuts.filter fun o => !s.owns o
      let mine := if s.pairMode = 2 then rest.filter fun o => s.shadowed.any fun e => decide (e.ix = o) else rest
      ((s1.bump Csr.takeCnt).dropOf rest).modLk fun l => { l with moves := l.moves ++ s.movesOf mine true }

/-- At a moving point the old owner releases the pins and the survivor drives them. -/
def State.ownMove (s : State) : State :=
  let due := s.lk.moves.filter fun m => decide (m.at_ ≤ s.sample.toNat)
  if due = [] then s
  else
    let left := s.lk.moves.filter fun m => decide (s.sample.toNat < m.at_)
    let own0 := if fld (s.reg Csr.pairStat) 7 7 = 1 then s.allOuts else s.lk.own
    let own := due.foldl (fun l m => if m.take then l ++ m.outs.filter (fun o => !l.contains o) else l.filter fun o => !m.outs.contains o) own0
    let took := due.any fun m => m.take
    let seqs := match s.lk.peer with | some p => p.seqs | none => []
    let s1 := (s.modLk fun l => { l with 
        moves := left, own := own, lastMove := some s.sample.toNat
        fastMoved := if due.any fun m => m.fast then some s.sample.toNat else l.fastMoved }).setAllOwn
      (took && (s.allOuts.all fun o => own.contains o))
    if took ∧ left = [] then
      let s2 := (s1.setPst 4).setRegFld Csr.pairStat 6 6 1
      let s3 := s2.modAud fun a => { a with talk := a.talk.mapIdx fun i (t : TalkState) => { t with seq := seqs.getD i t.seq } }
      if s.pairMode = 2 ∧ s.lk.latent then s3.enterSafe else s3
    else if left = [] then s1.setRegFld Csr.pairStat 6 6 0
    else s1

/-- A dropped device resets 1.0 ms (48 ticks) after the last of its outputs has moved. -/
def State.droppedReset (s : State) : State :=
  match s.lk.lastMove with
  | some t => if s.pst = 5 ∧ s.lk.moves = [] ∧ t + 48 ≤ s.sample.toNat then s.deviceReset 8 0 else s
  | none => s

/-- The SPLIT survivor switches to its survivor plan (R396), with the cutoff of a variant step. -/
def State.survivorSwitch (s : State) : State :=
  match s.plan with
  | some p =>
    if s.pairMode = 2 ∧ s.lk.peerDrop.isSome ∧ s.lk.ownDrop.isNone ∧ (s.dev.sched.stage = .none ∨ s.dev.sched.stage = .drain) then
      match s.dev.sched.loaded.find? fun x => decide (x.1.planId = p.pair.survivor) with
      | some x => (s.modSched fun y => { y with target := some x.1 }).modLk fun l => { l with surv := some (s.blk + 1) }
      | none => s
    else s
  | none => s

/-- A peer silent on sideband and link for 2 ticks: takeover, and the survivor enters the safe output state (R397). -/
def State.peerSilent (s : State) : State :=
  if s.pst = 3 ∧ 2 ≤ s.lk.sbGap ∧ 2 ≤ s.lk.flGap then (s.dropSeen false).enterSafe else s

/-- A PARTNER in WAIT goes SOLO after 200 ms (9,600 ticks) without a pulse (R387). -/
def State.waitTimeout (s : State) : State :=
  if s.pst = 1 ∧ s.dev.lkRole ∧ 9600 ≤ s.sample.toNat ∧ !s.lk.pulsed then s.setPst 0 else s

/-! ## Sideband and link (R378, R384, R386) -/

/-- The sideband at a tick: 0 a pulse, with the offset of the peer's tick, 1 none, 2 DROP. -/
def State.sideband (s : State) (k : Nat) (ps : Word) : State :=
  if !s.pairEn then s
  else match k with
    | 0 => ((((s.setReg Csr.syncPhase ps).setRegFld Csr.lkStat 3 3 1).setRegFld Csr.lkStat 4 4 0).setRegFld Csr.lkStat 5 5 (b2n s.dev.lkRole)).modLk fun l =>
        { l with sbGap := 0, pulsed := true }
    | 1 => ((s.setRegFld Csr.lkStat 3 3 0).lkErrs 8).modLk fun l => { l with sbGap := l.sbGap + 1 }
    | _ => (s.setRegFld Csr.lkStat 4 4 1).dropSeen s.lk.latent

/-- Training ends. -/
def State.trainDone (s : State) (ok : Bool) : State :=
  if s.lst = 1 ∨ s.lst = 4 then (if ok then s.laneTrained else s).setLst (if ok then 2 else 1) else s

/-- ALIGN ends: roles opposite and versions equal give UP, else CONFLICT with SOLO (R386). -/
def State.align (s : State) (opposite same : Bool) : State :=
  if s.lst ≠ 2 then s
  else if opposite && same then (s.setLst 3).modLk fun l => { l with flGap := 0, replays := [], peerDrop := none }
  else (((s.setLst 5).lkErrs (if opposite then 128 else 64)).setPst 0).setDtc 0x9A5400 0xFF

/-- The link goes to RETRAIN at the replay limit or after 8 ticks without a STATE flit; while the sideband pulses both devices go ALONE,
each with what it owns (R397). -/
def State.retrain (s : State) : State :=
  let rep := decide (16 ≤ s.lk.replays.length)
  if s.lst ≠ 3 ∨ !(rep || decide (8 ≤ s.lk.flGap)) then s
  else
    let s1 := ((s.setLst 4).bump Csr.retrainCnt).modLk fun l => { l with replays := [] }
    let s2 := if rep then s1.lkErrs 4 else s1
    if s.pst = 3 ∧ fld (s.reg Csr.lkStat) 3 3 = 1 then (s2.setPst 4).setDtc 0x9A5400 0xFF else s2

/-- A replay: counted, and kept for 1 ms (48 ticks). -/
def State.replay (s : State) : State :=
  (s.bump Csr.replayCnt).modLk fun l => { l with
    nak := true, replays := (l.replays.filter fun t => decide (s.sample.toNat < t + 48)) ++ [s.sample.toNat] }

/-- A codeword is received: `fec` 0 clean, 1 corrected (symbols per lane), 2 not correctable; `crcBad` says that a run in it fails its CRC. -/
def State.codeword (s : State) (seq ack : Byte) (nak : Bool) (fec : Nat) (syms : List Nat) (crcBad : Bool) : State :=
  if s.lst ≠ 3 then s
  else
    let s0 := (syms.zipIdx).foldl (fun s x => s.modReg (0x20800224 + 0x40 * (x.2 % 4)) fun v => BitVec.ofNat 32 (min 0xFFFFFFFF (v.toNat + x.1))) s
    let s1 := if fec = 1 then s0.bump Csr.fecCorr else s0
    if fec = 2 then ((s1.bump Csr.fecUnc).lkErrs 1).replay
    else if crcBad then ((s1.bump Csr.lkCrcCnt).lkErrs 2).replay
    else if seq ≠ s.lk.rxSeq then s1.modLk fun l => { l with nak := true }
    else
      let s2 := s1.modLk fun l => { l with rxSeq := seq + 1, nak := false, txAck := ack, txSeq := if nak then ack + 1 else l.txSeq }
      if nak then (s2.bump Csr.replayCnt).modLk fun l => { l with
        replays := (l.replays.filter fun t => decide (s.sample.toNat < t + 48)) ++ [s.sample.toNat] } else s2

/-- The peer's tables agree with the running plan's (R388). -/
def State.agrees (s : State) (x : PeerState) : Bool :=
  match s.plan with
  | some p => decide (x.mode = p.pair.mode) && decide (x.maps = (p.pair.ownPri, p.pair.ownPar, p.pair.shadow))
      && (decide (p.pair.mode ≠ 1) || decide (x.planId = p.planId))
  | none => true

/-- This device is the receiving side of a resync with that peer: it waits, or the peer has run for longer; of two that have run alike the
PARTNER strap receives (R387, R398). -/
def State.receives (s : State) (x : PeerState) : Bool :=
  (decide (x.pstate = 3) || decide (x.pstate = 4))
    && (decide (s.pst = 1) || (decide (s.pst = 4)
          && (decide (s.sample.toNat < x.sample.toNat) || (decide (s.sample = x.sample) && s.dev.lkRole))))

/-- A STATE flit. -/
def State.flitState (s : State) (x : PeerState) : State :=
  if s.lst ≠ 3 then s
  else
    let s1 := (s.setRegFld Csr.pairStat 5 3 x.pstate.val).modLk fun l => { l with peer := some x, flSeen := true, flGap := 0 }
    if x.drop then s1.dropSeen x.latent
    else if !s.agrees x then s1.lkErrs 128
    else if s.receives x then
      let s2 := (((s1.setPst 2).setAllOwn false).setRegFld Csr.resyncStat 1 0 1).setReg Csr.resyncBytes 0
      { (s2.modLk fun l => { l with own := [], recv := true, join := none }) with
        sample := x.sample, tiles := s2.tiles.mapIdx fun n (t : Tile) => if n < 16 then { t with heldOff := true } else t }
    else if (s.pst = 3 ∨ s.pst = 4) ∧ x.pstate = 2 ∧ fld (s.reg Csr.resyncStat) 1 0 = 0 then
      ((s1.setPst 4).setRegFld Csr.resyncStat 1 0 1).modLk fun l => { l with recv := false, join := none }
    else s1

/-! ## Records and verdicts (R391, R392) -/

/-- A RECORD flit: the peer's CRC_BLK, or CRC_FL, of a block. -/
def State.flitRecord (s : State) (fl : Bool) (blk : Nat) (crc : Word) : State :=
  if s.lst ≠ 3 then s
  else s.modLk fun l =>
    let old := (l.peerRecs.find? fun r => decide (r.blk = blk)).getD { blk := blk, crcB := none, crcF := none }
    let new := if fl then { old with crcF := some crc } else { old with crcB := some crc }
    { l with peerRecs := (new :: l.peerRecs.filter fun r => decide (r.blk ≠ blk)).take 4 }

/-- CRC_BLK of the block being drained. -/
def State.crcBlk (s : State) : Word :=
  let es := s.shadowed.filter fun e => !s.isFastOut e
  crc32 ((upFrom 0 128).flatMap fun i =>
    if es.any fun e => decide (e.ix = i) then
      ((s.aud.draining.find? fun (x : Nat × List Word) => decide (x.1 = i)).elim [] (·.2)).flatMap fun (w : Word) => leBytes 4 w.toNat
    else [])

/-- CRC_FL of block k. -/
def State.crcFl (s : State) (k : Nat) : Word :=
  let es := s.shadowed.filter fun e => s.isFastOut e
  crc32 ((upFrom 0 128).flatMap fun i =>
    if es.any fun e => decide (e.ix = i) then (upFrom (k * s.bsize) s.bsize).flatMap fun t => leBytes 4 (s.outVal t i).toNat else [])

/-- A verdict point: VB of the present block, or VF of the block before. -/
def State.verdictPoint (s : State) (fl : Bool) : State :=
  let k := if fl then s.blk - 1 else s.blk
  let mine := if fl then s.crcFl k else s.crcBlk
  let act := (decide (s.pst = 3) || decide (s.lk.peerDrop.isSome) || decide (s.lk.ownDrop.isSome) || (decide (s.pst = 4) && s.lk.join.isSome)
      || (decide (s.pst = 2) && s.lk.join.isSome)) && decide (s.bsize ≠ 0) && (s.lk.join.isNone || decide (s.lk.join.getD 0 ≤ k))
  if !act then s
  else
    let s1 := (s.emit (.flit 6 ([BitVec.ofNat 8 (b2n fl)] ++ leBytes 8 k ++ leBytes 4 mine.toNat))).modLk fun l =>
      let old := (l.recs.find? fun r => decide (r.blk = k)).getD { blk := k, crcB := none, crcF := none }
      let new := if fl then { old with crcF := some mine } else { old with crcB := some mine }
      { l with recs := (new :: l.recs.filter fun r => decide (r.blk ≠ k)).take 4 }
    match (s.lk.peerRecs.find? fun r => decide (r.blk = k)).bind fun r => if fl then r.crcF else r.crcB with
    | none => s1
    | some theirs =>
      let eq := decide (mine = theirs)
      let bad := !eq || s.lk.mismatch
      let s2 := (s1.setReg Csr.lkVerdict (BitVec.ofNat 32 (b2n eq + 2 * b2n s.lk.mismatch))).modLk fun l => { l with mismatch := false }
      let s3 := if fl then s2 else (s2.setReg Csr.crcOwn mine).setReg Csr.crcPeer theirs
      let s4 := if eq then s3 else (s3.bump Csr.misCnt).evtBlk.lkErrs 16
      let det := leBytes 8 k ++ leBytes 4 mine.toNat ++ leBytes 4 theirs.toNat
      match s.lk.ownDrop, s.lk.peerDrop with
      | some _, some _ => (s4.modLk fun l => { l with moves := [] }).enterSafe
      | none, none =>
        if bad then ((s4.logEvent (Config.lichenEvent 0) 0xFF 2 0x9A5400 det).setDtc 0x9A5400 0xFF).enterSafe
        else if fl ∧ s.pst ≠ 3 ∧ s.lk.join = some k ∧ s.lk.recs.any (fun r => decide (r.blk = k) && decide (r.crcB.isSome)
            && (s.lk.peerRecs.any fun q => decide (q.blk = k) && decide (q.crcB = r.crcB))) then
          -- both parts of the first record match: PAIRED; the joining side owns nothing in SHADOW and its half in SPLIT
          let half := match s.plan with | some p => bitOuts (if s.dev.lkRole then p.pair.ownPar else p.pair.ownPri) | none => []
          let s5 := (s4.setPst 3).modLk fun l => { l with join := none, peerDrop := none, ownDrop := none
                                                          own := if s.pairMode = 2 then half else l.own }
          if s.pairMode = 2 then s5.setAllOwn false else s5
        else s4
      | _, peer =>
        if eq then s4
        else
          -- CRC_BLK covers nothing driven yet; a frame carries the words of the tick before it (Table 14-12)
          let drove := fl && s.lk.dropFast && (match s.lk.fastMoved with | some t => decide (k * s.bsize + 1 < t) | none => true)
          let s5 := (s4.logEvent (Config.lichenEvent (if drove then 0 else 1)) 0xFF (if drove then 2 else 1) 0x9A5400 det).setDtc 0x9A5400 0xFF
          if drove ∧ peer.isSome then s5.enterSafe else s5

/-! ## Mirroring and resynchronisation (R396, R398) -/

/-- The bytes a mirror entry takes in the journal. -/
def mirrorLen (m : Mirror) : Nat := match m with | .write _ bs => bs.length | .out _ _ ws => 4 * ws.length

/-- JRNL_STAT. -/
def State.showJournal (s : State) : State :=
  s.setReg Csr.jrnlStat (BitVec.ofNat 32 ((s.lk.journal.foldl (fun n m => n + mirrorLen m) 0) / 64 % 2 ^ 20 + b2n s.lk.commit.isSome * 2 ^ 20))

/-- A MIRROR flit goes into the journal. -/
def State.flitMirror (s : State) (m : Mirror) : State :=
  if s.lst ≠ 3 ∨ s.pst ≠ 3 then s else (s.modLk fun l => { l with journal := l.journal ++ [m] }).showJournal

/-- A COMMIT flit closes the journal of a block. -/
def State.flitCommit (s : State) (blk : Nat) : State :=
  if s.lst ≠ 3 ∨ s.pst ≠ 3 then s
  else ((s.setReg Csr.commitLo (BitVec.ofNat 32 blk)).setReg Csr.commitHi (BitVec.ofNat 32 (blk / 2 ^ 32))).modLk (fun l => { l with commit := some blk })
    |>.showJournal

/-- At tick j + 1 a journal closed by COMMIT(j) is applied, another one is discarded. -/
def State.journalApply (s : State) : State :=
  let ok := match s.lk.commit with | some j => decide (j + 1 = s.blk) | none => false
  let s1 := if !ok then s
    else s.lk.journal.foldl (fun s m => match m with
      | .write a bs => if (locate a.toNat).isSome then s.memWrite a.toNat bs 2 else s
      | .out ix blk ws => s.modLk fun l => { l with mirrored := ((ix, blk, ws) :: l.mirrored).take 2048 }) s
  (s1.modLk fun l => { l with journal := [], commit := none }).showJournal

/-- Private to each device: the first 64 KB of the service core's bank (R398). -/
def privateByte (a : Nat) : Bool := decide (0x04000000 ≤ a) && decide (a < 0x04010000)

/-- Resync data is written, except to the private part. -/
def State.resyncPut (s : State) (a : Nat) (bs : List Byte) : State :=
  if (locate a).isSome ∧ !privateByte a ∧ bs.length ≠ 0 ∧ (locate (a + bs.length - 1)).isSome then s.memWrite a bs 2 else s

/-- BULK data arrives. -/
def State.flitBulk (s : State) (a : Nat) (bs : List Byte) : State :=
  if s.lst ≠ 3 ∨ s.pst ≠ 2 ∨ fld (s.reg Csr.resyncStat) 1 0 ≠ 1 then s
  else (s.resyncPut a bs).modReg Csr.resyncBytes fun x => x + BitVec.ofNat 32 (bs.length / 64)

/-- DELTA data arrives. -/
def State.flitDelta (s : State) (a : Nat) (bs : List Byte) : State :=
  if s.lst ≠ 3 ∨ s.pst ≠ 2 then s else s.resyncPut a bs

/-- The sender's runs of a phase: the whole SRAM but the private part in BULK; in DELTA what the carried regions hold, the last value of every write
into them since (R398, log 91). -/
def State.resyncOut (s : State) (typ : Nat) : State :=
  let run := fun (s : State) (a n : Nat) => s.emit (.flit typ (leBytes 5 a ++ s.bytes a n))
  if s.lk.recv then s
  else if typ = 10 then
    ((upFrom 0 23).foldl (fun s b => if b = 16 then run s 0x04010000 0x1F0000 else run s (bankBase b) (bankSize b)) s).setReg Csr.resyncBytes
      (BitVec.ofNat 32 (67043328 / 64))
  else match s.plan with
    | some p => p.pair.carried.foldl (fun s x => run s (bankBase x.1.unit + x.1.ofs) x.1.len) s
    | none => s

/-- The bulk phase ends, then catch-up; the join block is the first that starts after. -/
def State.resyncPhase (s : State) : State :=
  match fld (s.reg Csr.resyncStat) 1 0 with
  | 1 => (s.resyncOut 10).setRegFld Csr.resyncStat 1 0 2
  | 2 => if s.lk.join.isSome then s else (s.resyncOut 11).modLk fun l => { l with join := some (s.blk + 1) }
  | _ => s

/-- At tick q − 1 the joining device's channels start, and its tiles wake at tick q. -/
def State.resyncJoin (s : State) : State :=
  match s.lk.join with
  | some q =>
    if fld (s.reg Csr.resyncStat) 1 0 = 2 ∧ q ≤ s.blk + 1 then
      let s1 := s.setRegFld Csr.resyncStat 1 0 3
      if s.lk.recv then { s1 with tiles := s1.tiles.mapIdx fun n (t : Tile) => if n < 16 then { t with heldOff := false } else t } else s1.resyncOut 11
    else s
  | none => s

end Sys2Proof.Machine
end

