-- ==== Sys2Proof/Machine/Boot.lean ====
section
/-! DEFINITION. Start-up, restarts, reports to the hub and parked standby (R14, R400 to R409, R433, R434, R466 to R476). -/

namespace Sys2Proof.Machine

/-! ## Time zero (R14, R377, R466) -/

/-- The device leaves reset: a new time zero. -/
def State.start (s : State) (lkRole : Bool) : State :=
  let s1 := (s.modDev fun d => { d with up := true, lkRole := lkRole }).modPower fun p => { p with inStby := false }
  let s2 := (((s1.setReg Csr.stbyCfg 0).setRegFld Csr.pmicStat 0 0 1).setPhase 0).setRegFld Csr.pairCfg 3 3 (b2n lkRole)
  { (if lkRole then s2.setPst 1 else s2) with sample := 0 }

/-- The always-on domain has lost its supply: what it keeps takes its reset value (R489). -/
def State.aonLost (s : State) : State :=
  let s1 := [Csr.rstCause, Csr.opMin, Csr.sbMin, Csr.stbyLo, Csr.stbyHi].foldl (fun s a => s.setReg a 0) s
  ((upFrom 0 16).foldl (fun s n => s.setRegFld (Csr.ageOf n) 23 16 0) s1).modAge fun a => { a with lastOp := 0, resume := true }

/-- PWR_GOOD rises with all supplies valid. -/
def State.timeZero (s : State) (aonHeld lkRole : Bool) : State :=
  if s.dev.up ∨ s.dev.hold then s else (if aonHeld then s else s.aonLost).start lkRole

/-- 1 µs after a reset whose cause left PWR_GOOD high. -/
def State.resetRelease (s : State) (lkRole : Bool) : State :=
  if s.dev.up ∨ s.dev.hold ∨ fld (s.reg Csr.rstCause) 3 0 ∈ [0, 1, 7] then s else s.start lkRole

/-- Every sensor reads below 140.0 °C: the thermal hold ends. -/
def State.holdRelease (s : State) (ts : List Word) (lkRole : Bool) : State :=
  if !s.dev.up ∧ s.dev.hold ∧ (upFrom 0 24).all (fun i => decide (toInt 32 (ts.getD i 0).toNat < 1400)) then
    (s.modDev fun d => { d with hold := false }).start lkRole
  else s

/-! ## The start-up timeline (Table 18-1) -/

/-- The boot ROM starts and requests the wipe leave; the always-on domain and AUDCLK run, and the PLLs have locked (R466, Table 1-4). -/
def State.romStart (s : State) : State :=
  if s.phase ≠ 0 then s else (((s.orReg Csr.pllStat 0x1F).orReg Csr.aonStat 1).setPhase 1).leaveAsk .wipe

/-- The wipe: zero with valid check bits in every bank and shadow array (R45, R467). -/
def State.wipe (s : State) : State :=
  if s.phase ≠ 1 ∨ s.held .wipe = 0 then s
  else
    let s1 := { s with
      mem := s.mem.filter fun c => decide (mramBase ≤ c.1) && decide (c.1 < mramBase + mramSize)
      ecc := [], wback := [], bmt := State.reset.bmt }
    ((upFrom 0 23).foldl (fun s n => s.setReg (bankReg n 0x2C) 1) s1).setPhase 2

/-- PART_STAT of a partition: state and use (Table 18-14). -/
def State.setPart (s : State) (i st : Nat) (use : Bool) : State := (s.setRegFld (Csr.partStat i) 1 0 st).setRegFld (Csr.partStat i) 3 3 (b2n use)

/-- The START record: SEQ and BOOT follow the newest valid record held (R374). -/
def State.logStart (s0 : State) : State :=
  let s := s0.fwRead logBase 0x40000
  let seqs := s.logSeqs
  let top := seqs.foldl (fun (m : Nat × Nat) x => if m.1 ≤ x.1 then x else m) (0, 0)
  let next : Word := if seqs = [] then 0 else BitVec.ofNat 32 (top.1 + 1)
  let boot : Word := if seqs = [] then 0 else BitVec.ofNat 32 (top.2 + 1)
  let e : EventRec :=
    { block := BitVec.ofNat 64 s.blk, code := 0x0310, source := 16, sev := 0, dtc := 0, detail := [BitVec.ofNat 8 (fld (s.reg Csr.rstCause) 3 0)] }
  s.modSafety fun f => { f with nextSeq := next, boot := boot, events := e :: f.events, logReady := true }

/-- A firmware image of a partition that the ROM accepts: present, signed, not too old, and readable. -/
def State.fwGood (s : State) (ofs : Nat) (g : Option FwImage) : Bool :=
  match g with | some x => s.fwOk x && !s.mramBad ofs 0x80000 | none => false

/-- The boot ROM verifies the image with the higher write sequence, A on a tie, and the other when that fails; with neither it halts
(R469, R470). -/
def State.fwVerify (s0 : State) : State :=
  if s0.phase ≠ 2 then s0
  else
    let s := s0.fwRead 0 0x100000
    let im := s.dev.images
    let seq : Option FwImage → Nat := fun g => match g with | some x => x.seq + 1 | none => 0
    let bFirst := decide (seq im.fwA < seq im.fwB)
    let okA := s.fwGood 0 im.fwA
    let okB := s.fwGood 0x80000 im.fwB
    let useB := if bFirst then okB else !okA && okB
    let st := fun (g : Option FwImage) (ok : Bool) => if g.isNone then 0 else if ok then 1 else 2
    let s1 := (s.setPart 0 (st im.fwA okA) (!useB && okA)).setPart 1 (st im.fwB okB) useB
    if !okA ∧ !okB then s1.setPhase 9
    else
      let fb := decide (bFirst ≠ useB)
      let s2 := ((s1.setReg Csr.fwStat (BitVec.ofNat 32 (b2n useB + 2 * b2n fb))).setRegFld Csr.bootStat 4 4 (b2n fb)).setPhase 3
      let s3 := (s2.scRestart).logStart.resumeCounts
      if fb then s3.logEvent 0x0301 16 1 0 [] else s3

/-- The microcode patches are verified and loaded into every tile and the service core, and the patch registers lock (R152). -/
def State.patchLoad (s0 : State) : State :=
  if s0.phase ≠ 3 then s0
  else
    let s := s0.fwRead 0x3A4000 0x10000
    let lock := fun (t : Tile) (lvl nd nf : Nat) (fail : Bool) =>
      { t with ucodeLvl := BitVec.ofNat 32 (lvl % 65536 + nd % 128 * 2 ^ 16 + nf % 64 * 2 ^ 23 + b2n fail * 2 ^ 30 + 2 ^ 31) }
    let all := fun (s : State) (f : Tile → Tile) => { s with tiles := s.tiles.map f }
    (match s.dev.images.patch with
    | none => ((all s fun t => lock t 0 0 0 false).setPart 7 0 false).setReg Csr.patchStat 0
    | some q =>
      if q.ok ∧ !s.mramBad 0x3A4000 0x10000 then
        let d := q.disp.take 64
        let f := q.field.take 32
        ((all s fun t => lock { t with patch := { disp := d, field := f } } q.level (d.filter (· ≠ 0)).length f.length false).setPart 7 1 true).setReg
          Csr.patchStat (BitVec.ofNat 32 (q.level % 65536 + 65536))
      else
        ((((all s fun t => lock t 0 0 0 true).setPart 7 2 false).setReg Csr.patchStat (BitVec.ofNat 32 (q.level % 65536))).logEvent 0x0304 16 1 0x9A5100 []).setDtc 0x9A5100 16).setPhase 4

/-- The registers of the two CAN controllers from their configuration words. -/
def State.putCan (s : State) (ws : List Word) : State :=
  (upFrom 0 2).foldl (fun s c =>
    let w := fun (i : Nat) => ws.getD (32 * c + i) 0
    let s1 := [(0, 7), (1, 0xFFFFFFFF), (2, 0xFFFFFFFF), (3, 0x7F)].foldl (fun s i => s.setReg (Csr.can c (4 * i.1)) (w i.1 &&& BitVec.ofNat 32 i.2)) s
    let s2 := (upFrom 0 28).foldl (fun s i => s.setReg (Csr.can c (0x30 + 4 * i)) (w (4 + i) &&& 0x3FFFFFFF)) s1
    s2.setReg (Csr.can c 0x10) (if fld (w 0) 0 0 = 1 then 0 else 3)) s

/-- The registers of the four MACs from their configuration words; without a SLAVE port the device is grandmaster on its MASTER ports. -/
def State.putEth (s : State) (ws : List Word) : State :=
  let s1 := (upFrom 0 4).foldl (fun s m =>
    [(0, 0x1FFFFF), (8, 0xFFFFFFFF), (0x0C, 0xFFFF), (0x10, 0xFFFFFFFF), (0x14, 0xFFFFFFFF)].zipIdx.foldl (fun s x =>
      s.setReg (ethReg m x.1.1) (ws.getD (5 * m + x.2) 0 &&& BitVec.ofNat 32 x.1.2)) s) s
  if s1.slavePort.isSome then s1
  else (upFrom 0 4).foldl (fun s m => if s.ptpRole m = 1 then s.orReg (ethReg m 0x18) 3 else s) s1

/-- The words of Table 18-3, with the MAC address of the serial number's first bytes. -/
def State.defaultEth (s : State) : List Word :=
  let b := fun (i : Nat) => fld (s.reg (Csr.serial (i / 4))) (8 * (i % 4) + 7) (8 * (i % 4))
  [0x141, BitVec.ofNat 32 (b 4 + b 3 * 2 ^ 8 + b 2 * 2 ^ 16 + b 1 * 2 ^ 24), BitVec.ofNat 32 (b 0 + 0x200), 0xC0A8640A, 0xFFFFFF00,
   0x40, 0, 0, 0, 0, 0x40, 0, 0, 0, 0, 0x40, 0, 0, 0, 0]

/-- The calibration copies are read, and the plan key that their signatures are checked under. -/
def State.calRead (s : State) : State := (s.fwRead 0x300000 0x20000).planKeyRead

/-- The valid calibration copy with the higher sequence: its number and contents (R475). -/
def State.calPick (s : State) : Option (Nat × CalImage) :=
  let good := fun (i : Nat) (g : Option CalImage) => match g with
    | some x => if s.calOk x && !s.mramBad (0x300000 + 0x10000 * i) 0x10000 then some (i, x) else none
    | none => none
  match good 0 s.dev.images.calA, good 1 s.dev.images.calB with
  | some a, some b => if a.2.seq < b.2.seq then some b else some a
  | some a, none => some a
  | none, b => b

/-- Calibration is applied, or the defaults; the lifecycle lock is set where the lifecycle has it (R475, R477). -/
def State.calApply (s0 : State) : State :=
  if s0.phase ≠ 4 then s0
  else
    let s := s0.calRead
    let s1 := match s.calPick with
      | some (i, c) =>
        let r := [(Csr.stbyCfg, c.stby &&& 0x1FFFD), (Csr.aonCfg, c.aonClk &&& 0x3F7F), (Csr.pmicCfg, c.pmic &&& 0xFF), (Csr.ageCfg, c.age &&& 0x00FFFFFF),
          (Csr.pairCfg, BitVec.ofNat 32 (fld c.pair 0 0 + 8 * b2n s.dev.lkRole)),
          (Csr.calStat, BitVec.ofNat 32 (i + c.seq % 65536 * 65536)), (Csr.supSlot, BitVec.ofNat 32 (c.supSlot % 256))]
        (((r.foldl (fun (s : State) (x : Nat × Word) => s.setReg x.1 x.2) s).putCan c.can).putEth c.eth).modNet (fun n => { n with cal := some c }) |>.setPart 3 1 true
      | none =>
        let s2 := (((s.setReg Csr.calStat 2).setRegFld Csr.bootStat 5 5 1).setReg Csr.aonCfg 0).setReg Csr.pairCfg (BitVec.ofNat 32 (8 * b2n s.dev.lkRole))
        ((((s2.putCan ([1, Config.defaultNbt, 0, 0] ++ Config.defaultFilters.take 28)).putEth s.defaultEth).setPart 3
          (if s.dev.images.calA.isNone ∧ s.dev.images.calB.isNone then 0 else 2) false).logEvent 0x0302 16 1 0 [])
    ((if 2 ≤ s.lc then s1.orReg Csr.lcStat 8 else s1).pairStart).setPhase 5

/-- A plan is refused at a start: logged with its DTC. -/
def State.planRefused (s : State) (status : Nat) : State :=
  ((((s.setRegFld Csr.bootStat 7 6 1).setReg Csr.splanStat (BitVec.ofNat 32 (1 + status * 256))).setPart 2 2 false).logEvent 0x0303 16 1 0x9A5200
    [BitVec.ofNat 8 status]).setDtc 0x9A5200 16

/-- The stored plan is read, and the plan key. -/
def State.storedRead (s : State) : State := (s.fwRead 0x100000 0x200000).planKeyRead

/-- The status with which the stored plan is refused now: an unreadable partition fails its signature (Table 18-6). -/
def State.storedRefusal (s : State) (g : PlanImage) : Option Nat := if s.mramBad 0x100000 0x200000 then some 4 else s.verifyPlan g

/-- The stored plan is verified at start-up (R234, R470). -/
def State.planVerify (s : State) : State :=
  if s.phase ≠ 5 ∨ s.dev.sched.ready.isSome then s
  else if s.lc = 0 ∨ 4 ≤ s.lc ∨ fld (s.reg Csr.bootStat) 5 5 = 1 then s.setPhase 8
  else match s.dev.images.plan with
    | none => ((s.setRegFld Csr.bootStat 7 6 2).setReg Csr.splanStat 2).setPhase 8
    | some g =>
      let s := s.storedRead
      match s.storedRefusal g with
      | some st => (s.planRefused st).setPhase 8
      | none => ((s.setRegFld Csr.bootStat 7 6 0).setReg Csr.splanStat 0).setPart 2 1 true |>.modSched fun x => { x with ready := some g.plan }

/-- Microseconds of a sample count. -/
def usOf (n : Nat) : Nat := n * 1000 / 48

/-- Hold tiles that a test selects, and free the others. -/
def State.holdTiles (s : State) (f : Nat → Bool) : State :=
  { s with tiles := s.tiles.mapIdx fun n (t : Tile) => if n < 16 then { t with heldOff := f n } else t }

/-- What every start of a plan puts in force (Table 9-12, R249, R257, R496). -/
def State.putPlan (s : State) (p : Plan) (v : Tier) : State :=
  let s1 := (((s.rewriteRoles (Plan.roles p v)).putSems (Plan.sems p v)).loadRoutes.putPorts p).putShaping p
  (((s1.putSafetyTable p v).setReg Csr.govBooked (BitVec.ofNat 32 (Plan.peak p v))).putConds p).putPair p

/-- Tiers of the variant, and no tile owes a DONE for a block it did not run. -/
def State.putTiles (s : State) (was : List Nat) : State :=
  { s.putTiers was with tiles := (s.putTiers was).tiles.map fun (t : Tile) => { t with doneInBlk := true } }

/-- A tile without a safety task is held: in DEEP, and in the safety phase (R32). -/
def State.holdDue (s : State) (n : Nat) : Bool :=
  (decide (fld (s.reg Csr.supplyStat) 4 4 = 1) || s.dev.sched.kf.isSome) && !s.isCopy n

/-- Block ks: the safety phase starts (R468). -/
def State.safetyStart (s : State) : State :=
  match s.dev.sched.ready with
  | none => s
  | some p =>
    let ks := 864 / p.block
    if s.plan.isSome ∨ s.sample.toNat < (ks - 1) * p.block ∨ ks * p.block ≤ s.sample.toNat then s
    else
      let v := (s.underPlan p).wantTier
      let s1 := (s.putSome p none v (safeSect p)).modSched fun x => { x with
        plan := some p, stored := true, k0 := ks, kf := some (2160 / p.block), ready := none, variant := v, kicked := true, stage := .none
        capTier := s.cap, riseOk := true }
      let s2 := ({ s1 with bsize := p.block }.putPlan p v).holdTiles fun n => !(Plan.safetyTiles p).contains n
      (((s2.putTiles []).setReg Csr.bootTSafe (BitVec.ofNat 32 (usOf (ks * p.block)))).setPhase 6).decideStep.showTiers

/-- Block kf: the held tiles, the bindings, and every other channel, job and talker start, and outputs ramp in (R468, R409, R471).  In a warm
restart the fast-lane tiles were bound before, and none rises (R238). -/
def State.fullStart (s : State) : State :=
  match s.dev.sched.kf, s.plan with
  | some k, some p =>
    if s.sample.toNat + 1 < k * s.bsize ∨ s.dev.sched.prog.isSome then s
    else
      let v := s.dev.sched.variant
      let s1 := (s.putSome p none v fun x => !safeSect p x).modSched fun x => { x with kf := none }
      let warm := decide (fld (s.reg Csr.bootStat) 8 8 = 1)
      let s2 := (s1.holdTiles s1.holdDue).putFast p v true
      let s3 := ((s2.putTiles (if warm then s2.boundTiles else [])).ceNewPlan.ceLoad p v).modSafety fun f => { f with rise := some (k * s.bsize), fallStop := none }
      let s4 := ((s3.setReg Csr.bootTFull (BitVec.ofNat 32 (usOf (k * s.bsize)))).setPhase 7).putConds p
      if warm then (s4.leaveSafe (k * s.bsize)).exhaust else s4
  | _, _ => s

/-- The firmware raises FW_SVN to its own SVN once block kf runs, or 45 ms (2,160 ticks) have passed without a stored plan (R469). -/
def State.svnRaise (s : State) : State :=
  let own := (if fld (s.reg Csr.fwStat) 0 0 = 1 then s.dev.images.fwB else s.dev.images.fwA).elim 0 (·.svn)
  if s.phase = 7 ∨ (s.phase = 8 ∧ 2160 ≤ s.sample.toNat) then
    s.modReg Csr.fwSvn fun x => BitVec.ofNat 32 (max (fld x 5 0) (min 63 own))
  else s

/-! ## Replace mode (R265) -/

/-- A plan that starts at the present tick begins its first block: all that a block tick does, or, where the old plan's block tick has been at this
tick, what concerns the new plan. -/
def State.firstBlock (s : State) (old : Nat) : State :=
  (if old ≠ 0 ∧ s.sample.toNat % old = 0 then ((s.trigger 2).tileTicks).ceTick s.blk else s.blockTick).fastTicks

/-- The running plan, stopped for a replacement that is refused, runs on: its tiles wake again at the next block, from which its outputs ramp in
(log 33). -/
def State.resumePlan (s : State) : State :=
  match s.dev.sched.replace with
  | some r =>
    if r.stopped then
      (s.holdTiles s.holdDue).modSafety fun f => { f with fallStop := none, rise := some ((s.blk + 1) * s.bsize) }
    else s
  | none => s

/-- The replacing image has arrived and its block has passed: it starts at the first tick that suits its block size. -/
def State.replaceStart (s : State) : State :=
  match s.dev.sched.replace with
  | none => s
  | some r =>
    match r.plan with
    | none => s
    | some q =>
      let S := s.sample.toNat
      if S ≤ r.block * s.bsize ∨ S < r.at_ + 2 ∨ S % q.block ≠ 0 ∨ (s.plan.isSome ∧ !r.stopped) then s
      else
        let s0 := s.liftFences.modSched fun x => { x with capTier := s.cap, riseOk := s.plan.isNone || (s.underPlan q).vidReady }
        let v := if s.plan.isNone then (s.underPlan q).planTier s.cap else (s.underPlan q).nextVariant s.cap
        let keep := fun (x : Section) => s.plan.isSome && s.isCopy x.unit && (decide (x.typ = 1) || decide (x.typ = 2))
        let k := S / q.block
        let s1 := (s0.putSome q none v fun x => !keep x).modSched fun x => { x with
          plan := some q, stored := false, k0 := k, kf := none, prog := none, ready := none, target := none, loaded := [], nextVar := none
          variant := v, kicked := true, stage := .none, replace := none }
        let s2 := (({ s1 with bsize := q.block }.ceNewPlan.ceLoad q v).putPlan q v).putFast q v true
        let s3 := ((s2.setDark q).holdTiles s2.holdDue).putTiles s.boundTiles
        let s4 := s3.modHost fun h => { h with
          load := none, changes := h.changes.map fun c => { c with old := true }
          streams := h.streams.map fun x => if q.eps.contains x.ep then x else { x with stop := some (min k (x.stop.getD k)) } }
        let s5 := ((s4.modSafety fun f => { f with fallStop := none, rise := some S }).setPhase 7).leaveSafe S |>.exhaust
        let cmd : HostCmd := { ring := r.ring, index := r.index, op := 0, tag := r.tag, block := 0, addr := 0, len := 0, arg0 := 0, arg1 := 0,
                               arg2 := 0, aseq := r.aseq, data := none }
        ((s5.cmdDone cmd 0 k q.planId.toNat).decideStep.showTiers).firstBlock s.bsize

/-! ## Restarts (R363, R366, R409, R472) -/

/-- The warm restart asked for is performed: the safety tasks run on, everything else is held until block kf. -/
def State.warmRestart (s : State) : State :=
  if !s.dev.sched.warm then s
  else match s.plan, s.dev.images.plan with
    | some p, some g =>
      if s.dev.images.written ∨ !s.dev.sched.stored then s.deviceReset 5 0
      else match s.storedRefusal g with
        | some st => (s.planRefused st).modSched fun x => { x with warm := false }
        | none =>
          let kf := (s.sample.toNat + 2160) / s.bsize
          let s1 := (s.orReg Csr.bootStat 0x100).liftFences.modSched fun x => { x with warm := false, kf := some kf, prog := none }
          let off := fun (n : Nat) (t : Tile) => decide (n < 16) && (!(Plan.safetyTiles p).contains n || decide (t.mode = .dark))
          { s1 with tiles := s1.tiles.mapIdx fun n (t : Tile) =>
              if off n t then { t.toSleep with heldOff := true, flCfg := 0, frond := [], waiting := false, heldTick := false, wakeDue := false } else t }
    | _, _ => s.deviceReset 5 0

/-- 200 ms (9,600 ticks) after the last detected fault the monitor restarts the stored plan, at most 3 times in an operating cycle; while the
device stays in the safe state it writes SAFE_STATE with INFO[31] = 1, once. -/
def State.autoRestart (s : State) : State :=
  match s.dev.safety.lastDet with
  | none => s
  | some t =>
    if !s.isSafe ∨ s.sample.toNat < t + 9600 then s
    else if s.dev.sched.stored ∧ (s.reg Csr.restartCnt).toNat < 3 then
      ((s.bump Csr.restartCnt).modSafety fun f => { f with lastDet := none }).modSched fun x => { x with warm := true }
    else if s.dev.safety.noticed then s
    else (s.modSafety fun f => { f with noticed := true }).notice 0x26 (2 ^ 31 + s.lastEventSeq.toNat % 2 ^ 31) 0

/-! ## Reports (R400, R404, R405) -/

/-- The hub takes a report (R400). -/
def State.takeReport (s : State) (r : Report) : State := ({ s with reports := s.reports.erase r }.hubTake r).resetDue

/-! ## Parked standby (R433, R434) -/

/-- The service core enters standby: every output ramps, a margin record is written, ARM is set and the PMIC is sent its sequence. -/
def State.standbyIn (s : State) : State :=
  let c := s.reg Csr.stbyCfg
  if fld c 0 0 = 0 ∨ fld c 1 1 = 1 ∨ s.busyNow ∨ s.sample.toNat < s.dev.power.lastAct + fld c 11 2 * 48000 then s
  else
    let s1 := (s.modSafety fun f => { f with fallAll := some (s.sample.toNat + 1) }).marginRecord (fld (s.reg Csr.agePlanStat) 5 3)
    ((s1.orReg Csr.stbyCfg 2).modPower fun p => { p with stbyMute := true }).emit (.pmic 0)

/-- A wake source of Table 16-4 is enabled. -/
def State.wakeOn (s : State) (src : Nat) : Bool := decide (fld (s.reg Csr.stbyCfg) (12 + src) (12 + src) = 1)

/-- Any wake source cancels the entry: ARM is cleared and the outputs ramp back from the next block on. -/
def State.standbyOut (s : State) : State :=
  if fld (s.reg Csr.stbyCfg) 1 1 = 1 ∧ s.dev.power.stbyMute then
    ((s.setRegFld Csr.stbyCfg 1 1 0).modPower fun p => { p with stbyMute := false, lastAct := s.sample.toNat }).modSafety fun f =>
      { f with fallAll := none, rise := if s.plan.isSome then some ((s.blk + 1) * s.bsize) else none }
  else s

/-- In parked standby an enabled source fires: it is recorded and the PMIC is sent the power-up sequence; further ones find it recorded. -/
def State.standbyWake (s : State) (src : Nat) : State :=
  if s.dev.power.inStby ∧ !s.dev.up ∧ s.wakeOn src ∧ s.reg Csr.wakeSrc = 0 then
    (s.setReg Csr.wakeSrc (BitVec.ofNat 32 (2 ^ src))).emit (.pmic 1)
  else s

end Sys2Proof.Machine
end

