-- ==== Sys2Proof/Machine/Services.lean ====
section
/-! DEFINITION. What the host and the diagnostic server share: image writes, exported records and the acoustic path test (R331, R347, R365,
R371 to R375, R473 to R475). -/

namespace Sys2Proof.Machine

/-! ## Images (R473, R475, Table 18-5) -/

/-- The MRAM offset and size of the partition of a target of R347: the inactive firmware image, the stored plan, a calibration copy, the
patch slot. -/
def targetSize (t : Nat) : Nat := match t with | 0 => 0x80000 | 1 => 0x200000 | 2 => 0x20000 | _ => 0x10000

/-- Image B runs, so A is the inactive one. -/
def State.runsB (s : State) : Bool := decide (fld (s.reg Csr.fwStat) 0 0 = 1)

/-- An image of those bytes: what a plan image holds is read from them. -/
def imageOf (img : NewImage) (bs : List Byte) : NewImage := match img with | .plan g => .plan { g with bytes := bs } | x => x

/-- The checks of Table 18-5 on an image for a target: none, or the status of Table 12-7 that refuses it. -/
def State.imageRefused (s : State) (t : Nat) (img : NewImage) (len : Nat) : Option Nat :=
  match img with
  | .fw g => if t ≠ 0 ∨ targetSize 0 < len then some 5 else if !g.sigOk then some 4 else if !s.fwOk g then some 5 else none
  | .plan g => if t ≠ 1 then some 5 else s.verifyStored g
  | .cal g => if t ≠ 2 then some 5 else if !s.sigOk s.lc g.sigSlot then some 4 else if !g.ok ∨ 65536 < len then some 5 else none
  | .patch g => if t ≠ 3 ∨ targetSize 3 < len then some 5 else if g.ok then none else some 4
  | .bad => some 4

/-- A partition has been written: VALID, and one more write. -/
def State.partWritten (s : State) (i : Nat) : State :=
  (s.setRegFld (Csr.partStat i) 1 0 1).modReg (Csr.partStat i) fun x => setFld x 31 16 (satInc 0xFFFF (fld x 31 16))

/-- The write sequence of an image that may be absent. -/
def seqOf (c : Option CalImage) : Nat := match c with | some x => x.seq + 1 | none => 0

/-- A new calibration copy goes over the older one (R475). -/
def State.calToB (s : State) : Bool := decide (seqOf s.dev.images.calB < seqOf s.dev.images.calA)

/-- The MRAM offset that an image is written to, and the index of its partition. -/
def State.imageSpot (s : State) (img : NewImage) : Option (Nat × Nat) :=
  match img with
  | .fw _ => some (if s.runsB then (0, 0) else (0x80000, 1))
  | .plan _ => some (0x100000, 2)
  | .cal _ => some (if s.calToB then 0x310000 else 0x300000, 3)
  | .patch _ => some (0x3A4000, 7)
  | .bad => none

/-- The image in the partition is replaced: by one without a valid header (`ok` false), which counts as absent or, of firmware, as invalid
(R474), or by the new one. -/
def State.imageSet (s : State) (img : NewImage) (ok : Bool) : State :=
  match img with
  | .fw g =>
    let n := some (if ok then g else { sigOk := false, svn := 0, seq := 0 })
    s.modImages fun m => if s.runsB then { m with fwA := n } else { m with fwB := n }
  | .plan g => s.modImages fun m => { m with plan := if ok then some g else none, written := true }
  | .cal g =>
    let n := if ok then some g else none
    s.modImages fun m => if s.calToB then { m with calB := n } else { m with calA := n }
  | .patch g => s.modImages fun m => { m with patch := if ok then some g else none, written := true }
  | .bad => s

/-- The image with its write sequence, the next of those of its kind (R469, R475). -/
def State.imageNumbered (s : State) (img : NewImage) : NewImage :=
  let im := s.dev.images
  let q : Option FwImage → Nat := fun x => match x with | some y => y.seq + 1 | none => 0
  match img with
  | .fw g => .fw { g with seq := max (q im.fwA) (q im.fwB) }
  | .cal g => .cal { g with seq := max (seqOf im.calA) (seqOf im.calB) }
  | x => x

/-- MRAM_STAT[0] and the state of a partition (Tables 18-11 and 18-14). -/
def State.imageBusy (s : State) : State := s.setRegFld Csr.mramStat 0 0 (b2n (s.fab.mram.isSome || !s.fab.puts.isEmpty))

/-- The first image write in the list begins: its first 64 bytes become zero, so no valid header stands while it runs (R474). -/
def State.imageBegin (s : State) : State :=
  match s.fab.puts with
  | [] => s
  | x :: rest =>
    match s.imageSpot x.img with
    | none => { s with fab := { s.fab with puts := rest } }
    | some (o, i) =>
      let y : ImagePut := { x with img := s.imageNumbered x.img, next := 64 }
      let s1 := (s.mramPut o (zeros 64)).imageSet x.img false
      ({ s1 with fab := { s1.fab with puts := y :: rest } }.setRegFld (Csr.partStat i) 1 0 3).imageBusy

/-- A verified image is to be written to its partition; the write begins once those before it have ended. -/
def State.imagePut (s : State) (img : NewImage) (bs : List Byte) (ans : ImageAnswer) : State :=
  let s1 : State := { s with fab := { s.fab with puts := s.fab.puts ++ [{ img := img, bs := bs, next := 0, ans := ans }] } }
  if s.fab.puts.isEmpty then s1.imageBegin else s1

/-- A burst of the image write that runs ends: up to 4 KB of its bytes, and with the last of them the first 64 bytes (R473, R474).  The image
then takes effect at the next start: its answer, with the state. -/
def State.imageBurst (s : State) : State × ImageAnswer :=
  match s.fab.puts with
  | [] => (s, .none)
  | x :: rest =>
    match s.imageSpot x.img with
    | none => (s, .none)
    | some (o, i) =>
      let s1 := s.mramPut (o + x.next) ((x.bs.drop x.next).take 4096)
      if x.next + 4096 < x.bs.length then
        ({ s1 with fab := { s1.fab with puts := { x with next := x.next + 4096 } :: rest } }, .none)
      else
        let s2 := ((s1.mramPut o (x.bs.take 64)).imageSet x.img true).partWritten i
        ({ s2 with fab := { s2.fab with puts := rest } }.imageBegin.imageBusy, x.ans)

/-- The newest calibration: a copy that is being written, or the valid one. -/
def State.calNow (s : State) : Option CalImage :=
  match (s.fab.puts.filterMap fun x => match x.img with | .cal g => some g | _ => none).getLast? with
  | some g => some g
  | none => s.calPick.map (·.2)

/-- The device changes its own calibration: a copy with the change (R364, R369, R475). -/
def State.reviseCal (s : State) (f : CalImage → CalImage) (ans : ImageAnswer) : State :=
  match s.calNow with
  | some c => let g := f c; s.calRead.imagePut (.cal g) (Config.calBytes g) ans
  | none => s

/-! ## Exported records (R374, R375) -/

/-- The records numbered from `start` on, at most `cnt`, of a circle of 4,096 records whose next number is `next`: an overwritten number
stands for the oldest held, and lost records are skipped. -/
def State.exportRecs (s : State) (base : Nat) (next start : Word) (cnt : Nat) : List Byte :=
  let ahead := (next - start).toNat
  let first : Word := if ahead ≤ 4096 then start else next - 4096
  let n := if ahead < 2 ^ 31 then min ahead 4096 else 0
  let recs := (upFrom 0 n).filterMap fun i =>
    let q := first + BitVec.ofNat 32 i
    let o := base + q.toNat % 4096 * 64
    let b := s.bytes (mramBase + o) 64
    if !s.mramBad o 64 && decide (leNat (b.take 4) = q.toNat) && decide (leNat (b.drop 60) = (crc32 (b.take 60)).toNat) then some b else none
  (recs.take cnt).flatten

/-- The records of such an export are read. -/
def State.exportRead (s : State) (base : Nat) (next start : Word) : State :=
  let ahead := (next - start).toNat
  let first := if ahead ≤ 4096 then start else next - 4096
  let n := if ahead < 2 ^ 31 then min ahead 4096 else 0
  s.fwReadIf fun cw => decide (base ≤ 32 * cw) && decide (32 * cw < base + 0x40000)
    && decide (((32 * cw - base) / 64 + 4096 - first.toNat % 4096) % 4096 < n)

/-- The event log from a record on. -/
def State.exportEvents (s : State) (start : Word) (cnt : Nat) : List Byte := s.exportRecs logBase s.dev.safety.nextSeq start cnt
/-- The margin history from a record on. -/
def State.exportMargin (s : State) (start : Word) (cnt : Nat) : List Byte := s.exportRecs histBase s.dev.age.nextSeq start cnt

/-- An export of the event log, or of the margin history: the records read, and the bytes. -/
def State.export (s : State) (margin : Bool) (start : Word) (cnt : Nat) : State × List Byte :=
  if margin then (s.exportRead histBase s.dev.age.nextSeq start, s.exportMargin start cnt)
  else (s.exportRead logBase s.dev.safety.nextSeq start, s.exportEvents start cnt)

/-! ## The acoustic path test (R371 to R373) -/

/-- The outputs of the running plan, ascending. -/
def State.routed (s : State) : List OutEntry :=
  match s.plan with
  | some p => (upFrom 0 128).filterMap fun i => p.outMap.find? fun e => decide (e.ix = i)
  | none => []

/-- The service core sends the mask to role 0xFE: a stamped spore whose payload begins with it (R250, R371). -/
def State.maskSpore (s : State) (mask : BitVec 128) : State :=
  let (h, _, e) := s.role 0xFE
  let q := (s.tile 16).sporeSeq
  (s.putSpore h ([16, 0xFE] ++ leBytes 2 e ++ leBytes 2 q.toNat ++ [0, 0] ++ leBytes 16 mask.toNat)).modTile 16 fun t => { t with sporeSeq := q + 1 }

/-- A test may start: none runs, and the plan has role 0xFE. -/
def State.pathOk (s : State) : Bool :=
  (match s.net.path with | some x => !x.run | none => true) && s.plan.isSome && (s.role 0xFE).2.1

/-- The test starts, from the first block in which its spore is visible. -/
def State.pathStart (s : State) (mask : BitVec 128) (host : Bool) : State :=
  let pid := match s.plan with | some p => p.planId | none => 0
  let s1 := s.maskSpore mask
  let x : PathTest :=
    { left := (s.routed.filter fun e => mask.getLsbD e.ix).map fun e => e.ix, done := [], blk0 := s.blk + 1, blk1 := s.blk + 1, planId := pid
      status := 0, run := true, host := host, stop := none }
  { s1 with net := { s1.net with path := some x } }

/-- The reference of an output in calibration: impedance and microphone. -/
def State.refOf (s : State) (ix : Nat) : Option (Nat × Nat) :=
  match s.net.cal with
  | some c => (c.refs.find? fun x => decide (x.1 = ix)).map (·.2)
  | none => none

/-- The largest deviation of the bands and its band. -/
def maxDev (d : List Int) : Int × Nat :=
  (d.zipIdx).foldl (fun (m : Int × Nat) x => if m.1.natAbs < x.1.natAbs then x else m) (d.getD 0 0, 0)

/-- Some band deviates too far: 6 dB from 100 Hz to 10 kHz, 12 dB elsewhere. -/
def devBad (d : List Int) : Bool :=
  (d.zipIdx).any fun x => decide ((if 7 ≤ x.2 ∧ x.2 ≤ 27 then 60 else 120) < x.1.natAbs)

/-- The verdict on a measured output (R373). -/
def pathVerdict (m : PathMeasure) (zref : Nat) (swept : Bool) : Nat :=
  if swept && m.noisy then 5
  else if 4 * zref < m.z1k then 1
  else if 4 * m.z1k < zref then 2
  else if 100 * m.z1k < 75 * zref ∨ 125 * zref < 100 * m.z1k then 3
  else if swept && devBad m.dev then 4
  else 0

/-- An entry of the result. -/
def pathEntry (ix verdict z1k zref zmin fzmin : Nat) (dev : List Int) (mic : Nat) (fb : Nat) : List Byte :=
  let d := maxDev dev
  [BitVec.ofNat 8 ix, BitVec.ofNat 8 verdict] ++ leBytes 2 (min 0xFFFF z1k) ++ leBytes 2 (min 0xFFFF zref) ++ leBytes 2 (min 0xFFFF zmin)
    ++ leBytes 2 fzmin ++ leBytes 2 (ofInt 16 d.1) ++ [BitVec.ofNat 8 d.2, BitVec.ofNat 8 mic, BitVec.ofNat 8 fb, 0]
    ++ ((upFrom 0 31).map fun i => if dev = [] then 0 else BitVec.ofNat 8 (ofInt 8 (max (-128) (min 127 (Config.devHalf (dev.getD i 0)))))) ++ zeros 17

/-- The header of a result. -/
def State.pathHeader (s : State) (x : PathTest) : List Byte :=
  [1, 0, BitVec.ofNat 8 x.done.length, BitVec.ofNat 8 x.status] ++ leBytes 8 x.blk0 ++ leBytes 8 x.blk1 ++ leBytes 4 x.planId.toNat
    ++ leBytes 4 (match s.net.cal with | some c => c.refSet.toNat | none => 0) ++ zeros 4

/-- The bytes of a result. -/
def State.pathResult (s : State) (x : PathTest) : List Byte := s.pathHeader x ++ x.done.flatten

/-- The host's DIAG 0x03 completes with the bytes written. -/
def State.diagEnd (s : State) (c : HostCmd) (bs : List Byte) : State :=
  let w := bs.take c.len
  ((if s.tunnel then s.emit (.hostWrite c.addr.toNat w) else s).modHost fun h => { h with diag := none }).cmdDone c 0 s.blk w.length

/-- The test ends with what it has; a test that the host started writes its result. -/
def State.pathEnd (s : State) (x : PathTest) : State :=
  let y := { x with left := [], blk1 := s.blk, run := false }
  let s1 := { s with net := { s.net with path := some y } }
  if x.host then match s.host.diag with | some c => s1.diagEnd c (s.pathResult y) | none => s1 else s1

/-- Why the test is to abort now: the vehicle moves, it was stopped, or its session ended or its plan has changed. -/
def State.pathCause (s : State) (x : PathTest) : Option Nat :=
  if s.net.moving then some 1
  else match x.stop with
    | some c => some c
    | none => if (match s.plan with | some p => decide (p.planId = x.planId) | none => false) then none else some 3

/-- What an entry's verdict sets as a DTC (Table 13-4). -/
def State.pathDtc (s : State) (ix v : Nat) : State :=
  match v with
  | 1 => s.setDtc 0x9A1013 ix
  | 2 => s.setDtc 0x9A1019 ix
  | 3 => s.setDtc 0x9A1200 ix
  | 4 => s.setDtc 0x9A1200 ix
  | _ => s

/-- An output boundary: the measured output's entry is made, or the test aborts and every output not yet treated reports ABORTED. -/
def State.pathStep (s : State) (m : PathMeasure) : State :=
  match s.net.path with
  | none => s
  | some x =>
    if !x.run ∨ s.blk < x.blk0 then s
    else match s.pathCause x, x.left with
      | some c, left =>
        s.pathEnd { x with status := c, done := x.done ++ left.map fun i => pathEntry i 7 0 ((s.refOf i).elim 0 (·.1)) 0 0 [] ((s.refOf i).elim 0 (·.2)) 0 }
      | none, [] => s.pathEnd x
      | none, i :: rest =>
        let safe := match s.plan with | some p => p.outMap.any fun e => decide (e.ix = i) && e.safety | none => false
        let fb := m.fbstat.toNat
        let y := match s.refOf i with
          | none => { x with status := 4, done := x.done ++ [pathEntry i 6 0 0 0 0 [] 0 fb] }
          | some (z, mic) =>
            if safe && !m.seen then { x with done := x.done ++ [pathEntry i 6 0 z 0 0 [] mic fb] }
            else if safe then { x with done := x.done ++ [pathEntry i (pathVerdict m z false) m.z1k z 0 0 [] mic fb] }
            else { x with done := x.done ++ [pathEntry i (pathVerdict m z true) m.z1k z m.zmin m.fzmin m.dev mic fb] }
        let v := match s.refOf i with
          | none => 6
          | some (z, _) => if safe && !m.seen then 6 else pathVerdict m z !safe
        let s1 := s.pathDtc i v
        if rest = [] then s1.pathEnd { y with left := [] } else { s1 with net := { s1.net with path := some { y with left := rest } } }

/-- A running test is to abort at its next output boundary. -/
def State.pathStop (s : State) (cause : Nat) : State :=
  match s.net.path with
  | some x => if x.run then { s with net := { s.net with path := some { x with stop := some cause } } } else s
  | none => s

end Sys2Proof.Machine
end

