-- ==== Sys2Proof/Machine/MemCtl.lean ====
section
/-! DEFINITION. The commands of the memory controllers: row transfers, write-backs, background memory test, BIST slices and the MRAM scrub (R53,
R56, R61, R63 to R68, R417 to R419). -/

namespace Sys2Proof.Machine

/-! ## Row transfers (R53, R54, R56) -/

/-- EXTERNAL_ROW_TRANSFER (R53, R56): bank, sub-bank, a transfer that arrives, and the bank cycle, which is idle. -/
def execExternalRowTransfer (b : BankIx) (sub : Nat) (x : Option RowXfer) (now : Nat) (s : State) : Host.Outcome State Fault Refusal :=
  .next (s.rowTransfer b sub x now)

/-- ROW_TRANSFER_WITHDRAW (R53): bank, sub-bank, a transfer that arrives, or the row of an access to come, and the bank cycle. -/
def execRowTransferWithdraw (b : BankIx) (sub : Nat) (x : Option RowXfer) (row : Option Nat) (now : Nat) (s : State) : Host.Outcome State Fault Refusal :=
  .next (s.rowWithdraw b sub x row now)

/-- A due write-back of a corrected word takes place (R63). -/
def State.writeBack1 (s : State) (a : Nat) : State :=
  if !s.wback.contains a then s
  else
    let s1 := { s with wback := s.wback.filter (· ≠ a) }
    match s1.mark a with
    | some (.ce _) => match s1.alsoKey a with
      | some k => (s1.unmark (s1.readKey a)).unmark k
      | none => s1.unmark (s1.readKey a)
    | _ => s1

/-- ECC_WRITEBACK (R63): `a` is the fabric address of the word. -/
def execEccWriteback (a : BitVec 36) (s : State) : Host.Outcome State Fault Refusal := .next (s.writeBack1 (a.toNat / 8 * 8))

/-! ## Background memory test (R66, R68, R417) -/

/-- Windows of a bank (Table 2-9). -/
def windowsOf (n : Nat) : Nat := bankSize n / 0x1000

/-- Change the background test of a bank. -/
def State.modBmt (s : State) (n : Nat) (f : BmtState → BmtState) : State := { s with bmt := vmod s.bmt n f }

/-- The next step of a bank: the next window is borrowed, or after the last one the shadow array is tested. `rows` tells how the step
before ended: 0 none yet, 64 a window, 65 the pass. -/
def State.bmtStep (s : State) (n : Nat) : State :=
  let b := s.bmtOf n
  if b.phase ≠ .none ∨ b.stopped ∨ b.retired.isSome then s
  else if b.rows = 64 ∧ windowsOf n ≤ b.window + 1 then s.modBmt n fun x => { x with phase := .shadow, rows := 0 }
  else s.modBmt n fun x => { x with phase := .copy, rows := 0, window := if b.rows = 64 then b.window + 1 else 0 }

/-- One word is copied from one key to another: read with its errors found, and stored with an uncorrectable mark kept (Table 2-7). -/
def State.copyWord (s : State) (a src dst : Nat) : State :=
  let ue := decide (s.mark a = some .ue)
  let s1 := if ue then s else s.eccRead a 3
  let m := (upFrom 0 8).foldl (fun m i => sset 0 m (dst + i) (sget 0 s.mem (src + i))) s1.mem
  let e := s1.ecc.filter fun x => x.1 ≠ dst
  { s1 with mem := m, ecc := if ue then (dst, .ue) :: e else e }

/-- Row `r` of the borrowed window is copied into the shadow, or restored from it. -/
def State.copyRow (s : State) (n r : Nat) (restore : Bool) : State :=
  let off := (s.bmtOf n).window * 0x1000 + r * 64
  (upFrom 0 8).foldl (fun s i =>
    let w := bankBase n + off + 8 * i
    if restore then s.copyWord w (shadowKey n (off + 8 * i)) w else s.copyWord w w (shadowKey n (off + 8 * i))) s

/-- Rows are copied up to a number. -/
def State.copyRows (s : State) (n : Nat) (restore : Bool) : Nat → Nat → State
  | _, 0 => s
  | r, k + 1 => State.copyRows ((s.copyRow n r restore).modBmt n fun x => { x with rows := r + 1 }) n restore (r + 1) k

/-- Background test reports an error of a bank (R417): BMT_ERR, and the event. -/
def State.bmtError (s : State) (n code : Nat) : State :=
  (s.orReg (bankReg n 0x28) 1).report code n [s.reg (bankReg n 0), s.reg (bankReg n 4)]

/-- A borrowed window moves on: `rows` rows are copied or restored, or a test ends with its result. -/
def State.bmtAdvance (s : State) (n rows : Nat) (bad : Bool) : State :=
  let b := s.bmtOf n
  match b.phase with
  | .none => s
  | .copy =>
    let s1 := s.copyRows n false b.rows (rows - b.rows)
    if 64 ≤ rows then s1.modBmt n fun x => { x with phase := .test, rows := 0 } else s1
  | .test =>
    if bad then (s.bmtError n 0x0161).modBmt n fun x => { x with phase := .none, retired := some x.window, stopped := true }
    else s.modBmt n fun x => { x with phase := .restore, rows := 0 }
  | .restore =>
    let s1 := s.copyRows n true b.rows (rows - b.rows)
    if 64 ≤ rows then s1.modBmt n fun x => { x with phase := .none, rows := 64 } else s1
  | .shadow =>
    if bad then (s.bmtError n 0x0162).modBmt n fun x => { x with phase := .none, stopped := true }
    else (s.bump (bankReg n 0x24)).modBmt n fun x => { x with phase := .none, rows := 65 }

/-- BANK[n].BMT_STAT (Table 2-14). -/
def State.bmtStat (s : State) (n : Nat) : Word :=
  let b := s.bmtOf n
  let p := match b.phase with | .copy => 1 | .test => 2 | .restore => 3 | _ => 0
  BitVec.ofNat 32 (p + b2n (decide (b.phase = .shadow)) * 4 + b.window * 256)

/-- BMT_STEP (R68). -/
def execBmtStep (n : BankIx) (s : State) : Host.Outcome State Fault Refusal := .next (s.bmtStep n.val)

/-- BMT_PHASE_ADVANCE (R66, R417): rows copied or restored by now, and whether a test found a fault. -/
def execBmtPhaseAdvance (n : BankIx) (rows : Fin 65) (bad : Bool) (s : State) : Host.Outcome State Fault Refusal :=
  .next (s.bmtAdvance n.val rows.val bad)

/-! ## BIST (R418) -/

/-- A slice may start on a unit: a block-rate tile in SLEEP or DARK, a fast-lane tile in NAP in its marked tick, an engine between jobs, and the
service core in its idle loop, whose place its firmware alone knows. -/
def State.bistMay (s : State) (u : Nat) : Bool :=
  if 16 < u then (s.eng ⟨(u - 17) % 4, Nat.mod_lt _ (by decide)⟩).run.isNone
  else if u = 16 then true
  else
    let t := s.tile (unitIx u)
    if fld t.flCfg 0 0 = 1 then
      decide (t.mode = .nap) && (match s.bindOf (unitIx u) with
        | some b => decide (s.bsize ≠ 0) && decide (s.sample.toNat % s.bsize = b.bist)
        | none => false)
    else decide (t.mode = .sleep) || decide (t.mode = .dark)

/-- A slice starts: a tile, or the service core, is awake in it and bound to return to its state. -/
def State.bistStart (s : State) (u : Nat) : State :=
  if u ≤ 16 ∧ s.bistMay u ∧ (s.tile (unitIx u)).bist.isNone then
    s.modTile (unitIx u) fun t => { t with bist := some { mode := t.mode, pc := t.pc }, mode := .run, pc := Config.bistEntry u, frond := [] }
  else s

/-- A slice ends: its result is reported, and a tick held meanwhile wakes the tile. -/
def State.bistEnd (s : State) (u : Nat) (part : Byte) (ok : Bool) : State :=
  if u ≤ 16 ∧ (s.tile (unitIx u)).bist.isNone then s
  else
    let s1 := if u ≤ 16 then s.modTile (unitIx u) fun t =>
        { t with bist := none, mode := t.state, pc := match t.bist with | some r => r.pc | none => t.pc
                 wakeDue := t.wakeDue || (t.heldTick && decide (t.state ≠ .dark)), heldTick := false } else s
    let s2 := s1.setReg Csr.bistStat (BitVec.ofNat 32 (part.toNat + u * 256))
    if ok then s2 else s2.report 0x0160 u [s2.reg Csr.bistStat]

/-- BIST_SLICE_START (R418): tiles 0 to 15, the service core 16, engines 17 to 20. -/
def execBistSliceStart (u : Fin 21) (s : State) : Host.Outcome State Fault Refusal := .next (s.bistStart u.val)

/-- BIST_SLICE_END (R418): the partition tested and its result. -/
def execBistSliceEnd (u : Fin 21) (part : Byte) (ok : Bool) (s : State) : Host.Outcome State Fault Refusal := .next (s.bistEnd u.val part ok)

/-! ## MRAM reads and the scrub (R60, R61, R419, R476) -/

/-- The codewords of a range. -/
def cwsOf (o n : Nat) : List Nat := if n = 0 then [] else upFrom (o / 32) ((o + n - 1) / 32 - o / 32 + 1)

/-- A byte of the DTC partition: of a record where one is held (R60, R367, log 62). -/
def State.dtcByte (s : State) (i : Nat) : Byte :=
  match s.dev.safety.dtcs[i / 128]? with
  | some d => (padTo 128 (Config.dtcBytes d.dtc.toNat d.status.toNat
      (Config.snapBytes d.snapBlock d.snapTj d.snapMv d.snapState) (Config.extBytes d.occ d.unit))).getD (i % 128) 0
  | none => s.byte (mramBase + 0x3B4000 + i)

/-- A read through the window (R60, R61): none where a codeword is uncorrectable; the key slots and the reserved range read zero. -/
def State.mramRead (s : State) (o n : Nat) : State × Option (List Byte) :=
  let s1 := (cwsOf o n).foldl State.cwRead s
  if s.mramBad o n then (s1, none)
  else (s1, some ((upFrom o n).map fun i =>
    if (0x3A0000 ≤ i ∧ i < 0x3A4000) ∨ 0x3B8000 ≤ i then 0 else if 0x3B4000 ≤ i then s.dtcByte (i - 0x3B4000) else s.byte (mramBase + i)))

/-- The scrub reads the next codeword; one with two or more wrong bits is rewritten (R419). -/
def State.scrubNext (s : State) : State :=
  let cw := s.fab.scrub
  let k := s.wrongBits cw
  let s1 := (s.cwRead cw).setRegFld Csr.mramStat 1 1 1
  let s2 : State := if 2 ≤ k ∧ k ≤ 4 then { (s1.bump Csr.mramWr) with merr := s1.merr.filter fun e => e.1 ≠ cw } else s1
  if mramSize / 32 ≤ cw + 1 then { (s2.bump Csr.mramPass) with fab := { s2.fab with scrub := 0 } }
  else { s2 with fab := { s2.fab with scrub := cw + 1 } }

/-- MRAM_SCRUB (R419). -/
def execMramScrub (s : State) : Host.Outcome State Fault Refusal := .next (s.whenUp State.scrubNext)

end Sys2Proof.Machine
end

