-- ==== Sys2Proof/Machine/HostCmds.lean ====
section
/-! DEFINITION. The host's rings, doorbells and commands (R323 to R345), except its accesses through the BARs. -/

namespace Sys2Proof.Machine

/-! ## Doorbells and indices (R328 to R330) -/

/-- A doorbell of ring r is checked and taken; `full` says that all four bytes are enabled. -/
def State.doorbell (s : State) (r : Nat) (v : Word) (full : Bool) : State :=
  if s.ringSt r ≠ 1 ∨ !full then (s.bump Csr.dbErrCnt).orReg Csr.hostErr 4
  else
    let pi := s.reg (Csr.ringPi r)
    let ci := s.reg (Csr.ringCi r)
    if r < 48 then
      if (v - ci).toNat ≤ s.ringLen r ∧ (v - pi).toNat ≤ s.ringLen r then s.setReg (Csr.ringPi r) v else s.ringFail r 0x27
    else if (v - ci).toNat ≤ (pi - ci).toNat then s.setReg (Csr.ringCi r) v
    else s.ringFail r 0x27

/-- The base of the sync page. -/
def State.syncBase (s : State) : Nat := (s.reg Csr.syncLo).toNat + (s.reg Csr.syncHi).toNat * 2 ^ 32

/-- The shadow indices have been read: those ahead of the current ones are taken as doorbells; none where the read failed (R323). -/
def State.shadowPoll (s : State) (vals : Option (List Word)) : State :=
  if fld (s.reg Csr.poll) 9 0 = 0 ∨ !s.tunnel ∨ !s.inWin s.syncBase 4096 then s
  else match vals with
    | none => (s.emit (.hostRead s.syncBase 0xE0)).orReg Csr.hostErr 16
    | some vs => (upFrom 0 56).foldl (fun s r =>
      let on := decide (fld (s.reg (if r < 32 then Csr.shadowEn0 else Csr.shadowEn1)) (r % 32) (r % 32) = 1)
      let cur := s.reg (if r < 48 then Csr.ringPi r else Csr.ringCi r)
      let d := (vs.getD r 0 - cur).toNat
      if on ∧ 0 < d ∧ d ≤ 2 ^ 31 then s.doorbell r (vs.getD r 0) true else s) (s.emit (.hostRead s.syncBase 0xE0))

/-- An index is written back to the sync page; in DISABLED and RESETTING nothing is written (Table 12-4). -/
def State.writeBack (s : State) (r : Nat) : State :=
  if (s.ringSt r ≠ 1 ∧ s.ringSt r ≠ 2) ∨ !s.tunnel ∨ !s.inWin s.syncBase 4096 then s
  else (s.emit (.hostWrite (s.syncBase + 0x800 + 4 * r) (leBytes 4 (s.reg (if r < 48 then Csr.ringCi r else Csr.ringPi r)).toNat))).modHost
    fun h => { h with wb := h.wb.filter (· ≠ r) }

/-! ## Rings (R325 to R327, R343, R344) -/

/-- The bytes of an entry of a ring. -/
def entrySize (r : Nat) : Nat := if r < 48 then 64 else 32

/-- A ring's configuration is valid. -/
def State.ringOk (s : State) (r : Nat) : Bool :=
  let z := fld (s.reg (Csr.ringCtl r)) 8 4
  decide (6 ≤ z) && decide (z ≤ 16) && decide (s.ringBase r % 4096 = 0) && s.inWin (s.ringBase r) (2 ^ z * entrySize r)

/-- The fields of CTL that a write changes in DISABLED: SZ, and ER or VEC by the kind of ring (Table 12-13). -/
def ctlMask (r : Nat) : Word := if r < 48 then 0xFF0 else 0x3F1F0

/-- EN = 1 in DISABLED (R327); the first enabling of ER0 after a link loss brings the LINK_RETURN notice (R345). -/
def State.ringEnable (s : State) (r : Nat) (v : Word) : State :=
  if s.ringSt r ≠ 0 then s
  else
    let s1 := s.modReg (Csr.ringCtl r) fun x => blend x (ctlMask r) v
    if !s1.ringOk r then s1.orReg Csr.hostErr 32
    else
      let s2 := ((s1.modReg (Csr.ringCtl r) fun x => setFld (setFld x 2 0 5) 31 24 0).setReg (Csr.ringPi r) 0).setReg (Csr.ringCi r) 0
      if r = 48 ∧ s.host.retDue then (s2.modHost fun h => { h with retDue := false }).notice 0x25 (s.reg Csr.linkEpoch).toNat 0 else s2

/-- RESET = 1: fetching stops, and a RING_RESET notice is due; what happens to work in progress follows Table 12-10. -/
def State.ringReset (s : State) (r : Nat) : State :=
  if s.ringSt r = 3 then s
  else
    let ci := (s.reg (Csr.ringCi r)).toNat
    let s0 := ((s.setRegFld (Csr.ringCtl r) 2 0 3).setRegFld (Csr.ringCtl r) 31 24 0).setRegFld
      (if r < 32 then Csr.ringErr0 else Csr.ringErr1) (r % 32) (r % 32) 0
    let s1 := (s0.notice 0x24 r ci).modHost fun h => { h with cur := h.cur.filter fun c => decide (c.ring ≠ r) }
    if r < 16 then s1
    else if r < 48 then s1.modHost fun h => { h with streams := h.streams.map fun x =>
      if x.ring = r then { x with quiet := true, stop := some (min s.firstWin (x.stop.getD s.firstWin)) } else x }
    else
      let lost := (s1.host.waiting.filter fun w => decide (w.1 + 48 = r)).length + s1.ringUsed r
      (s1.modReg (Csr.erLost (r - 48)) fun x => BitVec.ofNat 32 (min 0xFFFFFFFF (x.toNat + lost))).modHost fun h =>
        { h with waiting := h.waiting.filter fun w => decide (w.1 + 48 ≠ r), modOn := vmod h.modOn (r - 48) fun _ => false }

/-- The reset ends in DISABLED with PI = CI = 0. -/
def State.ringResetEnd (s : State) (r : Nat) : State :=
  if s.ringSt r ≠ 3 then s
  else
    (((s.modReg (Csr.ringCtl r) fun x => setFld (setFld x 2 0 0) 31 24 0).setReg (Csr.ringPi r) 0).setReg (Csr.ringCi r) 0).modHost
      fun h => { h with wb := h.wb.filter (· ≠ r) }

/-! ## Event records and MSI-X (R334 to R338) -/

/-- The MSI-X table word i; vector control resets to masked. -/
def State.msixWord (s : State) (i : Nat) : Word := sget 0 s.host.msix i ^^^ (if i % 4 = 3 then 1 else 0)

/-- A vector is raised: sent, or kept pending while it or the function is masked. -/
def State.raise (s : State) (v : Nat) : State :=
  if !s.host.msixEn then s
  else if s.host.msixMask ∨ (s.msixWord (4 * v + 3)).getLsbD 0 then s.modHost fun h => { h with pba := h.pba ||| BitVec.ofNat 64 (2 ^ v) }
  else (s.modHost fun h => { h with pba := h.pba &&& ~~~(BitVec.ofNat 64 (2 ^ v)) }).emit (.msix v)

/-- Pending vectors that are no longer masked are sent. -/
def State.msixFlush (s : State) : State := (upFrom 0 64).foldl (fun s v => if s.host.pba.getLsbD v then s.raise v else s) s

/-- An event ring raises its vector, and its moderation interval begins. -/
def State.erRaise (s : State) (e : Nat) : State :=
  (s.raise (fld (s.reg (Csr.ringCtl (48 + e))) 17 12)).modHost fun h =>
    { h with modOn := vmod h.modOn e fun _ => decide (fld (s.reg (Csr.erMod e)) 15 0 ≠ 0) }

/-- The 32 bytes of a record at index i of a ring of n entries (Table 12-8): PHASE is 1 on the first pass. -/
def HostRec.bytes (r : HostRec) (i n : Nat) : List Byte :=
  leBytes 4 (r.typ + r.status * 256 + r.ring % 64 * 65536) ++ leBytes 4 r.tag ++ leBytes 8 r.block.toNat ++ leBytes 4 r.aseq.toNat
    ++ leBytes 4 r.info.toNat ++ leBytes 4 r.index.toNat ++ leBytes 4 (1 - i / n % 2)

/-- A record is written to an event ring with space, after the index write-back of its own ring where that is due (R338); a notice bears the block
at this time (Table 12-8). -/
def State.recordPut (s : State) (e : Nat) (w : HostRec) : State :=
  let n := s.ringLen (48 + e)
  let i := (s.reg (Csr.ringPi (48 + e))).toNat
  let r := if w.typ = 3 then { w with block := BitVec.ofNat 64 s.blk } else w
  let s0 := if s.host.wb.contains w.ring then s.writeBack w.ring else s
  let s1 := (s0.emit (.hostWrite (s.ringBase (48 + e) + i % n * 32) (r.bytes i n))).modReg (Csr.ringPi (48 + e)) fun x => x + 1
  if s.host.modOn.getD e false then s1 else s1.erRaise e

/-- The oldest waiting record of an event ring is written, once there is space; for a ring that is not RUNNING it is dropped.  Where none waits and
records have been dropped, the EVENT_LOST notice is (R336). -/
def State.recordWrite (s : State) (e : Nat) : State :=
  let room := decide (s.ringUsed (48 + e) < s.ringLen (48 + e)) && s.tunnel
  match s.host.waiting.find? fun w => decide (w.1 = e) with
  | none =>
    let n := s.host.lost.getD e 0
    if n = 0 ∨ s.ringSt (48 + e) ≠ 1 ∨ !room then s
    else (s.modHost fun h => { h with lost := vmod h.lost e fun _ => 0 }).recordPut e (noticeRec s 0x22 n 0)
  | some w =>
    let pop := s.modHost fun h => { h with waiting := h.waiting.erase w }
    if s.ringSt (48 + e) ≠ 1 then (pop.bump (Csr.erLost e)).modHost fun h => { h with lost := vmod h.lost e (· + 1) }
    else if room then pop.recordPut e w.2
    else s

/-- A moderation interval ends: one message follows while records are unconsumed. -/
def State.modExpire (s : State) (e : Nat) : State :=
  if !(s.host.modOn.getD e false) then s
  else
    let s1 := s.modHost fun h => { h with modOn := vmod h.modOn e fun _ => false }
    if s.ringUsed (48 + e) ≠ 0 then s1.erRaise e else s1

/-! ## Fetching commands (R331, R332) -/

/-- The command read from a ring and not yet answered. -/
def State.curOf (s : State) (r : Nat) : Option HostCmd := s.host.cur.find? fun c => decide (c.ring = r)

/-- The fields of a command (Table 12-5). -/
def HostCmd.ofBytes (r : Nat) (ix : Word) (bs : List Byte) : HostCmd :=
  let f := fun (o n : Nat) => leNat ((bs.drop o).take n)
  { ring := r, index := ix, op := f 0 1, tag := f 2 2, block := BitVec.ofNat 64 (f 8 8), addr := BitVec.ofNat 64 (f 0x10 8), len := f 0x18 4,
    arg0 := BitVec.ofNat 32 (f 0x1C 4), arg1 := BitVec.ofNat 32 (f 0x20 4), arg2 := BitVec.ofNat 32 (f 0x24 4), aseq := 0, data := none }

/-- Unused and reserved fields are zero, and the others are in range (Tables 12-5 and 12-6). -/
def HostCmd.clean (c : HostCmd) (bs : List Byte) : Bool :=
  let z := fun (o n : Nat) => decide (leNat ((bs.drop o).take n) = 0)
  let a := fun (hi lo : Nat) => decide (fld c.arg0 hi lo = 0)
  let none4 := decide (c.addr = 0) && decide (c.len = 0)
  let r1 := decide (c.arg1 = 0)
  z 1 1 && z 4 4 && z 0x28 24 && decide (c.arg2 = 0) &&
    (match c.op with
    | 0 => decide (c.block = 0) && none4 && decide (c.arg0 = 0) && r1
    | 1 => (decide (c.block = 0) || decide (fld c.arg0 1 0 = 1)) && a 31 2 && decide (fld c.arg0 1 0 ≠ 3) && r1
    | 2 => none4 && r1
    | 3 => decide (1 ≤ c.len) && decide (c.len ≤ 4096) && a 31 16
    | 4 => a 7 2 && a 31 16 && r1
    | 5 => none4 && a 31 5 && decide (16 ≤ c.arg1.toNat) && decide (c.arg1.toNat < 48)
    | 6 => none4 && a 31 5 && r1
    | _ => decide (c.block = 0) && decide (c.len % 64 = 0) && a 31 8 && decide (1 ≤ fld c.arg0 7 0) && decide (fld c.arg0 7 0 ≤ 3))

/-- The descriptor checks of a command: none, or the status that refuses it. -/
def State.cmdBad (s : State) (c : HostCmd) (bs : List Byte) : Option Nat :=
  if 7 < c.op then some 0x10
  else if !c.clean bs then some 0x11
  else if [1, 3, 4, 7].contains c.op && (!s.inWin c.addr.toNat c.len || ((decide (c.op = 1) || decide (c.op = 4)) && decide (c.addr.toNat % 64 ≠ 0)))
    then some 0x12
  else none

/-- The command ring served next: the first after the ring last served that holds a command not yet read. -/
def State.nextRing (s : State) : Option Nat :=
  ((upFrom 1 16).map fun i => (s.host.served + i) % 16).find? fun r => decide (s.ringSt r = 1) && decide (s.ringUsed r ≠ 0) && (s.curOf r).isNone

/-- The next command is read in round-robin order; a failed read puts its ring into ERROR, a bad descriptor is refused. -/
def State.cmdFetch (s : State) (data : Option (List Byte)) : State :=
  match s.nextRing with
  | none => s
  | some r =>
    if !s.tunnel then s
    else
      let ix := s.reg (Csr.ringCi r)
      let s1 := (s.emit (.hostRead (s.ringBase r + ix.toNat % s.ringLen r * 64) 64)).modHost fun h => { h with served := r }
      match data with
      | none => s1.ringFail r 0x13
      | some d =>
        let bs := padTo 64 d
        let c := HostCmd.ofBytes r ix bs
        match s.cmdBad c bs with
        | some st => s1.cmdRefuse c st
        | none =>
          let s2 := s1.modHost fun h => { h with cur := h.cur ++ [c] }
          if c.op = 3 then s2.emit (.hostRead c.addr.toNat c.len) else s2

/-- A read of host memory ends: r below 16 the data of that ring's command, else the next descriptor of a stream ring (R323, R339). -/
def State.readDone (s : State) (r : Nat) (data : Option (List Byte)) : State :=
  if r < 16 then
    match s.curOf r with
    | some c =>
      if (c.op ≠ 3 ∧ c.op ≠ 4) ∨ c.data.isSome then s
      else match data with
        | some d => s.modHost fun h => { h with cur := h.cur.map fun x => if x.ring = r then { x with data := some (padTo c.len d) } else x }
        | none => (s.orReg Csr.hostErr 16).cmdRefuse c 0x13
    | none => s
  else match s.streamOn r with
    | some x =>
      if s.ringSt r ≠ 1 ∨ x.quiet ∨ s.ringUsed r ≤ x.descs.length ∨ !s.tunnel then s
      else
        let i := (s.reg (Csr.ringCi r)).toNat + x.descs.length
        let s1 := s.emit (.hostRead (s.ringBase r + i % s.ringLen r * 64) 64)
        match data with
        | some d => s1.descAdd x (padTo 64 d)
        | none => s1.ringFail r 0x13
    | none => s

/-! ## Blocks and plans of a command (R260, R333) -/

/-- The value that names the earliest block. -/
def earliest : DWord := 0xFFFFFFFFFFFFFFFF

/-- The block of a command whose first possible block is `f`; none when its cutoff has passed. -/
def pickBlock (b : DWord) (f : Nat) : Option Nat := if b = earliest then some f else if b.toNat < f then none else some b.toNat

/-- The switch that is pending: its block and target. -/
def State.switchDue (s : State) : Option (Nat × Plan) :=
  s.host.changes.findSome? fun c => match c.kind with | .switch q => if c.old then none else some (c.block, q) | _ => none

/-- The plan that will run in block n. -/
def State.planAt (s : State) (n : Nat) : Option Plan :=
  match s.switchDue with
  | some (b, q) => if b ≤ n then some q else s.plan
  | none => s.plan

/-- A command that changes the plan is refused BUSY: during a replace-mode load, and on the PARTNER of a pair (R265, R390). -/
def State.held390 (s : State) : Bool := s.dev.lkRole && (decide (s.pst = 2) || decide (s.pst = 3))

/-- A command as the PRIMARY forwards it (R390): its fields, the block it takes effect in, and its data. -/
def HostCmd.raw (c : HostCmd) (n : Nat) : List Byte :=
  [BitVec.ofNat 8 c.op] ++ leBytes 8 n ++ leBytes 8 c.addr.toNat ++ leBytes 4 c.len ++ leBytes 4 c.arg0.toNat ++ leBytes 4 c.arg1.toNat
    ++ leBytes 4 c.arg2.toNat ++ c.data.getD []

/-- An accepted change waits for its block. -/
def State.addChange (s : State) (c : HostCmd) (n : Nat) (k : ChangeKind) : State :=
  let r := (s.forwardOut 3 (c.raw n)).cmdTake c
  r.1.modHost fun h => { h with changes := h.changes ++ [{ cmd := r.2, block := n, kind := k, old := false }] }

/-- A plan change at block n takes away the changes of the old plan from n on (R286, R333): what a stream change had done is undone. -/
def State.outdate (s : State) (n : Nat) : State :=
  let gone := s.host.changes.filter fun c => decide (n ≤ c.block) && !c.old
  let s1 := s.modHost fun h => { h with changes := h.changes.map fun c => if n ≤ c.block then { c with old := true } else c }
  gone.foldl (fun s c => match c.kind with
    | .streamOpen ep _ => s.modHost fun h => { h with streams := h.streams.filter fun x => !(decide (x.ep.ix = ep) && decide (x.start = c.block)) }
    | .streamClose ep => s.modStream ep fun x => if x.stop = some c.block then { x with stop := none } else x
    | _ => s) s1

/-! ## LOAD_PLAN (R234, R264, R265, R331 to R333, R473) -/

/-- LOAD_PLAN is accepted after its descriptor checks and runs in the background. -/
def State.loadPlan (s : State) (r mode : Nat) : State :=
  match s.curOf r with
  | none => s
  | some c =>
    if c.op ≠ 1 ∨ fld c.arg0 1 0 ≠ mode then s
    else if s.host.load.isSome ∨ s.dev.sched.replace.isSome then s.cmdRefuse c 0x14
    else if s.lc = 0 ∨ 4 ≤ s.lc then s.cmdRefuse c 6
    else if mode = 0 ∧ s.plan.isNone then s.cmdRefuse c 0x17
    else if mode = 2 ∧ 2097152 < c.len then s.cmdRefuse c 5
    else
      let go := fun (s : State) => let t := (s.forwardOut 3 (c.raw 0)).cmdTake c; ((t.1.modHost fun h => { h with load := some t.2 }).emit (.hostRead c.addr.toNat c.len), t.2)
      if mode ≠ 1 then (go s).1
      else if s.held390 || s.switchDue.isSome then s.cmdRefuse c 0x14
      else match (if s.plan.isSome then pickBlock c.block (s.blk + 2) else some 0) with
        | none => s.cmdRefuse c 1
        | some n =>
          let x := go (s.outdate n)
          let z : Replace :=
            { block := n, plan := none, at_ := 0, stopped := s.plan.isNone, ring := c.ring, tag := c.tag, index := c.index, aseq := x.2.aseq }
          x.1.modSched fun y => { y with replace := some z }

/-- What a section writes to a bank lies in a range that the running plan declares free (R264). -/
def freeFor (p : Plan) (x : Section) : Bool :=
  match x.body with
  | .bytes bs => bs.isEmpty || (Plan.free p).any fun f => decide (f.unit = x.unit) && decide (f.ofs ≤ x.dst) && decide (x.dst + x.len ≤ f.ofs + f.len)
  | _ => true

/-- The CODE and DATA sections of a tile. -/
def codeData (p : Plan) (n : Nat) : List Section := p.sects.filter fun x => decide (x.unit = n) && (decide (x.typ = 1) || decide (x.typ = 2))

/-- A replacing image places the running safety tasks alike: none, or the status that refuses it (R265). -/
def replaceRefused (p q : Plan) : Option Nat :=
  if p.tasks = [] then none
  else if p.block ≠ q.block then some 0x0A
  else if p.tasks.all fun t => (q.tasks.any fun u => decide (u.lead = t.lead) && decide (u.check = t.check))
      && decide (codeData p t.lead = codeData q t.lead) && decide (codeData p t.check = codeData q t.check) then none
  else some 9

/-- The load ends with a status: it completes, and a replace-mode load is forgotten. -/
def State.loadEnd (s : State) (c : HostCmd) (status info : Nat) : State :=
  let s1 := if fld c.arg0 1 0 = 1 then s.resumePlan.modSched fun x => { x with replace := none } else s
  (s1.modHost fun h => { h with load := none }).cmdDone c status s.blk info

/-- The image of the load in progress is being written. -/
def State.loadPuts (s : State) : Bool := s.fab.puts.any fun x => match x.ans with | .load .. => true | _ => false

/-- Verification of a loaded image ends: the LEN bytes read, none where a host read failed. -/
def State.loadVerified (s0 : State) (img : Option PlanImage) : State :=
  match s0.host.load with
  | none => s0
  | some c =>
    match img with
    | none => if s0.loadPuts then s0 else (s0.orReg Csr.hostErr 16).loadEnd c 0x13 0
    | some g0 =>
      if s0.loadPuts then s0
      else
      let g := g0.ofLen c.len
      let s := s0.planKeyRead
      let q := g.plan
      let pid := q.planId.toNat
      let bad := if fld c.arg0 1 0 = 2 then s.verifyStored g else s.verifyPlan g
      match bad with
      | some st => s.loadEnd c st pid
      | none =>
        match fld c.arg0 1 0, s.plan with
        | 0, some p =>
          if q.sects.all (freeFor p) then
            let v := s.dev.sched.variant
            let s1 := (s.putSome q none v fun x => !lateSect x).modSched fun x => { x with
              loaded := (q, v) :: x.loaded.filter fun y => decide (y.1.planId ≠ q.planId) }
            s1.loadEnd c 0 pid
          else s.loadEnd c 9 pid
        | 0, none => s.loadEnd c 0x17 pid
        | 1, p =>
          match p.bind fun p => replaceRefused p q with
          | some st => s.loadEnd c st pid
          | none => s.modSched fun x => { x with replace := x.replace.map fun y => { y with plan := some q, at_ := s.sample.toNat } }
        | _, _ => s.imagePut (.plan g) g.bytes (.load c pid)

/-! ## The commands that name a block -/

/-- NOP completes at acceptance. -/
def State.cmdNop (s : State) (r : Nat) : State :=
  match s.curOf r with
  | some c => if c.op = 0 then s.cmdRefuse c 0 else s
  | none => s

/-- SWITCH_PLAN (R264). -/
def State.cmdSwitch (s : State) (r : Nat) : State :=
  match s.curOf r with
  | none => s
  | some c =>
    if c.op ≠ 2 then s
    else if s.dev.sched.replace.isSome || s.switchDue.isSome || s.held390 then s.cmdRefuse c 0x14
    else if s.plan.isNone then s.cmdRefuse c 0x17
    else match s.dev.sched.loaded.find? fun x => decide (x.1.planId = c.arg0) with
      | none => s.cmdRefuse c 0x0B
      | some q =>
        if q.1.block ≠ s.bsize then s.cmdRefuse c 0x0A
        else match pickBlock c.block (s.blk + 2) with
          | none => s.cmdRefuse c 1
          | some n => (s.outdate n).addChange c n (.switch q.1)

/-- The bytes of the parameter writes that name a block. -/
def State.paramBytes (s : State) (n : Nat) : Nat :=
  s.host.changes.foldl (fun m c => match c.kind with | .param _ _ bs => if c.block = n ∧ !c.old then m + bs.length else m | _ => m) 0

/-- PARAM_WRITE (R261). -/
def State.cmdParam (s : State) (r : Nat) : State :=
  match s.curOf r with
  | none => s
  | some c =>
    if c.op ≠ 3 then s
    else match c.data with
      | none => s
      | some bs =>
        if s.dev.sched.replace.isSome || s.held390 then s.cmdRefuse c 0x14
        else if s.plan.isNone then s.cmdRefuse c 0x17
        else match pickBlock c.block s.firstWin with
          | none => s.cmdRefuse c 1
          | some n =>
            match (s.planAt n).bind fun p => (Plan.params p s.dev.sched.variant).find? fun x => decide (x.id = fld c.arg0 15 0) with
            | none => s.cmdRefuse c 2
            | some g =>
              if g.loc.len < c.arg1.toNat + c.len then s.cmdRefuse c 2
              else if 65536 < s.paramBytes n + c.len then s.cmdRefuse c 3
              else s.addChange c n (.param g c.arg1.toNat bs)

/-- FILTER_LOAD (R284): slot, size and pending switch are checked before anything is fetched; the data go into the inactive slot; then the
cutoff. -/
def State.cmdFilter (s : State) (r : Nat) : State :=
  match s.curOf r with
  | none => s
  | some c =>
    if c.op ≠ 4 then s
    else if s.dev.sched.replace.isSome || s.held390 then s.cmdRefuse c 0x14
    else if s.plan.isNone then s.cmdRefuse c 0x17
    else
      let k : Fin 4 := ⟨fld c.arg0 1 0 % 4, Nat.mod_lt _ (by decide)⟩
      let job := fld c.arg0 15 8
      let n := pickBlock c.block s.firstWin
      let tgt := match n with | some b => (match s.switchDue with | some (m, _) => decide (m ≤ b) | none => false) | none => false
      match ((match n with | some b => s.planAt b | none => s.plan).bind fun p => (Plan.ceJobs p s.dev.sched.variant k.val)[job]?) with
      | none => s.cmdRefuse c 0x0C
      | some j =>
        if !j.valid || j.single then s.cmdRefuse c 0x0C
        else if j.slotBytes ≠ c.len then s.cmdRefuse c 0x0D
        else if (!tgt && (s.eng k).pend.any fun p => decide (p.job = job))
            || s.host.changes.any fun x => (match x.kind with | .filter e i _ => decide (e = k.val) && decide (i = job) && !x.old | _ => false)
          then s.cmdRefuse c 0x0E
        else match c.data with
          | none => s.emit (.hostRead c.addr.toNat c.len)
          | some bs =>
            let useA := !tgt && (s.eng k).setB.contains job
            let s1 := s.memWrite (ceAddr k (if useA then j.slotA else j.slotB)) bs 1
            match n with
            | none => s1.cmdRefuse c 1
            | some b =>
              let s2 := s1.addChange c b (.filter k.val job 0)
              if tgt then s2 else s2.modEng k fun e => { e with pend := e.pend ++ [{ job := job, block := b, done := false, xblk := none }] }

/-- STREAM_OPEN (R339): the stream serves from block n on. -/
def State.cmdOpen (s : State) (r : Nat) : State :=
  match s.curOf r with
  | none => s
  | some c =>
    if c.op ≠ 5 then s
    else if s.dev.sched.replace.isSome then s.cmdRefuse c 0x14
    else if s.plan.isNone then s.cmdRefuse c 0x17
    else match pickBlock c.block s.firstWin with
      | none => s.cmdRefuse c 1
      | some n =>
        let ring := c.arg1.toNat
        match (s.planAt n).bind fun p => p.eps.find? fun e => decide (e.ix = fld c.arg0 4 0) with
        | none => s.cmdRefuse c 0x15
        | some e =>
          if (s.streamOf e.ix).isSome || (s.streamOn ring).isSome || e.d2h != decide (32 ≤ ring) then s.cmdRefuse c 0x15
          else
            let x : HStream :=
              { ep := e, ring := ring, start := n, stop := none, quiet := false, descs := [], staged := [], next := n, assign := n, inRun := false }
            (s.addChange c n (.streamOpen e.ix ring)).modHost fun h => { h with streams := h.streams ++ [x] }

/-- STREAM_CLOSE (R342): block n − 1 is the last served. -/
def State.cmdClose (s : State) (r : Nat) : State :=
  match s.curOf r with
  | none => s
  | some c =>
    if c.op ≠ 6 then s
    else if s.dev.sched.replace.isSome then s.cmdRefuse c 0x14
    else if s.plan.isNone then s.cmdRefuse c 0x17
    else match pickBlock c.block s.firstWin with
      | none => s.cmdRefuse c 1
      | some n =>
        match s.streamOf (fld c.arg0 4 0) with
        | none => s.cmdRefuse c 0x15
        | some x =>
          if x.stop.isSome then s.cmdRefuse c 0x15
          else (s.addChange c n (.streamClose x.ep.ix)).modStream x.ep.ix fun y => { y with stop := some n }

/-- At its block's tick a change takes effect and completes. -/
def State.changeEnd (s : State) (c : Change) : State :=
  let s1 := s.modHost fun h => { h with changes := h.changes.erase c }
  let fin := fun (s : State) (st : Nat) => if 16 ≤ c.cmd.ring then s else s.cmdDone c.cmd st (if c.old then s.blk else c.block) 0
  if c.old then fin s1 0x0F
  else match c.kind with
    | .streamOpen ep _ => fin (s1.setRegFld Csr.hstrmOpen ep ep 1) 0
    | .streamClose ep => fin (s1.closeDue ep) 0
    | _ => fin s1 0

/-- The changes whose block has come complete in ASEQ order; those that a plan change has taken away complete PLAN_CHANGED once it has taken
effect.  Streams that have ended are closed. -/
def State.takeEffect (s : State) : State :=
  let sw := s.switchDue.any fun x => decide (s.blk < x.1)
  let due := s.host.changes.filter fun c => decide (c.block ≤ s.blk) || (c.old && !sw && s.dev.sched.replace.isNone)
  let s1 := due.foldl State.changeEnd s
  s1.host.streams.foldl (fun s x => s.closeDue x.ep.ix) s1

/-! ## DIAG (R331) -/

/-- DIAG SUB 0x01 and 0x02: records from ARG1 on are written, as many as LEN holds. -/
def State.diagExport (s : State) (r sub : Nat) : State :=
  match s.curOf r with
  | none => s
  | some c =>
    if c.op ≠ 7 ∨ fld c.arg0 7 0 ≠ sub then s
    else if s.host.diag.isSome then s.cmdRefuse c 0x14
    else
      let r := s.export (decide (sub ≠ 1)) c.arg1 (c.len / 64)
      let t := r.1.cmdTake c
      t.1.diagEnd t.2 r.2

/-- DIAG SUB 0x03: the test runs over every routed output, or the command completes DIAG_REFUSED (R371). -/
def State.diagPath (s : State) (r : Nat) : State :=
  match s.curOf r with
  | none => s
  | some c =>
    if c.op ≠ 7 ∨ fld c.arg0 7 0 ≠ 3 then s
    else if s.host.diag.isSome then s.cmdRefuse c 0x14
    else if !s.pathOk then s.cmdRefuse c 0x18
    else
      let t := s.cmdTake c
      (t.1.modHost fun h => { h with diag := some t.2 }).pathStart (BitVec.allOnes 128) true

/-! ## Links (R317, R345, R346) -/

/-- USB4 trains and the tunnel is set up: not before 120 ms (5,760 ticks), and in ROM halt the port stays disabled (R470). -/
def State.usb4Up (s : State) (gen3 x2 : Bool) : State :=
  if s.sample.toNat < 5760 ∨ s.phase = 9 ∨ fld (s.reg Csr.linkStat) 1 1 = 1 then s
  else ((s.setReg Csr.linkStat (BitVec.ofNat 32 (3 + (if gen3 then 16 else 8) + 32 * b2n x2))).devEvent 196).modHost fun h => { h with trained := true }

/-- The registers of the host interface after a link loss: reset values, but for LINK_EPOCH, LINK_DOWN_CNT and the identity. -/
def State.hostRegsReset (s : State) : State :=
  { s with csr := (s.csr.filter fun e => !(decide (0x20700000 ≤ e.1) && decide (e.1 < 0x20700800))
      || [0x20700000, Csr.linkStat, Csr.linkEpoch, Csr.linkDown, 0x20700050].contains e.1) }

/-- The link is lost (R345). -/
def State.linkLoss (s : State) (c : LinkLoss) : State :=
  let up := match c with
    | .down => decide (fld (s.reg Csr.linkStat) 0 0 = 1)
    | .d3 => s.tunnel
    | _ => decide (fld (s.reg Csr.linkStat) 1 1 = 1)
  if !up then s
  else
    let stat := fun (x : Word) => match c with
      | .down => x &&& 0x100
      | .tunnel => x &&& ~~~0x6#32
      | .d3 => x ||| 4
      | _ => x &&& ~~~0x4#32
    let s0 := (((s.hostRegsReset).modReg Csr.linkStat stat).modReg Csr.linkEpoch fun x => x + 1).bump Csr.linkDown
    let s1 := if c = .down ∨ c = .tunnel then s0.devEvent 196 else s0
    let n := s.firstWin
    -- accepted commands keep their effects, and their records are lost
    let mute := fun (c : HostCmd) => { c with ring := 64 }
    ((s1.modSched fun x => { x with replace := x.replace.map fun y => { y with ring := 64 } }).modHost fun h => { h with
      changes := h.changes.map fun c => { c with cmd := mute c.cmd }, load := h.load.map mute, diag := h.diag.map mute, wb := []
      cur := [], waiting := [], lost := Vector.replicate 8 0, modOn := Vector.replicate 8 false, msix := [], pba := 0, msixEn := false
      msixMask := false, cfg := [], retDue := true, descRd := []
      streams := h.streams.map fun x => { x with quiet := true, descs := [], staged := [], stop := some (min n (x.stop.getD n)) } }).logEvent
      Config.linkLossCode 0xFF 0 0 []

/-- A CL state is entered or left on the host router's request. -/
def State.clState (s : State) (cl : Nat) : State := if fld (s.reg Csr.linkStat) 0 0 = 1 then s.setRegFld Csr.linkStat 7 6 cl else s

/-- In DEVELOP and RETURN the device attaches on USB 2.0, 2 s (96,000 ticks) after time zero without USB4. -/
def State.usb2Attach (s : State) : State :=
  if (s.lc = 1 ∨ s.lc = 3) ∧ !s.host.trained ∧ 96000 ≤ s.sample.toNat then s.setRegFld Csr.linkStat 8 8 1 else s

/-- The 16 bytes of a USB 2.0 answer. -/
def State.usbAnswer (s : State) (op status : Nat) (v : Nat) : State :=
  let r := Config.usbRest op s.lc
  s.emit (.usb ([BitVec.ofNat 8 status] ++ padTo 3 r ++ leBytes 4 v ++ padTo 8 (r.drop 3)))

/-- Attached for recovery. -/
def State.usb2On (s : State) : Bool := decide (fld (s.reg Csr.linkStat) 8 8 = 1)

/-- QUERY: identity and lifecycle. -/
def State.usb2Query (s : State) : State := if s.usb2On then s.usbAnswer 1 0 (s.reg 0x20F00000).toNat else s

/-- WRITE_IMAGE: verified as on every other path before any MRAM write. -/
def State.usb2Write (s : State) (t : Nat) (img0 : NewImage) (bs : List Byte) : State :=
  let img := imageOf img0 bs
  if !s.usb2On then s
  else if 3 < t then s.usbAnswer 2 0x11 0
  else match s.imageRefused t img bs.length with
    | some st => s.planKeyRead.usbAnswer 2 st 0
    | none => s.planKeyRead.imagePut img bs (.usb bs.length)

/-- RESET: a device reset after the answer. -/
def State.usb2Reset (s : State) : State := if s.usb2On then (s.usbAnswer 3 0 0).deviceReset 6 0 else s

/-! ## Configuration space (R319) -/

/-- Bits of a configuration DWORD that a write changes: the command register and the six BAR words; the rest is not given. -/
def cfgMaskOf (dw : Nat) : Word :=
  match dw with
  | 0 => 0
  | 1 => 0x00000547
  | 2 => 0
  | 4 => 0xFF000000
  | 5 => 0xFFFFFFFF
  | 6 => 0xFFFF0000
  | 7 => 0xFFFFFFFF
  | 8 => 0xF0000000
  | 9 => 0xFFFFFFFF
  | n => Config.cfgMask n

/-- The reset value of a configuration DWORD: identity, class, and three 64-bit non-prefetchable BARs. -/
def cfgResetOf (dw : Nat) : Word :=
  match dw with
  | 0 => BitVec.ofNat 32 (Config.vendorId.toNat + 0x7200 * 65536)
  | 1 => 0x00100000
  | 2 => 0x04010004
  | 4 => 4
  | 5 => 0
  | 6 => 4
  | 7 => 0
  | 8 => 4
  | 9 => 0
  | n => Config.cfgReset n

/-- A configuration DWORD as it reads. -/
def State.cfgWord (s : State) (dw : Nat) : Word :=
  match s.host.cfg.find? fun e => decide (e.1 = dw) with | some e => e.2 | none => cfgResetOf dw

/-- The mask of four byte enables. -/
def beMask (be : BitVec 4) : Word := BitVec.ofNat 32 ((upFrom 0 4).foldl (fun m i => m + b2n (be.getLsbD i) * (255 * 256 ^ i)) 0)

/-- A configuration request; MSI-X enable and function mask are bits 31 and 30 of the MSI-X capability's first DWORD. -/
def State.cfgAccess (s : State) (a : CfgAccess) : State :=
  if fld (s.reg Csr.linkStat) 1 1 = 0 then s
  else match a with
    | .read dw tag => s.emit (.completion tag 0 false (leBytes 4 (s.cfgWord dw).toNat))
    | .write dw be v =>
      let m := beMask be
      let x := blend (s.cfgWord dw) (m &&& cfgMaskOf dw) v
      let s1 := s.modHost fun h => { h with cfg := (dw, x) :: h.cfg.filter fun e => decide (e.1 ≠ dw) }
      if dw = Config.msixCap then
        let y := blend (s.cfgWord dw) m v
        (s1.modHost fun h => { h with msixEn := y.getLsbD 31, msixMask := y.getLsbD 30 }).msixFlush
      else if dw = Config.pmCsr then
        -- D3hot is a link loss (R345); D0 ends it
        let y := fld (blend (s.cfgWord dw) m v) 1 0
        if y = 3 then s1.linkLoss .d3 else if y = 0 then s1.setRegFld Csr.linkStat 2 2 0 else s1
      else s1

/-- The bytes of DWORDs that are addressed by byte enables. -/
def enabled : List (BitVec 4) → List Byte → List Byte
  | [], _ => []
  | be :: r, bs => ((upFrom 0 4).filter fun i => be.getLsbD i).map (fun i => bs.getD i 0) ++ enabled r (bs.drop 4)

/-- A BAR2 access: the MSI-X table and PBA as the PCI Express specification gives them; outside them and the doorbells it is counted, a
write is discarded and a read gives zero (R321). -/
def State.bar2 (s : State) (a : BarAccess) : State :=
  let word := fun (s : State) (o : Nat) =>
    if 0x8000 ≤ o ∧ o < 0x8400 then s.msixWord ((o - 0x8000) / 4)
    else if 0x9000 ≤ o ∧ o < 0x9008 then BitVec.ofNat 32 (s.host.pba.toNat / 2 ^ (8 * (o - 0x9000)))
    else if o < 0xE0 then Config.doorbellRead (o / 4)
    else 0
  let known := fun (o : Nat) => decide (o < 0xE0) || (decide (0x8000 ≤ o) && decide (o < 0x8400)) || (decide (0x9000 ≤ o) && decide (o < 0x9008))
  if !s.tunnel then s
  else match a with
    | .read o tag bes =>
      let os := (upFrom 0 bes.length).map fun i => o / 4 * 4 + 4 * i
      let s1 := if os.all known then s else s.bump Csr.dbErrCnt
      s1.emit (.completion tag 0 false (enabled bes (os.flatMap fun x => leBytes 4 (word s x).toNat)))
    | .write o _ dws =>
      let xs := dws.zipIdx.map fun x => (o / 4 * 4 + 4 * x.2, x.1)
      let s1 := if xs.all fun x => known x.1 then s else s.bump Csr.dbErrCnt
      (xs.foldl (fun s x =>
        if 0x8000 ≤ x.1 ∧ x.1 < 0x8400 then
          let i := (x.1 - 0x8000) / 4
          let m := beMask x.2.1 &&& (match i % 4 with | 0 => 0xFFFFFFFC | 3 => 1 | _ => 0xFFFFFFFF)
          let v := blend (s.msixWord i) m x.2.2
          s.modHost fun h => { h with msix := sset 0 h.msix i (v ^^^ (if i % 4 = 3 then 1 else 0)) }
        else if x.1 < 0xE0 then s.doorbell (x.1 / 4) x.2.2 (decide (x.2.1 = 0xF))
        else s) s1).msixFlush

/-! ## The commands -/

/-- Traffic of the HOST class while the device is up (R324). -/
def State.whenHost (s : State) (f : State → State) : State := s.whenUp fun s => if s.hostGoes then f s else s

/-- DOORBELL (R328). -/
def execDoorbell (r : Fin 56) (v : Word) (full : Bool) (s : State) : Host.Outcome State Fault Refusal := .next (s.whenUp fun s => s.doorbell r.val v full)

/-- RING_ENABLE (R327): the value written to CTL. -/
def execRingEnable (r : Fin 56) (v : Word) (s : State) : Host.Outcome State Fault Refusal := .next (s.whenUp fun s => s.ringEnable r.val v)

/-- RING_RESET (R344). -/
def execRingReset (r : Fin 56) (s : State) : Host.Outcome State Fault Refusal := .next (s.whenUp fun s => s.ringReset r.val)

/-- RING_RESET_COMPLETE (R327). -/
def execRingResetComplete (r : Fin 56) (s : State) : Host.Outcome State Fault Refusal := .next (s.whenUp fun s => s.ringResetEnd r.val)

/-- SHADOW_POLL (R330): the shadow indices of rings 0 to 55, none where the read failed. -/
def execShadowPoll (vals : Option (List Word)) (s : State) : Host.Outcome State Fault Refusal :=
  .next (s.whenHost fun s => s.shadowPoll vals)

/-- INDEX_WRITEBACK (R330). -/
def execIndexWriteback (r : Fin 56) (s : State) : Host.Outcome State Fault Refusal := .next (s.whenHost fun s => s.writeBack r.val)

/-- EVENT_RECORD_WRITE (R335 to R337). -/
def execEventRecordWrite (e : Fin 8) (s : State) : Host.Outcome State Fault Refusal := .next (s.whenHost fun s => s.recordWrite e.val)

/-- MSIX_MODERATION_EXPIRE (R337). -/
def execMsixModerationExpire (e : Fin 8) (s : State) : Host.Outcome State Fault Refusal := .next (s.whenUp fun s => s.modExpire e.val)

/-- COMMAND_FETCH (R332): the 64 bytes read, none where the read failed. -/
def execCommandFetch (data : Option (List Byte)) (s : State) : Host.Outcome State Fault Refusal := .next (s.whenHost fun s => s.cmdFetch data)

/-- HOST_READ_COMPLETE (R323). -/
def execHostReadComplete (r : Fin 48) (data : Option (List Byte)) (s : State) : Host.Outcome State Fault Refusal :=
  .next (s.whenHost fun s => s.readDone r.val data)

/-- CMD_NOP (R331). -/
def execCmdNop (r : Fin 16) (s : State) : Host.Outcome State Fault Refusal := .next (s.whenUp fun s => s.cmdNop r.val)

/-- LOAD_PLAN_SWITCH (R264). -/
def execLoadPlanSwitch (r : Fin 16) (s : State) : Host.Outcome State Fault Refusal := .next (s.whenUp fun s => s.loadPlan r.val 0)

/-- LOAD_PLAN_REPLACE (R265). -/
def execLoadPlanReplace (r : Fin 16) (s : State) : Host.Outcome State Fault Refusal := .next (s.whenUp fun s => s.loadPlan r.val 1)

/-- LOAD_PLAN_STORE (R473). -/
def execLoadPlanStore (r : Fin 16) (s : State) : Host.Outcome State Fault Refusal := .next (s.whenUp fun s => s.loadPlan r.val 2)

/-- PLAN_VERIFY_COMPLETE (R234): the image as read and its bytes. -/
def execPlanVerifyComplete (img : Option PlanImage) (s : State) : Host.Outcome State Fault Refusal :=
  .next (s.whenUp fun s => s.loadVerified img)

/-- SWITCH_PLAN (R264). -/
def execSwitchPlan (r : Fin 16) (s : State) : Host.Outcome State Fault Refusal := .next (s.whenUp fun s => s.cmdSwitch r.val)

/-- PARAM_WRITE (R261). -/
def execParamWrite (r : Fin 16) (s : State) : Host.Outcome State Fault Refusal := .next (s.whenUp fun s => s.cmdParam r.val)

/-- FILTER_LOAD (R284). -/
def execFilterLoad (r : Fin 16) (s : State) : Host.Outcome State Fault Refusal := .next (s.whenUp fun s => s.cmdFilter r.val)

/-- STREAM_OPEN (R339). -/
def execStreamOpen (r : Fin 16) (s : State) : Host.Outcome State Fault Refusal := .next (s.whenUp fun s => s.cmdOpen r.val)

/-- STREAM_CLOSE (R342). -/
def execStreamClose (r : Fin 16) (s : State) : Host.Outcome State Fault Refusal := .next (s.whenUp fun s => s.cmdClose r.val)

/-- DIAG_EVENT_EXPORT (R331, R374). -/
def execDiagEventExport (r : Fin 16) (s : State) : Host.Outcome State Fault Refusal := .next (s.whenUp fun s => s.diagExport r.val 1)

/-- DIAG_MARGIN_EXPORT (R331, R375). -/
def execDiagMarginExport (r : Fin 16) (s : State) : Host.Outcome State Fault Refusal := .next (s.whenUp fun s => s.diagExport r.val 2)

/-- DIAG_PATH_TEST (R331, R371). -/
def execDiagPathTest (r : Fin 16) (s : State) : Host.Outcome State Fault Refusal := .next (s.whenUp fun s => s.diagPath r.val)

/-- COMMAND_TAKE_EFFECT (R333). -/
def execCommandTakeEffect (s : State) : Host.Outcome State Fault Refusal := .next (s.whenUp State.takeEffect)

/-- H2D_DESCRIPTOR_FETCH (R340): endpoint and bytes read. -/
def execH2dDescriptorFetch (ep : Fin 32) (data : Option (List Byte)) (s : State) : Host.Outcome State Fault Refusal :=
  .next (s.whenHost fun s => s.h2dFetch ep.val data)

/-- D2H_BLOCK_WRITE (R341). -/
def execD2hBlockWrite (ep : Fin 32) (s : State) : Host.Outcome State Fault Refusal := .next (s.whenHost fun s => s.d2hWrite ep.val)

/-- USB4_LINK_UP (R317). -/
def execUsb4LinkUp (gen3 x2 : Bool) (s : State) : Host.Outcome State Fault Refusal := .next (s.whenUp fun s => s.usb4Up gen3 x2)

/-- LINK_LOSS (R345). -/
def execLinkLoss (c : LinkLoss) (s : State) : Host.Outcome State Fault Refusal := .next (s.whenUp fun s => s.linkLoss c)

/-- USB4_CL_STATE_REQUEST (R317). -/
def execUsb4ClStateRequest (cl : BitVec 2) (s : State) : Host.Outcome State Fault Refusal := .next (s.whenUp fun s => s.clState cl.toNat)

/-- PCIE_CONFIG_ACCESS (R319). -/
def execPcieConfigAccess (a : CfgAccess) (s : State) : Host.Outcome State Fault Refusal := .next (s.whenUp fun s => s.cfgAccess a)

/-- BAR2_OTHER_ACCESS (R321). -/
def execBar2OtherAccess (a : BarAccess) (s : State) : Host.Outcome State Fault Refusal := .next (s.whenUp fun s => s.bar2 a)

/-- USB2_ATTACH (R346). -/
def execUsb2Attach (s : State) : Host.Outcome State Fault Refusal := .next (s.whenUp State.usb2Attach)

/-- USB2_QUERY (R347). -/
def execUsb2Query (s : State) : Host.Outcome State Fault Refusal := .next (s.whenUp State.usb2Query)

/-- USB2_WRITE_IMAGE (R347). -/
def execUsb2WriteImage (t : Byte) (img : NewImage) (bs : List Byte) (s : State) : Host.Outcome State Fault Refusal :=
  .next (s.whenUp fun s => s.usb2Write t.toNat img bs)

/-- USB2_RESET (R347). -/
def execUsb2Reset (s : State) : Host.Outcome State Fault Refusal := .next (s.whenUp State.usb2Reset)

/-! ## Forwarded inputs (R390) -/

/-- A forwarded change of the PRIMARY, accepted here as there: it completes nowhere. -/
def State.fwdChange (s : State) (n : Nat) (k : ChangeKind) : State :=
  let c : HostCmd := { ring := 64, index := 0, op := 0, tag := 0, block := 0, addr := 0, len := 0, arg0 := 0, arg1 := 0, arg2 := 0, aseq := 0, data := none }
  s.modHost fun h => { h with changes := h.changes ++ [{ cmd := c, block := n, kind := k, old := false }] }

/-- A forwarded value differs from a valid value received here. -/
def State.inputMismatch (s : State) : State := (s.modLk fun l => { l with mismatch := true }).lkErrs 0x20

/-- A listener holds other values for tick t. -/
def State.heardElse (s : State) (k t : Nat) (ws : List Word) : Bool :=
  match s.aud.listen[k]? with
  | some l => l.held.any fun (x : Nat × List Word) => decide (x.1 = 2 * t) && decide (x.2 ≠ ws)
  | none => false

/-- A listener's values for tick t are replaced. -/
def State.listenPut (s : State) (k t : Nat) (ws : List Word) : State :=
  s.modAud fun a => { a with listen := vmod a.listen k fun (l : ListenState) =>
    { l with held := (2 * t, ws) :: l.held.filter fun (x : Nat × List Word) => decide (x.1 ≠ 2 * t) } }

/-- A FORWARD flit: on the PARTNER it replaces what the PARTNER received itself. -/
def State.flitForward (s : State) (f : Forward) : State :=
  if s.lst ≠ 3 ∨ !s.dev.lkRole ∨ !(decide (s.pst = 2) || decide (s.pst = 3)) then s
  else match f with
    | .signal i val raw fl =>
      let bad : Bool := s.lk.heard.any fun x => decide (x.1 = i.val) && decide (x.2 ≠ val) && fl.getLsbD 0
      let x := s.slot i.val
      let s1 := s.setSlot i.val { x with
        val := val, raw := raw, count := x.count + 1, valid := fl.getLsbD 0, timeout := fl.getLsbD 1, range := fl.getLsbD 2, changed := true }
      let s2 := s1.modLk fun l => { l with heard := l.heard.filter fun x => decide (x.1 ≠ i.val) }
      if bad = true then s2.inputMismatch else s2
    | .listen k t ws =>
      if s.heardElse k.val t ws then (s.listenPut k.val t ws).inputMismatch else s.listenPut k.val t ws
    | .h2d ep b data =>
      match data with
      | some bs => s.modStream ep fun x => { x with staged := (b, padTo x.ep.bpb bs) :: x.staged.filter fun y => decide (y.1 ≠ b), next := max x.next (b + 1) }
      | none => s.modStream ep fun x => { x with staged := x.staged.filter fun y => decide (y.1 ≠ b), next := max x.next (b + 1) }
    | .param g o n bs =>
      match (s.planAt n).bind fun p => (Plan.params p s.dev.sched.variant).find? fun x => decide (x.id = g) with
      | some x => s.fwdChange n (.param x o bs)
      | none => s
    | .filter k job slot n bs =>
      let e : Fin 4 := ⟨k % 4, Nat.mod_lt _ (by decide)⟩
      match (s.planAt n).bind fun p => (Plan.ceJobs p s.dev.sched.variant e.val)[job]? with
      | some j =>
        let s1 := s.memWrite (ceAddr e (if slot = 0 then j.slotA else j.slotB)) bs 2
        (s1.fwdChange n (.filter e.val job slot)).modEng e fun x => { x with pend := x.pend ++ [{ job := job, block := n, done := false, xblk := none }] }
      | none => s
    | .switch pid n =>
      match s.dev.sched.loaded.find? fun x => decide (x.1.planId = pid) with
      | some q => (s.outdate n).fwdChange n (.switch q.1)
      | none => s

/-- FLIT_FORWARD (R390). -/
def execFlitForward (f : Forward) (s : State) : Host.Outcome State Fault Refusal := .next (s.whenUp fun s => s.flitForward f)

end Sys2Proof.Machine
end

