-- ==== Sys2Proof/Machine/Uds.lean ====
section
/-! DEFINITION. The diagnostic server: DoIP, sessions, security access, DTCs, data identifiers, routines and downloads (R360 to R373). -/

namespace Sys2Proof.Machine

/-! ## Responses (R360, R361) -/

/-- The CAN FD frames of an ISO 15765-2 message of n bytes. -/
def canFrames (n : Nat) : Nat :=
  if n ≤ 62 then 1 else if n ≤ 4095 then 1 + (n - 62 + 62) / 63 else 1 + (n - 58 + 62) / 63

/-- A response goes to its client: over DoIP as a service-core frame of its port, over CAN as frames of its controller (bit 31 of the
identifier). -/
def State.udsSend (s : State) (c : UdsClient) (bs : List Byte) : State :=
  match c with
  | .doip k _ =>
    match s.net.conns[k] with
    | some (m, _) => s.modNet fun n => { n with tx := n.tx ++ [{ port := m, q := 0, vid := fld (s.reg (ethReg m 0)) 20 9, cls := 1, len := min 1522 (bs.length + 72), what := .uds c bs }] }
    | none => s
  | .can id =>
    let a := Csr.can (id.toNat / 2 ^ 31) 0x24
    (s.modReg a fun x => BitVec.ofNat 32 (min 0xFFFFFFFF (x.toNat + canFrames bs.length))).emit (.uds c bs)

/-- A negative response. -/
def nrc (sid : Byte) (code : Byte) : List Byte := [0x7F, sid, code]

/-- The services whose second byte is a sub-function (Table 13-3). -/
def hasSub (sid : Nat) : Bool := [0x10, 0x11, 0x19, 0x27, 0x29, 0x31, 0x3E, 0x85].contains sid

/-- The request in progress ends with a positive response of these bytes behind its identifier, unless its sub-function suppresses it. -/
def State.udsPos (s : State) (b : UdsBusy) (bs : List Byte) : State :=
  let s1 := s.modNet fun n => { n with busy := none }
  if hasSub b.sid.toNat ∧ b.sub.getLsbD 7 then s1 else s1.udsSend b.client ((b.sid + 0x40) :: bs)

/-- It ends with a negative response. -/
def State.udsNeg (s : State) (b : UdsBusy) (code : Byte) : State := (s.modNet fun n => { n with busy := none }).udsSend b.client (nrc b.sid code)

/-- The sub-function without its suppress bit. -/
def UdsBusy.sf (b : UdsBusy) : Nat := b.sub.toNat % 128

/-- The request in progress waits for the end of an image write. -/
def State.udsPuts (s : State) : Bool := s.fab.puts.any fun x => match x.ans with | .uds .. => true | _ => false

/-- Run a service on the request in progress, if it is one of service `sid` and, for a service with one, of this sub-function, and has not
been performed. -/
def State.udsRun (s : State) (sid : Nat) (sub : Option Nat) (f : UdsBusy → State → State) : State :=
  match s.net.busy with
  | some b => if b.sid.toNat = sid ∧ (match sub with | some x => decide (b.sf = x) | none => true) = true ∧ s.udsPuts = false then f b s else s
  | none => s

/-- The end of an image write is answered: a LOAD_PLAN completes, the USB 2.0 host or the UDS client has its response. -/
def State.imageAnswered (s : State) (a : ImageAnswer) : State :=
  match a with
  | .none => s
  | .load c info => if s.host.load = some c then s.loadEnd c 0 info else s
  | .usb n => s.usbAnswer 2 0 n
  | .uds b bs => match s.net.busy with
    | some x => if x.client = b.client ∧ x.sid = b.sid then s.udsPos x bs else s
    | none => s

/-! ## Sessions (R361, R363) -/

/-- The session returns to default, or changes: rights, seed, certificate and download end; leaving the programming session restarts the
stored plan; a path test of the session aborts. -/
def State.setSession (s : State) (n : Nat) (owner : Option UdsClient) : State :=
  let s1 := if s.net.session = 2 ∧ n ≠ 2 then s.modSched fun x => { x with warm := true } else s
  let s2 := match s1.net.path with
    | some x => if x.run ∧ !x.host ∧ n ≠ s.net.session then s1.pathStop 3 else s1
    | none => s1
  (s2.modNet fun x => { x with
    session := n, owner := owner, lvl01 := false, lvl11 := false, seed := none, cert := none, dl := if n = 2 then x.dl else none
    lastReq := s.sample.toNat }).modSafety fun f => if n = 1 then { f with dtcOff := false } else f

/-- Level 0x01 is open (R364); in DEVELOP both are. -/
def State.open01 (s : State) : Bool := s.net.lvl01 || decide (s.lc = 1)
/-- Level 0x11 is open. -/
def State.open11 (s : State) : Bool := s.net.lvl11 || decide (s.lc = 1)

/-- The sub-functions supported (Table 13-3). -/
def subOk (sid sub : Nat) : Bool :=
  match sid with
  | 0x10 => [1, 2, 3].contains sub
  | 0x11 => [1, 3].contains sub
  | 0x19 => [1, 2, 4, 6, 0xA].contains sub
  | 0x27 => [1, 2, 0x11, 0x12].contains sub
  | 0x29 => [0, 1, 3, 8].contains sub
  | 0x31 => [1, 2, 3].contains sub
  | 0x3E => sub = 0
  | 0x85 => [1, 2].contains sub
  | _ => true

/-- The services supported. -/
def sidOk (sid : Nat) : Bool :=
  [0x10, 0x11, 0x14, 0x19, 0x22, 0x27, 0x29, 0x2E, 0x31, 0x34, 0x36, 0x37, 0x3E, 0x85].contains sid

/-- A service is allowed in a session (1 default, 2 programming, 3 extended). -/
def sessionOk (sid sub rid n : Nat) : Bool :=
  match sid with
  | 0x11 => n = 2 ∨ n = 3
  | 0x14 => n = 1 ∨ n = 3
  | 0x19 => n = 1 ∨ n = 3
  | 0x27 => if sub < 0x10 then n = 3 else n = 2
  | 0x2E => n = 2 ∨ n = 3
  | 0x31 => n = 3 ∨ (n = 2 ∧ rid = 0xFF01)
  | 0x34 => n = 2
  | 0x36 => n = 2
  | 0x37 => n = 2
  | 0x85 => n = 3
  | _ => true

/-- The checks of R362 that a request meets before its service: none, or the NRC. -/
def State.udsRefused (s : State) (c : UdsClient) (sid sub rid : Nat) : Option Byte :=
  if !sidOk sid then some 0x11
  else if !subOk sid sub then some 0x12
  else if s.net.session ≠ 1 ∧ s.net.owner ≠ some c ∧ !([0x19, 0x22, 0x3E].contains sid) then some 0x22
  else if !sessionOk sid sub rid s.net.session then some 0x7F
  else if (sid = 0x2E ∧ !(s.open01 || s.open11)) ∨ (sid = 0x31 ∧ !s.open01) ∨ ([0x34, 0x36, 0x37].contains sid ∧ !s.open11) then some 0x33
  else if s.net.moving ∧ (sid = 0x11 ∨ (sid = 0x31 ∧ rid = 0xFE10)) then some 0x88
  else if sid = 0x31 ∧ !([0xFE10, 0xFE20, 0xFE21, 0xFF01].contains rid) then some 0x31
  else none

/-- A CAN identifier (bit 31: its controller) is the request identifier that calibration names, or of Table 18-3 on CAN0 without one, on
a controller that receives (R360). -/
def State.canAsks (s : State) (id : BitVec 32) (func : Bool) : Bool :=
  decide (fld (s.reg (Csr.can (id.toNat / 2 ^ 31) 0x10)) 1 0 < 2) &&
    (match s.net.cal with
    | some c => decide (id.setWidth 30 = if func then c.udsFunc else c.udsPhys)
    | none => decide (id = if func then 0x7DF else 0x7E0))

/-- A request arrives: answered busy while another is in progress, ignored or refused where the server does not support it. -/
def State.udsRequest (s : State) (c : UdsClient) (func : Bool) (sid sub : Byte) (rid : BitVec 16) : State :=
  let known := match c with
    | .doip k a => (match s.net.conns[k] with | some (_, src) => decide (src = a) | none => false)
    | .can id => s.canAsks id func
  if !known then s
  else if s.net.busy.isSome then s.udsSend c (nrc sid 0x21)
  else
    let s1 := if s.net.owner = some c then s.modNet fun n => { n with lastReq := s.sample.toNat } else s
    let sf := if hasSub sid.toNat then sub.toNat % 128 else 0
    match s.udsRefused c sid.toNat sf rid.toNat with
    | some code => if func ∧ (code = 0x11 ∨ code = 0x12 ∨ code = 0x7F ∨ code = 0x31) then s1 else s1.udsSend c (nrc sid code)
    | none => s1.modNet fun n => { n with
        busy := some { client := c, sid := sid, sub := sub, par := rid, func := func, since := s.sample.toNat } }

/-- 0x10. -/
def State.udsSession (s : State) : State :=
  s.udsRun 0x10 none fun b s =>
    let pos := fun (s : State) => s.udsPos b [BitVec.ofNat 8 b.sf, 0x00, 0x32, 0x01, 0xF4]
    match b.sf with
    | 2 =>
      if s.net.session = 2 then pos s
      else if s.net.session ≠ 3 then s.udsNeg b 0x22
      else if s.net.moving then s.udsNeg b 0x88
      else pos ((s.setSession 2 (some b.client)).modSched fun x => { x with prog := if s.plan.isSome then some s.firstWin else none })
    | 3 => pos (s.setSession 3 (some b.client))
    | _ => pos (s.setSession 1 none)

/-- S3 expires 5 s (240,000 ticks) after the owner's last request. -/
def State.s3 (s : State) : State :=
  if s.net.session ≠ 1 ∧ s.net.busy.isNone ∧ s.net.lastReq + 240000 ≤ s.sample.toNat then s.setSession 1 none else s

/-- A request longer than P2server, 50 ms (2,400 ticks), is answered NRC 0x78, and then every 2 s. -/
def State.udsPending (s : State) : State :=
  match s.net.busy with
  | some b =>
    if s.sample.toNat < b.since + 2400 then s
    else (s.udsSend b.client (nrc b.sid 0x78)).modNet fun n => { n with busy := some { b with since := s.sample.toNat + 93600 } }
  | none => s

/-! ## Resets (R366) -/

/-- 0x11 0x01: the positive response, then a device reset. -/
def State.udsHard (s : State) : State :=
  s.udsRun 0x11 (some 1) fun b s =>
    (if b.sub.getLsbD 7 then s else s.emit (.uds b.client [0x51, 0x01])).deviceReset 5 0

/-- 0x11 0x03: the positive response, then the stored plan restarts. -/
def State.udsSoft (s : State) : State :=
  s.udsRun 0x11 (some 3) fun b s => ((s.udsPos b [3]).setSession 1 none).modSched fun x => { x with warm := true }

/-! ## DTCs (R367) -/

/-- A 24-bit number, big-endian. -/
def be24 (x : BitVec 24) : List Byte := (leBytes 3 x.toNat).reverse
/-- n bytes, big-endian (R369). -/
def be (n x : Nat) : List Byte := (leBytes n x).reverse

/-- The DTC records are read (R61). -/
def State.dtcRead (s : State) : State := s.fwRead 0x3B4000 (128 * s.dev.safety.dtcs.length)

/-- The records that can be read: one in an uncorrectable codeword is lost (Table 18-6). -/
def State.dtcList (s : State) : List DtcRec :=
  s.dev.safety.dtcs.zipIdx.filterMap fun x => if s.mramBad (0x3B4000 + 128 * x.2) 128 then none else some x.1

/-- The DTCs of Table 13-4. -/
def allDtcs : List (BitVec 24) :=
  [0x9A1013, 0x9A1019, 0x9A1049, 0x9A1098, 0x9A1016, 0x9A1200, 0x9A2000, 0x9A2100, 0x9A3000, 0x9A3100, 0x9A3200, 0x9A3300, 0x9A4000,
   0x9A4100, 0x9A4200, 0x9A5000, 0x9A5100, 0x9A5200, 0x9A5300, 0x9A5400]

/-- The records whose status meets a mask. -/
def State.dtcsBy (s : State) (mask : Byte) : List DtcRec := s.dtcList.filter fun d => decide (d.status &&& mask &&& 0x2F ≠ 0)

/-- 0x14: every DTC record goes; a group other than all is out of range. -/
def State.udsClear (s : State) (group : BitVec 24) : State :=
  s.udsRun 0x14 none fun b s =>
    if group ≠ 0xFFFFFF then s.udsNeg b 0x31 else ((s.mramCount (4 * s.dev.safety.dtcs.length)).modSafety fun f => { f with dtcs := [] }).udsPos b []

/-- 0x19 0x01. -/
def State.udsCount (s : State) (mask : Byte) : State :=
  s.udsRun 0x19 (some 1) fun b s => s.dtcRead.udsPos b ([1, 0x2F, 0x01] ++ be 2 (s.dtcsBy mask).length)

/-- 0x19 0x02. -/
def State.udsByMask (s : State) (mask : Byte) : State :=
  s.udsRun 0x19 (some 2) fun b s => s.dtcRead.udsPos b ([2, 0x2F] ++ (s.dtcsBy mask).flatMap fun d => be24 d.dtc ++ [d.status &&& 0x2F])

/-- 0x19 0x04 and 0x06: record 0x01 of a DTC, or every record (0xFF). -/
def State.udsRecord (s : State) (sub : Nat) (dtc : BitVec 24) (rec_ : Byte) (f : DtcRec → List Byte) : State :=
  s.udsRun 0x19 (some sub) fun b s =>
    match s.dtcList.find? fun d => decide (d.dtc = dtc) with
    | some d => if rec_ = 1 ∨ rec_ = 0xFF then s.dtcRead.udsPos b ([BitVec.ofNat 8 sub] ++ be24 dtc ++ [d.status &&& 0x2F, 1] ++ f d) else s.udsNeg b 0x31
    | none => s.udsNeg b 0x31

/-- 0x19 0x0A. -/
def State.udsSupported (s : State) : State :=
  s.udsRun 0x19 (some 0xA) fun b s => s.dtcRead.udsPos b ([0xA, 0x2F] ++ allDtcs.flatMap fun d =>
    be24 d ++ [match s.dtcList.find? fun x => decide (x.dtc = d) with | some x => x.status &&& 0x2F | none => 0])

/-! ## Data identifiers (R369, Table 13-5) -/

/-- "HNV-7200-AB". -/
def partNumber : List Byte := [0x48, 0x4E, 0x56, 0x2D, 0x37, 0x32, 0x30, 0x30, 0x2D, 0x41, 0x42]

/-- The content of a DID, none for one that is not supported. -/
def State.did (s : State) (d : Nat) : Option (List Byte) :=
  let o := Config.didOpen d
  let cal := s.calNow
  match d with
  | 0xF180 => some (padTo 8 o)
  | 0xF187 => some partNumber
  | 0xF18C => some ((upFrom 0 4).flatMap fun i => leBytes 4 (s.reg (Csr.serial i)).toNat)
  | 0xF190 => some (padTo 17 (match cal with | some c => c.vin | none => o))
  | 0xF195 => some (padTo 8 o)
  | 0xFD00 => some (be 4 (s.reg 0x20F00000).toNat ++ (upFrom 0 4).flatMap fun i => be 4 (idIsa (s.tile 0) 0 i).toNat)
  | 0xFD01 => some [BitVec.ofNat 8 s.lc]
  | 0xFD02 => some (match s.plan with
    | some p => be 4 p.planId.toNat ++ be 4 p.ver.toNat ++ [BitVec.ofNat 8 (Tier.toNat s.dev.sched.variant)] ++ be 8 s.dev.sched.k0
    | none => padTo 17 o)
  | 0xFD03 => some (match s.dev.images.plan with
    | some g => be 4 g.plan.planId.toNat ++ be 4 g.plan.ver.toNat ++ [if (s.storedRefusal g).isSome then 1 else 0]
    | none => padTo 8 o ++ [2])
  | 0xFD04 => some (be 4 (s.tile 0).ucodeLvl.toNat)
  | 0xFD10 => some (be 2 (ofInt 16 s.tj) ++ be 2 (s.reg Csr.tjMax).toNat)
  | 0xFD11 => some (be 2 (fld (s.reg Csr.battMv) 15 0) ++ [BitVec.ofNat 8 s.supply])
  | 0xFD20 => some ((upFrom 0 16).flatMap fun n => [BitVec.ofNat 8 (Tier.toNat (s.tile (unitIx n)).tier), BitVec.ofNat 8 (s.mstep n)])
  | 0xFD21 => some ((upFrom 0 16).flatMap fun n => be 2 (fld (s.reg (Csr.fcast n)) 15 0))
  | 0xFD22 => some (be 4 ((s.reg Csr.opMin).toNat / 60) ++ be 4 ((s.reg Csr.sbMin).toNat / 60))
  | 0xFD30 => some (match s.net.path with | some x => s.pathHeader x | none => padTo 32 o)
  | 0xFD40 => some ((upFrom 0 4).flatMap fun m =>
      [BitVec.ofNat 8 (s.ptpRole m), BitVec.ofNat 8 (fld (s.reg (ethReg m 0x18)) 0 0)] ++ be 4 (s.reg (ethReg m 0x1C)).toNat)
  | 0xFD50 => some (padTo 4 (match cal with | some c => c.variant | none => o))
  | 0xFD51 => some (padTo 512 (match cal with | some c => c.trims | none => o))
  | _ => none

/-- 0x22: 1 to 8 DIDs. -/
def State.udsRead (s : State) (ds : List (BitVec 16)) : State :=
  s.udsRun 0x22 none fun b s =>
    if ds = [] ∨ 8 < ds.length then s.udsNeg b 0x13
    else if ds.all fun d => (s.did d.toNat).isSome then
      (if ds.any fun d => decide (d = 0xF190) || decide (d = 0xFD50) || decide (d = 0xFD51) then s.calRead else s).udsPos b (ds.flatMap fun d => be 2 d.toNat ++ (s.did d.toNat).getD [])
    else s.udsNeg b 0x31

/-- 0x2E: a writable DID goes into the calibration partition at once. -/
def State.udsWrite (s : State) (d : BitVec 16) (bs : List Byte) : State :=
  s.udsRun 0x2E none fun b s =>
    let put := fun (n : Nat) (f : CalImage → CalImage) =>
      if bs.length ≠ n then s.udsNeg b 0x13
      else if s.calNow.isNone then s.udsNeg b 0x22
      else s.reviseCal f (.uds b (be 2 d.toNat))
    match d.toNat with
    | 0xF190 => put 17 fun c => { c with vin := bs }
    | 0xFD50 => put 4 fun c => { c with variant := bs }
    | 0xFD51 => put 512 fun c => { c with trims := bs }
    | _ => s.udsNeg b 0x31

/-! ## Access (R364) -/

/-- The wrong keys counted for a level in the calibration copies. -/
def attemptsOf (c : Option CalImage) (hi : Bool) : Nat := match c with | some x => if hi then x.attempts.2 else x.attempts.1 | none => 0

/-- The delay after three wrong keys runs; one that a reset has cut short runs anew from time zero (480,000 ticks). -/
def State.keyDelay (s : State) : Bool :=
  decide (s.sample.toNat < s.net.delay)
    || (decide (s.sample.toNat < 480000) && (decide (3 ≤ attemptsOf s.net.cal false) || decide (3 ≤ attemptsOf s.net.cal true)))

/-- 0x27 0x01 and 0x11: a seed of 16 random bytes. -/
def State.udsSeed (s : State) (seed : List Byte) : State :=
  s.udsRun 0x27 none fun b s =>
    if b.sf ≠ 1 ∧ b.sf ≠ 0x11 then s
    else if s.keyDelay then s.udsNeg b 0x37
    else if (if b.sf = 1 then s.net.lvl01 else s.net.lvl11) then s.udsPos b (BitVec.ofNat 8 b.sf :: zeros 16)
    else (s.modNet fun n => { n with seed := some b.sf }).udsPos b (BitVec.ofNat 8 b.sf :: padTo 16 seed)

/-- BLANK and SCRAP keep the UDS levels locked (Table 18-7). -/
def State.levelsOpen (s : State) : Bool := decide (s.lc ≠ 0) && decide (s.lc ≠ 4)

/-- 0x27 0x02 and 0x12: the key, right when the level's key slot confirms it. -/
def State.udsKey (s : State) (right : Bool) : State :=
  s.udsRun 0x27 none fun b s =>
    if b.sf ≠ 2 ∧ b.sf ≠ 0x12 then s
    else
      let hi := decide (b.sf = 0x12)
      if s.net.seed ≠ some (b.sf - 1) then s.udsNeg b 0x24
      else
        let s1 := s.modNet fun n => { n with seed := none }
        let n := attemptsOf s.calNow hi
        let put := fun (s : State) (k : Nat) => s.reviseCal (fun c => { c with attempts := if hi then (c.attempts.1, k) else (k, c.attempts.2) }) .none
        let s1 := s1.keyRead (if hi then 4 else 3)
        if right ∧ s.levelsOpen ∧ s.keyOk (if hi then 4 else 3) then
          ((if n = 0 then s1 else put s1 0).modNet fun x => if hi then { x with lvl11 := true } else { x with lvl01 := true }).udsPos b [b.sub]
        else if 2 ≤ n then ((put s1 (n + 1)).modNet fun x => { x with delay := s.sample.toNat + 480000 }).udsNeg b 0x36
        else (put s1 (n + 1)).udsNeg b 0x35

/-- 0x29 0x00: the granted rights go. -/
def State.udsDeauth (s : State) : State :=
  s.udsRun 0x29 (some 0) fun b s => (s.modNet fun n => { n with lvl01 := false, lvl11 := false, cert := none }).udsPos b [0, 0x10]

/-- 0x29 0x01: a certificate that verifies against the root of key slot 5, with the level of its role and the challenge. -/
def State.udsCert (s : State) (right hi : Bool) (chal : List Byte) : State :=
  s.udsRun 0x29 (some 1) fun b s0 =>
    let s := s0.keyRead 5
    if right ∧ s.levelsOpen ∧ s.keyOk 5 then
      (s.modNet fun n => { n with cert := some (if hi then 0x11 else 1) }).udsPos b ([1, 0x11] ++ be 2 chal.length ++ chal ++ [0, 0])
    else s.udsNeg b 0x51

/-- 0x29 0x03: proof of ownership grants the rights of the role. -/
def State.udsOwner (s : State) (right : Bool) : State :=
  s.udsRun 0x29 (some 3) fun b s =>
    match s.net.cert with
    | none => s.udsNeg b 0x24
    | some l =>
      let s1 := s.modNet fun n => { n with cert := none }
      if right ∧ s.levelsOpen then (s1.modNet fun n => if l = 0x11 then { n with lvl11 := true } else { n with lvl01 := true }).udsPos b [3, 0x12, 0, 0]
      else s1.udsNeg b 0x58

/-- 0x29 0x08: authentication with certificate exchange. -/
def State.udsAuthConf (s : State) : State := s.udsRun 0x29 (some 8) fun b s => s.udsPos b [8, 2]

/-! ## Routines (R370 to R375) -/

/-- A request for one of the routines; 0x31 with another identifier in progress is another command's. -/
def State.udsRoutine (s : State) (sub rid : Nat) (f : UdsBusy → State → State) : State :=
  s.udsRun 0x31 (some sub) fun b s => if b.par.toNat = rid then f b s else s

/-- A routine's results are kept. -/
def State.setRtn (s : State) (rid : Nat) (bs : List Byte) : State := s.modNet fun n => { n with rtn := (rid, bs) :: n.rtn.filter fun x => decide (x.1 ≠ rid) }

/-- Start of 0xFE10 with its mask. -/
def State.udsPath (s : State) (mask : List Byte) : State :=
  s.udsRoutine 1 0xFE10 fun b s =>
    let runs : Bool := match s.net.path with | some x => x.run | none => false
    let byHost : Bool := match s.net.path with | some x => x.host | none => false
    if mask.length ≠ 16 then s.udsNeg b 0x13
    else if runs && !byHost then s.udsNeg b 0x24
    else if !s.pathOk then s.udsNeg b 0x22
    else (s.pathStart (BitVec.ofNat 128 (leNat mask)) false).udsPos b [1, 0xFE, 0x10]

/-- Stop of a routine: 0xFE10 aborts at the next output boundary; nothing else runs on. -/
def State.udsStop (s : State) : State :=
  s.udsRun 0x31 (some 2) fun b s =>
    let runs : Bool := match s.net.path with | some x => x.run && !x.host | none => false
    if decide (b.par = 0xFE10) && runs then (s.pathStop 2).udsPos b [2, 0xFE, 0x10] else s.udsNeg b 0x24

/-- Results of a routine. -/
def State.udsResults (s : State) : State :=
  s.udsRun 0x31 (some 3) fun b s =>
    let ans := fun (bs : List Byte) => s.udsPos b ([3] ++ be 2 b.par.toNat ++ bs)
    if b.par = 0xFE10 then
      match s.net.path with
      | some x =>
        if x.host then s.udsNeg b 0x24
        else if x.run then ans [0]
        else ans ((if x.status = 0 ∨ x.status = 4 then 1 else 2) :: s.pathResult x)
      | none => s.udsNeg b 0x24
    else match s.net.rtn.find? fun x => decide (x.1 = b.par.toNat) with
      | some x => ans x.2
      | none => s.udsNeg b 0x24

/-- 0xFE20 and 0xFE21: first record and a count of 1 to 64. -/
def State.udsExport (s : State) (rid : Nat) (first : Word) (cnt : Byte) : State :=
  s.udsRoutine 1 rid fun b s =>
    if cnt = 0 ∨ 64 < cnt.toNat then s.udsNeg b 0x31
    else
      let r := s.export (decide (rid = 0xFE20)) first cnt.toNat
      (r.1.setRtn rid r.2).udsPos b ([1] ++ be 2 rid)

/-- 0xFF01: whether firmware, stored plan and patch are consistent. -/
def State.udsCheck (s : State) : State :=
  s.udsRoutine 1 0xFF01 fun b s =>
    let im := s.dev.images
    let planBad := match im.plan with | some g => (s.storedRefusal g).isSome | none => false
    let fwBad := decide (fld (s.reg Csr.bootStat) 4 4 = 1) || !(s.fwGood 0 im.fwA) || !(s.fwGood 0x80000 im.fwB)
    let patchBad := match im.patch with | some q => !q.ok || s.mramBad 0x3A4000 0x10000 | none => false
    (((s.fwRead 0 0x300000).fwRead 0x3A4000 0x10000).planKeyRead.setRtn 0xFF01 [if planBad then 1 else if fwBad then 2 else if patchBad then 3 else 0]).udsPos b [1, 0xFF, 0x01]

/-! ## Downloads (R365) -/

/-- 0x34. -/
def State.udsDownload (s : State) (dfi alfi : Byte) (addr len : Word) : State :=
  s.udsRun 0x34 none fun b s =>
    if dfi ≠ 0 ∨ alfi ≠ 0x44 ∨ 3 < addr.toNat ∨ targetSize addr.toNat < len.toNat then s.udsNeg b 0x31
    else (s.modNet fun n => { n with dl := some { target := addr.toNat, len := len.toNat, got := [], ctr := 1 } }).udsPos b [0x20, 0x10, 0x02]

/-- 0x36: the next block is staged; a repeated one is answered and changes nothing. -/
def State.udsTransfer (s : State) (ctr : Byte) (bs : List Byte) : State :=
  s.udsRun 0x36 none fun b s =>
    match s.net.dl with
    | none => s.udsNeg b 0x24
    | some d =>
      if ctr + 1 = d.ctr ∧ d.got ≠ [] then s.udsPos b [ctr]
      else if ctr ≠ d.ctr then s.udsNeg b 0x73
      else if 4096 < bs.length ∨ bs = [] ∨ d.len < d.got.length + bs.length then s.udsNeg b 0x31
      else (s.modNet fun x => { x with dl := some { d with got := d.got ++ bs, ctr := d.ctr + 1 } }).udsPos b [ctr]

/-- 0x37: the staged image is verified and written, or answered NRC 0x72 with the MRAM unchanged. -/
def State.udsExit (s : State) (img0 : NewImage) : State :=
  s.udsRun 0x37 none fun b s =>
    match s.net.dl with
    | none => s.udsNeg b 0x24
    | some d =>
      if d.got.length ≠ d.len then s.udsNeg b 0x24
      else
        let img := imageOf img0 d.got
        let s1 := s.planKeyRead.modNet fun x => { x with dl := none }
        match s.imageRefused d.target img d.len with
        | some _ => s1.udsNeg b 0x72
        | none => s1.imagePut img d.got (.uds b [])

/-- 0x3E. -/
def State.udsPresent (s : State) : State := s.udsRun 0x3E (some 0) fun b s => s.udsPos b [0]

/-- 0x85. -/
def State.udsDtcSet (s : State) (on : Bool) : State :=
  s.udsRun 0x85 (some (if on then 1 else 2)) fun b s => (s.modSafety fun f => { f with dtcOff := !on }).udsPos b [if on then 1 else 2]

/-! ## DoIP (R360, R361) -/

/-- A DoIP message of the service core leaves a port in queue 0. -/
def State.doipSend (s : State) (m typ : Nat) (bs : List Byte) : State :=
  let w : List Byte := [0x02, 0xFD] ++ be 2 typ ++ be 4 bs.length ++ bs
  s.modNet fun n => { n with tx := n.tx ++ [{ port := m, q := 0, vid := fld (s.reg (ethReg m 0)) 20 9, cls := 1, len := w.length + 46, what := .doip m w }] }

/-- The logical address. -/
def State.logAddr (s : State) : Nat := match s.net.cal with | some c => c.logAddr.toNat | none => leNat (Config.didOpen 0)

/-- Vehicle identification: VIN, logical address, and the port's MAC address as EID. -/
def State.doipIdent (s : State) (m : Nat) : State :=
  if fld (s.reg (ethReg m 0)) 0 0 = 0 ∨ fld (s.reg (ethReg m 0)) 8 8 = 0 then s
  else
    let lo := (s.reg (ethReg m 8)).toNat
    let hi := (s.reg (ethReg m 0x0C)).toNat
    s.doipSend m 4 ((s.did 0xF190).getD [] ++ be 2 s.logAddr ++ be 6 (lo + hi * 2 ^ 32) ++ Config.doipRest)

/-- Routing activation on a TCP connection: types 0x00 and 0xE0. -/
def State.doipRoute (s : State) (k : Fin 2) (m : Nat) (src : BitVec 16) (typ : Byte) : State :=
  if fld (s.reg (ethReg m 0)) 0 0 = 0 ∨ fld (s.reg (ethReg m 0)) 8 8 = 0 then s
  else
    let ans := fun (s : State) (code : Byte) => s.doipSend m 6 (be 2 src.toNat ++ be 2 s.logAddr ++ [code] ++ zeros 4)
    if typ ≠ 0 ∧ typ ≠ 0xE0 then ans s 0x06
    else match s.net.conns[k] with
      | some (_, a) => if a = src then ans s 0x10 else ans s 0x02
      | none => ans (s.modNet fun n => { n with conns := vmod n.conns k.val fun _ => some (m, src) }) 0x10

/-- A connection closes: the session it owned returns to default, and its request is dropped. -/
def State.doipClose (s : State) (k : Fin 2) : State :=
  let mine : UdsClient → Bool := fun c => match c with | .doip j _ => decide (j = k) | .can _ => false
  let s1 := s.modNet fun n => { n with
    conns := vmod n.conns k.val fun _ => none
    busy := match n.busy with | some b => if mine b.client then none else some b | none => none }
  match s.net.owner with
  | some c => if mine c && decide (s.net.session ≠ 1) then s1.setSession 1 none else s1
  | none => s1

/-! ## The commands -/

/-- UDS_REQUEST_RECEIVE (R361, R362): client, functional addressing, service, sub-function, routine identifier. -/
def execUdsRequestReceive (c : UdsClient) (func : Bool) (sid sub : Byte) (rid : BitVec 16) (s : State) : Host.Outcome State Fault Refusal :=
  .next (s.whenUp fun s => s.udsRequest c func sid sub rid)

/-- DIAGNOSTIC_SESSION_CONTROL (R363). -/
def execDiagnosticSessionControl (s : State) : Host.Outcome State Fault Refusal := .next (s.whenUp State.udsSession)

/-- ECU_RESET_HARD (R366). -/
def execEcuResetHard (s : State) : Host.Outcome State Fault Refusal := .next (s.whenUp State.udsHard)

/-- ECU_RESET_SOFT (R366). -/
def execEcuResetSoft (s : State) : Host.Outcome State Fault Refusal := .next (s.whenUp State.udsSoft)

/-- CLEAR_DIAGNOSTIC_INFORMATION (R367). -/
def execClearDiagnosticInformation (group : BitVec 24) (s : State) : Host.Outcome State Fault Refusal := .next (s.whenUp fun s => s.udsClear group)

/-- REPORT_NUMBER_OF_DTC (R362, R367). -/
def execReportNumberOfDtc (mask : Byte) (s : State) : Host.Outcome State Fault Refusal := .next (s.whenUp fun s => s.udsCount mask)

/-- REPORT_DTC_BY_STATUS_MASK (R362, R367). -/
def execReportDtcByStatusMask (mask : Byte) (s : State) : Host.Outcome State Fault Refusal := .next (s.whenUp fun s => s.udsByMask mask)

/-- REPORT_DTC_SNAPSHOT (R367). -/
def execReportDtcSnapshot (dtc : BitVec 24) (rec_ : Byte) (s : State) : Host.Outcome State Fault Refusal :=
  .next (s.whenUp fun s => s.udsRecord 4 dtc rec_ fun d => Config.snapBytes d.snapBlock d.snapTj d.snapMv d.snapState)

/-- REPORT_DTC_EXT_DATA (R367). -/
def execReportDtcExtData (dtc : BitVec 24) (rec_ : Byte) (s : State) : Host.Outcome State Fault Refusal :=
  .next (s.whenUp fun s => s.udsRecord 6 dtc rec_ fun d => Config.extBytes d.occ d.unit)

/-- REPORT_SUPPORTED_DTC (R362). -/
def execReportSupportedDtc (s : State) : Host.Outcome State Fault Refusal := .next (s.whenUp State.udsSupported)

/-- READ_DATA_BY_IDENTIFIER (R369). -/
def execReadDataByIdentifier (ds : List (BitVec 16)) (s : State) : Host.Outcome State Fault Refusal := .next (s.whenUp fun s => s.udsRead ds)

/-- WRITE_DATA_BY_IDENTIFIER (R369). -/
def execWriteDataByIdentifier (d : BitVec 16) (bs : List Byte) (s : State) : Host.Outcome State Fault Refusal := .next (s.whenUp fun s => s.udsWrite d bs)

/-- SECURITY_ACCESS_SEED (R364): the random bytes. -/
def execSecurityAccessSeed (seed : List Byte) (s : State) : Host.Outcome State Fault Refusal := .next (s.whenUp fun s => s.udsSeed seed)

/-- SECURITY_ACCESS_KEY (R364): whether the key is the CMAC of the seed under the level's key. -/
def execSecurityAccessKey (right : Bool) (s : State) : Host.Outcome State Fault Refusal := .next (s.whenUp fun s => s.udsKey right)

/-- DEAUTHENTICATE (R362, R364). -/
def execDeauthenticate (s : State) : Host.Outcome State Fault Refusal := .next (s.whenUp State.udsDeauth)

/-- VERIFY_CERTIFICATE (R364): whether the signature verifies, whether the role is that of level 0x11, and the challenge. -/
def execVerifyCertificate (right hi : Bool) (chal : List Byte) (s : State) : Host.Outcome State Fault Refusal :=
  .next (s.whenUp fun s => s.udsCert right hi chal)

/-- PROOF_OF_OWNERSHIP (R364). -/
def execProofOfOwnership (right : Bool) (s : State) : Host.Outcome State Fault Refusal := .next (s.whenUp fun s => s.udsOwner right)

/-- AUTHENTICATION_CONFIGURATION (R362). -/
def execAuthenticationConfiguration (s : State) : Host.Outcome State Fault Refusal := .next (s.whenUp State.udsAuthConf)

/-- ACOUSTIC_PATH_TEST_START (R371). -/
def execAcousticPathTestStart (mask : List Byte) (s : State) : Host.Outcome State Fault Refusal := .next (s.whenUp fun s => s.udsPath mask)

/-- STOP_ROUTINE (R372). -/
def execStopRoutine (s : State) : Host.Outcome State Fault Refusal := .next (s.whenUp State.udsStop)

/-- REQUEST_ROUTINE_RESULTS (R370). -/
def execRequestRoutineResults (s : State) : Host.Outcome State Fault Refusal := .next (s.whenUp State.udsResults)

/-- MARGIN_HISTORY_READOUT (R375). -/
def execMarginHistoryReadout (first : Word) (cnt : Byte) (s : State) : Host.Outcome State Fault Refusal :=
  .next (s.whenUp fun s => s.udsExport 0xFE20 first cnt)

/-- EVENT_LOG_EXPORT (R374). -/
def execEventLogExport (first : Word) (cnt : Byte) (s : State) : Host.Outcome State Fault Refusal :=
  .next (s.whenUp fun s => s.udsExport 0xFE21 first cnt)

/-- CHECK_PROGRAMMING_DEPENDENCIES (R370). -/
def execCheckProgrammingDependencies (s : State) : Host.Outcome State Fault Refusal := .next (s.whenUp State.udsCheck)

/-- REQUEST_DOWNLOAD (R365): data format, address and length format, address, length. -/
def execRequestDownload (dfi alfi : Byte) (addr len : Word) (s : State) : Host.Outcome State Fault Refusal :=
  .next (s.whenUp fun s => s.udsDownload dfi alfi addr len)

/-- TRANSFER_DATA (R365): block counter and bytes. -/
def execTransferData (ctr : Byte) (bs : List Byte) (s : State) : Host.Outcome State Fault Refusal := .next (s.whenUp fun s => s.udsTransfer ctr bs)

/-- REQUEST_TRANSFER_EXIT (R365): what the staged bytes are an image of. -/
def execRequestTransferExit (img : NewImage) (s : State) : Host.Outcome State Fault Refusal := .next (s.whenUp fun s => s.udsExit img)

/-- TESTER_PRESENT (R362). -/
def execTesterPresent (s : State) : Host.Outcome State Fault Refusal := .next (s.whenUp State.udsPresent)

/-- CONTROL_DTC_SETTING_ON (R367). -/
def execControlDtcSettingOn (s : State) : Host.Outcome State Fault Refusal := .next (s.whenUp fun s => s.udsDtcSet true)

/-- CONTROL_DTC_SETTING_OFF (R367). -/
def execControlDtcSettingOff (s : State) : Host.Outcome State Fault Refusal := .next (s.whenUp fun s => s.udsDtcSet false)

/-- RESPONSE_PENDING (R361). -/
def execResponsePending (s : State) : Host.Outcome State Fault Refusal := .next (s.whenUp State.udsPending)

/-- S3_TIMEOUT (R361). -/
def execS3Timeout (s : State) : Host.Outcome State Fault Refusal := .next (s.whenUp State.s3)

/-- DOIP_VEHICLE_IDENTIFICATION (R360). -/
def execDoipVehicleIdentification (m : Fin 4) (s : State) : Host.Outcome State Fault Refusal := .next (s.whenUp fun s => s.doipIdent m.val)

/-- DOIP_ROUTING_ACTIVATION (R360): connection, port, source address, activation type. -/
def execDoipRoutingActivation (k : Fin 2) (m : Fin 4) (src : BitVec 16) (typ : Byte) (s : State) : Host.Outcome State Fault Refusal :=
  .next (s.whenUp fun s => s.doipRoute k m.val src typ)

/-- DOIP_CONNECTION_CLOSE (R361). -/
def execDoipConnectionClose (k : Fin 2) (s : State) : Host.Outcome State Fault Refusal := .next (s.whenUp fun s => s.doipClose k)

/-- PATH_TEST_OUTPUT_STEP (R371 to R373): what was measured on the output being treated. -/
def execPathTestOutputStep (m : PathMeasure) (s : State) : Host.Outcome State Fault Refusal := .next (s.whenUp fun s => s.pathStep m)

end Sys2Proof.Machine
end

