-- ==== Sys2Proof/Machine/Security.lean ====
section
/-! DEFINITION. The commands of the security block, the debug port, fault injection and MRAM writes (R152, R154, R220, R251, R416, R422, R477 to R483,
R492, R510). -/

namespace Sys2Proof.Machine

/-! ## Lifecycle tokens (R478, R479) -/

/-- A token word at LC_TOK_IDX; the index advances. -/
def State.tokenWord (s : State) (v : Word) : State :=
  let i := fld (s.reg Csr.lcTokIdx) 5 0
  (s.modSec fun x => { x with token := vmod x.token i fun _ => v }).setReg Csr.lcTokIdx (BitVec.ofNat 32 ((i + 1) % 64))

/-- The bytes of the token written. -/
def Security.tokenBytes (x : Security) : List Byte := x.token.toList.flatMap fun w => leBytes 4 w.toNat

/-- The wiping transitions of Table 18-8, with whether they need the OWNER signature. -/
def transition (src dst : Nat) : Option Bool :=
  if src = 0 ∧ dst = 4 then some false
  else if (src = 1 ∧ dst = 2) ∨ (src = 2 ∧ dst = 3) then some true
  else if (src = 1 ∨ src = 2 ∨ src = 3) ∧ dst = 4 then some true
  else none

/-- The token passes: format, serial number, nonce, transition and signature. -/
def State.tokenOk (s : State) (sigOk : Bool) : Bool :=
  let b := s.dev.sec.tokenBytes
  let cut := fun (o n : Nat) => (b.drop o).take n
  let regs := fun (f : Nat → Nat) (n : Nat) => (upFrom 0 n).flatMap fun i => leBytes 4 (s.reg (f i)).toNat
  decide (leNat (cut 0 4) = 0x4C43544B) && decide (cut 5 3 = zeros 3) && decide (cut 56 104 = zeros 104)
    && decide (cut 8 16 = regs Csr.serial 4) && decide (cut 24 32 = regs Csr.lcNonce 8)
    && (match transition s.lc (leNat (cut 4 1)) with
      | some sig => !sig || (sigOk && s.keyOk 0)
      | none => false)

/-- A security event of the firmware: SOURCE 16, severity 0 (R482). -/
def State.logSec (s : State) (code : Nat) : State := s.logEvent code 16 0 0 []

/-- The firmware runs: it has been verified, and the ROM has not halted (R469, R470). -/
def State.fwRuns (s : State) : Bool := decide (3 ≤ s.phase) && decide (s.phase ≠ 9)

/-- GO of LC_TOK_CMD: the firmware verifies the token, and the nonce is renewed. -/
def State.tokenGo (s : State) (sigOk : Bool) (nonce : List Word) : State :=
  let ok := s.tokenOk sigOk
  if !s.fwRuns then s else
  let s1 := (upFrom 0 8).foldl (fun s i => s.setReg (Csr.lcNonce i) (nonce.getD i 0)) (s.keyRead 0)
  if ok then (s1.setReg Csr.lcTokStat 2).modSec fun x => { x with tokTarget := some (leNat ((s.dev.sec.tokenBytes.drop 4).take 1)) }
  else (s1.setReg Csr.lcTokStat 3).logSec 0x0306

/-- Set MRAM bytes of a range to zero, without a list of them: every listed byte of the range goes. -/
def State.mramZero (s : State) (o n : Nat) : State :=
  { s with
    mem := s.mem.filter fun c => !(decide (mramBase + o ≤ c.1) && decide (c.1 < mramBase + o + n))
    merr := s.merr.filter fun e => !(decide (o / 32 ≤ e.1) && decide (32 * e.1 < o + n)) }

/-- The user partitions and the key slots are wiped. -/
def State.wipeUser (s : State) : State :=
  ((((s.mramZero 0x100000 0x220000).mramZero keyBase 0x4000).setReg Csr.keyStat 0).modImages fun m =>
    { m with plan := none, calA := none, calB := none, written := true }).setRegFld (Csr.partStat 2) 1 0 0

/-- The next step of an accepted transition (R479): mute, then the wipe once the ramp has ended, then the fuse and the reset. -/
def State.lcStep (s : State) : State :=
  match s.dev.sec.tokTarget with
  | none => s
  | some t =>
    if fld (s.reg Csr.mramWipe) 3 3 = 1 then
      let s1 := (s.logSec 0x0305)
      let s2 := (s1.dev.safety.events.foldl (fun s e => s.writeEvent e) s1).modSafety fun f => { f with events := [] }
      ((s2.setReg Csr.lcStat (BitVec.ofNat 32 t)).setReg Csr.mramWipe (BitVec.ofNat 32 t)).deviceReset 5 0
    else match s.dev.safety.fallAll with
      | none =>
        let s1 := s.modSafety fun f => { f with fallAll := some (s.sample.toNat + 1) }
        { s1 with tiles := s1.tiles.mapIdx fun n (x : Tile) => if n < 16 then { x with heldOff := true } else x }
      | some s0 => if s.sample.toNat < s0 + 240 then s else s.wipeUser.setRegFld Csr.mramWipe 3 3 1

/-- LC_TOK_DATA_WRITE (R479). -/
def execLcTokDataWrite (v : Word) (s : State) : Host.Outcome State Fault Refusal := .next (s.whenUp fun s => s.tokenWord v)

/-- LC_TOK_GO (R479): whether the signature verifies under slot 0's key, and the next nonce of the TRNG. -/
def execLcTokGo (sigOk : Bool) (nonce : List Word) (s : State) : Host.Outcome State Fault Refusal :=
  .next (s.whenUp fun s => s.tokenGo sigOk nonce)

/-- LC_TRANSITION (R478, R479). -/
def execLcTransition (s : State) : Host.Outcome State Fault Refusal := .next (s.whenUp State.lcStep)

/-! ## Provisioning (R480) -/

/-- Provisioning is open. -/
def State.provOpen (s : State) : Bool := decide (fld (s.reg Csr.lcStat) 4 4 = 0)

/-- A word of a key slot. -/
def State.provWord (s : State) (v : Word) : State :=
  if s.provOpen ∧ s.dev.sec.slotBuf.length < 256 then s.modSec fun x => { x with slotBuf := x.slotBuf ++ [v] } else s

/-- COMMIT of the slot and length in a PROV_CTL value. -/
def State.provCommit (s : State) (v : Word) : State :=
  let k := fld v 3 0
  let n := fld v 10 4
  let ok := s.provOpen && decide (k ≤ 6) && decide (fld (s.reg Csr.keyStat) k k = 0) && decide (1 ≤ n) && decide (n ≤ s.dev.sec.slotBuf.length)
  let s1 := s.modSec fun x => { x with slotBuf := [] }
  if ok then
    ((s1.mramPut (keyBase + 1024 * k) ((s.dev.sec.slotBuf.take n).flatMap fun w => leBytes 4 w.toNat)).setRegFld Csr.keyStat k k 1).setRegFld
      Csr.provStat 1 1 0
  else s1.setRegFld Csr.provStat 1 1 1

/-- DONE: accepted once slot 0 holds a key; BLANK becomes DEVELOP (Table 18-8). -/
def State.provDone (s : State) : State :=
  if s.provOpen ∧ fld (s.reg Csr.keyStat) 0 0 = 1 then
    let s1 := (s.setRegFld Csr.lcStat 4 4 1).logSec 0x0309
    if s.lc = 0 then (s1.setRegFld Csr.lcStat 2 0 1).logSec 0x0305 else s1
  else s

/-- A write of PROV_CTL: slot and length, then COMMIT and DONE; a write with neither starts a slot anew. -/
def State.provCtl (s : State) (v : Word) : State :=
  let s1 := s.setReg Csr.provCtl (v &&& 0x7FF)
  if fld v 16 16 = 1 then (let s2 := s1.provCommit v; if fld v 17 17 = 1 then s2.provDone else s2)
  else if fld v 17 17 = 1 then s1.provDone
  else s1.modSec fun x => { x with slotBuf := [] }

/-- PROV_DATA_WRITE (R480). -/
def execProvDataWrite (v : Word) (s : State) : Host.Outcome State Fault Refusal := .next (s.whenUp fun s => s.provWord v)

/-- PROV_COMMIT (R480): the value written to PROV_CTL. -/
def execProvCommit (v : Word) (s : State) : Host.Outcome State Fault Refusal :=
  .next (s.whenUp fun s => (s.setReg Csr.provCtl (v &&& 0x7FF)).provCommit v)

/-- PROV_DONE (R480). -/
def execProvDone (s : State) : Host.Outcome State Fault Refusal := .next (s.whenUp State.provDone)

/-! ## Debug (R481, R492) -/

/-- The level that a lifecycle permits: 0 none, 1 status, 2 full (Table 18-7). -/
def dbgMax (lc : Nat) : Nat := match lc with | 0 => 2 | 1 => 2 | 2 => 1 | 3 => 2 | _ => 0

/-- Full debug is granted, or open in BLANK. -/
def State.dbgFull (s : State) : Bool := decide (s.lc = 0) || decide (fld (s.reg Csr.dbgStat) 1 0 = 2)

/-- A response word at DBG_RESP_IDX; the index advances. -/
def State.respWord (s : State) (v : Word) : State :=
  let i := fld (s.reg Csr.dbgRespIdx) 4 0
  (s.modSec fun x => { x with resp := vmod x.resp i fun _ => v }).setReg Csr.dbgRespIdx (BitVec.ofNat 32 ((i + 1) % 32))

/-- GO of DBG_CMD: a level is granted, or the attempt refused and counted; the challenge is renewed. -/
def State.dbgGo (s : State) (sigOk : Bool) (level : Nat) (chal : List Word) : State :=
  let n := fld (s.reg Csr.dbgStat) 3 2
  let s1 := ((upFrom 0 8).foldl (fun s i => s.setReg (Csr.dbgChal i) (chal.getD i 0)) (s.keyRead 6)).setRegFld Csr.dbgStat 4 4 0
  if n < 3 ∧ 1 ≤ level ∧ level ≤ dbgMax s.lc ∧ sigOk ∧ s.keyOk 6 then (s1.setRegFld Csr.dbgStat 1 0 level).logSec 0x0307
  else (s1.setRegFld Csr.dbgStat 3 2 (min 3 (n + 1))).logSec 0x0308

/-- A HALT request takes effect at an acceptance point. -/
def State.dbgHalt (s : State) (u : UnitIx) : State :=
  let t := s.tile u
  if fld t.dbgCtl 0 0 = 1 ∧ !t.halted ∧ t.awake ∧ t.atAcceptance then haltTile u s else s

/-- STEP: a halted unit issues one frond. -/
def State.dbgStep (s : State) (u : UnitIx) : State :=
  if s.dbgFull ∧ (s.tile u).halted then s.modTile u fun t => { t with stepping := true } else s

/-- A frond at an enabled breakpoint address halts the unit before it issues. -/
def State.dbgBreak (s : State) (u : UnitIx) : State :=
  let t := s.tile u
  let hit : Bool := t.bkpt.toList.any fun b => decide (fld b 0 0 = 1) && decide (fld b 20 3 * 8 = t.pc.toNat)
  if hit && t.awake && !t.halted && t.frond.isEmpty && !t.waiting then
    haltTile u (s.modTile u fun t => { t with dbgCtl := setFld t.dbgCtl 0 0 1 })
  else s

/-- DBG_RESP_DATA_WRITE (R481). -/
def execDbgRespDataWrite (v : Word) (s : State) : Host.Outcome State Fault Refusal := .next (s.whenUp fun s => s.respWord v)

/-- DBG_CMD_GO (R481): whether the response verifies under slot 6's key for this level byte, and the next challenge of the TRNG. -/
def execDbgCmdGo (sigOk : Bool) (level : Fin 4) (chal : List Word) (s : State) : Host.Outcome State Fault Refusal :=
  .next (s.whenUp fun s => s.dbgGo sigOk level.val chal)

/-- DBG_HALT (R492). -/
def execDbgHalt (u : UnitIx) (s : State) : Host.Outcome State Fault Refusal := .next (s.dbgHalt u)

/-- DBG_STEP (R492). -/
def execDbgStep (u : UnitIx) (s : State) : Host.Outcome State Fault Refusal := .next (s.dbgStep u)

/-- BREAKPOINT_HIT (R492). -/
def execBreakpointHit (u : UnitIx) (s : State) : Host.Outcome State Fault Refusal := .next (s.dbgBreak u)

/-! ## Fault injection (R422) -/

/-- The event code injected for a bit of FAULT_STAT (Tables 15-6 and 15-9). -/
def injCode (b : Nat) : Option Nat :=
  [0x0102, 0x0104, 0x0110, 0x0111, 0x0112, 0x0120, 0x0140, 0x0141, 0x0142, 0x0144, 0x0151, 0x0160, 0x0161, 0x0170, 0x0171, 0x0172, 0x0181,
   0x0190, 0x01A0, 0x01B0][b]?

/-- A write of INJ_CTL: in DEVELOP only; with go the hub sees a report of the mechanism. -/
def State.injWrite (s : State) (v : Word) : State :=
  if s.lc ≠ 1 then s
  else
    let s1 := s.setReg Csr.injCtl (v &&& 0x7F)
    if fld v 6 6 = 0 then s1
    else match injCode (fld v 5 0) with
      | some c => (s1.takeReport { code := BitVec.ofNat 16 c, unit := Config.injUnit c, detail := Config.injDetail c }).orReg Csr.injStat 1
      | none => s1

/-- INJ_GO (R422). -/
def execInjGo (v : Word) (s : State) : Host.Outcome State Fault Refusal := .next (s.whenUp fun s => s.injWrite v)

/-! ## MRAM commands (R483) -/

/-- A write of MRAM_CMD: 1 writes from the fabric source, 2 erases; from the service core only, and not while one runs. -/
def State.mramCmd (s : State) (q : Requester) (op : Nat) : State :=
  if q ≠ .tile 16 then s.bump Csr.wrDisc
  else if s.fab.mram.isSome ∨ (op ≠ 1 ∧ op ≠ 2) then s
  else
    let src := (s.reg Csr.mramCmdSrcLo).toNat + (s.reg Csr.mramCmdSrcHi).toNat * 2 ^ 32
    let s1 : State := { s with fab := { s.fab with mram := some (op, (s.reg Csr.mramCmdAddr).toNat, (s.reg Csr.mramCmdLen).toNat, src) } }
    (s1.setReg Csr.mramCmdStat 0).setRegFld Csr.mramStat 0 0 1

/-- What the MRAM holds as an image goes where a command has written over it. -/
def State.imagesHit (s : State) (o n : Nat) : State :=
  let hit := fun (a m : Nat) => overlaps o n a m
  let s1 := s.modImages fun m => { m with
    fwA := if hit 0 0x80000 then none else m.fwA
    fwB := if hit 0x80000 0x80000 then none else m.fwB
    plan := if hit 0x100000 0x200000 then none else m.plan
    calA := if hit 0x300000 0x10000 then none else m.calA
    calB := if hit 0x310000 0x10000 then none else m.calB
    patch := if hit 0x3A4000 0x10000 then none else m.patch
    written := m.written || hit 0x100000 0x200000 || hit 0x3A4000 0x10000 }
  [(0, 0, 0x80000), (1, 0x80000, 0x80000), (2, 0x100000, 0x200000), (3, 0x300000, 0x20000), (7, 0x3A4000, 0x10000)].foldl
    (fun s x => if hit x.2.1 x.2.2 then s.setRegFld (Csr.partStat x.1) 1 0 2 else s)
    (s1.modSafety fun f => { f with dtcs := (f.dtcs.zipIdx.filter fun x => !hit (0x3B4000 + 128 * x.2) 128).map (·.1) })

/-- The source bytes of a write command, or the status of Table 5-4: a bank, the MRAM, or host memory, whose bytes are given. -/
def State.mramSource (s : State) (src n : Nat) (ext : List Byte) : State × Except Nat (List Byte) :=
  match regionOf src with
  | .bank =>
    if regionOf (src + n - 1) ≠ .bank ∨ (locate src).map (·.1) ≠ (locate (src + n - 1)).map (·.1) then (s, .error 2)
    else
      let r := s.bankRead .mram src n
      (r.1, if r.2.1 = 0 then .ok r.2.2 else .error r.2.1)
  | .mram =>
    if mramBase + mramSize < src + n then (s, .error 2)
    else
      let r := s.mramRead (src - mramBase) n
      match r.2 with
      | some bs => (r.1, .ok bs)
      | none => (r.1, .error 6)
  | .partner => (s, .error 7)
  | .host => if s.tunnel then (s.emit (.hostRead (s.winBase + (src - 0x800000000)) n), .ok (padTo n ext)) else (s, .error 8)
  | _ => (s, .error 2)

/-- The command of MRAM_CMD that runs ends, or else a burst of the image write that runs; none follows the wipe of a transition (R479). -/
def State.mramDone (s : State) (ext : List Byte) : State :=
  match s.fab.mram with
  | none => if fld (s.reg Csr.mramWipe) 3 3 = 1 then s else (let r := s.imageBurst; r.1.imageAnswered r.2)
  | some (op, o, n, src) =>
    let s0 := ({ s with fab := { s.fab with mram := none } } : State).imageBusy
    let fin := fun (s : State) (st : Nat) => s.setReg Csr.mramCmdStat (BitVec.ofNat 32 (1 + st * 2))
    if mramSize < o + n then fin s0 2
    else if n = 0 then fin s0 0
    else if op = 2 then
      fin (((s0.mramZero o n).imagesHit o n).mramCount (n / 32)) 0
    else
      let r := s0.mramSource src n ext
      match r.2 with
      | .ok bs => fin ((r.1.mramPut o bs).imagesHit o n) 0
      | .error e => fin r.1 e

/-- MRAM_WRITE_CMD (R483). -/
def execMramWriteCmd (q : Requester) (s : State) : Host.Outcome State Fault Refusal := .next (s.whenUp fun s => s.mramCmd q 1)

/-- MRAM_ERASE_CMD (R483). -/
def execMramEraseCmd (q : Requester) (s : State) : Host.Outcome State Fault Refusal := .next (s.whenUp fun s => s.mramCmd q 2)

/-- MRAM_CMD_COMPLETE (R483): `ext` are the bytes of a source in host memory. -/
def execMramCmdComplete (ext : List Byte) (s : State) : Host.Outcome State Fault Refusal := .next (s.whenUp fun s => s.mramDone ext)

/-! ## Single register writes with an effect of their own -/

/-- SC_KICK: the publish step of the open switch window is done (R416). -/
def State.scKick (s : State) (q : Requester) : State :=
  if q ≠ .tile 16 then s.bump Csr.wrDisc
  else if s.dev.sched.stage = .none then s else s.modSched fun x => { x with kicked := true }

/-- ISWI of a unit: vectors 34 to 37 become pending (R220); the service core alone writes it (Table 19-5). -/
def State.iswi (s : State) (u : UnitIx) (q : Requester) (v : Word) : State :=
  if q ≠ .tile 16 then s.bump Csr.wrDisc
  else s.modTile u fun t => if t.state = .dark then t else { t with ipend := t.ipend ||| BitVec.ofNat 256 (fld v 3 0 * 2 ^ 34) }

/-- Requesters that write SPQ_HEAD of a queue: its own unit, the service core, host software and the debug port (R486). -/
def spqWriter (u : UnitIx) (q : Requester) : Bool :=
  match q with
  | .tile n => decide (n = u) || decide (n.val = 16)
  | .host => true
  | .jtag => true
  | _ => false

/-- SPQ_HEAD: performed when v − HEAD ≤ TAIL − HEAD, else discarded and counted (R251). -/
def State.spqWrite (s : State) (u : UnitIx) (q : Requester) (v : Word) : State :=
  let t := s.tile u
  if spqWriter u q ∧ (v - t.spqHead).toNat ≤ (t.spqTail - t.spqHead).toNat then (s.modTile u fun t => { t with spqHead := v }).drainSpill u.val
  else s.bump Csr.wrDisc

/-! ### Microcode patch registers (R149, R154, R487).  The order of their words behind UPATCH_IDX is this model's (log 70): two words for each of 64 dispatch
overrides, then six for each of 32 field overrides. -/

/-- The bits of a field override: address, mask, word. -/
def fieldBits (x : BitVec 13 × BitVec 15 × BitVec 144) : Nat := x.1.toNat + x.2.1.toNat * 2 ^ 13 + x.2.2.toNat * 2 ^ 28

/-- The word of the patch registers at an index. -/
def Patch.word (p : Patch) (i : Nat) : Word :=
  if i < 128 then BitVec.ofNat 32 ((p.disp.getD (i / 2) 0).toNat >>> (32 * (i % 2)))
  else BitVec.ofNat 32 (fieldBits (p.field.getD ((i - 128) / 6) (0, 0, 0)) >>> (32 * ((i - 128) % 6)))

/-- The list extended with `d` so that it has element `i`, and that element replaced. -/
def padSet {α : Type} (d : α) (l : List α) (i : Nat) (x : α) : List α := (l ++ List.replicate (i + 1 - l.length) d).set i x

/-- Write the word of the patch registers at an index. -/
def Patch.setWord (p : Patch) (i : Nat) (v : Word) : Patch :=
  if i < 128 then
    { p with disp := padSet 0 p.disp (i / 2) (BitVec.ofNat 64 (withBits (p.disp.getD (i / 2) 0).toNat (32 * (i % 2) + 31) (32 * (i % 2)) v.toNat)) }
  else if i < 320 then
    let j := (i - 128) % 6
    let x := withBits (fieldBits (p.field.getD ((i - 128) / 6) (0, 0, 0))) (32 * j + 31) (32 * j) v.toNat
    { p with field := padSet (0, 0, 0) p.field ((i - 128) / 6) (BitVec.ofNat 13 x, BitVec.ofNat 15 (x / 2 ^ 13), BitVec.ofNat 144 (x / 2 ^ 28)) }
  else p

/-- The patch registers of a unit take no write: its own lock, or the lifecycle lock. -/
def State.patchLocked (s : State) (u : UnitIx) : Bool :=
  decide (fld (s.tile u).ucodeLvl 31 31 = 1) || decide (fld (s.reg Csr.lcStat) 3 3 = 1)

/-- A read of UPATCH_DATA: the word at the index, which advances. -/
def State.patchRead (s : State) (u : UnitIx) : State × Word :=
  let t := s.tile u
  (s.setTile u { t with upatchIdx := t.upatchIdx + 1 }, t.patch.word t.upatchIdx.toNat)

/-- A write of UPATCH_DATA: the word at the index, which advances; NDISP and NFIELD count the entries that are not zero. -/
def State.patchWrite (s : State) (u : UnitIx) (q : Requester) (v : Word) : State :=
  if q ≠ .tile 16 ∨ s.patchLocked u then s.bump Csr.wrDisc
  else s.modTile u fun t =>
    let p := t.patch.setWord t.upatchIdx.toNat v
    { t with
      patch := p, upatchIdx := t.upatchIdx + 1
      ucodeLvl := setFld (setFld t.ucodeLvl 22 16 (p.disp.filter (· ≠ 0)).length) 28 23 (p.field.filter fun x => decide (fieldBits x ≠ 0)).length }

/-- SC_KICK_WRITE (R416). -/
def execScKickWrite (q : Requester) (s : State) : Host.Outcome State Fault Refusal := .next (s.whenUp fun s => s.scKick q)

/-- ISWI_WRITE (R220). -/
def execIswiWrite (u : UnitIx) (q : Requester) (v : Word) (s : State) : Host.Outcome State Fault Refusal :=
  .next (s.whenUp fun s => s.iswi u q v)

/-- SPQ_HEAD_WRITE (R251). -/
def execSpqHeadWrite (u : UnitIx) (q : Requester) (v : Word) (s : State) : Host.Outcome State Fault Refusal :=
  .next (s.whenUp fun s => s.spqWrite u q v)

/-- UPATCH_DATA_ACCESS (R154): a write of a value, or a read. -/
def execUpatchDataAccess (u : UnitIx) (q : Requester) (v : Option Word) (s : State) : Host.Outcome State Fault Refusal :=
  .next (s.whenUp fun s => match v with
    | some x => s.patchWrite u q x
    | none => if q = .tile 16 then (s.patchRead u).1 else s)

/-- DEVICE_EVENT (R494, R495): vectors 207 to 255 are not produced. -/
def execDeviceEvent (v : BitVec 8) (s : State) : Host.Outcome State Fault Refusal :=
  .next (s.whenUp fun s => if 64 ≤ v.toNat ∧ v.toNat ≤ 206 then s.devEvent v.toNat else s)

/-! ## Serial controllers and pins (R41, R510): 0 to 3 I²C, 4 to 7 SPI, 8 to 55 GPIO.  The spec gives their owners and no registers (log 74). -/

/-- The owner of a controller or pin. -/
def State.serialOwner (s : State) (c : Nat) : UnitIx :=
  match s.plan with
  | some p => (match p.owners.find? fun x => decide (x.1 = c) with | some x => x.2 | none => 16)
  | none => 16

/-- The pins with the level of one set. -/
def putPin (p : BitVec 48) (i : Nat) (b : Bool) : BitVec 48 :=
  if b then p ||| BitVec.ofNat 48 (2 ^ i) else p &&& ~~~(BitVec.ofNat 48 (2 ^ i))

/-- A controller or pin has its new value: a transfer's result, or a pin's level. -/
def State.serialPut (s : State) (c : Nat) (ok : Bool) (tx rx : List Byte) : State :=
  let s1 := s.emit (.serial c tx)
  if c < 8 then { s1 with fab := { s1.fab with serial := (c, ok, rx) :: s1.fab.serial.filter fun x => decide (x.1 ≠ c) } }
  else { s1 with fab := { s1.fab with pins := putPin s1.fab.pins (c - 8) ((tx.getD 0 0).getLsbD 0) } }

/-- A write by the owner takes effect; any other requester's is discarded, and an ownership error. -/
def State.serialEnd (s : State) (c : Nat) (q : Requester) (tx rx : List Byte) (ok : Bool) : State :=
  if q = .tile (s.serialOwner c) then s.serialPut c ok tx rx
  else s.report 0x01D0 (match q with | .tile u => u.val | _ => 22) [BitVec.ofNat 32 c]

/-- The current value: a controller's last result and the bytes it received, or a pin's level. -/
def State.serialValue (s : State) (c : Nat) : List Byte :=
  if c < 8 then (match s.fab.serial.find? fun x => decide (x.1 = c) with | some x => BitVec.ofNat 8 (b2n x.2.1) :: x.2.2 | none => [])
  else [BitVec.ofNat 8 (b2n (s.fab.pins.getLsbD (c - 8)))]

/-- An access to a controller or pin; the world outside drives the level of a pin alone. -/
def State.serialAccess (s : State) (c : Nat) (q : Requester) (x : SerialAccess) : State :=
  match x with
  | .write tx rx => s.serialEnd c q tx rx true
  | .read => s.emit (.serialValue c (s.serialValue c))
  | .level b => if c < 8 then s else { s with fab := { s.fab with pins := putPin s.fab.pins (c - 8) b } }

/-- SERIAL_TRANSFER_COMPLETE (R40, R41). -/
def execSerialTransferComplete (c : Fin 56) (q : Requester) (x : SerialAccess) (s : State) : Host.Outcome State Fault Refusal :=
  .next (s.whenUp fun s => s.serialAccess c.val q x)

/-- I2C_CLOCK_STRETCH_TIMEOUT (R510): the owner's transfer ends with a bus error, nine clocks and a stop. -/
def execI2cClockStretchTimeout (c : Fin 4) (q : Requester) (bs : List Byte) (s : State) : Host.Outcome State Fault Refusal :=
  .next (s.whenUp fun s => if q = .tile (s.serialOwner c.val) then (s.serialPut c.val false bs []).emit (.busClear c.val)
    else s.serialEnd c.val q bs [] false)

end Sys2Proof.Machine
end

