-- ==== Sys2Proof/Machine/CsrMap.lean ====
section
/-! DEFINITION. The register map: which addresses hold a register, its access code, the bits a write changes and its writers (Table 0-5, R16 to R20,
R484 to R493, and the register tables of chapters 2, 5, 9 to 18). -/

namespace Sys2Proof.Machine

/-- Access codes (Table 0-5). -/
inductive Acc where
  | ro | rw | w1c | wo | rc | rwl
  deriving DecidableEq, Repr

/-- A register: its code, the bits that a write may change or clear, whether the service core writes those bits whatever the code (R17), and whether
it alone may write. -/
structure RegDef where
  acc  : Acc
  mask : Word
  sc   : Bool
  only : Bool
  deriving DecidableEq, Repr

/-- A read-only register. -/
def rRo : RegDef := { acc := .ro, mask := 0, sc := false, only := false }
/-- A configuration register: read-only but for the service core. -/
def rCfg (m : Word) : RegDef := { acc := .ro, mask := m, sc := true, only := true }
/-- A read-write register that carries no restriction. -/
def rRw (m : Word) : RegDef := { acc := .rw, mask := m, sc := false, only := false }
/-- A read-write register of the service core only. -/
def rRwSc (m : Word) : RegDef := { acc := .rw, mask := m, sc := true, only := true }
/-- A register whose bits are cleared by writing 1. -/
def rW1c (m : Word) : RegDef := { acc := .w1c, mask := m, sc := false, only := false }
/-- The same, which the service core alone writes, as its chapter names it: its writes store (R17). -/
def rW1cSc (m : Word) : RegDef := { acc := .w1c, mask := m, sc := true, only := true }
/-- A register that a read clears and the service core writes. -/
def rRcSc (m : Word) : RegDef := { acc := .rc, mask := m, sc := true, only := true }
/-- A write-only register. -/
def rWo : RegDef := { acc := .wo, mask := 0xFFFFFFFF, sc := false, only := false }
/-- A write-only register of the service core only. -/
def rWoSc : RegDef := { acc := .wo, mask := 0xFFFFFFFF, sc := false, only := true }
/-- A register that a read clears. -/
def rRc : RegDef := { acc := .rc, mask := 0, sc := false, only := false }

/-- The offset lies from `a` to the register at `b`. -/
def inOfs (o a b : Nat) : Bool := decide (a ≤ o) && decide (o < b + 4)

/-- Tile and service-core registers (Table 19-5, Tables 5-13, 9-7, 9-10). -/
def tileDef (o : Nat) : Option RegDef :=
  if inOfs o 0 0x18 || inOfs o 0x20 0x2C || inOfs o 0x100 0x15C then some rRo
  else if o = 0x160 then some rWoSc
  else if inOfs o 0x180 0x194 then some (rCfg 0xFFFFFFFF)
  else if inOfs o 0x200 0x20C then some rRo
  else if o = 0x210 then some (rRw 0x1F)
  else if inOfs o 0x214 0x224 then some rRo
  else if o = 0x228 then some (rRw 0x001FFFC0)
  else if o = 0x240 then some rRo
  else if o = 0x244 ∨ o = 0x248 then some { acc := .rwl, mask := 0xFFFFFFFF, sc := false, only := true }
  else if inOfs o 0x250 0x260 then some rRo
  else if o = 0x300 then some (rCfg 0x1FFFF)
  else if o = 0x304 then some (rW1c 0x10000)
  else if o = 0x310 then some (rRw 0xFFFFFFFF)
  else if o = 0x314 ∨ o = 0x318 then some rRo
  else if inOfs o 0x800 0xA94 then some (rRw 0xFFFFFFFF)
  else none

/-- Engine registers (Table 10-10). -/
def ceDef (o : Nat) : Option RegDef :=
  if o = 0 then some (rCfg 0x3FF)
  else if o = 4 ∨ o = 8 ∨ o = 0x10 then some rRo
  else if o = 0xC then some (rW1c 3)
  else if o = 0x14 ∨ o = 0x18 then some rRc
  else if o = 0x1C then some (rW1c 0x1F)
  else if inOfs o 0x40 0x7C || inOfs o 0x100 0x1FC then some rRo
  else none

/-- Registers of a bank (Table 2-11). -/
def bankDef (o : Nat) : Option RegDef :=
  if o = 0 then some (rW1c 0xF)
  else if inOfs o 0x0C 0x1C then some rRc
  else if o = 0x28 then some (rW1c 0xFFFFFFFF)
  else if inOfs o 4 0x2C then some rRo
  else none

/-- Fabric registers (Table 19-4). -/
def fabDef (o : Nat) : Option RegDef :=
  if o = 0x808 ∨ o = 0x810 then some rRc else if inOfs o 0x800 0x81C then some rRo else none

/-- Stream registers (R316). -/
def strmDef (o : Nat) : Option RegDef :=
  if o < 0x600 then
    (match o % 16 with
     | 0 => some (rCfg 0x00FFFF7F)
     | 4 => some (rW1c 4)
     | 8 => some rRo
     | _ => some rRc)
  else if o < 0x700 then some (rW1c 0x7C) else none

/-- TDM, frame-engine and PDM registers (Tables 11-12 and 11-14, R312). -/
def tdmDef (o : Nat) : Option RegDef :=
  if o < 0x600 then
    (match o % 64 with
     | 0x00 => some (rCfg 0x7FFFF)
     | 0x04 => some (rCfg 0xFF)
     | 0x08 => some (rCfg 0xFFFFFFFF)
     | 0x0C => some (rCfg 0xFFFFFFFF)
     | 0x10 => some (rCfg 0xFFFFFFFF)
     | 0x14 => some (rCfg 0xFFFFFFFF)
     | 0x18 => some (rCfg 0xFF)
     | 0x1C => some (rW1c 7)
     | 0x20 => some rRo
     | 0x24 => some rRc
     | 0x28 => some rRc
     | _ => none)
  else if o < 0x660 then some rRo
  else if inOfs o 0x700 0x73C then some (rCfg 0x1F)
  else if inOfs o 0x740 0x7BC then some (rW1c 4)
  else none

/-- Ethernet registers (Table 13-10). -/
def ethDef (o : Nat) : Option RegDef :=
  if o = 0 then some (rCfg 0x1FFFFF)
  else if o = 0x0C then some (rCfg 0xFFFF)
  else if o = 8 ∨ o = 0x10 ∨ o = 0x14 ∨ o = 0x30 ∨ o = 0x34 ∨ o = 0x38 then some (rCfg 0xFFFFFFFF)
  else if o = 0x2C then some (rCfg 0x7F)
  else if o = 0x3C then some (rW1c 0xF)
  else if inOfs o 0x40 0xFC then some rRc
  else some rRo

/-- CAN registers (Table 13-13). -/
def canDef (o : Nat) : Option RegDef :=
  if o = 0 then some (rCfg 7)
  else if o = 4 ∨ o = 8 then some (rCfg 0xFFFFFFFF)
  else if o = 0x0C then some (rCfg 0x7F)
  else if o = 0x10 ∨ o = 0x14 then some rRo
  else if o = 0x18 then some (rW1c 0xF)
  else if inOfs o 0x1C 0x2C then some rRc
  else if inOfs o 0x30 0x9C then some (rCfg 0x3FFFFFFF)
  else none

/-- Host interface registers (Tables 12-11 and 12-12). -/
def hostDef (o : Nat) : Option RegDef :=
  if o = 0x10 then some (rRw 0)
  else if o = 0x14 then some (rRw 0xFFFFFFF8)
  else if o = 0x18 then some (rRw 0xFFFFF000)
  else if o = 0x1C ∨ o = 0x20 then some (rRw 0xFFFFFFFF)
  else if o = 0x24 then some (rRw 0x00FFFFFF)
  else if o = 0x28 then some (rRw 0x3FF)
  else if o = 0x2C then some (rRw 0xF)
  else if o = 0x30 then some (rW1c 0x7F)
  else if o = 0x0C ∨ o = 0x38 ∨ o = 0x3C ∨ o = 0x54 ∨ o = 0x58 then some rRc
  else if inOfs o 0x60 0x7C then some (rRw 0xFFFF)
  else if inOfs o 0x80 0x9C then some rRc
  else if inOfs o 0 0x5C then some rRo
  else if 0x100 ≤ o ∧ o < 0x800 then
    (match o % 32 with
     | 0x00 => some (rRw 0x3FFFC)
     | 0x04 => some (rRw 0xFFFFF000)
     | 0x08 => some (rRw 0xFFFFFFFF)
     | 0x0C => some rRo
     | 0x10 => some rRo
     | _ => none)
  else none

/-- Lichen registers (Tables 14-13 and 14-14). -/
def lkDef (o : Nat) : Option RegDef :=
  if o = 4 then some (rCfg 7)
  else if o = 0x10 then some (rW1c 0xFF)
  else if inOfs o 0x20 0x3C then some rRc
  else if inOfs o 0 0x5C then some rRo
  else if 0x100 ≤ o ∧ o < 0x300 then
    (let l := o % 64
     if l = 0x24 ∨ l = 0x2C then some rRc else if l = 0x28 then some (rRw 1) else if l < 0x24 then some rRo else none)
  else none

/-- The global ageing registers (Table 17-7), which the service core writes (R17, R465). -/
def ageDef (o : Nat) : RegDef :=
  if o = 0x108 then rW1cSc 0x3F
  else if inOfs o 0x130 0x138 || inOfs o 0x150 0x18C then rRcSc 0xFFFFFFFF
  else if o = 0x100 ∨ o = 0x104 then rCfg 0xFF
  else if o = 0x10C then rCfg 0xF
  else if o = 0x11C then rCfg 0xFFFF0003
  else if o = 0x124 then rCfg 0x00FFFFFF
  else if o = 0x128 ∨ o = 0x12C then rCfg 0x000FFFFF
  else if o = 0x13C ∨ 0x140 ≤ o then rCfg 0xFFFF
  else rCfg 0xFFFFFFFF

/-- Power, clock, governor and ageing registers (Tables 16-12 and 17-7). -/
def pwrDef (o : Nat) : Option RegDef :=
  if o = 0x5C then none
  else if o = 8 then some (rW1c 0x1F)
  else if o = 0x18 ∨ o = 0xE4 then some (rCfg 0xFF)
  else if o = 0x30 then some (rCfg 0x1FFFF)
  else if o = 0x40 then some (rCfg 0x3F7F)
  else if o = 0x10 ∨ o = 0x14 ∨ o = 0x20 ∨ o = 0x24 ∨ o = 0x28 ∨ o = 0x78 ∨ o = 0x7C ∨ o = 0xE0 ∨ o = 0xEC ∨ o = 0xF0 then some rRc
  else if inOfs o 0 0xF0 then some rRo
  else if 0x100 ≤ o ∧ o < 0x190 then some (ageDef o)
  else if 0x200 ≤ o ∧ o < 0x300 then
    (match o % 16 with
     | 0x0 => some (rCfg 0x3FFFFFFF)
     | 0x4 => some (rCfg 0x01FF0FFF)
     | 0x8 => some (rCfg 0x00FFFFFF)
     | _ => some (rCfg 0x0007FFFF))
  else none

/-- Safety registers (Table 15-7). -/
def safeDef (o : Nat) : Option RegDef :=
  if o = 8 then some (rW1c 0xFFFFF)
  else if o = 0x24 then some (rCfg 0x1FFFF)
  else if o = 0x28 then some rWoSc
  else if o = 0x2C then some (rCfg 0xFFFF)
  else if o = 0x34 then some (rW1c 0x1FFFFF)
  else if o = 0x38 then some (rCfg 0xF)
  else if inOfs o 0x40 0x5C then some (rCfg 0x1F1F)
  else if inOfs o 0xE0 0xFC then some rRc
  else if inOfs o 0 0xDC then some rRo
  else if o = 0x114 then some (rW1c 0x3F)
  else if inOfs o 0x100 0x110 then some rRo
  else if o = 0x140 then some (rW1c 0xFF)
  else if inOfs o 0x120 0x13C then some rRo
  else if o = 0x1E0 then some (rW1c 0xFFFFFF)
  else if inOfs o 0x180 0x1E4 then some rRo
  else if o = 0x200 then some (rRw 0x7F)
  else if o = 0x208 then some (rW1c 0xFFFFFF)
  else if o = 0x20C then some rRc
  else if o = 0x204 ∨ o = 0x210 then some rRo
  else none

/-- Security, lifecycle and MRAM registers (Table 18-11). -/
def secDef (o : Nat) : Option RegDef :=
  if o = 0x30 then some (rRw 0x3F)
  else if o = 0x34 ∨ o = 0x38 ∨ o = 0x74 ∨ o = 0xB4 ∨ o = 0xB8 then some rWo
  else if o = 0x70 then some (rRw 0x307FF)
  else if o = 0xB0 then some (rRw 0x1F)
  else if o = 0xC4 ∨ o = 0xC8 ∨ o = 0xD4 then some rRc
  else if o = 0xD8 then some rWoSc
  else if o = 0xDC ∨ o = 0xE0 then some (rRwSc 0xFFFFFFE0)
  else if o = 0xE4 then some (rRwSc 0xFFFFFFFF)
  else if o = 0xE8 then some (rRwSc 0xF)
  else if inOfs o 0 8 || inOfs o 0x10 0x6C || inOfs o 0x78 0x80 || inOfs o 0x90 0x10C then some rRo
  else none

/-- The register at an offset from 0x2000_0000, a multiple of 4; none where the address is unassigned (R484). -/
def regDef (o : Nat) : Option RegDef :=
  if o < 0x110000 then tileDef (o % 0x10000)
  else if o < 0x200000 then none
  else if o < 0x240000 then ceDef (o % 0x10000)
  else if o < 0x300000 then none
  else if o < 0x3005C0 then bankDef (o % 0x40)
  else if o < 0x400000 then fabDef (o - 0x300000)
  else if o < 0x500000 then strmDef (o - 0x400000)
  else if o < 0x600000 then tdmDef (o - 0x500000)
  else if o < 0x600400 then ethDef (o % 0x100)
  else if o < 0x680000 then none
  else if o < 0x680200 then canDef (o % 0x100)
  else if o < 0x700000 then none
  else if o < 0x800000 then hostDef (o - 0x700000)
  else if o < 0x900000 then lkDef (o - 0x800000)
  else if o < 0xA00000 then pwrDef (o - 0x900000)
  else if o < 0xB00000 then safeDef (o - 0xA00000)
  else if o < 0xC00000 then secDef (o - 0xB00000)
  else if 0xF00000 ≤ o ∧ o < 0xF00030 then some rRo
  else none

/-- The 64-bit pairs, by the offset of the low word (R16, R490): sample counter, gPTP tick time, MAC address, window and sync bases, ring bases, event and
commit blocks, standby time, last report block and the MRAM command's source. -/
def isPairLow (o : Nat) : Bool :=
  [0x300814, 0x700010, 0x700018, 0x800014, 0x800050, 0x900038, 0xA00018, 0xB000E4].contains o
    || (decide (0x600000 ≤ o) && decide (o < 0x600400) && (decide (o % 0x100 = 0x20) || decide (o % 0x100 = 0x08)))
    || (decide (0x700100 ≤ o) && decide (o < 0x700800) && decide (o % 0x20 = 4))

end Sys2Proof.Machine
end

