-- ==== Sys2Proof/Machine/CsrAccess.lean ====
section
/-! DEFINITION. Register accesses: what each register reads, what a write does, unassigned addresses, 64-bit pairs, and the commands that are a single
register access (R16 to R19, R486 to R493). -/

namespace Sys2Proof.Machine

/-- An access to an unassigned address is counted, and the first since ERR_STAT.ADDR was clear captured (R19). -/
def State.addrErr (s : State) (q : Requester) (o : Nat) : State :=
  let s1 := s.bump Csr.addrErrCnt
  let s2 := if fld (s.reg Csr.hostErr) 0 0 = 1 then s1 else s1.setReg Csr.errAddr (BitVec.ofNat 32 (o + portOf q * 2 ^ 24))
  s2.orReg Csr.hostErr 1

/-! ## Values -/

/-- Bit t of a word for every ticket in a state (Table 5-13). -/
def Tile.tktBits (t : Tile) (st : TicketState) : Word :=
  BitVec.ofNat 32 (allTickets.foldl (fun n k => n + b2n (decide ((t.ticket k).st = st)) * 2 ^ k.val) 0)

/-- RE_STAT (Table 5-15). -/
def Tile.reStat (t : Tile) : Word :=
  let one := fun (e : EngIx) => match t.re[e] with
    | some r => (if t.susp[e].isSome then 2 else 1) + 4 * r.tkt.val
    | none => 0
  BitVec.ofNat 32 (one 0 + 256 * one 1 + t.rqueue.length * 2 ^ 16)

/-- Word i of VDATA: the register that VSEL selects (R492). -/
def Tile.vdata (t : Tile) (i : Nat) : Word := BitVec.ofNat 32 ((t.vreg (BitVec.ofNat 5 (fld t.vsel 4 0))).toNat >>> (32 * i))

/-- The architectural register at a word index of the debug block: a, m, cb, cl (R492). -/
def dbgAreg (i : Nat) : BitVec 2 × BitVec 4 :=
  if i < 16 then (0, BitVec.ofNat 4 i) else if i < 32 then (1, BitVec.ofNat 4 (i - 16))
  else if i < 40 then (2, BitVec.ofNat 4 (i - 32)) else (3, BitVec.ofNat 4 (i - 40))

/-- A debug register (R492, R493). -/
def Tile.dbgVal (t : Tile) (u : UnitIx) (r : Nat) : Word :=
  if r = 0x800 then t.dbgCtl &&& 5
  else if r = 0x804 then BitVec.ofNat 32 (b2n t.halted)
  else if r = 0x808 then t.pc
  else if r < 0x81C then rfGet 0 t.bkpt ((r - 0x80C) / 4)
  else if r = 0x81C then (if u.val = 16 then 0 else t.vsel)
  else if r < 0x860 then (if u.val = 16 then 0 else t.vdata ((r - 0x820) / 4))
  else if r < 0x920 then (let x := dbgAreg ((r - 0x860) / 4); t.areg x.1 x.2)
  else if r = 0x920 then t.p.setWidth 32
  else t.trace.getD ((r - 0x924) / 4) 0

/-- A register of a unit by its offset in the unit's span (Table 19-5, R493). -/
def State.tileVal (s : State) (u : UnitIx) (r : Nat) : Word :=
  let t := s.tile u
  let sc : Bool := decide (u.val = 16)
  if 0x800 ≤ r then (if s.dbgFull then t.dbgVal u r else 0)
  else if r = 0 then t.ctl
  else if r = 4 then t.status
  else if r = 8 then t.isp
  else if r = 0xC then t.ivbase
  else if r = 0x10 then t.istat
  else if r = 0x14 then BitVec.ofNat 32 t.lstat
  else if r = 0x18 then BitVec.ofNat 32 s.blk
  else if r < 0x30 then rfGet 0 t.lc ((r - 0x20) / 4)
  else if r < 0x120 then word256 t.ien ((r - 0x100) / 4)
  else if r < 0x140 then word256 t.ipendView ((r - 0x120) / 4)
  else if r < 0x160 then word256 t.ilvl ((r - 0x140) / 4)
  else if r = 0x160 then 0
  else if r < 0x198 then word256 t.evroute ((r - 0x180) / 4)
  else if r = 0x200 then t.tktBits .pending
  else if r = 0x204 then t.tktBits .done
  else if r = 0x208 then t.tktBits .failed
  else if r = 0x20C then t.tktSplit
  else if r = 0x210 then t.trecSelCsr
  else if r < 0x224 then (t.ticket (ticketIx (fld t.trecSelCsr 4 0))).trec ((r - 0x214) / 4)
  else if r = 0x224 then t.reStat
  else if r = 0x228 then t.mtrapBuf
  else if r = 0x240 then t.ucodeLvl
  else if r = 0x244 then t.upatchIdx
  else if r = 0x248 then t.patch.word t.upatchIdx.toNat
  else if r = 0x250 then (if sc then 0 else t.vcfg)
  else if r = 0x254 then (if sc then 0 else t.vindex)
  else if r = 0x258 then t.fcsr
  else if r = 0x25C then t.ftrapPc
  else if r = 0x260 then t.ftrapInfo
  else if r = 0x300 then (if sc then 0 else t.flCfg)
  else if r = 0x304 then (if sc then 0 else t.flStat)
  else if r = 0x310 then t.spqHead
  else if r = 0x314 then t.spqTail
  else t.spqPub

/-- FAB_STAT: ports with a transfer in flight (Table 19-4). -/
def State.fabStat (s : State) : Word :=
  let far := (upFrom 0 17).foldl (fun n u =>
    n + b2n ((s.tile (unitIx u)).far.any fun f => match f.phase with | .sent => true | .done _ => true | _ => false) * 2 ^ u) 0
  BitVec.ofNat 32 (far + b2n (s.lk.reqs.any fun r => r.unit.isNone) * 2 ^ 24)

/-- TIER_STAT (Table 16-12). -/
def State.tierStat (s : State) : Word :=
  BitVec.ofNat 32 ((upFrom 0 16).foldl (fun n u => n + Tier.toNat (s.tile (unitIx u)).tier * 4 ^ u) 0)

/-- What a register holds, by its offset from 0x2000_0000, before any effect of the read. -/
def State.regVal (s : State) (o : Nat) : Word :=
  let a := 0x20000000 + o
  if o < 0x110000 then s.tileVal (unitIx (o / 0x10000)) (o % 0x10000)
  else if o < 0x240000 then
    (s.ceView ⟨(o / 0x10000 - 0x20) % 4, Nat.mod_lt _ (by decide)⟩ (o % 0x10000)).getD (s.reg a)
  else if o < 0x3005C0 then (if o % 0x40 = 0x20 then s.bmtStat ((o - 0x300000) / 0x40) else s.reg a)
  else if o = 0x300800 then BitVec.ofNat 32 (s.sample.toNat % 27)
  else if o = 0x300804 then s.fabStat
  else if o = 0x300814 then s.sample.setWidth 32
  else if o = 0x300818 then BitVec.ofNat 32 (s.sample.toNat / 2 ^ 32)
  else if o = 0x30081C then BitVec.ofNat 32 s.bsize
  else if o = 0x70004C then BitVec.ofNat 32 (Config.vendorId.toNat + 0x7200 * 2 ^ 16)
  else if o = 0x700050 then Config.usbId
  else if o = 0x900054 then s.tierStat
  else if 0x900200 ≤ o ∧ o < 0x900300 ∧ o % 16 = 4 then
    s.mrgView ((o - 0x900200) / 16)
  else if o = 0xB000BC then BitVec.ofNat 32 (b2n Config.trngOk)
  else if o = 0xB00078 then setFld (s.reg a) 0 0 (b2n s.provOpen)
  else if 0xF00010 ≤ o ∧ o < 0xF00020 then idIsa (s.tile 0) 0 ((o - 0xF00010) / 4)
  else if 0xF00020 ≤ o ∧ o < 0xF00030 then idIsa (s.tile 16) 16 ((o - 0xF00020) / 4)
  else s.reg a

/-! ## Reads -/

/-- The word a port has captured for an address, or a low word it has written (R490). -/
def State.pairWord (s : State) (p o : Nat) : Option Word :=
  (s.fab.pairs.find? fun x => decide (x.1 = p) && decide (x.2.1 = o)).map (·.2.2)

/-- Forget what is kept for a port at an address. -/
def State.pairDrop (s : State) (p o : Nat) : State :=
  { s with fab := { s.fab with pairs := s.fab.pairs.filter fun x => !(decide (x.1 = p) && decide (x.2.1 = o)) } }

/-- Keep a word for a port at an address. -/
def State.pairKeep (s : State) (p o : Nat) (v : Word) : State :=
  { s with fab := { s.fab with pairs := (p, o, v) :: (s.fab.pairs.filter fun x => !(decide (x.1 = p) && decide (x.2.1 = o))) } }

/-- An access by a port discards the high words that the port has captured (R490). -/
def State.dropCaptures (s : State) (p : Nat) : State :=
  { s with fab := { s.fab with pairs := s.fab.pairs.filter fun x => !(decide (x.1 = p) && decide (4 ≤ x.2.1) && isPairLow (x.2.1 - 4)) } }

/-- What a read does to the register: RC clears, FL_STAT loses its count, UPATCH_DATA advances its index. -/
def State.readEffect (s : State) (d : RegDef) (o : Nat) : State :=
  if d.acc = .rc then s.setReg (0x20000000 + o) 0
  else if o < 0x110000 ∧ o % 0x10000 = 0x304 then s.modTile (unitIx (o / 0x10000)) fun t => { t with flStat := setFld t.flStat 15 0 0 }
  else if o < 0x110000 ∧ o % 0x10000 = 0x248 then (s.patchRead (unitIx (o / 0x10000))).1
  else s

/-- The patch registers of a unit, UPATCH_IDX and UPATCH_DATA, which are the service core's alone (Table 5-13): another requester reads 0, and its
read advances no index (DESIGN CHOICE, log 88). -/
def scOnlyRead (q : Requester) (o : Nat) : Bool :=
  decide (q ≠ .tile 16) && decide (o < 0x110000) && (decide (o % 0x10000 = 0x244) || decide (o % 0x10000 = 0x248))

/-- A read of the register at an offset, a multiple of 4. -/
def State.csrRead (s : State) (q : Requester) (o : Nat) : State × Word :=
  let p := portOf q
  let cap := if 4 ≤ o ∧ isPairLow (o - 4) then s.pairWord p o else none
  let s0 := s.dropCaptures p
  match regDef o with
  | none => (s0.addrErr q o, 0)
  | some d =>
    match cap with
    | some v => (s0, v)
    | none =>
      if scOnlyRead q o then (s0, 0) else
      let v := if d.acc = .wo then 0 else s.regVal o
      let s1 := if isPairLow o then s0.pairKeep p (o + 4) (s.regVal (o + 4)) else s0
      (s1.readEffect d o, v)

/-! ## Writes -/

/-- Whether a requester may write a register (R17, R486). -/
def mayWrite (d : RegDef) (q : Requester) : Bool :=
  let coded : Bool := decide (d.acc = .rw) || decide (d.acc = .w1c) || decide (d.acc = .wo) || decide (d.acc = .rwl)
  match q with
  | .tile u => decide (u.val = 16) && (coded || d.sc)
  | .host => coded && !d.only
  | .jtag => coded && !d.only
  | _ => false

/-- A write of a debug register with full debug granted: from the debug port or the service core; the architectural ones only while halted (R492). -/
def State.dbgWrite (s : State) (q : Requester) (u : UnitIx) (r : Nat) (v : Word) : State :=
  let t := s.tile u
  if !s.dbgFull then s
  else if (q ≠ .jtag ∧ q ≠ .tile 16) ∨ r = 0x804 ∨ 0x924 ≤ r then s.bump Csr.wrDisc
  else if r = 0x800 then
    let s1 := s.modTile u fun t => { t with dbgCtl := v &&& 5 }
    let s2 := if fld v 0 0 = 1 then s1.dbgHalt u else s1.modTile u fun t => { t with halted := false, stepping := false }
    if fld v 1 1 = 1 then s2.dbgStep u else s2
  else if 0x80C ≤ r ∧ r < 0x81C then s.modTile u fun t => { t with bkpt := rfSet t.bkpt ((r - 0x80C) / 4) (v &&& 0x1FFFF9) }
  else if r = 0x81C then (if u.val = 16 then s else s.modTile u fun t => { t with vsel := v &&& 0x1F })
  else if !t.halted then s
  else if r = 0x808 then s.modTile u fun t => { t with pc := v }
  else if r < 0x860 then
    if u.val = 16 then s
    else s.modTile u fun t =>
      let i := fld t.vsel 4 0
      let sh := 8 * (r - 0x820)
      let x := blend (rfGet 0 t.v i) (BitVec.ofNat 512 (0xFFFFFFFF * 2 ^ sh)) (BitVec.ofNat 512 (v.toNat * 2 ^ sh))
      { t with v := rfSet t.v i x }
  else if r < 0x920 then s.modTile u fun t => (let x := dbgAreg ((r - 0x860) / 4); t.setAreg x.1 x.2 v)
  else s.modTile u fun t => { t with p := v.setWidth 8 }

/-- A permitted write of a register of a unit. -/
def State.tilePut (s : State) (q : Requester) (u : UnitIx) (r : Nat) (v : Word) : State :=
  if r = 0x160 then s.iswi u q v
  else if r < 0x198 then s.modTile u fun t =>
    { t with evroute := blend t.evroute (BitVec.ofNat 192 (0xFFFFFFFF * 2 ^ (8 * (r - 0x180)))) (BitVec.ofNat 192 (v.toNat * 2 ^ (8 * (r - 0x180)))) }
  else if r = 0x210 then s.modTile u fun t => { t with trecSelCsr := v &&& 0x1F }
  else if r = 0x228 then s.modTile u fun t => { t with mtrapBuf := v &&& 0x001FFFC0 }
  else if r = 0x244 then (if s.patchLocked u then s.bump Csr.wrDisc else s.modTile u fun t => { t with upatchIdx := v })
  else if r = 0x248 then s.patchWrite u q v
  else if r = 0x300 then (if u.val = 16 then s else s.modTile u fun t => { t with flCfg := v &&& 0x1FFFF })
  else if r = 0x304 then s.modTile u fun t => { t with flStat := t.flStat &&& ~~~(v &&& 0x10000) }
  else s.spqWrite u q v

/-- A write of a ring's CTL: RESET, then EN, else the fields that a DISABLED ring takes (Table 12-13, R327, R344). -/
def State.ringCtlPut (s : State) (r : Nat) (v : Word) : State :=
  if fld v 3 3 = 1 then s.ringReset r
  else if fld v 2 2 = 1 then s.ringEnable r v
  else if s.ringSt r = 0 then s.modReg (Csr.ringCtl r) fun x => blend x (ctlMask r) v
  else s

/-- The effect of a write by its code: bits under the mask are stored, or cleared where a 1 is written; a writer that the register's chapter names
stores (R17). -/
def State.plainPut (s : State) (d : RegDef) (o : Nat) (v : Word) : State :=
  if d.acc = .w1c ∧ !d.sc then s.modReg (0x20000000 + o) fun x => x &&& ~~~(v &&& d.mask)
  else s.modReg (0x20000000 + o) fun x => blend x d.mask v

/-- A permitted write of a register outside the units' spans. -/
def State.regPut (s : State) (q : Requester) (d : RegDef) (o : Nat) (v : Word) : State :=
  if 0x200000 ≤ o ∧ o < 0x240000 ∧ o % 0x10000 = 0 then s.ceCtl ⟨(o / 0x10000 - 0x20) % 4, Nat.mod_lt _ (by decide)⟩ v
  else if o = 0x70002C then (if s.lc = 1 ∨ s.lc = 3 then s.plainPut d o v else s)
  else if 0x700100 ≤ o ∧ o < 0x700800 then
    (if o % 0x20 = 0 then s.ringCtlPut ((o - 0x700100) / 0x20) v
     else if s.ringSt ((o - 0x700100) / 0x20) = 0 then s.plainPut d o v else s)
  else if 0x800100 ≤ o ∧ o < 0x800300 then (if s.lc = 1 ∨ s.lc = 3 then s.plainPut d o v else s)
  else if o = 0xA00028 then s.scKick q
  else if o = 0xA00200 then s.injWrite v
  else if o = 0xB00034 then s.tokenWord v
  else if o = 0xB00038 then (if fld v 0 0 = 1 then s.setReg Csr.lcTokStat 1 else s)
  else if o = 0xB00070 then s.provCtl v
  else if o = 0xB00074 then s.provWord v
  else if o = 0xB000B4 then s.respWord v
  else if o = 0xB000B8 then (if fld v 0 0 = 1 then s.setRegFld Csr.dbgStat 4 4 1 else s)
  else if o = 0xB000D8 then s.mramCmd q (fld v 1 0)
  else s.plainPut d o v

/-- A write of the register at an offset, a multiple of 4.  A write that the register's rule does not permit is counted (R486); the debug registers have
their own rule; the low word of a read-write pair waits for the high word (R490). -/
def State.csrWrite (s : State) (q : Requester) (o : Nat) (v : Word) : State :=
  let p := portOf q
  let s0 := s.dropCaptures p
  let u := unitIx (o / 0x10000)
  match regDef o with
  | none => s0.addrErr q o
  | some d =>
    if o < 0x110000 ∧ 0x800 ≤ o % 0x10000 then s0.dbgWrite q u (o % 0x10000) v
    else if o < 0x110000 ∧ o % 0x10000 = 0x310 then s0.spqWrite u q v
    else if !mayWrite d q then s0.bump Csr.wrDisc
    else if o < 0x110000 then s0.tilePut q u (o % 0x10000) v
    else if d.acc = .rw ∧ isPairLow o then s0.pairKeep p o v
    else if d.acc = .rw ∧ isPairLow (o - 4) then
      match s0.pairWord p (o - 4), regDef (o - 4) with
      | some lo, some dl => ((s0.regPut q dl (o - 4) lo).regPut q d o v).pairDrop p (o - 4)
      | _, _ => s0.regPut q d o v
    else s0.regPut q d o v

/-! ## Accesses of bytes (R16, R320) -/

/-- The offset of a fabric address in the CSR space (Table 2-2). -/
def csrOfs (a : Nat) : Nat := a % 0x1000000

/-- The indices of the registers that hold the bytes [o, o+n) of the CSR space, in ascending order. -/
def csrWords (o n : Nat) : List Nat := upFrom (o / 4) ((o + n + 3) / 4 - o / 4)

/-- Registers read one after another. -/
def State.csrReads (s : State) (q : Requester) (ws : List Nat) : State × List Byte :=
  ws.foldl (fun (x : State × List Byte) i => ((x.1.csrRead q (4 * i)).1, x.2 ++ leBytes 4 (x.1.csrRead q (4 * i)).2.toNat)) (s, [])

/-- The bytes [a, a+n) of the CSR space, read as registers in ascending order; a read effect applies to the whole register. -/
def State.csrBytes (s : State) (q : Requester) (a n : Nat) : State × List Byte :=
  let r := s.csrReads q (csrWords (csrOfs a) n)
  (r.1, (r.2.drop (csrOfs a % 4)).take n)

/-- Bytes written into the CSR space: registers in ascending order, those with fewer than four bytes discarded (R16). -/
def State.csrPut (s : State) (q : Requester) (a : Nat) (bs : List Byte) : State :=
  let o := csrOfs a
  (csrWords o bs.length).foldl (fun s i =>
    if o ≤ 4 * i ∧ 4 * i + 4 ≤ o + bs.length then s.csrWrite q (4 * i) (BitVec.ofNat 32 (leNat ((bs.drop (4 * i - o)).take 4)))
    else if (regDef (4 * i)).isSome then s else s.addrErr q (4 * i)) s

/-! ## The commands that are one register access -/

/-- The register offset of a command's address. -/
def dwordOf (a : BitVec 24) : Nat := a.toNat / 4 * 4

/-- Read a register and hand out its value. -/
def State.csrAnswer (s : State) (q : Requester) (o : Nat) : State := let r := s.csrRead q o; r.1.emit (.jtag r.2)

/-- PAIR_LOW_READ (R490). -/
def execPairLowRead (q : Requester) (a : BitVec 24) (s : State) : Host.Outcome State Fault Refusal :=
  .next (s.whenUp fun s => if isPairLow (dwordOf a) then s.csrAnswer q (dwordOf a) else s)

/-- PAIR_HIGH_WRITE (R490). -/
def execPairHighWrite (q : Requester) (a : BitVec 24) (v : Word) (s : State) : Host.Outcome State Fault Refusal :=
  .next (s.whenUp fun s => if 4 ≤ dwordOf a ∧ isPairLow (dwordOf a - 4) then s.csrWrite q (dwordOf a) v else s)

/-- READ_CLEAR_ACCESS (R16): a read of any register, with its effect; at an unassigned address it is counted (R19). -/
def execReadClearAccess (q : Requester) (a : BitVec 24) (s : State) : Host.Outcome State Fault Refusal :=
  .next (s.whenUp fun s => s.csrAnswer q (dwordOf a))

/-- CSR_WRITE (R486). -/
def execCsrWrite (q : Requester) (a : BitVec 24) (v : Word) (s : State) : Host.Outcome State Fault Refusal :=
  .next (s.whenUp fun s => s.csrWrite q (dwordOf a) v)

end Sys2Proof.Machine
end

