-- ==== Sys2Proof/Machine/Fabric.lean ====
section
/-! DEFINITION. Accesses at their fabric targets: banks, the common bank's writers, the MRAM window, registers, host memory and the partner window, with
the BAR0 and BAR4 accesses and the partner-window flits (R46 to R51, R59, R60, R64, R320, R322, R383, R389). -/

namespace Sys2Proof.Machine

/-! ## Banks -/

/-- The MRAM read window holds the range. -/
def inMram (a n : Nat) : Bool := decide (mramBase ≤ a) && decide (a + n ≤ mramBase + mramSize)

/-- The CSR space holds the range. -/
def inCsr (a n : Nat) : Bool := decide (0x20000000 ≤ a) && decide (a + n ≤ 0x21000000)

/-! ## Host memory and the partner window -/

/-- The PCIe address of an address in the host memory window (R323). -/
def State.hostAddr (s : State) (a : Nat) : Nat := s.winBase + (a - 0x800000000)

/-- Whether a partner-window access is permitted and the link is up (R50, Table 14-8). -/
def State.partnerOk (s : State) (q : Requester) (wr : Bool) : Bool :=
  decide (s.lst = 3) && decide (s.pst ≠ 0) &&
    (match q with
     | .tile u => decide (u.val = 16) || !wr
     | .host => true
     | .stream => !wr
     | .ce _ => !wr
     | _ => false)

/-- A header flit (Table 14-3). -/
def flitBytes (typ tag a len flags : Nat) (inl : List Byte) : List Byte :=
  let h : List Byte := [BitVec.ofNat 8 typ, BitVec.ofNat 8 tag] ++ zeros 2 ++ leBytes 5 a ++ [BitVec.ofNat 8 len] ++ leBytes 2 flags ++ padTo 64 inl
  h ++ leBytes 4 (crc32 h).toNat

/-- Send a READ (none) or WRITE flit with the next tag. -/
def State.sendFlit (s : State) (a n : Nat) (data : Option (List Byte)) : State :=
  let tag := s.lk.nextTag % 256
  (s.emit (match data with
    | none => .flit 1 (flitBytes 1 tag a n 0 [])
    | some bs => .flit 3 (flitBytes 3 tag a n 0 bs))).modLk fun l => { l with nextTag := tag + 1 }

/-- Send a flit and await its response, for a unit's far operation or for a host request. -/
def State.askPartner (s : State) (a n : Nat) (data : Option (List Byte)) (unit : Option UnitIx) (seq : Nat) : State :=
  let tag := s.lk.nextTag % 256
  (s.sendFlit a n data).modLk fun l => { l with reqs := l.reqs ++ [{ tag := tag, unit := unit, seq := seq, wr := data.isSome }] }

/-! ## Reads and writes -/

/-- A read of [a, a+n) performed at its target: status of Table 5-4 and bytes.  `ext` holds what host memory or the partner answers, none where they
fail. -/
def State.fabricRead (s0 : State) (q : Requester) (a n : Nat) (ext : Option (List Byte)) : State × Nat × List Byte :=
  match regionOf a with
  | .bank =>
    let s := s0.dropCaptures (portOf q)
    if !oneBank a n then (s, 2, []) else s.bankRead q a n
  | .mram =>
    let s := s0.dropCaptures (portOf q)
    if !inMram a n then (s, 2, [])
    else
      let r := s.mramRead (a - mramBase) n
      match r.2 with
      | some bs => (r.1, 0, bs)
      | none => (r.1, 6, [])
  | .csr =>
    if !inCsr a n then (s0.dropCaptures (portOf q), 2, [])
    else let r := s0.csrBytes q a n; (r.1, 0, r.2)
  | .partner =>
    let s := s0.dropCaptures (portOf q)
    if !s.partnerOk q false then (s, 7, [])
    else (s.sendFlit a n none, match ext with | some bs => (0, padTo n bs) | none => (7, []))
  | .host =>
    let s := s0.dropCaptures (portOf q)
    if !s.tunnel then (s, 8, [])
    else (s.emit (.hostRead (s.hostAddr a) n), match ext with | some bs => (0, padTo n bs) | none => (8, []))
  | .unmapped => (s0.dropCaptures (portOf q), 2, [])

/-- A write of bytes from `a` on performed at its target, with its status. -/
def State.fabricWrite (s0 : State) (q : Requester) (a : Nat) (bs : List Byte) : State × Nat :=
  match regionOf a with
  | .bank =>
    let s := s0.dropCaptures (portOf q)
    if !oneBank a bs.length then (s, 2) else s.bankWrite q a bs
  | .mram => (s0.dropCaptures (portOf q), 3)
  | .csr => if !inCsr a bs.length then (s0.dropCaptures (portOf q), 2) else (s0.csrPut q a bs, 0)
  | .partner =>
    let s := s0.dropCaptures (portOf q)
    if !s.partnerOk q true then (s, 7) else (s.sendFlit a bs.length (some bs), 0)
  | .host =>
    let s := s0.dropCaptures (portOf q)
    if !s.tunnel then (s, 8) else (s.emit (.hostWrite (s.hostAddr a) bs), 0)
  | .unmapped => (s0.dropCaptures (portOf q), 2)

/-! ## BAR0 (R320) -/

/-- A BAR0 request: single registers in ascending order; a write with fewer than four byte enables is discarded, and a read returns the bytes it
addresses (R16). -/
def State.bar0 (s : State) (a : BarAccess) : State :=
  if !s.tunnel then s
  else match a with
    | .read o tag bes =>
      let r := (upFrom (o % 0x1000000 / 4) bes.length).foldl (fun (x : State × List Byte) i =>
        let y := x.1.csrRead .host (4 * i); (y.1, x.2 ++ leBytes 4 y.2.toNat)) (s, [])
      r.1.emit (.completion tag 0 false (enabled bes r.2))
    | .write o _ dws =>
      (dws.zipIdx).foldl (fun s x =>
        let r := 4 * (o % 0x1000000 / 4 + x.2)
        if x.1.1 = 0xF then s.csrWrite .host r x.1.2
        else if (regDef r).isSome then s.orReg Csr.hostErr 2
        else s.addrErr .host r) s

/-- BAR0_ACCESS (R320). -/
def execBar0Access (a : BarAccess) (s : State) : Host.Outcome State Fault Refusal := .next (s.whenUp fun s => s.bar0 a)

/-! ## BAR4 (R322) -/

/-- Runs of enabled bytes: fabric address and bytes. -/
def enabledRuns : Nat → List (Option Byte) → List (Nat × List Byte)
  | _, [] => []
  | a, none :: r => enabledRuns (a + 1) r
  | a, some b :: r =>
    match enabledRuns (a + 1) r with
    | (x, bs) :: q => if x = a + 1 then (a, b :: bs) :: q else (a, [b]) :: (x, bs) :: q
    | [] => [(a, [b])]

/-- The bytes of DWORDs under their byte enables. -/
def dwBytes (dws : List (BitVec 4 × Word)) : List (Option Byte) :=
  dws.flatMap fun x => (upFrom 0 4).map fun i => if x.1.getLsbD i then some (x.2.extractLsb' (8 * i) 8) else none

/-- The fabric address of a BAR4 offset, where BAR4 is open and its segment reaches something (R322). -/
def State.bar4Addr (s : State) (o : Nat) : Option Nat :=
  let seg := fld (s.reg Csr.bar4Sel) 3 0
  if (s.lc = 1 ∨ s.lc = 3) ∧ (seg ≤ 1 ∨ (4 ≤ seg ∧ seg ≤ 7)) then some (seg * 0x10000000 + o % 0x10000000) else none

/-- A BAR4 access ends with an error: 1 Unsupported Request or 2 Completer Abort. -/
def State.bar4Err (s : State) (tag st : Nat) : State := (s.orReg Csr.hostErr 0x40).emit (.completion tag st false [])

/-- The completion status of a fabric status: Unsupported Request for an unmapped address, Completer Abort for a refused access. -/
def barStatus (st : Nat) : Nat := if st = 0 ∨ st = 6 then 0 else if st = 2 then 1 else 2

/-- A BAR4 read of the pieces of a range, of which the enabled bytes are returned. -/
def State.bar4Read (s : State) (a tag : Nat) (bes : List (BitVec 4)) : State :=
  let n := 4 * bes.length
  if regionOf a = .partner then
    (rowsOf a n).foldl (fun s p =>
      if s.partnerOk .host false then s.askPartner p.1 p.2 none none tag else s.bar4Err tag 2) s
  else
    let r := (rowsOf a n).foldl (fun (x : State × Nat × List Byte × Bool) p =>
      if barStatus x.2.1 ≠ 0 then x
      else
        let y := x.1.fabricRead .host p.1 p.2 none
        (y.1, (if y.2.1 = 0 then x.2.1 else y.2.1), x.2.2.1 ++ padTo p.2 y.2.2, x.2.2.2 || decide (y.2.1 = 6))) (s, 0, [], false)
    if barStatus r.2.1 = 0 then r.1.emit (.completion tag 0 r.2.2.2 (enabled bes r.2.2.1)) else r.1.bar4Err tag (barStatus r.2.1)

/-- A BAR4 write of the enabled bytes; one that is not performed ends with its error (R47, R49). -/
def State.bar4Write (s : State) (a tag : Nat) (bs : List (Option Byte)) : State :=
  (enabledRuns a bs).foldl (fun s r =>
    (rowsOf r.1 r.2.length).foldl (fun s p =>
      let d := (r.2.drop (p.1 - r.1)).take p.2
      if regionOf p.1 = .partner then
        (if s.partnerOk .host true then s.askPartner p.1 p.2 (some d) none tag else s.bar4Err tag 2)
      else
        let y := s.fabricWrite .host p.1 d
        if y.2 = 0 then y.1 else y.1.bar4Err tag (barStatus y.2)) s) s

/-- A BAR4 request. -/
def State.bar4 (s : State) (a : BarAccess) : State :=
  if !s.tunnel then s
  else match a with
    | .read o tag bes =>
      match s.bar4Addr (o / 4 * 4) with
      | some x => s.bar4Read x tag bes
      | none => s.bar4Err tag 1
    | .write o tag dws =>
      match s.bar4Addr (o / 4 * 4) with
      | some x => s.bar4Write x tag (dwBytes dws)
      | none => s.bar4Err tag 1

/-- BAR4_ACCESS (R322). -/
def execBar4Access (a : BarAccess) (s : State) : Host.Outcome State Fault Refusal := .next (s.whenUp fun s => s.bar4 a)

/-! ## Partner-window flits (R50, R383) -/

/-- An address in the partner window as the partner performs it. -/
def partnerAddr (a : Nat) : Nat := a - 0x40000000

/-- A request is in order: in the window, at most 64 bytes. -/
def flitOk (a n : Nat) : Bool := decide (regionOf a = .partner) && decide (1 ≤ n) && decide (n ≤ 64)

/-- A READ flit is performed here and answered. -/
def State.flitRead (s : State) (tag : Byte) (a n : Nat) : State :=
  if s.lst ≠ 3 ∨ !flitOk a n then s
  else
    let r := s.fabricRead .lichen (partnerAddr a) n none
    r.1.emit (.flit 2 (flitBytes 2 tag.toNat a r.2.2.length r.2.1 r.2.2))

/-- A WRITE flit is performed here and acknowledged. -/
def State.flitWrite (s : State) (tag : Byte) (a : Nat) (bs : List Byte) : State :=
  if s.lst ≠ 3 ∨ !flitOk a bs.length then s
  else
    let r := s.fabricWrite .lichen (partnerAddr a) bs
    r.1.emit (.flit 4 (flitBytes 4 tag.toNat a 0 r.2 []))

/-- A response: the far operation it belongs to is performed, or the host's request completes. -/
def State.flitAnswer (s : State) (wr : Bool) (tag st : Byte) (bs : List Byte) : State :=
  match s.lk.reqs.find? fun r => decide (r.tag = tag.toNat) && decide (r.wr = wr) with
  | none => s
  | some r =>
    let s1 := s.modLk fun l => { l with reqs := l.reqs.erase r }
    match r.unit with
    | some u => s1.modTile u fun t => t.answer r.seq st bs
    | none =>
      if wr then (if st = 0 then s1 else s1.bar4Err r.seq (barStatus st.toNat))
      else if st = 0 ∨ st = 6 then s1.emit (.completion r.seq 0 (decide (st = 6)) bs)
      else s1.bar4Err r.seq (barStatus st.toNat)

/-- FLIT_READ (R50, R383): tag, address in the partner window, length. -/
def execFlitRead (tag : Byte) (a : BitVec 36) (n : Nat) (s : State) : Host.Outcome State Fault Refusal := .next (s.whenUp fun s => s.flitRead tag a.toNat n)

/-- FLIT_READ_RSP (R383): tag, status and data. -/
def execFlitReadRsp (tag st : Byte) (bs : List Byte) (s : State) : Host.Outcome State Fault Refusal :=
  .next (s.whenUp fun s => if s.lst = 3 then s.flitAnswer false tag st bs else s)

/-- FLIT_WRITE (R50, R383). -/
def execFlitWrite (tag : Byte) (a : BitVec 36) (bs : List Byte) (s : State) : Host.Outcome State Fault Refusal :=
  .next (s.whenUp fun s => s.flitWrite tag a.toNat bs)

/-- FLIT_WRITE_ACK (R383). -/
def execFlitWriteAck (tag st : Byte) (s : State) : Host.Outcome State Fault Refusal :=
  .next (s.whenUp fun s => if s.lst = 3 then s.flitAnswer true tag st [] else s)

end Sys2Proof.Machine
end

