-- ==== Sys2Proof/Machine/FarOps.lean ====
section
/-! DEFINITION. Ticketed fabric operations beyond their unit: the target's part of far loads and stores, held loads, semaphores, spores, discarded
transfers, and the completion of the ticket (R28, R129, R138 to R141, R251 to R257). -/

namespace Sys2Proof.Machine

/-- The far operation at a place in the unit's list. -/
def State.farAt (s : State) (u : UnitIx) (i : Nat) : Option FarOp := (s.tile u).far[i]?

/-- The target that an address names: a bank, or a whole region (R141). -/
def targetAt (a : Nat) : Nat :=
  match locate a with
  | some (b, _) => b
  | none => match regionOf a with | .mram => 100 | .csr => 101 | .partner => 102 | .host => 103 | _ => 104

/-- A partner-window request of the operation awaits its response. -/
def State.asked (s : State) (u : UnitIx) (f : FarOp) : Bool := s.lk.reqs.any fun r => decide (r.unit = some u) && decide (r.seq = f.seq)

/-- The address of index i of GATHER and SCATTER (R170). -/
def Job.gsAddr (j : Job) (i : Nat) : Nat :=
  let wb := 2 ^ j.sew.toNat
  (j.src1.toNat + bitsOf j.vi.toNat (8 * wb * (i + 1) - 1) (8 * wb * i) * wb) % (if j.far then 2 ^ 64 else 2 ^ 32)

/-- Offset and length of chunk `e`: a chunk ends where either side reaches a 64-byte boundary, or at the end. -/
def chunkFrom (src dst len : Nat) : Nat → Nat → Nat × Nat
  | 0, o => (o, min (len - o) (min (64 - (src + o) % 64) (64 - (dst + o) % 64)))
  | e + 1, o => chunkFrom src dst len e (o + min (len - o) (min (64 - (src + o) % 64) (64 - (dst + o) % 64)))

/-- Chunk `e` of a move. -/
def chunkAt (src dst len e : Nat) : Nat × Nat := chunkFrom src dst len e 0

/-- ADDR and G of a descriptor. -/
def descAddr (d : DWord) : Nat := bitsOf d.toNat 35 0
/-- G. -/
def descG (d : DWord) : Bool := d.getLsbD 63

/-- The routine under a run, from element `from_` on, stores to a target (R141, R172): an active SCATTER index or a chunk of a BMOV lies in it. -/
def State.storesTo (s : State) (u : UnitIx) (j : Job) (from_ tg : Nat) : Bool :=
  if j.spare.isSome then false
  else if j.opc.toNat = 0x31 then
    j.far && (upFrom from_ (64 - from_)).any fun i => j.act.getLsbD i && decide (targetAt (j.gsAddr i) = tg)
  else if j.opc.toNat = 0x38 then
    (match s.bmovDescs u j with
     | .ok (dd, _) => descG dd && decide (0 < j.src2.toNat % 2 ^ 32) &&
         (decide (targetAt (descAddr dd) = tg) || decide (targetAt (descAddr dd + j.src2.toNat % 2 ^ 32 - 1) = tg))
     | .error _ => false)
  else false

/-- A routine of the unit that was issued earlier still stores to the target. -/
def State.routineBefore (s : State) (u : UnitIx) (seq tg : Nat) : Bool :=
  let t := s.tile u
  (t.re.toList ++ t.susp.toList ++ t.suspFor.toList ++ t.rqueue.map some).any fun o =>
    match o with
    | none => false
    | some r =>
      decide (r.seq < seq) && (match (t.ticket r.tkt).job with
        | some j => s.storesTo u j r.elem tg
        | none => false)

/-- A far store issued earlier to the same target has not been performed: an FST, or a store of a routine (R141, R172). -/
def State.storeFirst (s : State) (u : UnitIx) (seq a : Nat) : Bool :=
  ((s.tile u).far.any fun g =>
    decide (g.kind = .fst) && decide (g.phase = .sent) && decide (g.seq < seq) && decide (targetAt g.ga.toNat = targetAt a) && !s.asked u g)
  || s.routineBefore u seq (targetAt a)

/-- The same for a far operation. -/
def State.storeBefore (s : State) (u : UnitIx) (f : FarOp) : Bool := s.storeFirst u f.seq f.ga.toNat

/-! ## Far loads and stores (R138 to R141) -/

/-- A far load or store reaches its target.  One in the partner window is sent on, and its response performs it. -/
def State.farPerform (s : State) (u : UnitIx) (i : Nat) (ext : Option (List Byte)) : State :=
  match s.farAt u i with
  | none => s
  | some f =>
    let st : Bool := decide (f.kind = .fst)
    let a := f.ga.toNat
    if f.phase ≠ .sent ∨ (f.kind ≠ .fld ∧ f.kind ≠ .fst) ∨ s.asked u f ∨ s.rowQueued u f.seq ∨ (st ∧ s.storeBefore u f) then s
    else if regionOf a = .partner then
      (if s.partnerOk (.tile u) st then s.askPartner a f.len (if st then some f.data else none) (some u) f.seq
       else s.farDone u f 7 [])
    else if st then
      let r := s.fabricWrite (.tile u) a f.data
      r.1.farDone u f r.2 []
    else
      let r := s.fabricRead (.tile u) a f.len ext
      r.1.farDone u f r.2.1 r.2.2

/-- FAR_ACCESS_PERFORM (R140): the far operation at a place in the unit's list; what host memory answers. -/
def execFarAccessPerform (u : UnitIx) (n : Nat) (ext : Option (List Byte)) (s : State) : Host.Outcome State Fault Refusal :=
  .next (s.whenUp fun s => s.farPerform u n ext)

/-- A held load leaves once no earlier overlapping store is in the buffer (R141). -/
def State.farRelease (s : State) (u : UnitIx) (i : Nat) : State :=
  match s.farAt u i with
  | none => s
  | some f =>
    let behind := (s.tile u).far.any fun g =>
      decide (g.kind = .fst) && decide (g.seq < f.seq) && overlaps g.ga.toNat g.len f.ga.toNat f.len
        && (match g.phase with | .port _ => false | _ => true)
    if f.phase ≠ .held ∨ behind then s else s.modFar u f.seq fun g => { g with phase := .sent }

/-- HELD_FAR_LOAD_RELEASE (R141). -/
def execHeldFarLoadRelease (u : UnitIx) (n : Nat) (s : State) : Host.Outcome State Fault Refusal := .next (s.whenUp fun s => s.farRelease u n)

/-! ## Discarded transfers (R28) -/

/-- The unit that a fault at a fabric port stands against. -/
def portUnit (p : PortIx) : Nat := if p.val ≤ 21 then p.val else if p.val = 23 then 23 else if p.val = 25 then 24 else 22

/-- A transfer fails its CRC at a port: counted, the first port kept, reported. -/
def State.crcCount (s : State) (p : PortIx) : State :=
  let s1 := s.bump Csr.crcCnt
  let s2 := if fld (s1.reg Csr.crcPort) 5 5 = 1 then s1 else s1.setReg Csr.crcPort (BitVec.ofNat 32 (p.val + 32))
  s2.report 0x0120 (portUnit p) [BitVec.ofNat 32 p.val]

/-- A far operation whose request or response was discarded ends with FABRIC_ERR. -/
def State.farLost (s : State) (u : UnitIx) (i : Nat) : State :=
  match s.farAt u i with
  | none => s
  | some f =>
    let open_ := match f.phase with | .sent => true | .done _ => true | _ => false
    if open_ then (s.farDone u f 9 []).modLk fun l => { l with reqs := l.reqs.filter fun r => !(decide (r.unit = some u) && decide (r.seq = f.seq)) }
    else s

/-! ## Semaphores (R255 to R258, Table 9-11) -/

/-- A semaphore word after a request of a port, and the result; none where nothing changes. -/
def semStep (acquire : Bool) (port w : Nat) : Nat × Option Nat :=
  let c := bitsOf w 15 0
  let m := bitsOf w 31 16
  let put := fun (k : Nat) => withBits (withBits w 15 0 k) 36 32 port
  if acquire then (if 0 < c then (1, some (put (c - 1))) else (0, none))
  else if c < m then (1, some (put (c + 1))) else (3, none)

/-- The common bank performs a semaphore request. -/
def State.semPerform (s : State) (u : UnitIx) (i : Nat) : State :=
  match s.farAt u i with
  | none => s
  | some f =>
    if f.phase ≠ .sent ∨ (f.kind ≠ .semacq ∧ f.kind ≠ .semrel) then s
    else
      let j := f.ga.toNat
      if 1024 ≤ j then s.farDone u f 2 []
      else
        let a := semAddr j
        let s1 := s.eccReadRange a 8 2
        if s.hasUe a 8 then s1.farDone u f 6 []
        else
          let r := semStep (decide (f.kind = .semacq)) u.val (s.load a 8)
          (match r.2 with | some w => s1.memWrite a (leBytes 8 w) 2 | none => s1).farDone u f 0 (leBytes 4 r.1)

/-- Put a request among others in the order in which a target serves those of one cycle (R57). -/
def portInsert (S : Nat) (x : UnitIx × Nat) : List (UnitIx × Nat) → List (UnitIx × Nat)
  | [] => [x]
  | y :: r => if portRank S x.1.val < portRank S y.1.val then x :: y :: r else y :: portInsert S x r

/-- Semaphore requests that reach the common bank in one fabric cycle are performed in port order from S mod 27 (R57, R256). -/
def State.semMeet (s : State) (rs : List (UnitIx × Nat)) : State :=
  (rs.foldr (portInsert s.sample.toNat) []).foldl (fun s x => s.semPerform x.1 x.2) s

/-- SEMAPHORE_PERFORM (R256): a request, and those that meet it in its cycle. -/
def execSemaphorePerform (u : UnitIx) (n : Nat) (more : List (UnitIx × Nat)) (s : State) : Host.Outcome State Fault Refusal :=
  .next (s.whenUp fun s => s.semMeet ((u, n) :: more))

/-! ## Spores (R250 to R254) -/

/-- A spore is delivered to its role's holder, or returned to its sender where the role is not valid; while the queue is full it waits. -/
def State.sporeDeliver (s : State) (u : UnitIx) (i : Nat) : State :=
  match s.farAt u i with
  | none => s
  | some f =>
    let r := s.role f.ga.toNat
    let q := if r.2.1 then r.1 else u.val
    let first := (s.tile u).far.any fun g =>
      decide (g.kind = .spore) && decide (g.phase = .sent) && decide (g.seq < f.seq)
        && decide ((let x := s.role g.ga.toNat; if x.2.1 then x.1 else u.val) = q)
    if f.phase ≠ .sent ∨ f.kind ≠ .spore ∨ first then s
    else
      let s1 := s.eccReadRange (roleAddr f.ga.toNat) 4 2
      if s.hasUe (roleAddr f.ga.toNat) 4 then s1.farDone u f 6 []
      else if s.spqFull q ∨ s.fab.spill.any fun x => decide (x.1 = q) then s
      else if r.2.1 then (s1.putSpore q (stampEpoch f.data r.2.2)).farDone u f 0 []
      else (s1.putSpore q (stampOr (stampEpoch f.data r.2.2) 6)).farDone u f 0xA []

/-- SPORE_DELIVER (R251). -/
def execSporeDeliver (u : UnitIx) (n : Nat) (s : State) : Host.Outcome State Fault Refusal := .next (s.whenUp fun s => s.sporeDeliver u n)

/-! ## Completion (R129, R135, R138, R140) -/

/-- Write a result to a destination of the unit. -/
def State.putDest (s : State) (u : UnitIx) (d : Dest) (bs : List Byte) : State :=
  match d with
  | .none => s
  | .mem a => s.localWrite u a bs
  | .lane r l => s.modTile u fun t => t.setVec r (laneMask (8 * bs.length) (8 * bs.length * l)) (BitVec.ofNat 512 (leNat bs * 2 ^ (8 * bs.length * l)))

/-- The faulting address of a failed far operation, and whether it is a fabric address: a local range that breaks R70 alone is the local address. -/
def FarOp.faddr (f : FarOp) (t : Tile) (st : Nat) : Nat × Bool :=
  match f.kind with
  | .semacq => (semAddr f.ga.toNat, true)
  | .semrel => (semAddr f.ga.toNat, true)
  | .spore => (roleAddr f.ga.toNat, true)
  | _ =>
    match f.tkt with
    | some k =>
      match (t.ticket k).job with
      | some j => if st = 4 ∧ 1 ≤ f.len ∧ f.len ≤ 64 ∧ farAligned f.ga.toNat f.len then (j.loc, false) else (f.ga.toNat, true)
      | none => (f.ga.toNat, true)
    | none => (f.ga.toNat, true)

/-- A far operation ends: its last write lands and its ticket leaves PENDING in the same cycle. -/
def State.farComplete (s : State) (u : UnitIx) (i : Nat) : State :=
  match s.farAt u i with
  | none => s
  | some f =>
    let fin := fun (s : State) (st : Nat) =>
      let fa := f.faddr (s.tile u) st
      resumeJoin u (s.modTile u fun t => t.endFar f.seq st fa.1 fa.2)
    match f.phase with
    | .port st => fin s st.toNat
    | .done st => fin (if st = 0 ∧ f.kind ≠ .fst ∧ f.kind ≠ .spore then s.putDest u f.dst f.data else s) st.toNat
    | _ => s

/-- TICKET_COMPLETE (R129). -/
def execTicketComplete (u : UnitIx) (n : Nat) (s : State) : Host.Outcome State Fault Refusal := .next (s.whenUp fun s => s.farComplete u n)

end Sys2Proof.Machine
end

