-- ==== Sys2Proof/Machine/Routines.lean ====
section
/-! DEFINITION. The routine engines at work: what an element of each routine does, its end and its faults, suspension and resumption; and the events of
a unit that no operation issues: results, traps and interrupts (R86, R120 to R124, R142 to R148, R169 to R171, R194, R221, R230, R518 to R520). -/

namespace Sys2Proof.Machine

/-! ## Elements -/

/-- What an element does: its status, the faulting address and whether it is a fabric address, its flags, what it writes, and what the routine holds
afterwards; `held` while a far access of it must wait (R141) or awaits its answer, with what it does meanwhile. -/
structure ElemOut where
  st    : Nat
  fa    : Nat
  glob  : Bool
  flags : BitVec 5
  held  : Bool
  act   : State → State
  work  : Option (List Byte) := none
  wait  : State → State := id

/-- An element that completes. -/
def elemOk (fl : BitVec 5) (act : State → State) : ElemOut := { st := 0, fa := 0, glob := false, flags := fl, held := false, act := act }
/-- An element that fails at an address. -/
def elemBad (st fa : Nat) (glob : Bool) (act : State → State) : ElemOut := { st := st, fa := fa, glob := glob, flags := 0, held := false, act := act }

/-- The first fault among local ranges: address, length, alignment, and whether it is read (R48, R64, R69). -/
def State.localFault (s : State) (u : UnitIx) (rs : List (Nat × Nat × Nat × Bool)) : Option (Nat × Nat) :=
  rs.findSome? fun r =>
    if r.1 % r.2.2.1 ≠ 0 then some (4, r.1)
    else if localTop < r.1 + r.2.1 then some (5, r.1)
    else if r.2.2.2 && s.hasUe (localBase u + r.1) r.2.1 then some (6, r.1)
    else none

/-- Read local ranges: corrected errors and uncorrectable ones are recorded (R63, R64). -/
def State.localReads (s : State) (u : UnitIx) (rs : List (Nat × Nat × Nat × Bool)) : State :=
  rs.foldl (fun s r => if r.2.2.2 ∧ r.1 + r.2.1 ≤ localTop then s.eccReadRange (localBase u + r.1) r.2.1 0 else s) s

/-- An element over local ranges: checked in order, then performed. -/
def State.localElem (s : State) (u : UnitIx) (rs : List (Nat × Nat × Nat × Bool)) (go : State → BitVec 5 × List (Nat × List Byte)) : ElemOut :=
  match s.localFault u rs with
  | some (st, a) => elemBad st a false fun s => s.localReads u (rs.filter fun r => decide (r.1 = a))
  | none =>
    let r := go s
    elemOk r.1 fun s => r.2.foldl (fun s w => s.localWrite u w.1 w.2) (s.localReads u rs)

/-- A binary32 value of the unit's bank. -/
def State.lf (s : State) (u : UnitIx) (a : Nat) : Nat := s.localLoad u a 4

/-- IMUL and IDIV (R121 to R124). -/
def State.intElem (s : State) (u : UnitIx) (j : Job) : ElemOut :=
  let opc := j.opc.toNat
  let put := fun (ws : List Wr) (f : Nat) => elemOk 0 fun s =>
    (ws.foldl (fun s w => retireOne u s { retire := 0, issue := 0, slot := 6, w := w }) s).modTile u fun t => { t with istat := t.istat ||| BitVec.ofNat 32 f }
  if opc < 0x18 then
    let r := imulR opc j.src1.toNat j.src2.toNat
    put (intResult j.dst r.1 r.2.1) r.2.2
  else
    let w := if opc < 0x1A then 4 else 8
    let r := idivR (decide (opc = 0x18) || decide (opc = 0x1A)) (8 * w) j.src1.toNat j.src2.toNat
    match j.dst with
    | .mem a =>
      match s.localFault u [(a, 2 * w, 1, false)] with
      | some (st, _) => elemBad st (a + w) false fun s => s
      | none => put (intResult j.dst w r.1 ++ intResult (.mem (a + w)) w r.2.1) r.2.2
    | .lane v l => put (intResult j.dst w r.1 ++ intResult (.lane v (l + 1)) w r.2.1) r.2.2
    | .none => put [] r.2.2

/-- FDIV and FSQRT (R177, R192). -/
def fpElem (u : UnitIx) (j : Job) : ElemOut :=
  let opc := j.opc.toNat
  let md := FMode.ofBits j.fmode
  let f := if opc % 2 = 0 then f32 else f64
  let r := if opc < 0x22 then f.div md j.src1.toNat j.src2.toNat else f.sqrt md j.src1.toNat
  elemOk r.flags fun s => (fpResult j.dst (f.width / 8) r.bits).foldl (fun s w => retireOne u s { retire := 0, issue := 0, slot := 6, w := w }) s

/-- One sample through one section of BIQ: the output, both states and the flags. -/
def biqStep (md : FMode) (b0 b1 b2 a1 a2 x z1 z2 : Nat) : Nat × Nat × Nat × BitVec 5 :=
  let out := f32.fma md false b0 x z1
  let i1 := f32.fma md true a1 out.bits z2
  let n1 := f32.fma md false b1 x i1.bits
  let p := f32.mul md a2 out.bits
  let n2 := f32.fma md false b2 x (p.bits ^^^ 0x80000000)
  (out.bits, n1.bits, n2.bits, out.flags ||| i1.flags ||| n1.flags ||| p.flags ||| n2.flags)

/-- BIQ's n and s, the first two words of its parameter block. -/
def State.biqDims (s : State) (u : UnitIx) (j : Job) : Nat × Nat := (s.lf u j.src2.toNat, s.lf u (j.src2.toNat + 4))

/-- BIQ (Table 5-8): z1 and z2 are read at the first element after a start and at the first of each section, and carried otherwise. -/
def State.biqElem (s : State) (u : UnitIx) (j : Job) (run : Run) : ElemOut :=
  let e := run.elem
  let p := j.src2.toNat
  match s.localFault u [(p, 8, 4, true)] with
  | some (st, a) => elemBad st a false fun s => s.localReads u [(p, 8, 4, true)]
  | none =>
    let (n, sc) := s.biqDims u j
    let k := if n = 0 then 0 else e / n
    let i := if n = 0 then 0 else e % n
    let co := p + 8 + 20 * k
    let za := p + 8 + 20 * sc + 8 * k
    let inp := if k = 0 then j.src1.toNat + 4 * i else j.dstAt + 4 * i
    let out := j.dstAt + 4 * i
    let z := if i = 0 then none else run.work
    let z1 := match z with | some w => leNat (w.take 4) | none => s.lf u za
    let z2 := match z with | some w => leNat (w.drop 4) | none => s.lf u (za + 4)
    let r := biqStep (FMode.ofBits j.fmode) (s.lf u co) (s.lf u (co + 4)) (s.lf u (co + 8)) (s.lf u (co + 12)) (s.lf u (co + 16)) (s.lf u inp) z1 z2
    let st := leBytes 4 r.2.1 ++ leBytes 4 r.2.2.1
    { s.localElem u [(p, 8, 4, true), (co, 20, 4, true), (za, 8, 4, z.isNone), (inp, 4, 4, true), (out, 4, 4, false)] (fun _ =>
        (r.2.2.2, [(out, leBytes 4 r.1), (za, st)])) with work := some st }

/-- CMAC: one bin in four fused steps. -/
def State.cmacElem (s : State) (u : UnitIx) (j : Job) (e : Nat) : ElemOut :=
  let md := FMode.ofBits j.fmode
  let acc := j.dstAt + 8 * e
  let a := j.src1.toNat + 8 * e
  let b := j.src2.toNat + Config.cmacVecOfs + 8 * e
  s.localElem u [(j.src2.toNat + Config.cmacCountOfs, 4, 1, true), (acc, 8, 4, true), (a, 8, 4, true), (b, 8, 4, true)] fun s =>
    let r1 := f32.fma md false (s.lf u a) (s.lf u b) (s.lf u acc)
    let r2 := f32.fma md true (s.lf u (a + 4)) (s.lf u (b + 4)) r1.bits
    let i1 := f32.fma md false (s.lf u a) (s.lf u (b + 4)) (s.lf u (acc + 4))
    let i2 := f32.fma md false (s.lf u (a + 4)) (s.lf u b) i1.bits
    (r1.flags ||| r2.flags ||| i1.flags ||| i2.flags, [(acc, leBytes 4 r2.bits ++ leBytes 4 i2.bits)])

/-- NLMS: one coefficient. -/
def State.nlmsElem (s : State) (u : UnitIx) (j : Job) (e : Nat) : ElemOut :=
  let p := j.src2.toNat
  let par := [(p + Config.nlmsCountOfs, 4, 1, true), (p + Config.nlmsMuOfs, 4, 1, true), (p + Config.nlmsHistOfs, 4, 1, true)]
  match s.localFault u par with
  | some (st, a) => elemBad st a false fun s => s.localReads u (par.filter fun r => decide (r.1 = a))
  | none =>
    let h := s.lf u (p + Config.nlmsHistOfs)
    let w := j.dstAt + 4 * e
    let x := ofInt 32 ((j.src1.toNat : Int) + 4 * ((h : Int) - e))
    s.localElem u (par ++ [(x, 4, 4, true), (w, 4, 4, true)]) fun s =>
      let r := f32.fma (FMode.ofBits j.fmode) false (s.lf u (p + Config.nlmsMuOfs)) (s.lf u x) (s.lf u w)
      (r.flags, [(w, leBytes 4 r.bits)])

/-- FFT4: a radix-4 butterfly on d[j], d[j+q], d[j+2q] and d[j+3q], whose arithmetic and tables are free (log 9). -/
def State.fftElem (s : State) (u : UnitIx) (j : Job) (e : Nat) : ElemOut :=
  let p := j.src2.toNat
  let par := [(p + Config.fft4NOfs, 4, 1, true), (p + Config.fft4QOfs, 4, 1, true), (p + Config.fft4StepOfs, 4, 1, true)]
  match s.localFault u par with
  | some (st, a) => elemBad st a false fun s => s.localReads u (par.filter fun r => decide (r.1 = a))
  | none =>
    let q := s.lf u (p + Config.fft4QOfs)
    let at_ := (upFrom 0 4).map fun i => j.dstAt + 8 * (Config.fft4Index e q + i * q)
    let tw := (Config.fft4Twiddles e q (s.lf u (p + Config.fft4StepOfs))).map fun o => j.src1.toNat + o
    s.localElem u (par ++ at_.map (fun a => (a, 8, 8, true)) ++ tw.map (fun a => (a, 8, 8, true))) fun s =>
      let ins := at_.map fun a => s.localLoad u a 8
      let tws := tw.map fun a => s.localLoad u a 8
      let out := padTo 32 (Config.fft4Out j.fmode.toNat ins tws)
      (Config.fft4Flags j.fmode.toNat ins tws, (at_.zipIdx).map fun a => (a.1, (out.drop (8 * a.2)).take 8))

/-- One sample of PEAK or RMS: MAX or SUM, and flags. -/
def meterStep (md : FMode) (peak : Bool) (v x : Nat) : Nat × BitVec 5 :=
  let r := if peak then f32.minMax md true v (x % 2 ^ 31) else f32.fma md false x x v
  (r.bits, r.flags)

/-- PEAK and RMS: one group of at most 16 samples; the result, read in the set-up, is rewritten whole (R520, Table 5-19). -/
def State.meterElem (s : State) (u : UnitIx) (j : Job) (run : Run) : ElemOut :=
  let e := run.elem
  let peak : Bool := decide (j.opc.toNat = 0x3C)
  let n := j.src2.toNat % 2 ^ 32
  let k := min 16 (n - 16 * e)
  let d := j.dstAt
  let x := j.src1.toNat + 64 * e
  let old := run.work.getD (s.bytes (localBase u + d) 16)
  let o := if peak then 0 else 4
  let v := (upFrom 0 k).foldl (fun (a : Nat × BitVec 5) i =>
    let y := meterStep (FMode.ofBits j.fmode) peak a.1 (s.lf u (x + 4 * i)); (y.1, a.2 ||| y.2)) (leNat ((old.drop o).take 4), 0)
  let new := if peak then leBytes 4 v.1 ++ (old.drop 4).take 4 else old.take 4 ++ leBytes 4 v.1
  let res := new ++ leBytes 4 ((leNat ((old.drop 8).take 4) + k) % 2 ^ 32) ++ old.drop 12
  { s.localElem u [(d, 16, 8, run.work.isNone), (x, 4 * k, 4, true)] (fun _ => (v.2, [(d, res)])) with work := some res }

/-- A far access of an element waits: a store for the far stores issued before it to its target, a load for an overlapping store in the buffer
(R141). -/
def State.elemHeld (s : State) (u : UnitIx) (seq a n : Nat) (wr : Bool) : Bool :=
  if wr then s.storeFirst u seq a else (s.tile u).storeAhead a n

/-- A far access of an element: the status of the tile's port, then the target's answer, or the status with which it was answered; none while the
partner's response is awaited (R134, R138). -/
def State.farElem (s : State) (u : UnitIx) (r : Run) (a n : Nat) (wr : Option (List Byte)) (checked : Bool) (ext : Option (List Byte)) :
    State × Option (Nat × List Byte) :=
  let port := if 2 ^ 36 ≤ a ∨ regionOf a = .unmapped then 2 else if checked && !farAligned a n then 4 else 0
  if port ≠ 0 then (s, some (port, []))
  else match r.ans with
    | some x => (s, some (x.1.toNat, padTo n x.2))
    | none =>
      if regionOf a = .partner then
        if s.lk.reqs.any fun q => decide (q.unit = some u) && decide (q.seq = r.seq) then (s, none)
        else if s.partnerOk (.tile u) wr.isSome then (s.askPartner a n wr (some u) r.seq, none)
        else (s, some (7, []))
      else match wr with
        | some bs => let x := s.fabricWrite (.tile u) a bs; (x.1, some (x.2, []))
        | none => let x := s.fabricRead (.tile u) a n ext; (x.1, some x.2)

/-- Write one lane of a vector register (R226). -/
def State.putLane (s : State) (u : UnitIx) (r : BitVec 5) (wb i : Nat) (bs : List Byte) : State :=
  s.modTile u fun t => t.setVec r (laneMask (8 * wb) (8 * wb * i)) (BitVec.ofNat 512 (leNat bs * 2 ^ (8 * wb * i)))

/-- GATHER and SCATTER: one index (R169 to R172). -/
def State.gsElem (s : State) (u : UnitIx) (j : Job) (run : Run) (ext : Option (List Byte)) : ElemOut :=
  let i := run.elem
  let wb := 2 ^ j.sew.toNat
  let a := j.gsAddr i
  let load : Bool := decide (j.opc.toNat = 0x30)
  let lane := leBytes wb (bitsOf j.vd.toNat (8 * wb * (i + 1) - 1) (8 * wb * i))
  if !j.act.getLsbD i then elemOk 0 fun s => s
  else if j.far then
    let r := s.farElem u run a wb (if load then none else some lane) true ext
    let held := s.elemHeld u run.seq a wb (!load)
    match r.2 with
    | none => { st := 0, fa := a, glob := true, flags := 0, held := true, act := id, wait := fun s => if held then s else r.1 }
    | some x =>
      { st := x.1, fa := a, glob := true, flags := 0, held := held
        act := fun _ => if x.1 = 0 ∧ load then r.1.putLane u j.vdReg wb i x.2 else r.1 }
  else match s.localFault u [(a, wb, wb, load)] with
    | some (st, x) => elemBad st x false fun s => s.localReads u [(a, wb, wb, load)]
    | none => elemOk 0 fun s =>
      if load then (s.localReads u [(a, wb, wb, true)]).putLane u j.vdReg wb i (s.bytes (localBase u + a) wb)
      else s.localWrite u a lane

/-! ### BMOV (R519) -/

/-- The status of a descriptor (Table 5-18). -/
def descStatus (d : DWord) : Nat :=
  if bitsOf d.toNat 62 36 ≠ 0 then 2 else if !descG d ∧ 0x200000 ≤ descAddr d then 5 else 0

/-- The status that BMOV's checks give before any chunk. -/
def bmovStatus (dd ds : DWord) (len : Nat) : Nat :=
  if descStatus dd ≠ 0 then descStatus dd else if descStatus ds ≠ 0 then descStatus ds else if 1048576 < len then 4 else 0

/-- Change the run on whichever engine carries a sequence number. -/
def State.modRun (s : State) (u : UnitIx) (seq : Nat) (f : Run → Run) : State :=
  s.modTile u fun t => { t with re := t.re.map fun o => o.map fun r => if r.seq = seq then f r else r }

/-- One chunk: read at the source, then written at the destination; bytes read while the write's acknowledgement is awaited are kept. -/
def State.bmovElem (s : State) (u : UnitIx) (dd ds : DWord) (len : Nat) (run : Run) (ext : Option (List Byte)) : ElemOut :=
  let c := chunkAt (descAddr ds) (descAddr dd) len run.elem
  let sa := descAddr ds + c.1
  let da := descAddr dd + c.1
  let rd : State × Option (Nat × List Byte) :=
    match run.got with
    | some bs => (s, some (0, bs))
    | none =>
      if descG ds then s.farElem u run sa c.2 none false ext
      else match s.localFault u [(sa, c.2, 1, true)] with
        | some (st, _) => (s.localReads u [(sa, c.2, 1, true)], some (st, []))
        | none => (s.localReads u [(sa, c.2, 1, true)], some (0, s.bytes (localBase u + sa) c.2))
  let held := (run.got.isNone && descG ds && s.elemHeld u run.seq sa c.2 false) || (descG dd && s.elemHeld u run.seq da c.2 true)
  match rd.2 with
  | none => { st := 0, fa := sa, glob := true, flags := 0, held := true, act := id, wait := fun s => if held then s else rd.1 }
  | some (st, bs) =>
    if st ≠ 0 then { st := st, fa := sa, glob := descG ds, flags := 0, held := held, act := fun _ => rd.1 }
    else
      let wr : State × Option (Nat × List Byte) :=
        if descG dd then rd.1.farElem u (if descG ds && run.got.isNone then { run with ans := none } else run) da c.2 (some bs) false none
        else if localTop < da + c.2 then (rd.1, some (5, []))
        else (rd.1.localWrite u da bs, some (0, []))
      match wr.2 with
      | none =>
        { st := 0, fa := da, glob := true, flags := 0, held := true, act := id
          wait := fun s => if held then s else wr.1.modRun u run.seq fun r => { r with got := some bs, ans := none } }
      | some x => { st := x.1, fa := da, glob := descG dd, flags := 0, held := held, act := fun _ => wr.1 }

/-! ## The course of a routine -/

/-- The number of elements of a routine, or the status with which its checks end it before the first one. -/
def State.elemCount (s : State) (u : UnitIx) (j : Job) : Except (Nat × Nat) Nat :=
  let opc := j.opc.toNat
  let len := j.src2.toNat % 2 ^ 32
  if j.spare.isSome then .ok 1
  else if opc = 0x28 then
    (match s.localFault u [(j.src2.toNat, 8, 4, true)] with
     | some x => .error x
     | none => let d := s.biqDims u j; .ok (d.1 * d.2))
  else if opc = 0x29 then
    (match s.localFault u [(j.src2.toNat + Config.fft4NOfs, 4, 1, true)] with
     | some x => .error x
     | none => .ok (s.lf u (j.src2.toNat + Config.fft4NOfs) / 4))
  else if opc = 0x2A then
    (match s.localFault u [(j.src2.toNat + Config.cmacCountOfs, 4, 1, true)] with
     | some x => .error x
     | none => .ok (s.lf u (j.src2.toNat + Config.cmacCountOfs)))
  else if opc = 0x2B then
    (match s.localFault u [(j.src2.toNat + Config.nlmsCountOfs, 4, 1, true)] with
     | some x => .error x
     | none => .ok (s.lf u (j.src2.toNat + Config.nlmsCountOfs)))
  else if opc = 0x30 ∨ opc = 0x31 then .ok j.vl
  else if opc = 0x38 then
    (match s.bmovDescs u j with
     | .error x => .error x
     | .ok (dd, ds) =>
       if bmovStatus dd ds len ≠ 0 then .error (bmovStatus dd ds len, 0)
       else .ok ((upFrom 0 (len / 32 + 4)).foldl (fun n e => if 0 < (chunkAt (descAddr ds) (descAddr dd) len e).2 then n + 1 else n) 0))
  else if opc = 0x3C ∨ opc = 0x3D then (if 1048560 < len then .error (4, 0) else .ok ((len + 15) / 16))
  else .ok 1

/-- What the next element of a captured operation does. -/
def State.element (s : State) (u : UnitIx) (j : Job) (run : Run) (ext : Option (List Byte)) : ElemOut :=
  let opc := j.opc.toNat
  let e := run.elem
  match j.spare with
  | some ua =>
    let ws := Config.spareRoutine ua.toNat j.dstAt j.src1.toNat j.src2.toNat
    let rs := Config.spareReads ua.toNat j.dstAt j.src1.toNat j.src2.toNat
    s.localElem u (rs.map (fun a => (a, 8, 1, true)) ++ ws.map (fun w => (w.1, 1, 1, false))) fun _ => (0, ws.map fun w => (w.1, [w.2]))
  | none =>
    if opc < 0x20 then s.intElem u j
    else if opc < 0x28 then fpElem u j
    else if opc = 0x28 then s.biqElem u j run
    else if opc = 0x29 then s.fftElem u j e
    else if opc = 0x2A then s.cmacElem u j e
    else if opc = 0x2B then s.nlmsElem u j e
    else if opc = 0x30 ∨ opc = 0x31 then s.gsElem u j run ext
    else if opc = 0x38 then
      (match s.bmovDescs u j with
       | .ok (dd, ds) => s.bmovElem u dd ds (j.src2.toNat % 2 ^ 32) run ext
       | .error x => elemBad x.1 x.2 false fun s => s)
    else s.meterElem u j run

/-- A routine has left an engine: a handler operation that waits for it starts (R147). -/
def Tile.engineNext (t : Tile) (e : EngIx) : Tile :=
  match t.re[e], t.suspFor[e] with
  | none, some r => ({ t with suspFor := t.suspFor.set e none } : Tile).startOn e { r with due := 0 }
  | _, _ => t

/-- Every engine that a routine has left goes on. -/
def Tile.enginesNext (t : Tile) : Tile := (t.engineNext 0).engineNext 1

/-- A routine ends: its ticket leaves PENDING and its engine goes on. -/
def State.routineEnd (s : State) (u : UnitIx) (k : TicketIx) (st elem fa : Nat) (glob : Bool) : State :=
  resumeJoin u ((s.modTile u fun t => ((t.complete k st elem fa glob).dropRun k).enginesNext).setUp u)

/-- A suspension is due on the engine before another element completes. -/
def suspendDue (r : Run) (w : Option Run) : Bool := match w with | some h => decide (h.due < r.elem) | none => false

/-- A captured operation makes no far access in its elements. -/
def Job.isLocal (j : Job) : Bool := j.spare.isSome || !(decide (j.opc.toNat = 0x38) || ((decide (j.opc.toNat = 0x30) || decide (j.opc.toNat = 0x31)) && j.far))

/-- The other engine's element lands first: its cycle is earlier, or it is the same and its operation was issued earlier (R144). -/
def Tile.otherFirst (t : Tile) (e : EngIx) (r : Run) : Bool :=
  match t.re[1 - e] with
  | none => false
  | some o =>
    (match (t.ticket o.tkt).job with | some j => j.isLocal | none => false)
      && (decide (o.due < r.due) || (decide (o.due = r.due) && decide (o.seq < r.seq)))

/-- The unit's clock runs and no JOIN holds its pipeline (R85). -/
def Tile.cycling (t : Tile) : Bool := t.awake && !t.waiting && !t.halted && !t.fenced

/-- Frond results of the element's cycle or before are still to retire: they are performed first (R94, R144). -/
def Tile.resultsFirst (t : Tile) (r : Run) : Bool := t.cycling && !t.pend.isEmpty && decide (t.wall ≤ r.due)

/-- The element's place on its engine is reached. -/
def Tile.elementNow (t : Tile) (e : EngIx) (r : Run) (j : Job) : Bool :=
  !suspendDue r t.suspFor[e] && (!j.isLocal || (!t.otherFirst e r && !t.resultsFirst r))

/-- The wall clock of the unit after an element that lands in a cycle. -/
def State.landAt (s : State) (u : UnitIx) (r : Run) : State := s.modTile u fun t => { t with wall := max t.wall (r.due + 1) }

/-- A microword fails its parity or has a reserved SEQ: the routine ends with UCODE_FAULT, and a safety event is reported (R145). -/
def State.ucodeFault (s : State) (u : UnitIx) (r : Run) : State :=
  ((s.landAt u r).report 0x0113 u.val ([0, 0] ++ (upFrom 0 4).map ((s.tile u).ticket r.tkt).trec)).routineEnd u r.tkt 0xB r.elem 0 false

/-- The element of a routine of `n` completes, ends the routine, or waits. -/
def State.elementDone (s : State) (u : UnitIx) (e : EngIx) (r : Run) (n : Nat) (o : ElemOut) : State :=
  let k := r.tkt
  if o.held then o.wait s
  else
    let s1 := (o.act s).landAt u r
    if o.st ≠ 0 then s1.routineEnd u k o.st r.elem o.fa o.glob
    else
      let s2 := s1.modTile u fun t => t.setTicket k { t.ticket k with fflags := (t.ticket k).fflags ||| o.flags }
      if n ≤ r.elem + 1 then s2.routineEnd u k 0 (if n = 1 then 0 else n) 0 false
      else s2.modTile u fun t =>
        { t with re := t.re.set e (some { r with elem := r.elem + 1, due := r.due + (t.costOf k).2, work := o.work, ans := none, got := none }) }

/-- The next element of an engine's routine completes or ends it, in the cycle that is its own (R143, R144); `bad` is a microword that fails its parity
(R145).  An uncorrectable word that the routine's checks meet is recorded (R64). -/
def State.routineElement (s : State) (u : UnitIx) (e : EngIx) (bad : Bool) (ext : Option (List Byte)) : State :=
  match (s.tile u).re[e] with
  | none => s
  | some r =>
    match ((s.tile u).ticket r.tkt).job with
    | none => s
    | some j =>
      if !(s.tile u).elementNow e r j then s
      else if bad ∨ (s.tile u).entryBad j r then s.ucodeFault u r
      else match s.elemCount u j with
        | .error x =>
          ((if x.1 = 6 then s.eccReadRange (localBase u + x.2) 8 0 else s).landAt u r).routineEnd u r.tkt x.1 r.elem x.2 false
        | .ok n =>
          if n ≤ r.elem then (s.landAt u r).routineEnd u r.tkt 0 (if n = 1 then 0 else n) 0 false
          else s.elementDone u e r n (s.element u j r ext)

/-- ROUTINE_ELEMENT (R143): the engine, whether the microword is bad, and what a far access beyond the device answers. -/
def execRoutineElement (u : UnitIx) (e : Fin 2) (bad : Bool) (ext : Option (List Byte)) (s : State) : Host.Outcome State Fault Refusal :=
  .next (s.whenUp fun s => s.routineElement u e bad ext)

/-! ## Discarded transfers of elements (R28, R134) -/

/-- The far access of an engine's element was discarded: it is answered with FABRIC_ERR; where the response was lost, the target had performed it. -/
def State.elemLost (s : State) (u : UnitIx) (e : EngIx) (performed : Bool) : State :=
  match (s.tile u).re[e] with
  | none => s
  | some r =>
    match ((s.tile u).ticket r.tkt).job with
    | none => s
    | some j =>
      if j.isLocal then s
      else
        let s1 := if performed ∧ j.opc.toNat ≠ 0x30 then (s.element u j r none).act s else s
        (s1.modTile u fun t => t.answer r.seq 9 []).modLk fun l =>
          { l with reqs := l.reqs.filter fun q => !(decide (q.unit = some u) && decide (q.seq = r.seq)) }

/-- A transfer fails its CRC at a port, with what it belonged to. -/
def State.crcFail (s : State) (p : PortIx) (x : Option XferOf) : State :=
  match x with
  | none => s.crcCount p
  | some (.far u i) => (s.crcCount p).farLost u i
  | some (.elem u e performed) => (s.crcCount p).elemLost u e performed

/-- FABRIC_TRANSFER_RECEIVE (R28): the receiving port, what the transfer belongs to, and whether its CRC holds. -/
def execFabricTransferReceive (p : PortIx) (x : Option XferOf) (ok : Bool) (s : State) : Host.Outcome State Fault Refusal :=
  .next (s.whenUp fun s => if ok then s else s.crcFail p x)

/-! ## Queue, suspension and resumption (R142, R147) -/

/-- The queue starts its first operation on the lower-numbered free engine (R142). -/
def Tile.startQueued (t : Tile) : Tile :=
  match t.rqueue, t.freeEngine with
  | r :: rest, some e => ({ t with rqueue := rest } : Tile).startOn e r
  | _, _ => t

/-- ROUTINE_START (R142). -/
def execRoutineStart (u : UnitIx) (s : State) : Host.Outcome State Fault Refusal := .next (s.whenUp fun s => (s.modTile u Tile.startQueued).setUp u)

/-- At an element boundary the routine is suspended and the handler's operation starts on its engine (R147). -/
def Tile.suspendAt (t : Tile) (e : EngIx) : Tile :=
  match t.re[e], t.suspFor[e] with
  | some r, some h =>
    if suspendDue r (some h) then
      ({ t with susp := t.susp.set e (some r), suspFor := t.suspFor.set e none } : Tile).startOn e { h with due := 0 }
    else t
  | _, _ => t.engineNext e

/-- ROUTINE_SUSPEND (R147). -/
def execRoutineSuspend (u : UnitIx) (e : Fin 2) (s : State) : Host.Outcome State Fault Refusal := 
  .next (s.whenUp fun s => (s.modTile u fun t => t.suspendAt e).setUp u)

/-- The suspended routine resumes on its engine once the handler's operation has ended (R147). -/
def Tile.resumeAt (t : Tile) (e : EngIx) : Tile :=
  match t.re[e], t.susp[e], t.suspFor[e] with
  | none, some r, none => ({ t with susp := t.susp.set e none } : Tile).startOn e { r with resumed := true }
  | _, _, _ => t

/-- ROUTINE_RESUME (R147). -/
def execRoutineResume (u : UnitIx) (e : Fin 2) (s : State) : Host.Outcome State Fault Refusal := 
  .next (s.whenUp fun s => (s.modTile u fun t => t.resumeAt e).setUp u)

/-! ## Results, traps and interrupts -/

/-- A cycle without a frond passes while results are pending: those due retire (R85, R86). -/
def State.retireCycle (s : State) (u : UnitIx) : State :=
  if (s.tile u).cycling && !(s.tile u).pend.isEmpty then issueCycle u s else s

/-- RESULT_RETIRE (R86). -/
def execResultRetire (u : UnitIx) (s : State) : Host.Outcome State Fault Refusal := .next (s.whenUp fun s => s.retireCycle u)

/-- The unit accepts interrupts and traps: it issues fronds (R229, R407, R492). -/
def Tile.accepts (t : Tile) : Bool := !t.stopped && !t.fenced && !t.halted && t.bist.isNone

/-- FP_TRAP_DELIVER (R194). -/
def execFpTrapDeliver (u : UnitIx) (s : State) : Host.Outcome State Fault Refusal :=
  .next (s.whenUp fun s =>
    if (s.tile u).accepts && decide ((s.tile u).mode = .run) && (s.tile u).trapDue then deliverTrap u s else s)

/-- An interrupt is accepted: in RUN at an acceptance point, where a trap that is due goes first (R194, R221); in NAP any vector and in SLEEP an L2
vector wakes the unit and is entered at once (R230). -/
def State.acceptInterrupt (s : State) (u : UnitIx) : State :=
  let t := s.tile u
  if !t.accepts then s
  else match t.mode with
    | .dark => s
    | .run =>
      if !t.atAcceptance then s
      else if t.trapDue then deliverTrap u s
      else match t.chooseVector with
        | some v => enter u (vectorEntry v (t.vecLevel v) 0) t.pc s
        | none => s
    | m =>
      match t.chooseVector with
      | some v =>
        if m = .sleep ∧ t.vecLevel v < 2 then s
        else enter u (vectorEntry v (t.vecLevel v) (if m = .nap then 1 else 2)) t.pc
          (s.modTile u fun t => { t with mode := .run, tier := t.napTier, vslice := false, wake := { from_ := some m, held := false } })
      | none => s

/-- INTERRUPT_ACCEPT (R221, R230). -/
def execInterruptAccept (u : UnitIx) (s : State) : Host.Outcome State Fault Refusal := .next (s.whenUp fun s => s.acceptInterrupt u)

/-- A unit that an interrupt woke and that finds none eligible is as if it had not woken (R230): the wake and the entry are one step here, so the
unit is still in the state it left. -/
def State.noEntry (s : State) (_ : UnitIx) : State := s

/-- INTERRUPT_NO_ENTRY (R230). -/
def execInterruptNoEntry (u : UnitIx) (s : State) : Host.Outcome State Fault Refusal := .next (s.whenUp fun s => s.noEntry u)

end Sys2Proof.Machine
end

