-- ==== Sys2Proof/Machine/Streams.lean ====
section
/-! DEFINITION. The steps of the stream engine's channels: landing, validity, draining, copying, their stop and restart (R302 to R308, R316). -/

namespace Sys2Proof.Machine

/-! ## Programs -/

/-- The bank offset of a step of a channel. -/
def State.stepAt (s : State) (c i : Nat) : Nat := fld (s.reg (chReg c 0)) 23 8 * 64 + 64 * i

/-- A step of a channel's program. -/
def State.stepOf (s : State) (c i : Nat) : Step := Step.ofBytes (s.bytes (bankBase 21 + s.stepAt c i) 64)

/-- A step's 64 bytes hold an uncorrectable word. -/
def State.stepUe (s : State) (c i : Nat) : Bool := s.hasUe (bankBase 21 + s.stepAt c i) 64

/-- The step that a channel runs next. -/
def State.chanNext (s : State) (c : Nat) : Option Nat := (s.aud.chans.getD c { next := none, restart := none }).next

/-- Set the step that runs next. -/
def State.setNext (s : State) (c : Nat) (n : Option Nat) : State :=
  s.modAud fun a => { a with chans := vmod a.chans c fun x => { x with next := n } }

/-- A channel stops with a status at a step: CH_STAT, its event and its report (R307); the inputs it lands are invalid. -/
def State.chanStop (s : State) (c step st : Nat) : State :=
  let s1 := (s.badInputs (s.landInputs c)).setNext c none
  let s2 := s1.modReg (chReg c 4) fun x => setFld (setFld (setFld x 1 0 2) 15 8 st) 23 16 (step % 256)
  (s2.devEvent (64 + c)).report 0x0190 21 [BitVec.ofNat 32 c, BitVec.ofNat 32 st]

/-- A landing ended late (R306). -/
def State.chanLate (s : State) (c : Nat) (st : Step) : State :=
  let s1 := s.badInputs (if st.op = 1 then upFrom st.src st.count else [])
  (s1.orRegEvent (chReg c 4) 4 (64 + c)).report 0x0190 21 [BitVec.ofNat 32 c, 0]

/-- A channel reaches END: its run is over. -/
def State.chanEnd (s : State) (c : Nat) : State := (s.modReg (chReg c 4) fun x => setFld x 0 0 0).setNext c none

/-- After a step: the next one, or the end of the program. -/
def State.chanOn (s : State) (c i : Nat) : State :=
  if (s.stepOf c (i + 1)).op = 0 then s.chanEnd c else s.setNext c (some (i + 1))

/-! ## Transfers -/

/-- One transfer of a step: a refused write is discarded and the step goes on (R49, R59); every other status stops the channel. -/
abbrev Xfer := State → State × Nat

/-- A write of the stream engine. -/
def wrXfer (a : Nat) (bs : List Byte) : Xfer := fun s =>
  let r := s.fabricWrite .stream a bs
  (r.1, if r.2 = 3 then 0 else r.2)

/-- Bytes written from an address on, row by row. -/
def rowWrites (a : Nat) (bs : List Byte) : List Xfer :=
  (rowsOf a bs.length).map fun p => wrXfer p.1 ((bs.drop (p.1 - a)).take p.2)

/-- Transfers in order up to the first that stops the channel; the transfer numbered `cut` is discarded for its CRC (R28). -/
def runXfers (cut : Option Nat) : Nat → List Xfer → State → State × Nat
  | _, [], s => (s, 0)
  | i, x :: r, s =>
    if cut = some i then (s, 9)
    else
      let y := x s
      if y.2 ≠ 0 then y else runXfers cut (i + 1) r y.1

/-! ## The steps (Table 11-5) -/

/-- The value of a logical input in the input frame of the present tick. -/
def State.inputVal (s : State) (i : Nat) : Word :=
  match s.inMap.find? fun e => decide (e.1 = i) with | some e => (frameVal s.aud.cur e.2).val | none => 0

/-- The place of the present tick in its input block: t = S − (k − 1) × B − 1. -/
def State.landIx (s : State) : Nat := if s.bsize = 0 then 0 else (s.sample.toNat + s.bsize - 1) % s.bsize

/-- LAND: each logical input goes to each destination. -/
def State.landXfers (s : State) (st : Step) : List Xfer :=
  (upFrom 0 st.count).flatMap fun i => st.dsts.map fun d =>
    wrXfer (d + i * st.dstr + 4 * s.landIx) (leBytes 4 (s.inputVal (st.src + i)).toNat)

/-- A logical input of the plan was valid in every sample of the block: not marked bad, and no stopped channel lands it (R303, R306, R307). -/
def State.inputOk (s : State) (i : Nat) : Bool :=
  (s.inMap.any fun e => decide (e.1 = i))
    && !s.aud.badIn.contains i
    && !((upFrom 0 96).any fun c => decide (fld (s.reg (chReg c 0)) 0 0 = 1) && decide (fld (s.reg (chReg c 4)) 1 1 = 1) && (s.landInputs c).contains i)

/-- The 288 bytes of VALID: one bit per logical input, and the ORed feedback status of each. -/
def State.validMap (s : State) : List Byte :=
  leBytes 32 ((upFrom 0 256).foldl (fun n i => n + b2n (s.inputOk i) * 2 ^ i) 0)
    ++ (upFrom 0 256).map fun i => match s.aud.fbOr.find? fun x => decide (x.1 = i) with | some x => x.2 | none => 0

/-- VALID. -/
def State.validXfers (s : State) (st : Step) : List Xfer := st.dsts.flatMap fun d => rowWrites d s.validMap

/-- Put words of an output block, from word `w` on; a fenced tile's outputs are zero (R407). -/
def State.drainPut (s : State) (ix w : Nat) (ws : List Word) : State :=
  let dead := match s.plan with
    | some p => p.outMap.any fun e => decide (e.ix = ix) && (s.tile (unitIx e.tile)).fenced
    | none => false
  if dead then s
  else s.modAud fun a => { a with draining := a.draining.map fun e =>
    if e.1 = ix then (ix, e.2.take w ++ ws ++ e.2.drop (w + ws.length)) else e }

/-- The words of bytes. -/
def wordsIn (bs : List Byte) : List Word := (upFrom 0 (bs.length / 4)).map fun i => BitVec.ofNat 32 (leNat ((bs.drop (4 * i)).take 4))

/-- DRAIN: one output block; its bytes are copied when all of them have been read. -/
def drainXfer (a ix b : Nat) : Xfer := fun s =>
  let r := (rowsOf a (4 * b)).foldl (fun (x : State × Nat × List Byte) p =>
    if x.2.1 ≠ 0 then x
    else let y := x.1.fabricRead .stream p.1 p.2 none; (y.1, y.2.1, x.2.2 ++ y.2.2)) (s, 0, [])
  if r.2.1 ≠ 0 then (r.1, r.2.1) else (r.1.drainPut ix 0 (wordsIn r.2.2), 0)

/-- DRAIN: the output blocks, then zeros into their sources when asked. -/
def State.drainXfers (s : State) (st : Step) : List Xfer :=
  ((upFrom 0 st.count).map fun o => drainXfer (st.src + o * st.sstr) (st.dsts.getD 0 0 + o) s.bsize)
    ++ (if st.zero then (upFrom 0 st.count).flatMap fun o => rowWrites (st.src + o * st.sstr) (zeros (4 * s.bsize)) else [])

/-- COPY: one row of the source goes to each destination. -/
def copyXfer (src n : Nat) (dsts : List Nat) (ext : Option (List Byte)) : Xfer := fun s =>
  let r := s.fabricRead .stream src n ext
  if r.2.1 ≠ 0 then (r.1, r.2.1)
  else runXfers none 0 (dsts.flatMap fun d => rowWrites d r.2.2) r.1

/-- COPY: COUNT bytes, then zeros into the source when asked. -/
def copyXfers (st : Step) (ext : Option (List Byte)) : List Xfer :=
  ((rowsOf st.src st.count).map fun p =>
      copyXfer p.1 p.2 (st.dsts.map fun d => d + (p.1 - st.src)) (ext.map fun bs => bs.drop (p.1 - st.src)))
    ++ (if st.zero then rowWrites st.src (zeros st.count) else [])

/-- A HOST channel that is served by its step's command (trigger 4). -/
def State.hostServe (s : State) (c : Nat) : State :=
  if fld (s.reg (chReg c 0)) 3 1 = 4 ∧ s.chanNext c = none then s.serve c else s

/-- The place of a channel's requests in the order of Table 11-6: its class, in class LAND the landings of a tick before VALID, which comes after
them (R303), and the channel's number. -/
def State.chanKey (s : State) (c : Nat) : Nat × Nat × Nat :=
  let v := s.reg (chReg c 0)
  (fld v 6 4, b2n (decide (fld v 3 1 = 2) && decide (fld v 6 4 = 2)), c)

/-- One place comes before another. -/
def keyBefore (x y : Nat × Nat × Nat) : Bool :=
  decide (x.1 < y.1) || (decide (x.1 = y.1) && (decide (x.2.1 < y.2.1) || (decide (x.2.1 = y.2.1) && decide (x.2.2 < y.2.2))))

/-- No running channel's requests go before those of channel `c` (R304). -/
def State.leaves (s : State) (c : Nat) : Bool :=
  (upFrom 0 96).all fun d => (s.chanNext d).isNone || !keyBefore (s.chanKey d) (s.chanKey c)

/-- A channel runs its next step, if that is of operation `op` and the channel is the one whose requests leave now. -/
def State.runStep (s0 : State) (c op : Nat) (late : Bool) (cut : Option Nat) (xs : State → Step → List Xfer) : State :=
  let s := s0.hostServe c
  if !s0.leaves c then s0
  else match s.chanNext c with
  | none => s
  | some i =>
    let s1 := s.eccReadRange (bankBase 21 + s.stepAt c i) 64 0
    if s.stepUe c i then s1.chanStop c i 6
    else
      let st := s.stepOf c i
      if st.op = 0 then s1.chanEnd c
      else if st.op ≠ op then s
      else
        let r := runXfers cut 0 (xs s st) s1
        let s2 := r.1.setReg (chReg c 8) (BitVec.ofNat 32 (i % 256 + s.blk % 2 ^ 24 * 256))
        let s3 := if late then s2.chanLate c st else s2
        if r.2 ≠ 0 then s3.chanStop c i r.2 else s3.chanOn c i

/-- LAND (R303, R306): whether it ended late, and the transfer that was discarded. -/
def execLand (c : Fin 96) (late : Bool) (cut : Option Nat) (s : State) : Host.Outcome State Fault Refusal :=
  .next (s.whenUp fun s => s.runStep c.val 1 late cut State.landXfers)

/-- VALID (R303, R306). -/
def execValid (c : Fin 96) (late : Bool) (cut : Option Nat) (s : State) : Host.Outcome State Fault Refusal :=
  .next (s.whenUp fun s => s.runStep c.val 2 late cut State.validXfers)

/-- DRAIN (R303, R308). -/
def execDrain (c : Fin 96) (cut : Option Nat) (s : State) : Host.Outcome State Fault Refusal :=
  .next (s.whenUp fun s => s.runStep c.val 3 false cut State.drainXfers)

/-- COPY (R303): what host memory or the partner answers. -/
def execCopy (c : Fin 96) (cut : Option Nat) (ext : Option (List Byte)) (s : State) : Host.Outcome State Fault Refusal :=
  .next (s.whenUp fun s => s.runStep c.val 4 false cut fun _ st => copyXfers st ext)

/-- The service core restarts a stopped channel at a named block; the inputs it has not landed in the present block are invalid (R307). -/
def State.chanRestart (s : State) (c blk : Nat) : State :=
  if fld (s.reg (chReg c 4)) 1 1 = 0 then s
  else (s.badInputs (s.landInputs c)).modAud fun a => { a with chans := vmod a.chans c fun x => { x with restart := some blk } }

/-- CHANNEL_RESTART (R307). -/
def execChannelRestart (c : Fin 96) (blk : Nat) (s : State) : Host.Outcome State Fault Refusal :=
  .next (s.whenUp fun s => s.chanRestart c.val blk)

end Sys2Proof.Machine
end

