-- ==== Sys2Proof/Machine/TileOps.lean ====
section
/-! DEFINITION. The meanings of the operation rows: each word reaches the front end of its unit and its frond issues when it is
whole (R73 to R87); what the operation does in its frond is its `…Out` function. -/

namespace Sys2Proof.Machine

/-- EXT (R80). -/
def execExt (u : UnitIx) (w : OpWord) (s : State) : Host.Outcome State Fault Refusal :=
  .next (issueWord u (.ext u w) w.stop s)

/-- FMOV_D (R179). -/
def execFmovD (u : UnitIx) (w : OpWord) (s : State) : Host.Outcome State Fault Refusal :=
  .next (issueWord u (.fmovD u w) w.stop s)

/-- FMOV_S (R179). -/
def execFmovS (u : UnitIx) (w : OpWord) (s : State) : Host.Outcome State Fault Refusal :=
  .next (issueWord u (.fmovS u w) w.stop s)

/-- SEXT (R114). -/
def execSext (u : UnitIx) (w : OpWord) (s : State) : Host.Outcome State Fault Refusal :=
  .next (issueWord u (.sext u w) w.stop s)

/-- ZEXT (R114). -/
def execZext (u : UnitIx) (w : OpWord) (s : State) : Host.Outcome State Fault Refusal :=
  .next (issueWord u (.zext u w) w.stop s)

/-- MOV (R114). -/
def execMov (u : UnitIx) (w : OpWord) (s : State) : Host.Outcome State Fault Refusal :=
  .next (issueWord u (.mov u w) w.stop s)

/-- ADD (R115). -/
def execAdd (u : UnitIx) (w : OpWord) (s : State) : Host.Outcome State Fault Refusal :=
  .next (issueWord u (.add u w) w.stop s)

/-- SUB (R115). -/
def execSub (u : UnitIx) (w : OpWord) (s : State) : Host.Outcome State Fault Refusal :=
  .next (issueWord u (.sub u w) w.stop s)

/-- ADDS (R116). -/
def execAdds (u : UnitIx) (w : OpWord) (s : State) : Host.Outcome State Fault Refusal :=
  .next (issueWord u (.adds u w) w.stop s)

/-- SUBS (R116). -/
def execSubs (u : UnitIx) (w : OpWord) (s : State) : Host.Outcome State Fault Refusal :=
  .next (issueWord u (.subs u w) w.stop s)

/-- NEG (R115). -/
def execNeg (u : UnitIx) (w : OpWord) (s : State) : Host.Outcome State Fault Refusal :=
  .next (issueWord u (.neg u w) w.stop s)

/-- ABSS (R116). -/
def execAbss (u : UnitIx) (w : OpWord) (s : State) : Host.Outcome State Fault Refusal :=
  .next (issueWord u (.abss u w) w.stop s)

/-- AND (R114). -/
def execAnd (u : UnitIx) (w : OpWord) (s : State) : Host.Outcome State Fault Refusal :=
  .next (issueWord u (.and u w) w.stop s)

/-- OR (R114). -/
def execOr (u : UnitIx) (w : OpWord) (s : State) : Host.Outcome State Fault Refusal :=
  .next (issueWord u (.or u w) w.stop s)

/-- XOR (R114). -/
def execXor (u : UnitIx) (w : OpWord) (s : State) : Host.Outcome State Fault Refusal :=
  .next (issueWord u (.xor u w) w.stop s)

/-- ANDN (R114). -/
def execAndn (u : UnitIx) (w : OpWord) (s : State) : Host.Outcome State Fault Refusal :=
  .next (issueWord u (.andn u w) w.stop s)

/-- SHL (R115). -/
def execShl (u : UnitIx) (w : OpWord) (s : State) : Host.Outcome State Fault Refusal :=
  .next (issueWord u (.shl u w) w.stop s)

/-- SHR (R115). -/
def execShr (u : UnitIx) (w : OpWord) (s : State) : Host.Outcome State Fault Refusal :=
  .next (issueWord u (.shr u w) w.stop s)

/-- SAR (R115). -/
def execSar (u : UnitIx) (w : OpWord) (s : State) : Host.Outcome State Fault Refusal :=
  .next (issueWord u (.sar u w) w.stop s)

/-- SHLS (R115). -/
def execShls (u : UnitIx) (w : OpWord) (s : State) : Host.Outcome State Fault Refusal :=
  .next (issueWord u (.shls u w) w.stop s)

/-- MIN (R114). -/
def execMin (u : UnitIx) (w : OpWord) (s : State) : Host.Outcome State Fault Refusal :=
  .next (issueWord u (.min u w) w.stop s)

/-- MAX (R114). -/
def execMax (u : UnitIx) (w : OpWord) (s : State) : Host.Outcome State Fault Refusal :=
  .next (issueWord u (.max u w) w.stop s)

/-- MINU (R114). -/
def execMinu (u : UnitIx) (w : OpWord) (s : State) : Host.Outcome State Fault Refusal :=
  .next (issueWord u (.minu u w) w.stop s)

/-- MAXU (R114). -/
def execMaxu (u : UnitIx) (w : OpWord) (s : State) : Host.Outcome State Fault Refusal :=
  .next (issueWord u (.maxu u w) w.stop s)

/-- CMP (R117). -/
def execCmp (u : UnitIx) (w : OpWord) (s : State) : Host.Outcome State Fault Refusal :=
  .next (issueWord u (.cmp u w) w.stop s)

/-- PLOG (R118). -/
def execPlog (u : UnitIx) (w : OpWord) (s : State) : Host.Outcome State Fault Refusal :=
  .next (issueWord u (.plog u w) w.stop s)

/-- MULQ15 (R116). -/
def execMulq15 (u : UnitIx) (w : OpWord) (s : State) : Host.Outcome State Fault Refusal :=
  .next (issueWord u (.mulq15 u w) w.stop s)

/-- MACQ15 (R116). -/
def execMacq15 (u : UnitIx) (w : OpWord) (s : State) : Host.Outcome State Fault Refusal :=
  .next (issueWord u (.macq15 u w) w.stop s)

/-- RNDQ (R116). -/
def execRndq (u : UnitIx) (w : OpWord) (s : State) : Host.Outcome State Fault Refusal :=
  .next (issueWord u (.rndq u w) w.stop s)

/-- FADD (R177). -/
def execFadd (u : UnitIx) (w : OpWord) (s : State) : Host.Outcome State Fault Refusal :=
  .next (issueWord u (.fadd u w) w.stop s)

/-- FSUB (R177). -/
def execFsub (u : UnitIx) (w : OpWord) (s : State) : Host.Outcome State Fault Refusal :=
  .next (issueWord u (.fsub u w) w.stop s)

/-- FMUL (R177). -/
def execFmul (u : UnitIx) (w : OpWord) (s : State) : Host.Outcome State Fault Refusal :=
  .next (issueWord u (.fmul u w) w.stop s)

/-- FMA (R177). -/
def execFma (u : UnitIx) (w : OpWord) (s : State) : Host.Outcome State Fault Refusal :=
  .next (issueWord u (.fma u w) w.stop s)

/-- FNMS (R177). -/
def execFnms (u : UnitIx) (w : OpWord) (s : State) : Host.Outcome State Fault Refusal :=
  .next (issueWord u (.fnms u w) w.stop s)

/-- FCMP (R188). -/
def execFcmp (u : UnitIx) (w : OpWord) (s : State) : Host.Outcome State Fault Refusal :=
  .next (issueWord u (.fcmp u w) w.stop s)

/-- FNEG (R178). -/
def execFneg (u : UnitIx) (w : OpWord) (s : State) : Host.Outcome State Fault Refusal :=
  .next (issueWord u (.fneg u w) w.stop s)

/-- FABS (R178). -/
def execFabs (u : UnitIx) (w : OpWord) (s : State) : Host.Outcome State Fault Refusal :=
  .next (issueWord u (.fabs u w) w.stop s)

/-- FCVT_D_S (R178). -/
def execFcvtDS (u : UnitIx) (w : OpWord) (s : State) : Host.Outcome State Fault Refusal :=
  .next (issueWord u (.fcvtDS u w) w.stop s)

/-- FCVT_S_D (R178). -/
def execFcvtSD (u : UnitIx) (w : OpWord) (s : State) : Host.Outcome State Fault Refusal :=
  .next (issueWord u (.fcvtSD u w) w.stop s)

/-- FCVT_H_S (R178). -/
def execFcvtHS (u : UnitIx) (w : OpWord) (s : State) : Host.Outcome State Fault Refusal :=
  .next (issueWord u (.fcvtHS u w) w.stop s)

/-- FCVT_S_H (R178). -/
def execFcvtSH (u : UnitIx) (w : OpWord) (s : State) : Host.Outcome State Fault Refusal :=
  .next (issueWord u (.fcvtSH u w) w.stop s)

/-- FCVT_I32_S (R187). -/
def execFcvtI32S (u : UnitIx) (w : OpWord) (s : State) : Host.Outcome State Fault Refusal :=
  .next (issueWord u (.fcvtI32S u w) w.stop s)

/-- FCVT_I32_D (R187). -/
def execFcvtI32D (u : UnitIx) (w : OpWord) (s : State) : Host.Outcome State Fault Refusal :=
  .next (issueWord u (.fcvtI32D u w) w.stop s)

/-- FCVT_I64_D (R187). -/
def execFcvtI64D (u : UnitIx) (w : OpWord) (s : State) : Host.Outcome State Fault Refusal :=
  .next (issueWord u (.fcvtI64D u w) w.stop s)

/-- FCVT_S_I32 (R178). -/
def execFcvtSI32 (u : UnitIx) (w : OpWord) (s : State) : Host.Outcome State Fault Refusal :=
  .next (issueWord u (.fcvtSI32 u w) w.stop s)

/-- FCVT_D_I32 (R178). -/
def execFcvtDI32 (u : UnitIx) (w : OpWord) (s : State) : Host.Outcome State Fault Refusal :=
  .next (issueWord u (.fcvtDI32 u w) w.stop s)

/-- FCVT_D_I64 (R178). -/
def execFcvtDI64 (u : UnitIx) (w : OpWord) (s : State) : Host.Outcome State Fault Refusal :=
  .next (issueWord u (.fcvtDI64 u w) w.stop s)

/-- FCVT_Q31_S (R187). -/
def execFcvtQ31S (u : UnitIx) (w : OpWord) (s : State) : Host.Outcome State Fault Refusal :=
  .next (issueWord u (.fcvtQ31S u w) w.stop s)

/-- FCVT_S_Q31 (R187). -/
def execFcvtSQ31 (u : UnitIx) (w : OpWord) (s : State) : Host.Outcome State Fault Refusal :=
  .next (issueWord u (.fcvtSQ31 u w) w.stop s)

/-- AMOVI (R112). -/
def execAmovi (u : UnitIx) (w : OpWord) (s : State) : Host.Outcome State Fault Refusal :=
  .next (issueWord u (.amovi u w) w.stop s)

/-- AMOVX (R112). -/
def execAmovx (u : UnitIx) (w : OpWord) (s : State) : Host.Outcome State Fault Refusal :=
  .next (issueWord u (.amovx u w) w.stop s)

/-- AMOV (R112). -/
def execAmov (u : UnitIx) (w : OpWord) (s : State) : Host.Outcome State Fault Refusal :=
  .next (issueWord u (.amov u w) w.stop s)

/-- AADDI (R112). -/
def execAaddi (u : UnitIx) (w : OpWord) (s : State) : Host.Outcome State Fault Refusal :=
  .next (issueWord u (.aaddi u w) w.stop s)

/-- AADD (R112). -/
def execAadd (u : UnitIx) (w : OpWord) (s : State) : Host.Outcome State Fault Refusal :=
  .next (issueWord u (.aadd u w) w.stop s)

/-- ASUB (R112). -/
def execAsub (u : UnitIx) (w : OpWord) (s : State) : Host.Outcome State Fault Refusal :=
  .next (issueWord u (.asub u w) w.stop s)

/-- ASHLI (R112). -/
def execAshli (u : UnitIx) (w : OpWord) (s : State) : Host.Outcome State Fault Refusal :=
  .next (issueWord u (.ashli u w) w.stop s)

/-- AADDX (R112). -/
def execAaddx (u : UnitIx) (w : OpWord) (s : State) : Host.Outcome State Fault Refusal :=
  .next (issueWord u (.aaddx u w) w.stop s)

/-- AGET (R113). -/
def execAget (u : UnitIx) (w : OpWord) (s : State) : Host.Outcome State Fault Refusal :=
  .next (issueWord u (.aget u w) w.stop s)

/-- APUT (R113). -/
def execAput (u : UnitIx) (w : OpWord) (s : State) : Host.Outcome State Fault Refusal :=
  .next (issueWord u (.aput u w) w.stop s)

/-- SETVL (R157). -/
def execSetvl (u : UnitIx) (w : OpWord) (s : State) : Host.Outcome State Fault Refusal :=
  .next (issueWord u (.setvl u w) w.stop s)

/-- VMOV (R161). -/
def execVmov (u : UnitIx) (w : OpWord) (s : State) : Host.Outcome State Fault Refusal :=
  .next (issueWord u (.vmov u w) w.stop s)

/-- VID (R161). -/
def execVid (u : UnitIx) (w : OpWord) (s : State) : Host.Outcome State Fault Refusal :=
  .next (issueWord u (.vid u w) w.stop s)

/-- VADD (R161). -/
def execVadd (u : UnitIx) (w : OpWord) (s : State) : Host.Outcome State Fault Refusal :=
  .next (issueWord u (.vadd u w) w.stop s)

/-- VSUB (R161). -/
def execVsub (u : UnitIx) (w : OpWord) (s : State) : Host.Outcome State Fault Refusal :=
  .next (issueWord u (.vsub u w) w.stop s)

/-- VADDS (R161). -/
def execVadds (u : UnitIx) (w : OpWord) (s : State) : Host.Outcome State Fault Refusal :=
  .next (issueWord u (.vadds u w) w.stop s)

/-- VSUBS (R161). -/
def execVsubs (u : UnitIx) (w : OpWord) (s : State) : Host.Outcome State Fault Refusal :=
  .next (issueWord u (.vsubs u w) w.stop s)

/-- VAND (R161). -/
def execVand (u : UnitIx) (w : OpWord) (s : State) : Host.Outcome State Fault Refusal :=
  .next (issueWord u (.vand u w) w.stop s)

/-- VOR (R161). -/
def execVor (u : UnitIx) (w : OpWord) (s : State) : Host.Outcome State Fault Refusal :=
  .next (issueWord u (.vor u w) w.stop s)

/-- VXOR (R161). -/
def execVxor (u : UnitIx) (w : OpWord) (s : State) : Host.Outcome State Fault Refusal :=
  .next (issueWord u (.vxor u w) w.stop s)

/-- VSHL (R161). -/
def execVshl (u : UnitIx) (w : OpWord) (s : State) : Host.Outcome State Fault Refusal :=
  .next (issueWord u (.vshl u w) w.stop s)

/-- VSHR (R161). -/
def execVshr (u : UnitIx) (w : OpWord) (s : State) : Host.Outcome State Fault Refusal :=
  .next (issueWord u (.vshr u w) w.stop s)

/-- VSAR (R161). -/
def execVsar (u : UnitIx) (w : OpWord) (s : State) : Host.Outcome State Fault Refusal :=
  .next (issueWord u (.vsar u w) w.stop s)

/-- VMIN (R161). -/
def execVmin (u : UnitIx) (w : OpWord) (s : State) : Host.Outcome State Fault Refusal :=
  .next (issueWord u (.vmin u w) w.stop s)

/-- VMAX (R161). -/
def execVmax (u : UnitIx) (w : OpWord) (s : State) : Host.Outcome State Fault Refusal :=
  .next (issueWord u (.vmax u w) w.stop s)

/-- VMULQ15 (R161). -/
def execVmulq15 (u : UnitIx) (w : OpWord) (s : State) : Host.Outcome State Fault Refusal :=
  .next (issueWord u (.vmulq15 u w) w.stop s)

/-- VCMP (R164). -/
def execVcmp (u : UnitIx) (w : OpWord) (s : State) : Host.Outcome State Fault Refusal :=
  .next (issueWord u (.vcmp u w) w.stop s)

/-- VMERGE (R161). -/
def execVmerge (u : UnitIx) (w : OpWord) (s : State) : Host.Outcome State Fault Refusal :=
  .next (issueWord u (.vmerge u w) w.stop s)

/-- VFADD (R180). -/
def execVfadd (u : UnitIx) (w : OpWord) (s : State) : Host.Outcome State Fault Refusal :=
  .next (issueWord u (.vfadd u w) w.stop s)

/-- VFSUB (R180). -/
def execVfsub (u : UnitIx) (w : OpWord) (s : State) : Host.Outcome State Fault Refusal :=
  .next (issueWord u (.vfsub u w) w.stop s)

/-- VFMUL (R180). -/
def execVfmul (u : UnitIx) (w : OpWord) (s : State) : Host.Outcome State Fault Refusal :=
  .next (issueWord u (.vfmul u w) w.stop s)

/-- VFMA (R161). -/
def execVfma (u : UnitIx) (w : OpWord) (s : State) : Host.Outcome State Fault Refusal :=
  .next (issueWord u (.vfma u w) w.stop s)

/-- VFNMS (R161). -/
def execVfnms (u : UnitIx) (w : OpWord) (s : State) : Host.Outcome State Fault Refusal :=
  .next (issueWord u (.vfnms u w) w.stop s)

/-- VFMIN (R189). -/
def execVfmin (u : UnitIx) (w : OpWord) (s : State) : Host.Outcome State Fault Refusal :=
  .next (issueWord u (.vfmin u w) w.stop s)

/-- VFMAX (R189). -/
def execVfmax (u : UnitIx) (w : OpWord) (s : State) : Host.Outcome State Fault Refusal :=
  .next (issueWord u (.vfmax u w) w.stop s)

/-- VFCMP (R164). -/
def execVfcmp (u : UnitIx) (w : OpWord) (s : State) : Host.Outcome State Fault Refusal :=
  .next (issueWord u (.vfcmp u w) w.stop s)

/-- VFCVT (R180). -/
def execVfcvt (u : UnitIx) (w : OpWord) (s : State) : Host.Outcome State Fault Refusal :=
  .next (issueWord u (.vfcvt u w) w.stop s)

/-- VLD (R166). -/
def execVld (u : UnitIx) (w : OpWord) (s : State) : Host.Outcome State Fault Refusal :=
  .next (issueWord u (.vld u w) w.stop s)

/-- VST (R166). -/
def execVst (u : UnitIx) (w : OpWord) (s : State) : Host.Outcome State Fault Refusal :=
  .next (issueWord u (.vst u w) w.stop s)

/-- JOIN (R130). -/
def execJoin (u : UnitIx) (w : OpWord) (s : State) : Host.Outcome State Fault Refusal :=
  .next (issueWord u (.join u w) w.stop s)

/-- JOINANY (R131). -/
def execJoinany (u : UnitIx) (w : OpWord) (s : State) : Host.Outcome State Fault Refusal :=
  .next (issueWord u (.joinany u w) w.stop s)

/-- RETRY (R136). -/
def execRetry (u : UnitIx) (w : OpWord) (s : State) : Host.Outcome State Fault Refusal :=
  .next (issueWord u (.retry u w) w.stop s)

/-- TREL (R137). -/
def execTrel (u : UnitIx) (w : OpWord) (s : State) : Host.Outcome State Fault Refusal :=
  .next (issueWord u (.trel u w) w.stop s)

/-- TDONE (R151). -/
def execTdone (u : UnitIx) (w : OpWord) (s : State) : Host.Outcome State Fault Refusal :=
  .next (issueWord u (.tdone u w) w.stop s)

/-- MACRO_TRAP: a 64-bit operation word, decoded (R73, R125, R151). -/
def execMacroTrap (u : UnitIx) (x : DWord) (s : State) : Host.Outcome State Fault Refusal :=
  .next (issueWord u (decodeOp u x) (x.getLsbD 63) s)

/-- FLD (R138). -/
def execFld (u : UnitIx) (w : OpWord) (s : State) : Host.Outcome State Fault Refusal :=
  .next (issueWord u (.fld u w) w.stop s)

/-- FST (R139). -/
def execFst (u : UnitIx) (w : OpWord) (s : State) : Host.Outcome State Fault Refusal :=
  .next (issueWord u (.fst u w) w.stop s)

/-- SPORE (R250). -/
def execSpore (u : UnitIx) (w : OpWord) (s : State) : Host.Outcome State Fault Refusal :=
  .next (issueWord u (.spore u w) w.stop s)

/-- SEMACQ (R256). -/
def execSemacq (u : UnitIx) (w : OpWord) (s : State) : Host.Outcome State Fault Refusal :=
  .next (issueWord u (.semacq u w) w.stop s)

/-- SEMREL (R256). -/
def execSemrel (u : UnitIx) (w : OpWord) (s : State) : Host.Outcome State Fault Refusal :=
  .next (issueWord u (.semrel u w) w.stop s)

/-- CESUB (R276). -/
def execCesub (u : UnitIx) (w : OpWord) (s : State) : Host.Outcome State Fault Refusal :=
  .next (issueWord u (.cesub u w) w.stop s)

/-- MUL_S32 (R121). -/
def execMulS32 (u : UnitIx) (w : OpWord) (s : State) : Host.Outcome State Fault Refusal :=
  .next (issueWord u (.mulS32 u w) w.stop s)

/-- MUL_U32 (R121). -/
def execMulU32 (u : UnitIx) (w : OpWord) (s : State) : Host.Outcome State Fault Refusal :=
  .next (issueWord u (.mulU32 u w) w.stop s)

/-- MULL_64 (R121). -/
def execMull64 (u : UnitIx) (w : OpWord) (s : State) : Host.Outcome State Fault Refusal :=
  .next (issueWord u (.mull64 u w) w.stop s)

/-- MULH_S64 (R121). -/
def execMulhS64 (u : UnitIx) (w : OpWord) (s : State) : Host.Outcome State Fault Refusal :=
  .next (issueWord u (.mulhS64 u w) w.stop s)

/-- MULH_U64 (R121). -/
def execMulhU64 (u : UnitIx) (w : OpWord) (s : State) : Host.Outcome State Fault Refusal :=
  .next (issueWord u (.mulhU64 u w) w.stop s)

/-- MULQ31 (R121). -/
def execMulq31 (u : UnitIx) (w : OpWord) (s : State) : Host.Outcome State Fault Refusal :=
  .next (issueWord u (.mulq31 u w) w.stop s)

/-- DIV_S32 (R123). -/
def execDivS32 (u : UnitIx) (w : OpWord) (s : State) : Host.Outcome State Fault Refusal :=
  .next (issueWord u (.divS32 u w) w.stop s)

/-- DIV_U32 (R123). -/
def execDivU32 (u : UnitIx) (w : OpWord) (s : State) : Host.Outcome State Fault Refusal :=
  .next (issueWord u (.divU32 u w) w.stop s)

/-- DIV_S64 (R123). -/
def execDivS64 (u : UnitIx) (w : OpWord) (s : State) : Host.Outcome State Fault Refusal :=
  .next (issueWord u (.divS64 u w) w.stop s)

/-- DIV_U64 (R123). -/
def execDivU64 (u : UnitIx) (w : OpWord) (s : State) : Host.Outcome State Fault Refusal :=
  .next (issueWord u (.divU64 u w) w.stop s)

/-- FDIV_S (R177). -/
def execFdivS (u : UnitIx) (w : OpWord) (s : State) : Host.Outcome State Fault Refusal :=
  .next (issueWord u (.fdivS u w) w.stop s)

/-- FDIV_D (R177). -/
def execFdivD (u : UnitIx) (w : OpWord) (s : State) : Host.Outcome State Fault Refusal :=
  .next (issueWord u (.fdivD u w) w.stop s)

/-- FSQRT_S (R177). -/
def execFsqrtS (u : UnitIx) (w : OpWord) (s : State) : Host.Outcome State Fault Refusal :=
  .next (issueWord u (.fsqrtS u w) w.stop s)

/-- FSQRT_D (R177). -/
def execFsqrtD (u : UnitIx) (w : OpWord) (s : State) : Host.Outcome State Fault Refusal :=
  .next (issueWord u (.fsqrtD u w) w.stop s)

/-- BIQ (R518). -/
def execBiq (u : UnitIx) (w : OpWord) (s : State) : Host.Outcome State Fault Refusal :=
  .next (issueWord u (.biq u w) w.stop s)

/-- FFT4 (R518). -/
def execFft4 (u : UnitIx) (w : OpWord) (s : State) : Host.Outcome State Fault Refusal :=
  .next (issueWord u (.fft4 u w) w.stop s)

/-- CMAC (R518). -/
def execCmac (u : UnitIx) (w : OpWord) (s : State) : Host.Outcome State Fault Refusal :=
  .next (issueWord u (.cmac u w) w.stop s)

/-- NLMS (R518). -/
def execNlms (u : UnitIx) (w : OpWord) (s : State) : Host.Outcome State Fault Refusal :=
  .next (issueWord u (.nlms u w) w.stop s)

/-- GATHER (R170). -/
def execGather (u : UnitIx) (w : OpWord) (s : State) : Host.Outcome State Fault Refusal :=
  .next (issueWord u (.gather u w) w.stop s)

/-- SCATTER (R172). -/
def execScatter (u : UnitIx) (w : OpWord) (s : State) : Host.Outcome State Fault Refusal :=
  .next (issueWord u (.scatter u w) w.stop s)

/-- BMOV (R519). -/
def execBmov (u : UnitIx) (w : OpWord) (s : State) : Host.Outcome State Fault Refusal :=
  .next (issueWord u (.bmov u w) w.stop s)

/-- PEAK (R520). -/
def execPeak (u : UnitIx) (w : OpWord) (s : State) : Host.Outcome State Fault Refusal :=
  .next (issueWord u (.peak u w) w.stop s)

/-- RMS (R520). -/
def execRms (u : UnitIx) (w : OpWord) (s : State) : Host.Outcome State Fault Refusal :=
  .next (issueWord u (.rms u w) w.stop s)

/-- NOP (R201). -/
def execNop (u : UnitIx) (w : OpWord) (s : State) : Host.Outcome State Fault Refusal :=
  .next (issueWord u (.nop u w) w.stop s)

/-- BR (R202). -/
def execBr (u : UnitIx) (w : OpWord) (s : State) : Host.Outcome State Fault Refusal :=
  .next (issueWord u (.br u w) w.stop s)

/-- BRX (R202). -/
def execBrx (u : UnitIx) (w : OpWord) (s : State) : Host.Outcome State Fault Refusal :=
  .next (issueWord u (.brx u w) w.stop s)

/-- BRA (R202). -/
def execBra (u : UnitIx) (w : OpWord) (s : State) : Host.Outcome State Fault Refusal :=
  .next (issueWord u (.bra u w) w.stop s)

/-- CALL (R202). -/
def execCall (u : UnitIx) (w : OpWord) (s : State) : Host.Outcome State Fault Refusal :=
  .next (issueWord u (.call u w) w.stop s)

/-- CALLA (R202). -/
def execCalla (u : UnitIx) (w : OpWord) (s : State) : Host.Outcome State Fault Refusal :=
  .next (issueWord u (.calla u w) w.stop s)

/-- RET (R202). -/
def execRet (u : UnitIx) (w : OpWord) (s : State) : Host.Outcome State Fault Refusal :=
  .next (issueWord u (.ret u w) w.stop s)

/-- LOOP (R207). -/
def execLoop (u : UnitIx) (w : OpWord) (s : State) : Host.Outcome State Fault Refusal :=
  .next (issueWord u (.loop u w) w.stop s)

/-- REP (R212). -/
def execRep (u : UnitIx) (w : OpWord) (s : State) : Host.Outcome State Fault Refusal :=
  .next (issueWord u (.rep u w) w.stop s)

/-- DONE (R33). -/
def execDone (u : UnitIx) (w : OpWord) (s : State) : Host.Outcome State Fault Refusal :=
  .next (issueWord u (.done u w) w.stop s)

/-- NAP (R215). -/
def execNap (u : UnitIx) (w : OpWord) (s : State) : Host.Outcome State Fault Refusal :=
  .next (issueWord u (.nap u w) w.stop s)

/-- FBAR (R196). -/
def execFbar (u : UnitIx) (w : OpWord) (s : State) : Host.Outcome State Fault Refusal :=
  .next (issueWord u (.fbar u w) w.stop s)

/-- IFENCE (R99). -/
def execIfence (u : UnitIx) (w : OpWord) (s : State) : Host.Outcome State Fault Refusal :=
  .next (issueWord u (.ifence u w) w.stop s)

/-- PFLUSH (R206). -/
def execPflush (u : UnitIx) (w : OpWord) (s : State) : Host.Outcome State Fault Refusal :=
  .next (issueWord u (.pflush u w) w.stop s)

/-- PBAR (R206). -/
def execPbar (u : UnitIx) (w : OpWord) (s : State) : Host.Outcome State Fault Refusal :=
  .next (issueWord u (.pbar u w) w.stop s)

/-- MFSR (R216). -/
def execMfsr (u : UnitIx) (w : OpWord) (s : State) : Host.Outcome State Fault Refusal :=
  .next (issueWord u (.mfsr u w) w.stop s)

/-- MTSR (R216). -/
def execMtsr (u : UnitIx) (w : OpWord) (s : State) : Host.Outcome State Fault Refusal :=
  .next (issueWord u (.mtsr u w) w.stop s)

/-- RETI (R227). -/
def execReti (u : UnitIx) (w : OpWord) (s : State) : Host.Outcome State Fault Refusal :=
  .next (issueWord u (.reti u w) w.stop s)

end Sys2Proof.Machine
end

