-- ==== Sys2Proof/Machine/TimingCmds.lean ====
section
/-! DEFINITION. The commands of start-up, block timing, the networks' frames, the Lichen pair, fault reports and standby (chapters 9, 13 to 16
and 18). -/

namespace Sys2Proof.Machine

/-! ## Start-up -/

/-- TIME_ZERO (R14, R377): whether VDD_AON has held since the last reset, and the LK_ROLE strap. -/
def execTimeZero (aonHeld lkRole : Bool) (s : State) : Host.Outcome State Fault Refusal := .next (s.timeZero aonHeld lkRole)

/-- DEVICE_RESET (R20, R489, Table 16-14): cause and rail. -/
def execDeviceReset (cause : Fin 9) (rail : BitVec 8) (s : State) : Host.Outcome State Fault Refusal :=
  .next (s.whenUp fun s => s.deviceReset cause.val rail.toNat)

/-- RESET_RELEASE (R14). -/
def execResetRelease (lkRole : Bool) (s : State) : Host.Outcome State Fault Refusal := .next (s.resetRelease lkRole)

/-- THERMAL_HOLD_RELEASE (R445): the 24 sensors in signed 0.1 °C. -/
def execThermalHoldRelease (ts : List Word) (lkRole : Bool) (s : State) : Host.Outcome State Fault Refusal := .next (s.holdRelease ts lkRole)

/-- BOOT_ROM_START (R466). -/
def execBootRomStart (s : State) : Host.Outcome State Fault Refusal := .next (s.whenUp State.romStart)

/-- RESET_WIPE (R45, R467). -/
def execResetWipe (s : State) : Host.Outcome State Fault Refusal := .next (s.whenUp State.wipe)

/-- FIRMWARE_VERIFY (R469, R470). -/
def execFirmwareVerify (s : State) : Host.Outcome State Fault Refusal := .next (s.whenUp State.fwVerify)

/-- PATCH_LOAD (R152). -/
def execPatchLoad (s : State) : Host.Outcome State Fault Refusal := .next (s.whenUp State.patchLoad)

/-- CALIBRATION_APPLY (R475, R477, Table 18-3). -/
def execCalibrationApply (s : State) : Host.Outcome State Fault Refusal := .next (s.whenUp State.calApply)

/-- STORED_PLAN_VERIFY (R234, R470). -/
def execStoredPlanVerify (s : State) : Host.Outcome State Fault Refusal := .next (s.whenUp State.planVerify)

/-- SAFETY_PHASE_START (R468). -/
def execSafetyPhaseStart (s : State) : Host.Outcome State Fault Refusal := .next (s.whenUp State.safetyStart)

/-- FULL_PLAN_START (R468, R471). -/
def execFullPlanStart (s : State) : Host.Outcome State Fault Refusal := .next (s.whenUp State.fullStart)

/-- FW_SVN_RAISE (R469). -/
def execFwSvnRaise (s : State) : Host.Outcome State Fault Refusal := .next (s.whenUp State.svnRaise)

/-- WARM_RESTART (R472). -/
def execWarmRestart (s : State) : Host.Outcome State Fault Refusal := .next (s.whenUp State.warmRestart)

/-- REPLACE_PLAN_START (R265). -/
def execReplacePlanStart (s : State) : Host.Outcome State Fault Refusal := .next (s.whenUp State.replaceStart)

/-! ## Block timing -/

/-- SAMPLE_TICK (R29): the gPTP time of the tick that a follower measures. -/
def execSampleTick (now : DWord) (s : State) : Host.Outcome State Fault Refusal := .next (s.whenUp fun s => s.sampleTick now)

/-- TILE_WAKE (R32). -/
def execTileWake (u : UnitIx) (s : State) : Host.Outcome State Fault Refusal := .next (s.tileWake u)

/-- HELD_TICK_WAKE (R37). -/
def execHeldTickWake (u : UnitIx) (s : State) : Host.Outcome State Fault Refusal := .next (s.heldWake u)

/-- TILE_POWER_UP (R521). -/
def execTilePowerUp (u : UnitIx) (s : State) : Host.Outcome State Fault Refusal := .next (s.tilePower u)

/-- NAP_WAKE (R215, R243). -/
def execNapWake (u : UnitIx) (s : State) : Host.Outcome State Fault Refusal := .next (s.napWake u)

/-- DRAIN_START (R36, R37). -/
def execDrainStart (s : State) : Host.Outcome State Fault Refusal := .next s.drainStart

/-- SWITCH_WINDOW_START (R263). -/
def execSwitchWindowStart (s : State) : Host.Outcome State Fault Refusal := .next s.windowStart

/-- SWITCH_WINDOW_ROLES (R253). -/
def execSwitchWindowRoles (s : State) : Host.Outcome State Fault Refusal := .next s.windowRoles

/-- SWITCH_WINDOW_COMMIT (R263). -/
def execSwitchWindowCommit (s : State) : Host.Outcome State Fault Refusal := .next s.windowCommit

/-- FL_INPUT_FRAME (R242). -/
def execFlInputFrame (u : UnitIx) (s : State) : Host.Outcome State Fault Refusal := .next (s.flInput u)

/-- FL_OUTPUT_DEADLINE (R246). -/
def execFlOutputDeadline (u : UnitIx) (s : State) : Host.Outcome State Fault Refusal := .next (s.flDeadline u)

/-- FL_OUTPUT_TAKE (R243). -/
def execFlOutputTake (u : UnitIx) (s : State) : Host.Outcome State Fault Refusal := .next (s.flTake u)

/-- WAKE_FAIL (R416). -/
def execWakeFail (u : UnitIx) (s : State) : Host.Outcome State Fault Refusal := .next (s.wakeFail u)

/-! ## Networks -/

/-- ETH_FRAME_RECEIVE (R349, R350). -/
def execEthFrameReceive (m : Fin 4) (f : EthFrame) (s : State) : Host.Outcome State Fault Refusal := .next (s.whenUp fun s => s.ethRx m.val f)

/-- ETH_FRAME_TRANSMIT (R355): gPTP time, and whether the shaped queues 3 and 2 have credit. -/
def execEthFrameTransmit (m : Fin 4) (now : DWord) (credit : BitVec 2) (s : State) : Host.Outcome State Fault Refusal :=
  .next (s.whenUp fun s => s.ethTx m.val now credit)

/-- GATE_LIST_CHANGE (R355). -/
def execGateListChange (m : Fin 4) (now : DWord) (s : State) : Host.Outcome State Fault Refusal := .next (s.whenUp fun s => s.gateChange m.val now)

/-- ETH_LINK_CHANGE (R349). -/
def execEthLinkChange (m : Fin 4) (up : Bool) (speed : BitVec 2) (s : State) : Host.Outcome State Fault Refusal :=
  .next (s.whenUp fun s => s.ethLink m.val up speed)

/-- GPTP_SYNC_RECEIVE (R352, R353): the offset in ns. -/
def execGptpSyncReceive (m : Fin 4) (ofs : Int) (s : State) : Host.Outcome State Fault Refusal := .next (s.whenUp fun s => s.ptpSync m.val ofs)

/-- GPTP_SYNC_SEND (R352): by a MASTER port. -/
def execGptpSyncSend (m : Fin 4) (s : State) : Host.Outcome State Fault Refusal :=
  .next (s.whenUp fun s => if s.ptpRole m.val = 1 then s.ptpSend m.val 0 else s)

/-- GPTP_PDELAY_REQ (R352): sent by an enabled port; the measured delay in ns, none where no answer came. -/
def execGptpPdelayReq (m : Fin 4) (ns : Option Nat) (s : State) : Host.Outcome State Fault Refusal :=
  .next (s.whenUp fun s => if s.ptpRole m.val = 0 then s else (s.ptpSend m.val 1).ptpDelay m.val ns)

/-- GPTP_SYNC_INTERVAL_EXPIRE (R353). -/
def execGptpSyncIntervalExpire (m : Fin 4) (s : State) : Host.Outcome State Fault Refusal := .next (s.whenUp fun s => s.ptpInterval m.val)

/-- CAN_FRAME_RECEIVE (R356, R357): identifier with its extended bit 29, and data. -/
def execCanFrameReceive (c : Fin 2) (id : BitVec 30) (bs : List Byte) (s : State) : Host.Outcome State Fault Refusal :=
  .next (s.whenUp fun s => s.canRx c id bs)

/-- SIGNAL_TIMEOUT (R357, R358): an entry of the signal map. -/
def execSignalTimeout (ix : Nat) (s : State) : Host.Outcome State Fault Refusal := .next (s.whenUp fun s => s.sigTimeout ix)

/-- CAN_BUS_OFF (R356). -/
def execCanBusOff (c : Fin 2) (s : State) : Host.Outcome State Fault Refusal := .next (s.whenUp fun s => s.busOff c.val)

/-- CAN_BUS_OFF_RECOVER (R356). -/
def execCanBusOffRecover (c : Fin 2) (s : State) : Host.Outcome State Fault Refusal := .next (s.whenUp fun s => s.busBack c.val)

/-- CAN_ERROR_STATE_CHANGE (Table 13-14): the new error counters. -/
def execCanErrorStateChange (c : Fin 2) (tec recv : BitVec 8) (s : State) : Host.Outcome State Fault Refusal :=
  .next (s.whenUp fun s => s.canCounts c.val tec.toNat recv.toNat)

/-! ## The Lichen pair -/

/-- LK_SIDEBAND_PULSE (R378): 0 a pulse at the expected tick, with its offset in ps, 1 none, 2 DROP recognised. -/
def execLkSidebandPulse (k : Fin 3) (ps : Word) (s : State) : Host.Outcome State Fault Refusal := .next (s.whenUp fun s => s.sideband k.val ps)

/-- LINK_TRAIN_DONE (R386). -/
def execLinkTrainDone (ok : Bool) (s : State) : Host.Outcome State Fault Refusal := .next (s.whenUp fun s => s.trainDone ok)

/-- LINK_ALIGN (R386): roles opposite; firmware, stepping and patch level the same. -/
def execLinkAlign (opposite same : Bool) (s : State) : Host.Outcome State Fault Refusal := .next (s.whenUp fun s => s.align opposite same)

/-- LINK_RETRAIN (R384, R386, R397). -/
def execLinkRetrain (s : State) : Host.Outcome State Fault Refusal := .next (s.whenUp State.retrain)

/-- CODEWORD_RECEIVE (R382, R384). -/
def execCodewordReceive (seq ack : Byte) (nak : Bool) (fec : Fin 3) (syms : List Nat) (crcBad : Bool) (s : State) : Host.Outcome State Fault Refusal :=
  .next (s.whenUp fun s => s.codeword seq ack nak fec.val syms crcBad)

/-- FLIT_STATE (R383, R387, R388, R393). -/
def execFlitState (x : PeerState) (s : State) : Host.Outcome State Fault Refusal := .next (s.whenUp fun s => s.flitState x)

/-- FLIT_RECORD (R391). -/
def execFlitRecord (fl : Bool) (blk : Nat) (crc : Word) (s : State) : Host.Outcome State Fault Refusal :=
  .next (s.whenUp fun s => s.flitRecord fl blk crc)

/-- FLIT_MIRROR (R396). -/
def execFlitMirror (x : Mirror) (s : State) : Host.Outcome State Fault Refusal := .next (s.whenUp fun s => s.flitMirror x)

/-- FLIT_COMMIT (R396). -/
def execFlitCommit (blk : Nat) (s : State) : Host.Outcome State Fault Refusal := .next (s.whenUp fun s => s.flitCommit blk)

/-- JOURNAL_APPLY (R396). -/
def execJournalApply (s : State) : Host.Outcome State Fault Refusal := .next (s.whenUp State.journalApply)

/-- FLIT_BULK (R398). -/
def execFlitBulk (a : BitVec 36) (bs : List Byte) (s : State) : Host.Outcome State Fault Refusal := .next (s.whenUp fun s => s.flitBulk a.toNat bs)

/-- FLIT_DELTA (R398). -/
def execFlitDelta (a : BitVec 36) (bs : List Byte) (s : State) : Host.Outcome State Fault Refusal := .next (s.whenUp fun s => s.flitDelta a.toNat bs)

/-- RESYNC_PHASE_END (R398). -/
def execResyncPhaseEnd (s : State) : Host.Outcome State Fault Refusal := .next (s.whenUp State.resyncPhase)

/-- RESYNC_JOIN (R398). -/
def execResyncJoin (s : State) : Host.Outcome State Fault Refusal := .next (s.whenUp State.resyncJoin)

/-- VERDICT_POINT (R391, R392): VB of the present block, or VF of the block before. -/
def execVerdictPoint (fl : Bool) (s : State) : Host.Outcome State Fault Refusal := .next (s.whenUp fun s => s.verdictPoint fl)

/-- DROPPED_RESET (R393). -/
def execDroppedReset (s : State) : Host.Outcome State Fault Refusal := .next (s.whenUp State.droppedReset)

/-- OWNERSHIP_MOVE (R394, R395). -/
def execOwnershipMove (s : State) : Host.Outcome State Fault Refusal := .next (s.whenUp State.ownMove)

/-- SURVIVOR_SWITCH (R396). -/
def execSurvivorSwitch (s : State) : Host.Outcome State Fault Refusal := .next (s.whenUp State.survivorSwitch)

/-- PEER_SILENT (R397). -/
def execPeerSilent (s : State) : Host.Outcome State Fault Refusal := .next (s.whenUp State.peerSilent)

/-- PARTNER_WAIT_TIMEOUT (R387). -/
def execPartnerWaitTimeout (s : State) : Host.Outcome State Fault Refusal := .next (s.whenUp State.waitTimeout)

/-! ## Faults and standby -/

/-- FAULT_REPORT (R400, R404): the report of a mechanism, raised inside or brought with the command. -/
def execFaultReport (r : Report) (s : State) : Host.Outcome State Fault Refusal := .next (s.whenUp fun s => s.takeReport r)

/-- HUB_MISMATCH (R400). -/
def execHubMismatch (s : State) : Host.Outcome State Fault Refusal :=
  .next (s.whenUp fun s => s.takeReport { code := 0x01B0, unit := 0xFF, detail := [] })

/-- AUTOMATIC_RESTART (R409). -/
def execAutomaticRestart (s : State) : Host.Outcome State Fault Refusal := .next (s.whenUp State.autoRestart)

/-- STANDBY_ENTRY (R433). -/
def execStandbyEntry (s : State) : Host.Outcome State Fault Refusal := .next (s.whenUp State.standbyIn)

/-- STANDBY_CANCEL (R433): an enabled wake source of Table 16-4. -/
def execStandbyCancel (src : Fin 5) (s : State) : Host.Outcome State Fault Refusal :=
  .next (s.whenUp fun s => if s.wakeOn src.val then s.standbyOut else s)

/-- STANDBY_WAKE (R434). -/
def execStandbyWake (src : Fin 5) (s : State) : Host.Outcome State Fault Refusal := .next (s.standbyWake src.val)

end Sys2Proof.Machine
end

