-- ==== Sys2Proof/Machine/Dispatch.lean ====
section
/-! DEFINITION. The dispatch of the commands: one arm per constructor of Instr, each one direct call of its meaning. -/

namespace Sys2Proof.Machine

/-- What a command does to everything but the queue. -/
def exec (i : Instr) (s : State) : Host.Outcome State Fault Refusal :=
  match i with
  | .timeZero aonHeld lkRole => Sys2Proof.Machine.execTimeZero aonHeld lkRole s
  | .deviceReset cause rail => Sys2Proof.Machine.execDeviceReset cause rail s
  | .resetRelease lkRole => Sys2Proof.Machine.execResetRelease lkRole s
  | .thermalHoldRelease ts lkRole => Sys2Proof.Machine.execThermalHoldRelease ts lkRole s
  | .bootRomStart => Sys2Proof.Machine.execBootRomStart s
  | .resetWipe => Sys2Proof.Machine.execResetWipe s
  | .firmwareVerify => Sys2Proof.Machine.execFirmwareVerify s
  | .patchLoad => Sys2Proof.Machine.execPatchLoad s
  | .calibrationApply => Sys2Proof.Machine.execCalibrationApply s
  | .storedPlanVerify => Sys2Proof.Machine.execStoredPlanVerify s
  | .safetyPhaseStart => Sys2Proof.Machine.execSafetyPhaseStart s
  | .fullPlanStart => Sys2Proof.Machine.execFullPlanStart s
  | .fwSvnRaise => Sys2Proof.Machine.execFwSvnRaise s
  | .warmRestart => Sys2Proof.Machine.execWarmRestart s
  | .sampleTick now => Sys2Proof.Machine.execSampleTick now s
  | .tileWake u => Sys2Proof.Machine.execTileWake u s
  | .heldTickWake u => Sys2Proof.Machine.execHeldTickWake u s
  | .tilePowerUp u => Sys2Proof.Machine.execTilePowerUp u s
  | .napWake u => Sys2Proof.Machine.execNapWake u s
  | .drainStart => Sys2Proof.Machine.execDrainStart s
  | .switchWindowStart => Sys2Proof.Machine.execSwitchWindowStart s
  | .switchWindowRoles => Sys2Proof.Machine.execSwitchWindowRoles s
  | .switchWindowCommit => Sys2Proof.Machine.execSwitchWindowCommit s
  | .flInputFrame u => Sys2Proof.Machine.execFlInputFrame u s
  | .flOutputDeadline u => Sys2Proof.Machine.execFlOutputDeadline u s
  | .flOutputTake u => Sys2Proof.Machine.execFlOutputTake u s
  | .wakeFail u => Sys2Proof.Machine.execWakeFail u s
  | .resultRetire u => Sys2Proof.Machine.execResultRetire u s
  | .fpTrapDeliver u => Sys2Proof.Machine.execFpTrapDeliver u s
  | .interruptAccept u => Sys2Proof.Machine.execInterruptAccept u s
  | .interruptNoEntry u => Sys2Proof.Machine.execInterruptNoEntry u s
  | .ext u w => Sys2Proof.Machine.execExt u w s
  | .fmovD u w => Sys2Proof.Machine.execFmovD u w s
  | .fmovS u w => Sys2Proof.Machine.execFmovS u w s
  | .sext u w => Sys2Proof.Machine.execSext u w s
  | .zext u w => Sys2Proof.Machine.execZext u w s
  | .mov u w => Sys2Proof.Machine.execMov u w s
  | .add u w => Sys2Proof.Machine.execAdd u w s
  | .sub u w => Sys2Proof.Machine.execSub u w s
  | .adds u w => Sys2Proof.Machine.execAdds u w s
  | .subs u w => Sys2Proof.Machine.execSubs u w s
  | .neg u w => Sys2Proof.Machine.execNeg u w s
  | .abss u w => Sys2Proof.Machine.execAbss u w s
  | .and u w => Sys2Proof.Machine.execAnd u w s
  | .or u w => Sys2Proof.Machine.execOr u w s
  | .xor u w => Sys2Proof.Machine.execXor u w s
  | .andn u w => Sys2Proof.Machine.execAndn u w s
  | .shl u w => Sys2Proof.Machine.execShl u w s
  | .shr u w => Sys2Proof.Machine.execShr u w s
  | .sar u w => Sys2Proof.Machine.execSar u w s
  | .shls u w => Sys2Proof.Machine.execShls u w s
  | .min u w => Sys2Proof.Machine.execMin u w s
  | .max u w => Sys2Proof.Machine.execMax u w s
  | .minu u w => Sys2Proof.Machine.execMinu u w s
  | .maxu u w => Sys2Proof.Machine.execMaxu u w s
  | .cmp u w => Sys2Proof.Machine.execCmp u w s
  | .plog u w => Sys2Proof.Machine.execPlog u w s
  | .mulq15 u w => Sys2Proof.Machine.execMulq15 u w s
  | .macq15 u w => Sys2Proof.Machine.execMacq15 u w s
  | .rndq u w => Sys2Proof.Machine.execRndq u w s
  | .fadd u w => Sys2Proof.Machine.execFadd u w s
  | .fsub u w => Sys2Proof.Machine.execFsub u w s
  | .fmul u w => Sys2Proof.Machine.execFmul u w s
  | .fma u w => Sys2Proof.Machine.execFma u w s
  | .fnms u w => Sys2Proof.Machine.execFnms u w s
  | .fcmp u w => Sys2Proof.Machine.execFcmp u w s
  | .fneg u w => Sys2Proof.Machine.execFneg u w s
  | .fabs u w => Sys2Proof.Machine.execFabs u w s
  | .fcvtDS u w => Sys2Proof.Machine.execFcvtDS u w s
  | .fcvtSD u w => Sys2Proof.Machine.execFcvtSD u w s
  | .fcvtHS u w => Sys2Proof.Machine.execFcvtHS u w s
  | .fcvtSH u w => Sys2Proof.Machine.execFcvtSH u w s
  | .fcvtI32S u w => Sys2Proof.Machine.execFcvtI32S u w s
  | .fcvtI32D u w => Sys2Proof.Machine.execFcvtI32D u w s
  | .fcvtI64D u w => Sys2Proof.Machine.execFcvtI64D u w s
  | .fcvtSI32 u w => Sys2Proof.Machine.execFcvtSI32 u w s
  | .fcvtDI32 u w => Sys2Proof.Machine.execFcvtDI32 u w s
  | .fcvtDI64 u w => Sys2Proof.Machine.execFcvtDI64 u w s
  | .fcvtQ31S u w => Sys2Proof.Machine.execFcvtQ31S u w s
  | .fcvtSQ31 u w => Sys2Proof.Machine.execFcvtSQ31 u w s
  | .amovi u w => Sys2Proof.Machine.execAmovi u w s
  | .amovx u w => Sys2Proof.Machine.execAmovx u w s
  | .amov u w => Sys2Proof.Machine.execAmov u w s
  | .aaddi u w => Sys2Proof.Machine.execAaddi u w s
  | .aadd u w => Sys2Proof.Machine.execAadd u w s
  | .asub u w => Sys2Proof.Machine.execAsub u w s
  | .ashli u w => Sys2Proof.Machine.execAshli u w s
  | .aaddx u w => Sys2Proof.Machine.execAaddx u w s
  | .aget u w => Sys2Proof.Machine.execAget u w s
  | .aput u w => Sys2Proof.Machine.execAput u w s
  | .setvl u w => Sys2Proof.Machine.execSetvl u w s
  | .vmov u w => Sys2Proof.Machine.execVmov u w s
  | .vid u w => Sys2Proof.Machine.execVid u w s
  | .vadd u w => Sys2Proof.Machine.execVadd u w s
  | .vsub u w => Sys2Proof.Machine.execVsub u w s
  | .vadds u w => Sys2Proof.Machine.execVadds u w s
  | .vsubs u w => Sys2Proof.Machine.execVsubs u w s
  | .vand u w => Sys2Proof.Machine.execVand u w s
  | .vor u w => Sys2Proof.Machine.execVor u w s
  | .vxor u w => Sys2Proof.Machine.execVxor u w s
  | .vshl u w => Sys2Proof.Machine.execVshl u w s
  | .vshr u w => Sys2Proof.Machine.execVshr u w s
  | .vsar u w => Sys2Proof.Machine.execVsar u w s
  | .vmin u w => Sys2Proof.Machine.execVmin u w s
  | .vmax u w => Sys2Proof.Machine.execVmax u w s
  | .vmulq15 u w => Sys2Proof.Machine.execVmulq15 u w s
  | .vcmp u w => Sys2Proof.Machine.execVcmp u w s
  | .vmerge u w => Sys2Proof.Machine.execVmerge u w s
  | .vfadd u w => Sys2Proof.Machine.execVfadd u w s
  | .vfsub u w => Sys2Proof.Machine.execVfsub u w s
  | .vfmul u w => Sys2Proof.Machine.execVfmul u w s
  | .vfma u w => Sys2Proof.Machine.execVfma u w s
  | .vfnms u w => Sys2Proof.Machine.execVfnms u w s
  | .vfmin u w => Sys2Proof.Machine.execVfmin u w s
  | .vfmax u w => Sys2Proof.Machine.execVfmax u w s
  | .vfcmp u w => Sys2Proof.Machine.execVfcmp u w s
  | .vfcvt u w => Sys2Proof.Machine.execVfcvt u w s
  | .vld u w => Sys2Proof.Machine.execVld u w s
  | .vst u w => Sys2Proof.Machine.execVst u w s
  | .join u w => Sys2Proof.Machine.execJoin u w s
  | .joinany u w => Sys2Proof.Machine.execJoinany u w s
  | .retry u w => Sys2Proof.Machine.execRetry u w s
  | .trel u w => Sys2Proof.Machine.execTrel u w s
  | .tdone u w => Sys2Proof.Machine.execTdone u w s
  | .macroTrap u x => Sys2Proof.Machine.execMacroTrap u x s
  | .fld u w => Sys2Proof.Machine.execFld u w s
  | .fst u w => Sys2Proof.Machine.execFst u w s
  | .spore u w => Sys2Proof.Machine.execSpore u w s
  | .semacq u w => Sys2Proof.Machine.execSemacq u w s
  | .semrel u w => Sys2Proof.Machine.execSemrel u w s
  | .cesub u w => Sys2Proof.Machine.execCesub u w s
  | .mulS32 u w => Sys2Proof.Machine.execMulS32 u w s
  | .mulU32 u w => Sys2Proof.Machine.execMulU32 u w s
  | .mull64 u w => Sys2Proof.Machine.execMull64 u w s
  | .mulhS64 u w => Sys2Proof.Machine.execMulhS64 u w s
  | .mulhU64 u w => Sys2Proof.Machine.execMulhU64 u w s
  | .mulq31 u w => Sys2Proof.Machine.execMulq31 u w s
  | .divS32 u w => Sys2Proof.Machine.execDivS32 u w s
  | .divU32 u w => Sys2Proof.Machine.execDivU32 u w s
  | .divS64 u w => Sys2Proof.Machine.execDivS64 u w s
  | .divU64 u w => Sys2Proof.Machine.execDivU64 u w s
  | .fdivS u w => Sys2Proof.Machine.execFdivS u w s
  | .fdivD u w => Sys2Proof.Machine.execFdivD u w s
  | .fsqrtS u w => Sys2Proof.Machine.execFsqrtS u w s
  | .fsqrtD u w => Sys2Proof.Machine.execFsqrtD u w s
  | .biq u w => Sys2Proof.Machine.execBiq u w s
  | .fft4 u w => Sys2Proof.Machine.execFft4 u w s
  | .cmac u w => Sys2Proof.Machine.execCmac u w s
  | .nlms u w => Sys2Proof.Machine.execNlms u w s
  | .gather u w => Sys2Proof.Machine.execGather u w s
  | .scatter u w => Sys2Proof.Machine.execScatter u w s
  | .bmov u w => Sys2Proof.Machine.execBmov u w s
  | .peak u w => Sys2Proof.Machine.execPeak u w s
  | .rms u w => Sys2Proof.Machine.execRms u w s
  | .nop u w => Sys2Proof.Machine.execNop u w s
  | .br u w => Sys2Proof.Machine.execBr u w s
  | .brx u w => Sys2Proof.Machine.execBrx u w s
  | .bra u w => Sys2Proof.Machine.execBra u w s
  | .call u w => Sys2Proof.Machine.execCall u w s
  | .calla u w => Sys2Proof.Machine.execCalla u w s
  | .ret u w => Sys2Proof.Machine.execRet u w s
  | .loop u w => Sys2Proof.Machine.execLoop u w s
  | .rep u w => Sys2Proof.Machine.execRep u w s
  | .done u w => Sys2Proof.Machine.execDone u w s
  | .nap u w => Sys2Proof.Machine.execNap u w s
  | .fbar u w => Sys2Proof.Machine.execFbar u w s
  | .ifence u w => Sys2Proof.Machine.execIfence u w s
  | .pflush u w => Sys2Proof.Machine.execPflush u w s
  | .pbar u w => Sys2Proof.Machine.execPbar u w s
  | .mfsr u w => Sys2Proof.Machine.execMfsr u w s
  | .mtsr u w => Sys2Proof.Machine.execMtsr u w s
  | .reti u w => Sys2Proof.Machine.execReti u w s
  | .routineStart u => Sys2Proof.Machine.execRoutineStart u s
  | .routineElement u e bad ext => Sys2Proof.Machine.execRoutineElement u e bad ext s
  | .routineSuspend u e => Sys2Proof.Machine.execRoutineSuspend u e s
  | .routineResume u e => Sys2Proof.Machine.execRoutineResume u e s
  | .ticketComplete u n => Sys2Proof.Machine.execTicketComplete u n s
  | .farAccessPerform u n ext => Sys2Proof.Machine.execFarAccessPerform u n ext s
  | .heldFarLoadRelease u n => Sys2Proof.Machine.execHeldFarLoadRelease u n s
  | .fabricTransferReceive p x ok => Sys2Proof.Machine.execFabricTransferReceive p x ok s
  | .semaphorePerform u n more => Sys2Proof.Machine.execSemaphorePerform u n more s
  | .sporeDeliver u n => Sys2Proof.Machine.execSporeDeliver u n s
  | .externalRowTransfer b sub x now => Sys2Proof.Machine.execExternalRowTransfer b sub x now s
  | .rowTransferWithdraw b sub x row now => Sys2Proof.Machine.execRowTransferWithdraw b sub x row now s
  | .eccWriteback a => Sys2Proof.Machine.execEccWriteback a s
  | .bmtStep n => Sys2Proof.Machine.execBmtStep n s
  | .bmtPhaseAdvance n rows bad => Sys2Proof.Machine.execBmtPhaseAdvance n rows bad s
  | .bistSliceStart u => Sys2Proof.Machine.execBistSliceStart u s
  | .bistSliceEnd u part ok => Sys2Proof.Machine.execBistSliceEnd u part ok s
  | .mramScrub => Sys2Proof.Machine.execMramScrub s
  | .ceJobTake k => Sys2Proof.Machine.execCeJobTake k s
  | .cePhaseAdvance k ferr cyc => Sys2Proof.Machine.execCePhaseAdvance k ferr cyc s
  | .ceJobQueue u => Sys2Proof.Machine.execCeJobQueue u s
  | .leaveRequest h => Sys2Proof.Machine.execLeaveRequest h s
  | .leaveGrant h => Sys2Proof.Machine.execLeaveGrant h s
  | .leaveRelease h => Sys2Proof.Machine.execLeaveRelease h s
  | .leaveWithdraw h => Sys2Proof.Machine.execLeaveWithdraw h s
  | .tdmInputFrame n phase words => Sys2Proof.Machine.execTdmInputFrame n phase words s
  | .tdmOutputFrame n => Sys2Proof.Machine.execTdmOutputFrame n s
  | .tdmNoclk n => Sys2Proof.Machine.execTdmNoclk n s
  | .tdmNoclkExit n phase => Sys2Proof.Machine.execTdmNoclkExit n phase s
  | .portRestart n => Sys2Proof.Machine.execPortRestart n s
  | .pdmSample c bits => Sys2Proof.Machine.execPdmSample c bits s
  | .pdmFillDone c => Sys2Proof.Machine.execPdmFillDone c s
  | .pdmStuck c => Sys2Proof.Machine.execPdmStuck c s
  | .pdmStuckClear c => Sys2Proof.Machine.execPdmStuckClear c s
  | .land c late cut => Sys2Proof.Machine.execLand c late cut s
  | .valid c late cut => Sys2Proof.Machine.execValid c late cut s
  | .drain c cut => Sys2Proof.Machine.execDrain c cut s
  | .copy c cut ext => Sys2Proof.Machine.execCopy c cut ext s
  | .channelRestart c blk => Sys2Proof.Machine.execChannelRestart c blk s
  | .avtpPduReceive d => Sys2Proof.Machine.execAvtpPduReceive d s
  | .avtpListenerTick k => Sys2Proof.Machine.execAvtpListenerTick k s
  | .avtpPduSend k => Sys2Proof.Machine.execAvtpPduSend k s
  | .crfEventReceive m phase ppb => Sys2Proof.Machine.execCrfEventReceive m phase ppb s
  | .ethFrameReceive m f => Sys2Proof.Machine.execEthFrameReceive m f s
  | .ethFrameTransmit m now credit => Sys2Proof.Machine.execEthFrameTransmit m now credit s
  | .gateListChange m now => Sys2Proof.Machine.execGateListChange m now s
  | .gptpSyncReceive m ofs => Sys2Proof.Machine.execGptpSyncReceive m ofs s
  | .gptpSyncSend m => Sys2Proof.Machine.execGptpSyncSend m s
  | .gptpPdelayReq m ns => Sys2Proof.Machine.execGptpPdelayReq m ns s
  | .gptpSyncIntervalExpire m => Sys2Proof.Machine.execGptpSyncIntervalExpire m s
  | .canFrameReceive c id bs => Sys2Proof.Machine.execCanFrameReceive c id bs s
  | .signalTimeout ix => Sys2Proof.Machine.execSignalTimeout ix s
  | .canBusOff c => Sys2Proof.Machine.execCanBusOff c s
  | .canBusOffRecover c => Sys2Proof.Machine.execCanBusOffRecover c s
  | .udsRequestReceive c func sid sub rid => Sys2Proof.Machine.execUdsRequestReceive c func sid sub rid s
  | .diagnosticSessionControl => Sys2Proof.Machine.execDiagnosticSessionControl s
  | .ecuResetHard => Sys2Proof.Machine.execEcuResetHard s
  | .ecuResetSoft => Sys2Proof.Machine.execEcuResetSoft s
  | .clearDiagnosticInformation group => Sys2Proof.Machine.execClearDiagnosticInformation group s
  | .reportNumberOfDtc mask => Sys2Proof.Machine.execReportNumberOfDtc mask s
  | .reportDtcByStatusMask mask => Sys2Proof.Machine.execReportDtcByStatusMask mask s
  | .reportDtcSnapshot dtc rec_ => Sys2Proof.Machine.execReportDtcSnapshot dtc rec_ s
  | .reportDtcExtData dtc rec_ => Sys2Proof.Machine.execReportDtcExtData dtc rec_ s
  | .reportSupportedDtc => Sys2Proof.Machine.execReportSupportedDtc s
  | .readDataByIdentifier ds => Sys2Proof.Machine.execReadDataByIdentifier ds s
  | .writeDataByIdentifier d bs => Sys2Proof.Machine.execWriteDataByIdentifier d bs s
  | .securityAccessSeed seed => Sys2Proof.Machine.execSecurityAccessSeed seed s
  | .securityAccessKey right => Sys2Proof.Machine.execSecurityAccessKey right s
  | .deauthenticate => Sys2Proof.Machine.execDeauthenticate s
  | .verifyCertificate right hi chal => Sys2Proof.Machine.execVerifyCertificate right hi chal s
  | .proofOfOwnership right => Sys2Proof.Machine.execProofOfOwnership right s
  | .authenticationConfiguration => Sys2Proof.Machine.execAuthenticationConfiguration s
  | .acousticPathTestStart mask => Sys2Proof.Machine.execAcousticPathTestStart mask s
  | .stopRoutine => Sys2Proof.Machine.execStopRoutine s
  | .requestRoutineResults => Sys2Proof.Machine.execRequestRoutineResults s
  | .marginHistoryReadout first cnt => Sys2Proof.Machine.execMarginHistoryReadout first cnt s
  | .eventLogExport first cnt => Sys2Proof.Machine.execEventLogExport first cnt s
  | .checkProgrammingDependencies => Sys2Proof.Machine.execCheckProgrammingDependencies s
  | .requestDownload dfi alfi addr len => Sys2Proof.Machine.execRequestDownload dfi alfi addr len s
  | .transferData ctr bs => Sys2Proof.Machine.execTransferData ctr bs s
  | .requestTransferExit img => Sys2Proof.Machine.execRequestTransferExit img s
  | .testerPresent => Sys2Proof.Machine.execTesterPresent s
  | .controlDtcSettingOn => Sys2Proof.Machine.execControlDtcSettingOn s
  | .controlDtcSettingOff => Sys2Proof.Machine.execControlDtcSettingOff s
  | .responsePending => Sys2Proof.Machine.execResponsePending s
  | .s3Timeout => Sys2Proof.Machine.execS3Timeout s
  | .doipVehicleIdentification m => Sys2Proof.Machine.execDoipVehicleIdentification m s
  | .doipRoutingActivation k m src typ => Sys2Proof.Machine.execDoipRoutingActivation k m src typ s
  | .doipConnectionClose k => Sys2Proof.Machine.execDoipConnectionClose k s
  | .pathTestOutputStep m => Sys2Proof.Machine.execPathTestOutputStep m s
  | .usb4LinkUp gen3 x2 => Sys2Proof.Machine.execUsb4LinkUp gen3 x2 s
  | .linkLoss c => Sys2Proof.Machine.execLinkLoss c s
  | .bar0Access a => Sys2Proof.Machine.execBar0Access a s
  | .bar2OtherAccess a => Sys2Proof.Machine.execBar2OtherAccess a s
  | .bar4Access a => Sys2Proof.Machine.execBar4Access a s
  | .hostReadComplete r data => Sys2Proof.Machine.execHostReadComplete r data s
  | .doorbell r v full => Sys2Proof.Machine.execDoorbell r v full s
  | .ringEnable r v => Sys2Proof.Machine.execRingEnable r v s
  | .ringReset r => Sys2Proof.Machine.execRingReset r s
  | .shadowPoll vals => Sys2Proof.Machine.execShadowPoll vals s
  | .indexWriteback r => Sys2Proof.Machine.execIndexWriteback r s
  | .commandFetch data => Sys2Proof.Machine.execCommandFetch data s
  | .cmdNop r => Sys2Proof.Machine.execCmdNop r s
  | .loadPlanSwitch r => Sys2Proof.Machine.execLoadPlanSwitch r s
  | .loadPlanReplace r => Sys2Proof.Machine.execLoadPlanReplace r s
  | .loadPlanStore r => Sys2Proof.Machine.execLoadPlanStore r s
  | .planVerifyComplete img => Sys2Proof.Machine.execPlanVerifyComplete img s
  | .replacePlanStart => Sys2Proof.Machine.execReplacePlanStart s
  | .switchPlan r => Sys2Proof.Machine.execSwitchPlan r s
  | .paramWrite r => Sys2Proof.Machine.execParamWrite r s
  | .filterLoad r => Sys2Proof.Machine.execFilterLoad r s
  | .streamOpen r => Sys2Proof.Machine.execStreamOpen r s
  | .streamClose r => Sys2Proof.Machine.execStreamClose r s
  | .diagEventExport r => Sys2Proof.Machine.execDiagEventExport r s
  | .diagMarginExport r => Sys2Proof.Machine.execDiagMarginExport r s
  | .diagPathTest r => Sys2Proof.Machine.execDiagPathTest r s
  | .commandTakeEffect => Sys2Proof.Machine.execCommandTakeEffect s
  | .eventRecordWrite e => Sys2Proof.Machine.execEventRecordWrite e s
  | .msixModerationExpire e => Sys2Proof.Machine.execMsixModerationExpire e s
  | .h2dDescriptorFetch ep data => Sys2Proof.Machine.execH2dDescriptorFetch ep data s
  | .d2hBlockWrite ep => Sys2Proof.Machine.execD2hBlockWrite ep s
  | .usb2Attach => Sys2Proof.Machine.execUsb2Attach s
  | .usb2Query => Sys2Proof.Machine.execUsb2Query s
  | .usb2WriteImage t img bs => Sys2Proof.Machine.execUsb2WriteImage t img bs s
  | .usb2Reset => Sys2Proof.Machine.execUsb2Reset s
  | .lkSidebandPulse k ps => Sys2Proof.Machine.execLkSidebandPulse k ps s
  | .linkTrainDone ok => Sys2Proof.Machine.execLinkTrainDone ok s
  | .linkAlign opposite same => Sys2Proof.Machine.execLinkAlign opposite same s
  | .linkRetrain => Sys2Proof.Machine.execLinkRetrain s
  | .codewordReceive seq ack nak fec syms crcBad => Sys2Proof.Machine.execCodewordReceive seq ack nak fec syms crcBad s
  | .flitRead tag a n => Sys2Proof.Machine.execFlitRead tag a n s
  | .flitReadRsp tag st bs => Sys2Proof.Machine.execFlitReadRsp tag st bs s
  | .flitWrite tag a bs => Sys2Proof.Machine.execFlitWrite tag a bs s
  | .flitWriteAck tag st => Sys2Proof.Machine.execFlitWriteAck tag st s
  | .flitState x => Sys2Proof.Machine.execFlitState x s
  | .flitRecord fl blk crc => Sys2Proof.Machine.execFlitRecord fl blk crc s
  | .flitForward f => Sys2Proof.Machine.execFlitForward f s
  | .flitMirror x => Sys2Proof.Machine.execFlitMirror x s
  | .flitCommit blk => Sys2Proof.Machine.execFlitCommit blk s
  | .journalApply => Sys2Proof.Machine.execJournalApply s
  | .flitBulk a bs => Sys2Proof.Machine.execFlitBulk a bs s
  | .flitDelta a bs => Sys2Proof.Machine.execFlitDelta a bs s
  | .resyncPhaseEnd => Sys2Proof.Machine.execResyncPhaseEnd s
  | .resyncJoin => Sys2Proof.Machine.execResyncJoin s
  | .verdictPoint fl => Sys2Proof.Machine.execVerdictPoint fl s
  | .droppedReset => Sys2Proof.Machine.execDroppedReset s
  | .ownershipMove => Sys2Proof.Machine.execOwnershipMove s
  | .survivorSwitch => Sys2Proof.Machine.execSurvivorSwitch s
  | .peerSilent => Sys2Proof.Machine.execPeerSilent s
  | .partnerWaitTimeout => Sys2Proof.Machine.execPartnerWaitTimeout s
  | .faultReport r => Sys2Proof.Machine.execFaultReport r s
  | .hubMismatch => Sys2Proof.Machine.execHubMismatch s
  | .verdict => Sys2Proof.Machine.execVerdict s
  | .automaticRestart => Sys2Proof.Machine.execAutomaticRestart s
  | .eventLogWrite => Sys2Proof.Machine.execEventLogWrite s
  | .clockMonitor src ppm => Sys2Proof.Machine.execClockMonitor src ppm s
  | .voltageMonitor rail mv => Sys2Proof.Machine.execVoltageMonitor rail mv s
  | .temperatureSample ts => Sys2Proof.Machine.execTemperatureSample ts s
  | .thermalCapRemove => Sys2Proof.Machine.execThermalCapRemove s
  | .battSenseSample code => Sys2Proof.Machine.execBattSenseSample code s
  | .deepTileRelease => Sys2Proof.Machine.execDeepTileRelease s
  | .pmicWarnAssert => Sys2Proof.Machine.execPmicWarnAssert s
  | .pmicWarnLoweringEnd => Sys2Proof.Machine.execPmicWarnLoweringEnd s
  | .pwrGoodFall => Sys2Proof.Machine.execPwrGoodFall s
  | .budgetHoldExpire => Sys2Proof.Machine.execBudgetHoldExpire s
  | .vidStep => Sys2Proof.Machine.execVidStep s
  | .aonSourceLoss => Sys2Proof.Machine.execAonSourceLoss s
  | .aonSourceReturn => Sys2Proof.Machine.execAonSourceReturn s
  | .standbyEntry => Sys2Proof.Machine.execStandbyEntry s
  | .standbyCancel src => Sys2Proof.Machine.execStandbyCancel src s
  | .standbyWake src => Sys2Proof.Machine.execStandbyWake src s
  | .replicaMeasure u slack mon => Sys2Proof.Machine.execReplicaMeasure u slack mon s
  | .isdFlag n => Sys2Proof.Machine.execIsdFlag n s
  | .marginAlarm => Sys2Proof.Machine.execMarginAlarm s
  | .sramMarginMeasure g mv => Sys2Proof.Machine.execSramMarginMeasure g mv s
  | .replanTrigger t => Sys2Proof.Machine.execReplanTrigger t s
  | .replanComplete ms => Sys2Proof.Machine.execReplanComplete ms s
  | .bandChange => Sys2Proof.Machine.execBandChange s
  | .excursion => Sys2Proof.Machine.execExcursion s
  | .minuteCount => Sys2Proof.Machine.execMinuteCount s
  | .lcTokGo sigOk nonce => Sys2Proof.Machine.execLcTokGo sigOk nonce s
  | .lcTransition => Sys2Proof.Machine.execLcTransition s
  | .lcTokDataWrite v => Sys2Proof.Machine.execLcTokDataWrite v s
  | .provCommit v => Sys2Proof.Machine.execProvCommit v s
  | .provDone => Sys2Proof.Machine.execProvDone s
  | .provDataWrite v => Sys2Proof.Machine.execProvDataWrite v s
  | .dbgCmdGo sigOk level chal => Sys2Proof.Machine.execDbgCmdGo sigOk level chal s
  | .dbgRespDataWrite v => Sys2Proof.Machine.execDbgRespDataWrite v s
  | .dbgHalt u => Sys2Proof.Machine.execDbgHalt u s
  | .dbgStep u => Sys2Proof.Machine.execDbgStep u s
  | .breakpointHit u => Sys2Proof.Machine.execBreakpointHit u s
  | .injGo v => Sys2Proof.Machine.execInjGo v s
  | .mramWriteCmd q => Sys2Proof.Machine.execMramWriteCmd q s
  | .mramEraseCmd q => Sys2Proof.Machine.execMramEraseCmd q s
  | .mramCmdComplete ext => Sys2Proof.Machine.execMramCmdComplete ext s
  | .scKickWrite q => Sys2Proof.Machine.execScKickWrite q s
  | .iswiWrite u q v => Sys2Proof.Machine.execIswiWrite u q v s
  | .spqHeadWrite u q v => Sys2Proof.Machine.execSpqHeadWrite u q v s
  | .upatchDataAccess u q v => Sys2Proof.Machine.execUpatchDataAccess u q v s
  | .ceCtlWrite k r v => Sys2Proof.Machine.execCeCtlWrite k r v s
  | .pairLowRead q a => Sys2Proof.Machine.execPairLowRead q a s
  | .pairHighWrite q a v => Sys2Proof.Machine.execPairHighWrite q a v s
  | .readClearAccess q a => Sys2Proof.Machine.execReadClearAccess q a s
  | .csrWrite q a v => Sys2Proof.Machine.execCsrWrite q a v s
  | .deviceEvent v => Sys2Proof.Machine.execDeviceEvent v s
  | .pmicWarnFall => Sys2Proof.Machine.execPmicWarnFall s
  | .ethLinkChange m up speed => Sys2Proof.Machine.execEthLinkChange m up speed s
  | .canErrorStateChange c tec recv => Sys2Proof.Machine.execCanErrorStateChange c tec recv s
  | .ringResetComplete r => Sys2Proof.Machine.execRingResetComplete r s
  | .pllRelock src => Sys2Proof.Machine.execPllRelock src s
  | .usb4ClStateRequest cl => Sys2Proof.Machine.execUsb4ClStateRequest cl s
  | .pcieConfigAccess a => Sys2Proof.Machine.execPcieConfigAccess a s
  | .i2cClockStretchTimeout c q bs => Sys2Proof.Machine.execI2cClockStretchTimeout c q bs s
  | .serialTransferComplete c q x => Sys2Proof.Machine.execSerialTransferComplete c q x s

end Sys2Proof.Machine
end

