-- ==== Sys2Proof/Safety.lean ====
section
/-! DEFINITION. What the statements say of a state and of a step: the canonical forms, what a state keeps of the one before, and how a
frond issues. -/

namespace Sys2Proof.Machine

/-! ## States -/

/-- Memory and the register file are in canonical form: keys strictly rising, no entry equal to what an unlisted key reads as. -/
def State.Canonical (s : State) : Prop := Memory.wf s.mem = true ∧ swf 0 s.csr = true

/-- A bank's shadow array serves one window at a time: a bank with a retired window has no window borrowed (R417). -/
def State.OneShadow (s : State) : Prop := ∀ n, (s.bmtOf n).retired = none ∨ (s.bmtOf n).phase = .none

/-- What has been handed outside is never taken back: the later list of outputs ends in the earlier one (newest first). -/
def State.OutputsGrow (s t : State) : Prop := s.out <:+ t.out

/-- Every unit but `u` is as it was. -/
def State.SameUnits (s t : State) (u : UnitIx) : Prop := ∀ v, v ≠ u → t.tile v = s.tile v

/-- Every unit but `u` is as it was but for the device events pending in it. -/
def State.EventsOnly (s t : State) (u : UnitIx) : Prop := ∀ v, v ≠ u → { t.tile v with ipend := (s.tile v).ipend } = s.tile v

/-- Every register but those of `rs` reads as before. -/
def State.SameRegs (s t : State) (rs : List Nat) : Prop := ∀ a, a ∉ rs → t.reg a = s.reg a

/-! ## Fronds -/

/-- The words of the frond of unit `u` once word `c` has joined it. -/
def frondWith (s : State) (u : UnitIx) (c : Instr) : List Instr := (s.tile u).frond ++ [c]

/-- What the last word of that frond reads: the state before the frond, its PC, length, position and EXT value. -/
def lastCtx (s : State) (u : UnitIx) (c : Instr) : Ctx :=
  { s := s, u := u, pc := (s.tile u).pc, len := 8 * (frondWith s u c).length, pos := (s.tile u).frond.length
    ext := extOf (frondWith s u c) }

/-- By word `c` (operation word `w`) the frond of unit `u` is whole and issues: the unit takes words, the frond ends here, nothing is
skipped, no trap is due and no interrupt is to be accepted, no operation of the frond faults or waits, and the guard of `c` holds; a frond that the
fiddlehead buffer holds is the one sent. -/
def issues (s : State) (u : UnitIx) (c : Instr) (w : OpWord) : Bool :=
  (s.tile u).fetching && (w.stop || decide (8 ≤ (frondWith s u c).length)) && !(s.tile u).repSkip && !(s.tile u).trapReady
    && decide (((s.tile u).fromBuffer (s.tile u).pc.toNat).getD (frondWith s u c) = frondWith s u c) && (s.tile u).interruptNow.isNone
    && w.performed (s.tile u) && (frondFault s u ((frondWith s u c).map wordBad) (frondOps s u (frondWith s u c))).isNone
    && (frondOps s u (frondWith s u c)).all fun o => !(o.perf && o.out.wait)

/-- The frond stands in straight-line code: no branch, REP or loop end here, no halt asked for. -/
def straight (s : State) (u : UnitIx) : Bool :=
  decide ((s.tile u).br.delay = 0) && !(s.tile u).rep.active && !(s.tile u).atLoopEnd && !(s.tile u).halted
    && decide (fld (s.tile u).dbgCtl 0 0 = 0)

/-- No operation of the frond stands in the L or B slot. -/
def front (s : State) (u : UnitIx) (c : Instr) : Bool := (frondOps s u (frondWith s u c)).all fun o => decide (o.info.slot < 6)

/-- No operation of the frond enters a macro-trap handler: none stands in the L slot, or no opcode of the unit is redirected to one and no
ticket holds a redirected operation (R146, R151). -/
def untrapped (s : State) (u : UnitIx) (c : Instr) : Bool :=
  ((frondOps s u (frondWith s u c)).all fun o => decide (o.info.slot ≠ 6))
    || ((s.tile u).patch.disp.all fun e => decide (bitsOf e.toNat 8 8 = 0)) && (s.tile u).tkt.toList.all fun k => k.job.all fun j => !j.trap

/-- The operation that a command brings: a raw word's is the one it decodes to (R73). -/
def opSent (u : UnitIx) (c : Instr) : Instr :=
  match c with
  | .macroTrap _ x => decodeOp u x
  | _ => c

/-- Results are on their way in `t`: issued in the present cycle of `s` by a slot, retiring at distance `k` (R86). -/
def onTheirWay (s t : State) (u : UnitIx) (slot k : Nat) (xs : List Wr) : Prop :=
  ∀ x ∈ xs, ({ retire := (s.tile u).cycle + k - 1, issue := (s.tile u).cycle, slot := slot, w := x } : Pend) ∈ (t.tile u).pend

/-- The frond is over: the next frond follows it, and the unit's cycle has passed (R86). -/
def moved (s t : State) (u : UnitIx) (c : Instr) : Prop :=
  (t.tile u).pc = BitVec.ofNat 32 ((s.tile u).pc.toNat + 8 * (frondWith s u c).length) ∧ (t.tile u).frond = [] ∧
    (t.tile u).cycle = (s.tile u).cycle + 1

/-- A word with header `w` is a frond of its own in unit `u`, which takes words, stands in straight-line code with nothing pending, and can
enter a handler: its word lies in the bank and can be read, and ISP admits a frame. -/
def alone (s : State) (u : UnitIx) (w : OpWord) : Bool :=
  (s.tile u).fetching && w.stop && (s.tile u).frond.isEmpty && !(s.tile u).repSkip && !(s.tile u).trapReady && straight s u
    && ((s.tile u).fromBuffer (s.tile u).pc.toNat).isNone
    && (s.tile u).pend.isEmpty && decide ((s.tile u).pc.toNat < localTop) && !s.hasUe (localBase u + (s.tile u).pc.toNat) 8
    && (s.tile u).ispOk

/-- The entry of a precise fault at the first word of a frond (R95, R229). -/
def faultEntry (vec faddr : Nat) : Entry :=
  { vec := vec, level := 3, pos := 0, mtrap := false, faddr := faddr, haddr := none, vindex := none, wstate := 0 }

/-! ## Entries -/

/-- Unit `u` has entered vector `e` with return point `ret`: ISP falls by 128, the frame stands there and no other byte changes, the level
is the vector's, VUSED is clear, and the front end is at the handler that the vector table of `s` names or that the entry gives; a, m, cb, cl,
v, p and lc are as they were (R222 to R225). -/
def State.entered (s t : State) (u : UnitIx) (e : Entry) (ret : Word) : Prop :=
  (t.tile u).isp = BitVec.ofNat 32 ((s.tile u).isp.toNat - 128) ∧ (t.tile u).level = e.level ∧ fld (t.tile u).status 11 11 = 0 ∧
  (t.tile u).pc = BitVec.ofNat 32 (e.haddr.getD (bitsOf (s.localLoad u ((s.tile u).ivbase.toNat + 8 * e.vec) 4) 20 3 * 8)) ∧
  (t.tile u).frond = [] ∧ (t.tile u).waiting = false ∧ (t.tile u).stopped = (s.tile u).stopped ∧
  (t.tile u).a = (s.tile u).a ∧ (t.tile u).m = (s.tile u).m ∧ (t.tile u).cb = (s.tile u).cb ∧ (t.tile u).cl = (s.tile u).cl ∧
  (t.tile u).v = (s.tile u).v ∧ (t.tile u).p = (s.tile u).p ∧ (t.tile u).lc = (s.tile u).lc ∧
  (t.tile u).vindex = e.vindex.getD (s.tile u).vindex ∧
  t.bytes (localBase u + ((s.tile u).isp.toNat - 128)) 128 = ((s.tile u).frame ret e.wstate e.cause e.faddr).flatMap (leBytes 4) ∧
  (∀ b < 2 ^ 36, (b < localBase u + ((s.tile u).isp.toNat - 128) ∨ localBase u + (s.tile u).isp.toNat ≤ b) → t.byte b = s.byte b) ∧
  s.SameUnits t u

/-! ## Stream steps and results -/

/-- No row transfer waits at a bank, and none that has been withdrawn is still to come. -/
def State.NoRows (s : State) : Prop := s.fab.rows = [] ∧ s.fab.marks = []

/-- Where a channel runs step `i` of its program, which is whole and of operation `op`: no running channel goes before it (R304). -/
def runsStep (s : State) (c : Fin 96) (i op : Nat) : Prop :=
  s.dev.up = true ∧ s.leaves c.val = true ∧ s.chanNext c.val = some i ∧ s.stepUe c.val i = false ∧ (s.stepOf c.val i).op = op

/-- One result is pending in a unit whose clock runs, and it is due. -/
def oneDue (s : State) (u : UnitIx) (w : Wr) : Prop :=
  s.dev.up = true ∧ (s.tile u).cycling = true ∧
    ∃ x : Pend, (s.tile u).pend = [x] ∧ x.w = w ∧ x.retire ≤ (s.tile u).cycle ∧ x.issue + 1 < (s.tile u).cycle

/-- The tickets of unit `u` are as they were but for what set-up adds to a captured operation (R519). -/
def State.sameTickets (s t : State) (u : UnitIx) : Prop :=
  ∀ k, { (t.tile u).ticket k with job := ((s.tile u).ticket k).job } = (s.tile u).ticket k

/-- The routine `r` of engine `e`, under a PENDING ticket with captured operation `j`, has its element due: no routine and no result lands before
it, no operation waits for an engine, and the microword through which it is entered is good. -/
def elementDue (s : State) (u : UnitIx) (e : Fin 2) (r : Run) (j : Job) : Prop :=
  s.dev.up = true ∧ (s.tile u).re[e] = some r ∧ (∀ k : Fin 2, (s.tile u).suspFor[k] = none) ∧ (s.tile u).waiting = false ∧
    ((s.tile u).ticket r.tkt).st = .pending ∧ ((s.tile u).ticket r.tkt).job = some j ∧ (s.tile u).elementNow e r j = true ∧
    (s.tile u).entryBad j r = false

/-- A multiply, divide or square-root routine of unit `u` on engine `e` whose one element is due, with its result going to memory. -/
def lastElement (s : State) (u : UnitIx) (e : Fin 2) (r : Run) (j : Job) (a : Nat) : Prop :=
  elementDue s u e r j ∧ j.spare = none ∧ r.elem = 0 ∧ j.dst = .mem a ∧ a + 16 ≤ 0x200000

/-! ## Registers -/

/-- A register offset outside the units, engines, rings and link tests, no half of a pair and of no effect of its own: a write stores bits
or clears them. -/
def plainAt (o : Nat) : Bool :=
  !decide (o < 0x110000) && !(decide (0x200000 ≤ o) && decide (o < 0x240000)) && !(decide (0x700100 ≤ o) && decide (o < 0x700800))
    && !(decide (0x800100 ≤ o) && decide (o < 0x800300)) && !isPairLow o && !isPairLow (o - 4)
    && !([0x70002C, 0xA00028, 0xA00200, 0xB00034, 0xB00038, 0xB00070, 0xB00074, 0xB000B4, 0xB000B8, 0xB000D8].contains o)

/-! ## Supply -/

/-- What a voltage code writes into the PMIC: with VID_MODE 1 its register, which the calibration image names (R424). -/
def State.pmicVid (s : State) (n : Nat) : List Out :=
  match s.net.cal with
  | some x => if fld (s.reg Csr.pmicCfg) 0 0 = 1 then [.pmicReg (fld (s.reg Csr.pmicCfg) 7 1) x.vidReg n] else []
  | none => []

/-! ## Host commands -/

/-- Event ring `e` takes a record at once: it runs, no record waits and none has been dropped. -/
def State.erFree (s : State) (e : Nat) : Prop := s.ringSt (48 + e) = 1 ∧ s.host.waiting = [] ∧ s.host.lost.getD e 0 = 0

/-- Command `c` leaves its ring: CI advances by one and ASEQ by one (R332). -/
def State.accepted (s t : State) (c : HostCmd) : Prop :=
  t.reg (Csr.ringCi c.ring) = s.reg (Csr.ringCi c.ring) + 1 ∧ t.reg Csr.aseq = s.reg Csr.aseq + 1 ∧ t.curOf c.ring = none

/-- The one record that waits is the completion of command `c` with a status and ASEQ, for its ring's event ring (R335). -/
def State.completes (s t : State) (c : HostCmd) (status : Nat) (aseq : Word) : Prop :=
  ∃ r, t.host.waiting = [(s.ringEr c.ring, r)] ∧ r.typ = 1 ∧ r.status = status ∧ r.ring = c.ring ∧ r.tag = c.tag ∧ r.aseq = aseq ∧
    r.index = c.index

/-! ## Diagnostics -/

/-- A request of service `sid` is in progress and not yet performed, of sub-function `sub` where one is given. -/
def State.serves (s : State) (sid : Nat) (sub : Option Nat) (b : UdsBusy) : Prop :=
  s.dev.up = true ∧ s.net.busy = some b ∧ b.sid.toNat = sid ∧ s.udsPuts = false ∧ ∀ x, sub = some x → b.sf = x

/-- A client that the server knows: a request identifier on a CAN controller that receives, or the source of a DoIP connection (R360). -/
def State.asks (s : State) (c : UdsClient) (func : Bool) : Prop :=
  match c with
  | .can id => s.canAsks id func = true
  | .doip k a => ∃ m, s.net.conns[k] = some (m, a)

/-- The bytes `bs` go to a client: over CAN at once, over a DoIP connection as a frame of its port (R360). -/
def State.told (s t : State) (c : UdsClient) (bs : List Byte) : Prop :=
  match c with
  | .can _ => t.out = .uds c bs :: s.out
  | .doip k _ => t.out = s.out ∧ ∀ m a, s.net.conns[k] = some (m, a) → ∃ f ∈ t.net.tx, f.port = m ∧ f.q = 0 ∧ f.what = .uds c bs

/-- The request `b` is over: its client has the positive response with these bytes, unless the request suppresses it (R361, R362). -/
def State.granted (s t : State) (b : UdsBusy) (bs : List Byte) : Prop :=
  t.net.busy = none ∧ if hasSub b.sid.toNat ∧ b.sub.getLsbD 7 then t.out = s.out else s.told t b.client ((b.sid + 0x40) :: bs)

/-- The request `b` is over: its client has the negative response with this code. -/
def State.denied (s t : State) (b : UdsBusy) (code : Byte) : Prop := t.net.busy = none ∧ s.told t b.client (nrc b.sid code)

/-! ## Listeners -/

/-- What listener stream `ix` (32 to 63) holds. -/
def State.listenOf (s : State) (ix : Nat) : ListenState := s.aud.listen.getD (ix - 32) { held := [], seq := none, next := none, bad := false }

/-- The tick of the first instant of a PDU that listener stream `ix` accepts (R311). -/
def State.pduTick (s : State) (ix : Nat) (d : Pdu) : Nat := (s.avtpFirst (s.listenOf ix) d (s.tickTime s.sample.toNat) + 1) / 2

end Sys2Proof.Machine
end

