-- ==== Sys2Proof/Certificates/Slice0/Obligations.lean ====
section
/-! DEFINITION. The statements about the block: one proposition for each entry of OBLIGATIONS.json.  A docstring says what its proposition
states and names the rules of spec/ that it rests on. -/

open Sys2Proof Sys2Proof.Machine

/-! ## The block -/

/-- A step takes the command at the front of the queue and runs it on the state with the queue's rest.

With no command waiting the block idles: the model's choice (log entry 1). -/
def Obligations.StepRunsTheFrontCommand : Prop :=
  (∀ (c : Instr) (s : State) (rest : List Instr),
      step { s with pending := c :: rest } = exec c { s with pending := rest }) ∧
  (∀ s : State, s.pending = [] → step s = .next s)

/-- Every command answers a next state from every state; it leaves the commands that wait as they are, takes back nothing that the
device has handed outside, and no free value is drawn twice. -/
def Obligations.EveryCommandAnswers : Prop :=
  ∀ (c : Instr) (s : State), ∃ t, exec c s = .next t ∧ t.pending = s.pending ∧ s.OutputsGrow t ∧ s.freeCtr ≤ t.freeCtr

/-- Every step keeps memory and the register file in canonical form, and every shadow array at one window. -/
def Obligations.EveryStepKeepsTheInvariants : Prop :=
  ∀ s t : State, step s = .next t → (s.Canonical → t.Canonical) ∧ (s.OneShadow → t.OneShadow)

/-- The invariants hold at reset. -/
def Obligations.ResetHasTheInvariants : Prop :=
 State.reset.Canonical ∧ State.reset.OneShadow

/-- Memory reads back what was stored, and nothing else changes, while a window is copied to its shadow array, served from it or restored
from it as well (R66, R417, Table 2-8). -/
def Obligations.MemoryReadsBackWhatWasStored : Prop :=
  ∀ (s : State) (a b : Nat) (v : Byte), s.Canonical → s.OneShadow → a < 2 ^ 36 → b < 2 ^ 36 →
    (s.setByte a v).byte b = if b = a then v else s.byte b

/-! ## Leaving reset and start-up -/

/-- At time zero the device leaves reset: the sample count, the start-up phase and the role strap are set, memory stands (R14).

A device reset: the cause is kept, no plan runs, every unit and every register takes its reset value but the kept ones, and SRAM and
MRAM stand (R20, R467, Table 16-14).

The points of start-up: the boot ROM, the firmware, the microcode patches, calibration and the stored plan each move the phase on
(R152, R466, R469, R470, R475).

Once the full plan runs, the firmware raises FW_SVN to its own SVN and never lowers it; nothing else changes (R469).

Answers a next state with its own effect, under conditions on state and operands alone: timeZero, deviceReset, resetRelease, thermalHoldRelease,
bootRomStart, firmwareVerify, patchLoad, calibrationApply, storedPlanVerify, fwSvnRaise. -/
def Obligations.DeviceLeavesResetAndStartsUp : Prop :=
  ((∀ (s : State) (aon lk : Bool), s.Canonical → s.dev.up = false → s.dev.hold = false →
      ∃ t, exec (.timeZero aon lk) s = .next t ∧ t.dev.up = true ∧ t.sample = 0 ∧ t.dev.lkRole = lk ∧ t.phase = 0 ∧ t.mem = s.mem) ∧
    (∀ (s : State) (lk : Bool), s.Canonical → s.dev.up = false → s.dev.hold = false → fld (s.reg Csr.rstCause) 3 0 ∉ [0, 1, 7] →
      ∃ t, exec (.resetRelease lk) s = .next t ∧ t.dev.up = true ∧ t.sample = 0 ∧ t.dev.lkRole = lk ∧ t.phase = 0 ∧ t.mem = s.mem) ∧
    (∀ (s : State) (ts : List Word) (lk : Bool), s.Canonical → s.dev.up = false → s.dev.hold = true →
      (∀ i < 24, toInt 32 (ts.getD i 0).toNat < 1400) →
      ∃ t, exec (.thermalHoldRelease ts lk) s = .next t ∧ t.dev.up = true ∧ t.dev.hold = false ∧ t.sample = 0 ∧ t.phase = 0) ∧
    ∀ (s : State) (ts : List Word) (lk : Bool), s.dev.up = false → s.dev.hold = true → (∃ i < 24, 1400 ≤ toInt 32 (ts.getD i 0).toNat) →
      exec (.thermalHoldRelease ts lk) s = .next s) ∧
  (∀ (s : State) (cause : Fin 9) (rail : BitVec 8), s.dev.up = true →
      ∃ t, exec (.deviceReset cause rail) s = .next t ∧ t.dev.up = false ∧ t.mem = s.mem ∧ t.plan = none ∧ t.sample = 0 ∧
        (∀ u, t.tile u = Tile.reset) ∧ t.reg Csr.rstCause = BitVec.ofNat 32 (cause.val + rail.toNat * 16) ∧
        (∀ a ∈ keptRegs, t.reg a = s.reg a) ∧ (∀ n < 16, fld (t.reg (Csr.ageOf n)) 23 16 = fld (s.reg (Csr.ageOf n)) 23 16) ∧
        ∀ a, a ∉ keptRegs → (∀ n < 16, a ≠ Csr.ageOf n) → a ≠ Csr.lcStat → a ≠ Csr.rstCause → t.reg a = State.reset.reg a) ∧
  ((∀ s : State, s.Canonical → s.dev.up = true → s.phase = 0 → ∃ t, exec .bootRomStart s = .next t ∧ t.phase = 1) ∧
    (∀ s : State, s.Canonical → s.dev.up = true → s.phase = 2 → s.fwGood 0 s.dev.images.fwA = false →
      s.fwGood 0x80000 s.dev.images.fwB = false → ∃ t, exec .firmwareVerify s = .next t ∧ t.phase = 9) ∧
    (∀ (s : State) (a : FwImage), s.Canonical → s.dev.up = true → s.phase = 2 → s.dev.images.fwA = some a → s.fwGood 0 (some a) = true →
      (∀ b, s.dev.images.fwB = some b → b.seq ≤ a.seq) →
      ∃ t, exec .firmwareVerify s = .next t ∧ t.phase = 3 ∧ t.reg Csr.fwStat = 0 ∧ (t.tile 16).mode = .run ∧ (t.tile 16).pc = 0) ∧
    (∀ (s : State) (b : FwImage), s.Canonical → s.dev.up = true → s.phase = 2 → s.dev.images.fwB = some b →
      s.fwGood 0x80000 (some b) = true → (∀ a, s.dev.images.fwA = some a → a.seq < b.seq) →
      ∃ t, exec .firmwareVerify s = .next t ∧ t.phase = 3 ∧ t.reg Csr.fwStat = 1 ∧ (t.tile 16).mode = .run ∧ (t.tile 16).pc = 0) ∧
    (∀ s : State, s.Canonical → s.dev.up = true → s.phase = 3 →
      ∃ t, exec .patchLoad s = .next t ∧ t.phase = 4 ∧ ∀ u, fld (t.tile u).ucodeLvl 31 31 = 1) ∧
    (∀ (s : State) (q : PatchImage), s.dev.up = true → s.phase = 3 → s.dev.images.patch = some q → q.ok = true →
      s.mramBad 0x3A4000 0x10000 = false →
      ∃ t, exec .patchLoad s = .next t ∧ ∀ u, (t.tile u).patch = { disp := q.disp.take 64, field := q.field.take 32 }) ∧
    (∀ (s : State) (q : PatchImage), s.dev.up = true → s.phase = 3 → s.dev.images.patch = some q →
      (q.ok = false ∨ s.mramBad 0x3A4000 0x10000 = true) →
      ∃ t, exec .patchLoad s = .next t ∧ ∀ u, (t.tile u).patch = (s.tile u).patch ∧ fld (t.tile u).ucodeLvl 30 30 = 1 ∧
        fld (t.tile u).ucodeLvl 15 0 = 0) ∧
    (∀ s : State, s.Canonical → s.dev.up = true → s.phase = 4 → ∃ t, exec .calibrationApply s = .next t ∧ t.phase = 5) ∧
    (∀ s : State, s.Canonical → s.dev.up = true → s.phase = 5 → s.dev.sched.ready = none → s.lc ∈ [1, 2, 3] →
      fld (s.reg Csr.bootStat) 5 5 = 0 → s.dev.images.plan = none →
      ∃ t, exec .storedPlanVerify s = .next t ∧ t.phase = 8 ∧ t.reg Csr.splanStat = 2) ∧
    ∀ (s : State) (g : PlanImage), s.dev.up = true → s.phase = 5 → s.dev.sched.ready = none → s.lc ∈ [1, 2, 3] →
      fld (s.reg Csr.bootStat) 5 5 = 0 → s.dev.images.plan = some g → s.storedRefusal g = none →
      ∃ t, exec .storedPlanVerify s = .next t ∧ t.dev.sched.ready = some g.plan) ∧
  ((∀ (s : State) (g : FwImage), s.Canonical → s.dev.up = true → s.phase = 7 → fld (s.reg Csr.fwStat) 0 0 = 0 → s.dev.images.fwA = some g →
      ∃ t, exec .fwSvnRaise s = .next t ∧ t.reg Csr.fwSvn = BitVec.ofNat 32 (max (fld (s.reg Csr.fwSvn) 5 0) (min 63 g.svn)) ∧
        s.SameRegs t [Csr.fwSvn] ∧ t.mem = s.mem ∧ t.tiles = s.tiles ∧ t.dev = s.dev) ∧
    ∀ s : State, s.dev.up = true → s.phase ∉ [7, 8] → exec .fwSvnRaise s = .next s)

/-! ## Rules stated whole -/

/-- Every tile is in DARK from a device reset (R521).

Answers a next state with its own effect, under conditions on state and operands alone: deviceReset. -/
def Obligations.TilesAreDarkFromADeviceReset : Prop :=
  ∀ (s : State) (cause : Fin 9) (rail : BitVec 8), s.dev.up = true →
    ∃ t, exec (.deviceReset cause rail) s = .next t ∧ ∀ u : UnitIx, u.val < 16 → (t.tile u).mode = .dark

/-! ## Leaving reset and start-up -/

/-- After the reset wipe every byte of every bank and of every shadow array reads zero, no word holds an error, and the MRAM stands
(R45, R467).

Answers a next state with its own effect, under conditions on state and operands alone: resetWipe. -/
def Obligations.ResetWipeClearsEveryBank : Prop :=
  ∀ s : State, s.dev.up = true → s.phase = 1 → s.held .wipe ≠ 0 →
    ∃ t, exec .resetWipe s = .next t ∧ t.ecc = [] ∧ (∀ a, (locate a).isSome → t.byte a = 0) ∧
      (∀ n k, n < 23 → sget 0 t.mem (shadowKey n k) = 0) ∧
      (∀ a, mramBase ≤ a → a < mramBase + mramSize → t.byte a = s.byte a)

/-! ## The start of a plan -/

/-- In block ks the safety phase of a verified stored plan starts: the plan runs at its block size, the tiles without a safety task are
held, block kf is fixed, and the phase is 6 (R468).

At block kf the rest of the plan starts: no tile is held, unless the supply is in DEEP, and the phase is 7; before it nothing happens
(R468).

A warm restart that has been asked for: with the stored plan running and its image untouched every tile without a safety task is held
until block kf, 45 ms on; when the image has been written, the device is reset (R472).

A verified replacement starts at the first tick that suits its block size, once the old plan has stopped (R265).

Answers a next state with its own effect, under conditions on state and operands alone: safetyPhaseStart, fullPlanStart, warmRestart,
replacePlanStart. -/
def Obligations.PlansStartRestartAndAreReplaced : Prop :=
  (∀ (s : State) (p : Plan), s.Canonical → s.dev.up = true → s.dev.sched.ready = some p → s.plan = none → 0 < p.block →
      (864 / p.block - 1) * p.block ≤ s.sample.toNat → s.sample.toNat < 864 / p.block * p.block →
      ∃ t, exec .safetyPhaseStart s = .next t ∧ t.plan = some p ∧ t.bsize = p.block ∧ t.dev.sched.ready = none ∧
        t.dev.sched.kf = some (2160 / p.block) ∧ t.dev.sched.k0 = 864 / p.block ∧ t.phase = 6 ∧ t.sample = s.sample ∧
        ∀ n < 16, (t.tile (unitIx n)).heldOff = !(Plan.safetyTiles p).contains n) ∧
  ((∀ (s : State) (p : Plan) (k : Nat), s.Canonical → s.dev.up = true → s.plan = some p → s.dev.sched.kf = some k →
      k * s.bsize ≤ s.sample.toNat + 1 → s.dev.sched.prog = none → fld (s.reg Csr.supplyStat) 4 4 = 0 → fld (s.reg Csr.bootStat) 8 8 = 0 →
      ∃ t, exec .fullPlanStart s = .next t ∧ t.plan = some p ∧ t.dev.sched.kf = none ∧ t.phase = 7 ∧
        t.reg Csr.bootTFull = BitVec.ofNat 32 (k * s.bsize * 1000 / 48) ∧ ∀ n < 16, (t.tile (unitIx n)).heldOff = false) ∧
    ∀ (s : State) (p : Plan) (k : Nat), s.dev.up = true → s.plan = some p → s.dev.sched.kf = some k → s.sample.toNat + 1 < k * s.bsize →
      exec .fullPlanStart s = .next s) ∧
  ((∀ (s : State) (p : Plan) (g : PlanImage), s.dev.up = true → s.dev.sched.warm = true → s.plan = some p → s.dev.images.plan = some g →
      s.dev.images.written = false → s.dev.sched.stored = true → s.storedRefusal g = none →
      ∃ t, exec .warmRestart s = .next t ∧ t.plan = some p ∧ t.dev.sched.warm = false ∧
        t.dev.sched.kf = some ((s.sample.toNat + 2160) / s.bsize) ∧ t.sample = s.sample ∧
        ∀ n < 16, (Plan.safetyTiles p).contains n = false → (t.tile (unitIx n)).heldOff = true ∧ (t.tile (unitIx n)).mode ≠ .run) ∧
    (∀ (s : State) (p : Plan) (g : PlanImage), s.dev.up = true → s.dev.sched.warm = true → s.plan = some p → s.dev.images.plan = some g →
      s.dev.images.written = true →
      ∃ t, exec .warmRestart s = .next t ∧ t.dev.up = false ∧ t.plan = none ∧ t.reg Csr.rstCause = 5 ∧ t.mem = s.mem) ∧
    ∀ s : State, s.dev.up = true → s.dev.sched.warm = false → exec .warmRestart s = .next s) ∧
  (∀ (s : State) (r : Replace) (q : Plan), s.Canonical → s.dev.up = true → s.dev.sched.replace = some r → r.plan = some q → r.stopped = true →
      r.block * s.bsize < s.sample.toNat → r.at_ + 2 ≤ s.sample.toNat → s.sample.toNat % q.block = 0 → 0 < q.block →
      ∃ t, exec .replacePlanStart s = .next t ∧ t.plan = some q ∧ t.bsize = q.block ∧ t.dev.sched.replace = none ∧
        t.dev.sched.k0 = s.sample.toNat / q.block ∧ t.sample = s.sample)

/-! ## Block timing -/

/-- A sample tick advances the sample count by one; at a block tick every tile with work that is asleep and takes ticks is due to wake
(R29, R32).

The wakes of a tile: in SLEEP at the entry of its schedule, or of its fast-lane binding; in NAP where it stopped; after an overrun at
once; a DARK tile with work comes up in SLEEP with its registers at reset (R32, R37, R215, R239, R243, R521).  No other unit and no byte
of memory changes.

The frame engine writes a bound tile's input frame into the half of its buffer that the next tick names, and takes its outputs for the last
tick (R242, R243).

Answers a next state with its own effect, under conditions on state and operands alone: sampleTick, tileWake, heldTickWake, tilePowerUp, napWake,
flInputFrame, flOutputTake. -/
def Obligations.TicksWakeTheTiles : Prop :=
  ((∀ (s : State) (now : DWord), s.dev.up = true → s.dev.safety.resetAt = none →
      ∃ t, exec (.sampleTick now) s = .next t ∧ t.sample = s.sample + 1) ∧
    ∀ (s : State) (now : DWord) (p : Plan) (n : Nat), s.dev.up = true → s.dev.safety.resetAt = none → s.plan = some p → s.bsize ≠ 0 →
      (s.sample + 1).toNat % s.bsize = 0 → s.dev.sched.replace = none → s.dev.sched.prog = none → s.dev.safety.fallDeep = none → n < 16 → p.hasWork n = true →
      (s.tile (unitIx n)).mode = .sleep → (s.tile (unitIx n)).away = false → (s.tile (unitIx n)).bist = none →
      fld (s.tile (unitIx n)).flCfg 0 0 = 0 →
      ∃ t, exec (.sampleTick now) s = .next t ∧ (t.tile (unitIx n)).wakeDue = true ∧ (t.tile (unitIx n)).mode = .sleep ∧
        (t.tile (unitIx n)).doneInBlk = false ∧ (t.tile (unitIx n)).spqPub = (s.tile (unitIx n)).spqTail) ∧
  ((∀ (s : State) (u : UnitIx) (pc : Word), u.val < 16 → (s.tile u).mode = .sleep → (s.tile u).wakeDue = true → (s.tile u).away = false →
      (s.tile u).bist = none → fld (s.tile u).flCfg 0 0 = 0 → s.schedEntry u.val = some pc →
      ∃ t, exec (.tileWake u) s = .next t ∧ (t.tile u).mode = .run ∧ (t.tile u).pc = pc ∧ (t.tile u).frond = [] ∧
        (t.tile u).a = (s.tile u).a ∧ (t.tile u).v = (s.tile u).v ∧ s.SameUnits t u ∧ t.mem = s.mem ∧ t.csr = s.csr) ∧
    (∀ (s : State) (u : UnitIx), u.val < 16 → (s.tile u).mode = .sleep → (s.tile u).wakeDue = true → (s.tile u).away = false →
      (s.tile u).bist = none → fld (s.tile u).flCfg 0 0 = 1 →
      ∃ t, exec (.tileWake u) s = .next t ∧ (t.tile u).mode = .run ∧ (t.tile u).pc = (s.tile u).flEntry ∧
        s.SameUnits t u ∧ t.mem = s.mem ∧ t.csr = s.csr) ∧
    (∀ (s : State) (u : UnitIx) (pc : Word), u.val < 16 → (s.tile u).mode = .sleep → (s.tile u).heldTick = true → (s.tile u).away = false →
      (s.tile u).bist = none → fld (s.tile u).flCfg 0 0 = 0 → s.schedEntry u.val = some pc →
      ∃ t, exec (.heldTickWake u) s = .next t ∧ (t.tile u).mode = .run ∧ (t.tile u).pc = pc ∧ (t.tile u).heldTick = false ∧
        s.SameUnits t u ∧ t.mem = s.mem ∧ t.csr = s.csr) ∧
    (∀ (s : State) (u : UnitIx), (s.tile u).mode = .nap → (s.tile u).wakeDue = true → (s.tile u).away = false → (s.tile u).bist = none →
      s.dev.sched.flStart.contains u.val = false →
      ∃ t, exec (.napWake u) s = .next t ∧ (t.tile u).mode = .run ∧ (t.tile u).pc = (s.tile u).pc ∧ (t.tile u).a = (s.tile u).a ∧
        s.SameUnits t u ∧ t.mem = s.mem ∧ t.csr = s.csr) ∧
    ∀ (s : State) (u : UnitIx) (p : Plan), u.val < 16 → (s.tile u).fenced = false → s.dev.sched.prog = none → s.plan = some p →
      p.hasWork u.val = true → (s.tile u).mode = .dark → (s.tile u).bist = none →
      ∃ t, exec (.tilePowerUp u) s = .next t ∧ (t.tile u).mode = .sleep ∧ (t.tile u).a = Tile.reset.a ∧ (t.tile u).v = Tile.reset.v ∧
        (t.tile u).pc = Tile.reset.pc ∧ (t.tile u).patch = (s.tile u).patch ∧ s.SameUnits t u ∧ t.mem = s.mem ∧ t.csr = s.csr) ∧
  ((∀ (s : State) (u : UnitIx) (b : FastBind), s.Canonical → s.OneShadow → s.bindOf u = some b → b.ins.length ≤ 112 →
      ∃ t, exec (.flInputFrame u) s = .next t ∧
        t.bytes (localBase u + (s.tile u).flIn + (s.sample.toNat + 1) % 2 * 0x200) (s.fastFrame b (s.tile u).flMissed).length =
          s.fastFrame b (s.tile u).flMissed ∧
        (t.tile u).flMissed = false ∧ s.SameUnits t u ∧
        ∀ x < 2 ^ 36, (x < localBase u + (s.tile u).flIn + (s.sample.toNat + 1) % 2 * 0x200 ∨
          localBase u + (s.tile u).flIn + (s.sample.toNat + 1) % 2 * 0x200 + (s.fastFrame b (s.tile u).flMissed).length ≤ x) →
          t.byte x = s.byte x) ∧
    (∀ (s : State) (u : UnitIx) (b : FastBind) (p : Plan) (d : OutDst) (e : OutEntry), s.bindOf u = some b → s.plan = some p → b.outs = [d] →
      Plan.outAt p d = some e → (s.tile u).fenced = false → s.aud.played = [(s.sample.toNat - 1, [])] →
      ∃ t, exec (.flOutputTake u) s = .next t ∧ t.mem = s.mem ∧ t.tiles = s.tiles ∧
        t.aud.played = [(s.sample.toNat - 1, [(e.ix, BitVec.ofNat 32
          (s.load (localBase u + (s.tile u).flOut + (s.sample.toNat - 1) % 2 * 0x100) 4))])]) ∧
    ∀ (s : State) (u : UnitIx), fld (s.tile u).flCfg 0 0 = 0 → exec (.flInputFrame u) s = .next s ∧ exec (.flOutputTake u) s = .next s)

/-- The points of a switch window follow one another: drain start, tick n − 10 µs, n − 4.0 µs and n − 2.0 µs, where the variant chosen
comes into force; out of turn they do nothing (R36, R253, R263, R264).

What a tile that is late owes: a block-rate tile that has not executed DONE at the drain start is counted and reported as an overrun
(R37); a bound tile that has not issued NAP by the output deadline as a missed tick (R246); a tile that issues no frond after a wake as a
failed wake (R416).

Answers a next state with its own effect, under conditions on state and operands alone: drainStart, switchWindowStart, switchWindowRoles,
switchWindowCommit, flOutputDeadline, wakeFail. -/
def Obligations.SwitchWindowsRunInOrder : Prop :=
  ((∀ (s : State) (p : Plan), s.plan = some p → s.bsize ≠ 0 → (s.sample.toNat + 1) % s.bsize = 0 → s.dev.sched.stage = .none →
      ∃ t, exec .drainStart s = .next t ∧ t.dev.sched.stage = .drain ∧ t.dev.sched.kicked = false ∧ t.plan = some p) ∧
    (∀ (s : State) (p : Plan), s.plan = some p → s.dev.sched.stage = .drain →
      ∃ t, exec .switchWindowStart s = .next t ∧ t.dev.sched.stage = .start ∧ t.dev.sched.nextVar.isSome = true ∧ t.plan = some p) ∧
    (∀ (s : State) (p : Plan), s.plan = some p → s.dev.sched.stage = .start →
      ∃ t, exec .switchWindowRoles s = .next t ∧ t.dev.sched.stage = .roles ∧ t.plan = some p) ∧
    (∀ (s : State) (p : Plan) (v : Tier), s.plan = some p → s.dev.sched.stage = .roles → s.dev.sched.nextVar = some v →
      s.dev.sched.target = none →
      ∃ t, exec .switchWindowCommit s = .next t ∧ t.dev.sched.stage = .commit ∧ t.dev.sched.variant = v ∧ t.plan = some p) ∧
    (∀ (s : State) (p q : Plan) (v : Tier), s.plan = some p → s.dev.sched.stage = .roles → s.dev.sched.nextVar = some v →
      s.dev.sched.target = some q →
      ∃ t, exec .switchWindowCommit s = .next t ∧ t.dev.sched.stage = .commit ∧ t.dev.sched.variant = v ∧ t.plan = some q) ∧
    ∀ s : State, (s.dev.sched.stage ≠ .drain → exec .switchWindowStart s = .next s) ∧
      (s.dev.sched.stage ≠ .start → exec .switchWindowRoles s = .next s) ∧
      (s.dev.sched.stage ≠ .roles → exec .switchWindowCommit s = .next s)) ∧
  ((∀ (s : State) (p : Plan) (n : Nat), s.plan = some p → s.bsize ≠ 0 → (s.sample.toNat + 1) % s.bsize = 0 → s.dev.sched.stage = .none →
      n < 16 → p.hasWork n = true → fld (s.tile (unitIx n)).flCfg 0 0 = 0 → (s.tile (unitIx n)).away = false →
      (s.tile (unitIx n)).bist = none → (s.tile (unitIx n)).doneInBlk = false → s.dev.sched.k0 ≤ s.blk →
      ∃ t, exec .drainStart s = .next t ∧ ∃ r ∈ t.reports, r.code = 0x0140 ∧ r.unit.toNat = n) ∧
    (∀ (s : State) (u : UnitIx), fld (s.tile u).flCfg 0 0 = 1 → (s.tile u).mode = .run → (s.tile u).heldTick = true →
      (s.tile u).away = false → (s.tile u).bist = none →
      ∃ t, exec (.flOutputDeadline u) s = .next t ∧ (t.tile u).flMissed = true ∧ fld (t.tile u).flStat 16 16 = 1 ∧
        fld (t.tile u).flStat 15 0 = min 0xFFFF (fld (s.tile u).flStat 15 0 + 1) ∧
        t.reports = s.reports ++ [{ code := 0x0141, unit := BitVec.ofNat 8 u.val, detail := tileDetail (s.tile u) }] ∧ s.SameUnits t u) ∧
    ∀ (s : State) (u : UnitIx), u.val < 16 → (s.tile u).wakeDue = true → (s.tile u).away = false →
      ∃ t, exec (.wakeFail u) s = .next t ∧ (t.tile u).wakeDue = false ∧
        t.reports = s.reports ++ [{ code := 0x0143, unit := BitVec.ofNat 8 u.val, detail := tileDetail (s.tile u) }] ∧
        s.SameUnits t u ∧ t.mem = s.mem ∧ t.csr = s.csr)

/-! ## Audio ports and streams -/

/-- A TDM port takes its input frame: every word of an input slot becomes the sample of its source, code × 2^−(w−1); a second frame in a
tick is a slip and changes no sample (R291, R294, R295).

A TDM port emits one frame for the tick: its slots in order, all in high impedance while the port is in NOCLK (R291, R294).

A slave port without sync for 2 ticks enters NOCLK with its device event, and the first sync in the window ends it; a port that stopped
for a new format restarts (R294, R313, R494).

PDM: a channel's decimated sample joins the next input frame, valid unless the channel fills or is stuck; FILL ends 64 ticks after the
clock started; 4,096 equal bits set STUCK and STUCK_SEEN, and 64 ticks after the first change STUCK clears (R299, R300).  The value of a
decimated sample is free.

Answers a next state with its own effect, under conditions on state and operands alone: tdmInputFrame, tdmOutputFrame, tdmNoclk, tdmNoclkExit,
portRestart, pdmSample, pdmFillDone, pdmStuck, pdmStuckClear. -/
def Obligations.AudioPortsMoveFrames : Prop :=
  ((∀ (s : State) (n : Fin 24) (phase : Word) (ws : List Word) (i : Nat), i < ws.length →
      fld (s.reg (tdmReg n 0)) 0 0 = 1 →
      (s.drivesClk n = true ∨ s.inWindow n (toInt 32 phase.toNat) = true) → (s.port n).stopped = none → fld (s.reg (tdmReg n 0x1C)) 3 3 = 0 →
      (s.port n).inSeen = false →
      fld (s.reg (tdmReg n 8)) (i % (fld (s.reg (tdmReg n 0)) 10 6 + 1)) (i % (fld (s.reg (tdmReg n 0)) 10 6 + 1)) = 1 →
      fld (s.reg (tdmReg n 0x14)) (i % (fld (s.reg (tdmReg n 0)) 10 6 + 1)) (i % (fld (s.reg (tdmReg n 0)) 10 6 + 1)) = 0 →
      ∃ t, exec (.tdmInputFrame n phase ws) s = .next t ∧
        (InSrc.tdm n (i % (fld (s.reg (tdmReg n 0)) 10 6 + 1)) (i / (fld (s.reg (tdmReg n 0)) 10 6 + 1)),
          { val := codeToF (wordBits (s.reg (tdmReg n 0)))
              ((ws.getD i 0).toNat % 2 ^ slotBits (s.reg (tdmReg n 0)) / 2 ^ (slotBits (s.reg (tdmReg n 0)) - wordBits (s.reg (tdmReg n 0)))),
            ok := true, fb := 0 }) ∈ t.aud.next ∧
        (t.port n).inSeen = true ∧ t.mem = s.mem ∧ t.tiles = s.tiles) ∧
    ∀ (s : State) (n : Fin 24) (phase : Word) (ws : List Word), s.Canonical →
      fld (s.reg (tdmReg n 0)) 0 0 = 1 → (s.port n).stopped = none → fld (s.reg (tdmReg n 0x1C)) 3 3 = 0 → (s.port n).inSeen = true →
      s.reg (tdmReg n 0x24) ≠ 0xFFFFFFFF →
      ∃ t, exec (.tdmInputFrame n phase ws) s = .next t ∧ t.aud = s.aud ∧ t.reg (tdmReg n 0x24) = s.reg (tdmReg n 0x24) + 1 ∧
        (t.reg (tdmReg n 0x1C)).getLsbD 1 = true) ∧
  (∀ (s : State) (n : Fin 24), fld (s.reg (tdmReg n 0)) 0 0 = 1 → fld (s.reg (tdmReg n 0)) 2 2 = 0 → (s.port n).outSeen = false →
      ∃ t, exec (.tdmOutputFrame n) s = .next t ∧
        t.out = .tdm n (s.sample.toNat - fld (s.reg (tdmReg n 0x18)) 7 0)
          ((upFrom 0 (fld (s.reg (tdmReg n 0)) 10 6 + 1)).map fun i =>
            if fld (s.reg (tdmReg n 0x1C)) 3 3 = 1 then none
            else (s.slotOut n (i % (fld (s.reg (tdmReg n 0)) 10 6 + 1)) (i / (fld (s.reg (tdmReg n 0)) 10 6 + 1))).1) :: s.out ∧
        (t.port n).outSeen = true ∧ t.mem = s.mem ∧ t.aud.next = s.aud.next) ∧
  ((∀ (s : State) (n : Fin 24), s.Canonical → fld (s.reg (tdmReg n 0)) 0 0 = 1 → s.drivesClk n = false →
      fld (s.reg (tdmReg n 0x1C)) 3 3 = 0 → (s.port n).sync + 2 ≤ s.sample.toNat →
      ∃ t, exec (.tdmNoclk n) s = .next t ∧ t.reg (tdmReg n 0x1C) = s.reg (tdmReg n 0x1C) ||| 8 ∧
        (t.tile 16).ipend.getLsbD (164 + n) = true ∧ s.SameRegs t [tdmReg n 0x1C] ∧ t.mem = s.mem) ∧
    (∀ (s : State) (n : Fin 24) (phase : Word), s.Canonical → fld (s.reg (tdmReg n 0x1C)) 3 3 = 1 →
      s.inWindow n (toInt 32 phase.toNat) = true →
      ∃ t, exec (.tdmNoclkExit n phase) s = .next t ∧ (t.reg (tdmReg n 0x1C)).getLsbD 3 = false ∧ t.reg (tdmReg n 0x20) = phase ∧
        (t.port n).sync = s.sample.toNat ∧ s.SameRegs t [tdmReg n 0x1C, tdmReg n 0x20] ∧ t.mem = s.mem ∧ t.tiles = s.tiles) ∧
    ∀ (s : State) (n : Fin 24), ∃ t, exec (.portRestart n) s = .next t ∧ (t.port n).stopped = none ∧ t.csr = s.csr ∧ t.mem = s.mem ∧
      t.tiles = s.tiles) ∧
  ((∀ (s : State) (c : Fin 32) (bits : BitVec 64), fld (s.reg (pdmCfg (c / 2))) 0 0 = 1 →
      ∃ t x, exec (.pdmSample c bits) s = .next t ∧ t.aud.next = s.aud.next ++ [(.pdm c, x)] ∧
        x.ok = decide (fld (s.reg (pdmStat c)) 1 0 = 0) ∧ x.fb = 0 ∧ t.csr = s.csr ∧ t.mem = s.mem ∧ t.tiles = s.tiles) ∧
    (∀ (s : State) (c : Fin 32) (k : Nat), s.Canonical → (s.aud.pdm[c]).start = some k → k + 64 ≤ s.sample.toNat →
      ∃ t, exec (.pdmFillDone c) s = .next t ∧ fld (t.reg (pdmStat c)) 0 0 = 0 ∧ (t.aud.pdm[c]).start = none ∧
        s.SameRegs t [pdmStat c] ∧ t.mem = s.mem) ∧
    (∀ (s : State) (c : Fin 32), s.Canonical → 4096 ≤ (s.aud.pdm[c]).top → fld (s.reg (pdmStat c)) 1 1 = 0 →
      fld (s.reg (pdmStat c)) 2 2 = 0 →
      ∃ t, exec (.pdmStuck c) s = .next t ∧ t.reg (pdmStat c) = s.reg (pdmStat c) ||| 6 ∧ (t.tile 16).ipend.getLsbD 188 = true ∧
        s.SameRegs t [pdmStat c] ∧ t.mem = s.mem) ∧
    ∀ (s : State) (c : Fin 32) (k : Nat), s.Canonical → (s.aud.pdm[c]).change = some k → k + 64 ≤ s.sample.toNat →
      fld (s.reg (pdmStat c)) 1 1 = 1 →
      ∃ t, exec (.pdmStuckClear c) s = .next t ∧ fld (t.reg (pdmStat c)) 1 1 = 0 ∧ s.SameRegs t [pdmStat c] ∧ t.mem = s.mem)

/-- A listener places an accepted PDU's instant at the tick of its presentation time and counts it; a PDU of another format is counted and
discarded; at the tick the value held is the stream's input (R309, R311, Table 11-8).

A talker sends its next PDU only while gPTP is synchronised, with its sequence number, which rises by one; without synchronisation it
sets NOSYNC and sends nothing.  A CRF talker sends the PDU of each whole group of its event ticks, which the
model takes at the multiples of the stream's interval (log 90).  A CRF event's phase and frequency are measured (R310, R312).

Answers a next state with its own effect, under conditions on state and operands alone: avtpPduReceive, avtpListenerTick, avtpPduSend,
crfEventReceive. -/
def Obligations.NetworkAudioKeepsItsTime : Prop :=
  ((∀ (s : State) (d : Pdu) (p : Plan) (x : AvtpStream), s.Canonical → s.plan = some p → Plan.listener p d.sid = some x →
      x.ix < 64 → d.fmt = x.fmt → x.fmt < 4 → d.x2 = false → x.x2 = false → d.chans = x.chans → d.chans ≠ 0 → d.smps.length = d.chans →
      s.sample.toNat < s.pduTick x.ix d → s.pduTick x.ix d ≤ s.sample.toNat + 512 →
      ((s.listenOf x.ix).held.any fun e => decide (e.1 = 2 * s.pduTick x.ix d)) = false →
      s.reg (ethReg d.port 0xC4) ≠ 0xFFFFFFFF →
      ∃ t, exec (.avtpPduReceive d) s = .next t ∧
        (t.listenOf x.ix).held = (s.listenOf x.ix).held ++ [(2 * s.pduTick x.ix d, d.smps)] ∧
        (t.listenOf x.ix).seq = some d.seq ∧
        t.reg (ethReg d.port 0xC4) = s.reg (ethReg d.port 0xC4) + 1 ∧ t.mem = s.mem) ∧
    (∀ (s : State) (d : Pdu) (p : Plan) (x : AvtpStream), s.Canonical → s.plan = some p → Plan.listener p d.sid = some x →
      x.ix < 64 → d.fmt ≠ x.fmt → s.reg (ethReg d.port 0xC8) ≠ 0xFFFFFFFF →
      ∃ t, exec (.avtpPduReceive d) s = .next t ∧ t.aud.listen.map (·.held) = s.aud.listen.map (·.held) ∧
        t.reg (ethReg d.port 0xC8) = s.reg (ethReg d.port 0xC8) + 1 ∧ (t.reg (strmReg x.ix)).getLsbD 5 = true ∧ t.mem = s.mem) ∧
    ∀ (s : State) (k : Fin 32) (p : Plan) (x : AvtpStream) (c : Nat) (e : Nat × List Word), s.plan = some p →
      (p.streams.find? fun y => decide (y.ix = 32 + k.val)) = some x → x.x2 = false → c < x.chans →
      (s.aud.listen[k].held.find? fun e => decide (e.1 = 2 * (s.sample.toNat + 1))) = some e →
      ∃ t, exec (.avtpListenerTick k) s = .next t ∧
        (InSrc.avtp k c 0, pduSample x.fmt (x.fb.contains c) (e.2.getD c 0)) ∈ t.aud.next ∧
        (∀ h ∈ (t.aud.listen[k]).held, 2 * (s.sample.toNat + 1) < h.1) ∧ t.csr = s.csr ∧ t.mem = s.mem) ∧
  ((∀ (s : State) (k : Fin 32) (p : Plan) (x : AvtpStream), s.plan = some p →
      (p.streams.find? fun y => decide (y.ix = k.val) && decide (y.ix < 32)) = some x → s.gptpSync = true → x.fmt ≠ 4 → x.x2 = false → x.spp ≠ 0 →
      s.bsize ≠ 0 → s.dev.sched.kf = none →
      (p.outMap.any fun e => (match e.dst with | .avtp i _ _ => decide (i = k.val) | _ => false) && !s.owns e.ix) = false →
      (s.aud.talk[k]).blk = s.blk → (s.aud.talk[k]).pdu < s.bsize / x.spp →
      ∃ t ws, exec (.avtpPduSend k) s = .next t ∧ ws.length = x.spp * x.chans ∧
        (t.net.tx.getLast?.map fun f => f.what) = some (.avtp k (s.aud.talk[k]).seq 
          (presStamp x (s.tickTime (s.blk * s.bsize + (s.aud.talk[k]).pdu * x.spp))) ws) ∧
        (t.aud.talk[k]).seq = (s.aud.talk[k]).seq + 1 ∧ (t.aud.talk[k]).pdu = (s.aud.talk[k]).pdu + 1 ∧ t.mem = s.mem) ∧
    (∀ (s : State) (k : Fin 32) (p : Plan) (x : AvtpStream), s.plan = some p →
      (p.streams.find? fun y => decide (y.ix = k.val) && decide (y.ix < 32)) = some x → s.gptpSync = false →
      ∃ t, exec (.avtpPduSend k) s = .next t ∧ t.net.tx = s.net.tx ∧ t.aud = s.aud ∧ s.SameRegs t [strmReg k] ∧ t.mem = s.mem) ∧
    (∀ (s : State) (k : Fin 32) (p : Plan) (x : AvtpStream) (g : Nat), s.plan = some p →
      (p.streams.find? fun y => decide (y.ix = k.val) && decide (y.ix < 32)) = some x → s.gptpSync = true → x.fmt = 4 → x.spp * x.ivl ≠ 0 →
      g = s.sample.toNat / (x.spp * x.ivl) → g ≠ 0 → g ≠ (s.aud.talk[k]).blk →
      ∃ t q, exec (.avtpPduSend k) s = .next t ∧ (t.net.tx.getLast?.map fun f => f.what) = some (.avtp k (s.aud.talk[k]).seq q
          ((upFrom 0 x.spp).map fun j => presStamp x (s.tickTime (((g - 1) * x.spp + j) * x.ivl)))) ∧
        (t.aud.talk[k]).seq = (s.aud.talk[k]).seq + 1 ∧ (t.aud.talk[k]).blk = g ∧ t.mem = s.mem) ∧
    ∀ (s : State) (m : Fin 4) (phase ppb : Word), s.Canonical → fld (s.reg Csr.aonCfg) 1 0 ≠ 3 →
      ∃ t, exec (.crfEventReceive m phase ppb) s = .next t ∧ t.reg 0x20500610 = phase ∧ t.reg 0x20500614 = ppb ∧
        s.SameRegs t [0x20500610, 0x20500614, ethReg m 0xDC] ∧ t.mem = s.mem ∧ t.aud = s.aud)

/-! ## Convolution engines -/

/-- A submission joins its engine's queue while it holds fewer than 64 jobs, else it waits in the store buffer; the engine takes the oldest
job, and one that a check fails leaves the engine idle (R273, R276, R277, R287).

A job passes through its phases in order while its engine stays enabled: the start latches its table entry and its active slot, those of its
first run where it runs again; phases 2 and 3 take its segments in ascending order; phase 4 ends it and its operation leaves the unit.  A transfer
that was discarded, or an engine that has been disabled, ends it at once (R273, R278, R279, R280, R283, R288).

The service core writes an engine's CTL; a change of EN to 0 empties its queue and marks its running job to end; a write of anyone else is discarded and counted
(R17, R288).

Answers a next state with its own effect, under conditions on state and operands alone: ceJobTake, cePhaseAdvance, ceJobQueue, ceCtlWrite. -/
def Obligations.ConvolutionEnginesRunJobs : Prop :=
  ((∀ (s : State) (u : UnitIx) (f : FarOp) (k : Fin 4), (s.tile u).nextSub = some f → f.ga.toNat % 4 = k.val → (s.eng k).queue.length < 64 →
      ∃ t, exec (.ceJobQueue u) s = .next t ∧
        (t.eng k).queue = (s.eng k).queue ++ [{ unit := u, far := f.seq, op := (s.tile u).opId f, job := f.len, block := leNat f.data }] ∧
        (t.eng k).run = (s.eng k).run ∧ s.SameUnits t u ∧ t.mem = s.mem ∧ t.csr = s.csr) ∧
    (∀ (s : State) (u : UnitIx) (f : FarOp) (k : Fin 4), (s.tile u).nextSub = some f → f.ga.toNat % 4 = k.val →
      64 ≤ (s.eng k).queue.length → exec (.ceJobQueue u) s = .next s) ∧
    (∀ (s : State) (k : Fin 4) (e : CeEntry) (rest : List CeEntry), (s.eng k).run = none → (s.eng k).queue = e :: rest →
      s.ceHeld = false → s.ceCheck k e = none →
      ∃ t, exec (.ceJobTake k) s = .next t ∧ (t.eng k).queue = rest ∧ (t.eng k).cur = e.job ∧
        (t.eng k).run = some { ent := e, phase := .start, entry := [], setB := false, xfade := false, flags := 0, b := s.bsize
                               k0 := s.dev.sched.k0, seg := 0, dead := false, outs := [] } ∧
        t.tiles = s.tiles ∧ t.mem = s.mem ∧ t.csr = s.csr ∧ ∀ j, j ≠ k → t.eng j = s.eng j) ∧
    (∀ (s : State) (k : Fin 4) (e : CeEntry) (rest : List CeEntry) (st : Nat), (s.eng k).run = none → (s.eng k).queue = e :: rest →
      s.ceHeld = false → s.ceCheck k e = some st → (s.tile e.unit).waiting = false →
      ∃ t, exec (.ceJobTake k) s = .next t ∧ (t.eng k).queue = rest ∧ (t.eng k).run = none ∧ s.EventsOnly t e.unit ∧ t.mem = s.mem) ∧
    ∀ (s : State) (k : Fin 4), s.ceHeld = true → exec (.ceJobTake k) s = .next s) ∧
  ((∀ (s : State) (k : Fin 4) (r : CeRunning) (cyc : Nat), (s.eng k).run = some r → r.phase = .start → r.dead = false → s.ceEn k = true →
      s.reg (Csr.leaveCe k.val) ≠ 0 → s.ueIn [(ceAddr k (64 * r.ent.job), 64)] = none →
      (∀ y ∈ (s.eng k).runs, ¬(y.1 = r.ent.job ∧ y.2.1 = r.ent.block)) →
      ∃ t q, exec (.cePhaseAdvance k none cyc) s = .next t ∧ (t.eng k).run = some q ∧ q.phase = .input ∧ q.ent = r.ent ∧ q.seg = r.seg ∧
        q.entry = s.bytes (ceAddr k (64 * r.ent.job)) 64 ∧ q.setB = (s.eng k).setB.contains r.ent.job ∧ t.mem = s.mem ∧ t.tiles = s.tiles) ∧
    (∀ (s : State) (k : Fin 4) (r : CeRunning) (cyc : Nat) (y : Nat × Nat × Bool × Bool), (s.eng k).run = some r → r.phase = .start →
      r.dead = false → s.ceEn k = true → s.reg (Csr.leaveCe k.val) ≠ 0 → s.ueIn [(ceAddr k (64 * r.ent.job), 64)] = none →
      (s.eng k).runs = [y] → y.1 = r.ent.job → y.2.1 = r.ent.block →
      ∃ t q, exec (.cePhaseAdvance k none cyc) s = .next t ∧ (t.eng k).run = some q ∧ q.phase = .input ∧ q.ent = r.ent ∧
        q.setB = y.2.2.1 ∧ q.xfade = y.2.2.2 ∧ t.mem = s.mem ∧ t.tiles = s.tiles) ∧
    (∀ (s : State) (k : Fin 4) (r : CeRunning) (cyc : Nat) (j : CeJob) (rs : List (Nat × Nat) × List (Nat × Nat)), (s.eng k).run = some r →
      r.phase = .input → r.dead = false → s.ceEn k = true → j = CeJob.ofBytes r.entry →
      rs = j.inputReads k (localBase r.ent.unit) (j.segIx r.b r.k0 r.ent.block r.seg) r.seg → s.ueIn (rs.1 ++ rs.2) = none →
      ∃ t q, exec (.cePhaseAdvance k none cyc) s = .next t ∧ (t.eng k).run = some q ∧ q.phase = .accumulate ∧ q.ent = r.ent ∧
        q.entry = r.entry ∧ q.setB = r.setB ∧ q.xfade = r.xfade ∧ q.seg = r.seg ∧ t.tiles = s.tiles) ∧
    (∀ (s : State) (k : Fin 4) (r : CeRunning) (cyc : Nat), (s.eng k).run = some r → r.phase = .accumulate → r.dead = false →
      s.ceEn k = true → s.ecc = [] →
      ∃ t q, exec (.cePhaseAdvance k none cyc) s = .next t ∧ (t.eng k).run = some q ∧ q.ent = r.ent ∧ q.entry = r.entry ∧
        (if r.seg + 1 < (CeJob.ofBytes r.entry).segs r.b then q.phase = .input ∧ q.seg = r.seg + 1 else q.phase = .output ∧ q.seg = r.seg) ∧
        t.tiles = s.tiles) ∧
    (∀ (s : State) (k : Fin 4) (r : CeRunning) (cyc : Nat), (s.eng k).run = some r → r.phase = .output → r.dead = false →
      s.ceEn k = true → s.ecc = [] → s.fab.rows = [] → s.fab.marks = [] → (s.tile r.ent.unit).waiting = false →
      ∃ t, exec (.cePhaseAdvance k none cyc) s = .next t ∧ (t.eng k).run = none ∧ (t.eng k).queue = (s.eng k).queue ∧
        (t.tile r.ent.unit).far = (s.tile r.ent.unit).far.filter (fun f => decide (f.seq ≠ r.ent.far)) ∧ s.SameUnits t r.ent.unit) ∧
    (∀ (s : State) (k : Fin 4) (r : CeRunning) (a : BitVec 36) (cyc : Nat), (s.eng k).run = some r → s.fab.rows = [] → s.fab.marks = [] →
      (s.tile r.ent.unit).waiting = false →
      ∃ t, exec (.cePhaseAdvance k (some a) cyc) s = .next t ∧ (t.eng k).run = none ∧ s.EventsOnly t r.ent.unit) ∧
    (∀ (s : State) (k : Fin 4) (r : CeRunning) (ferr : Option (BitVec 36)) (cyc : Nat), (s.eng k).run = some r →
      (r.dead = true ∨ s.ceEn k = false) → (s.tile r.ent.unit).waiting = false →
      ∃ t, exec (.cePhaseAdvance k ferr cyc) s = .next t ∧ (t.eng k).run = none ∧ s.EventsOnly t r.ent.unit ∧ t.mem = s.mem) ∧
    ∀ (s : State) (k : Fin 4) (ferr : Option (BitVec 36)) (cyc : Nat), (s.eng k).run = none →
      exec (.cePhaseAdvance k ferr cyc) s = .next s) ∧
  ((∀ (s : State) (k : Fin 4) (v : Word), s.Canonical → fld v 0 0 = 1 →
      ∃ t, exec (.ceCtlWrite k (.tile 16) v) s = .next t ∧ t.reg (Csr.ceBase k.val) = v &&& 0x3FF ∧
        s.SameRegs t [Csr.ceBase k.val] ∧ t.ce = s.ce ∧ t.tiles = s.tiles ∧ t.mem = s.mem) ∧
    (∀ (s : State) (k : Fin 4) (v : Word), s.Canonical → fld v 0 0 = 0 → s.ceEn k = true →
      (∀ e ∈ (s.eng k).queue, (s.tile e.unit).waiting = false) →
      ∃ t, exec (.ceCtlWrite k (.tile 16) v) s = .next t ∧ t.reg (Csr.ceBase k.val) = v &&& 0x3FF ∧ (t.eng k).queue = [] ∧
        (t.eng k).run = (s.eng k).run.map (fun r => { r with dead := true }) ∧ t.mem = s.mem) ∧
    ∀ (s : State) (k : Fin 4) (r : Requester) (v : Word), s.Canonical → r ≠ .tile 16 →
      ∃ t, exec (.ceCtlWrite k r v) s = .next t ∧ s.SameRegs t [Csr.wrDisc] ∧
        (t.reg Csr.wrDisc).toNat = min 0xFFFFFFFF ((s.reg Csr.wrDisc).toNat + 1) ∧ t.ce = s.ce ∧ t.tiles = s.tiles ∧ t.mem = s.mem)

/-! ## Far accesses, semaphores and spores -/

/-- A far load or store is performed at its target bank: a store writes its bytes and no others, a load brings the bytes back; a held load
leaves when no earlier store overlaps it (R140, R141).

A transfer that fails its CRC is counted and reported, and the far operation it belongs to is over with FABRIC_ERR, and a
far access of a routine's element is answered so; one that passes changes nothing (R28, R134).

A far operation that has been answered leaves the unit; a load that succeeded has written its bytes (R129, R140).

Answers a next state with its own effect, under conditions on state and operands alone: ticketComplete, farAccessPerform, heldFarLoadRelease,
fabricTransferReceive. -/
def Obligations.FarAccessesReachTheirTarget : Prop :=
  ((∀ (s : State) (u : UnitIx) (n : Nat) (f : FarOp) (ext : Option (List Byte)), s.Canonical → s.OneShadow → s.dev.up = true →
      s.fab.rows = [] → s.fab.marks = [] →
      s.farAt u n = some f → f.kind = .fst → f.phase = .sent → s.asked u f = false → s.storeBefore u f = false →
      regionOf f.ga.toNat = .bank → f.ga.toNat < 0x0D000000 → oneBank f.ga.toNat f.data.length = true →
      ∃ t, exec (.farAccessPerform u n ext) s = .next t ∧ t.bytes f.ga.toNat f.data.length = f.data ∧
        (∀ b < 2 ^ 36, (b < f.ga.toNat ∨ f.ga.toNat + f.data.length ≤ b) → t.byte b = s.byte b) ∧
        (∀ g, t.farAt u n = some g → g.phase = .done 0) ∧ s.SameUnits t u) ∧
    (∀ (s : State) (u : UnitIx) (n : Nat) (f : FarOp) (ext : Option (List Byte)), s.dev.up = true → s.fab.rows = [] →
      s.farAt u n = some f → f.kind = .fld → f.phase = .sent → s.asked u f = false → regionOf f.ga.toNat = .bank →
      oneBank f.ga.toNat f.len = true → s.hasUe f.ga.toNat f.len = false →
      ∃ t, exec (.farAccessPerform u n ext) s = .next t ∧ t.mem = s.mem ∧ s.SameUnits t u ∧
        t.farAt u n = some { f with phase := .done 0, data := s.bytes f.ga.toNat f.len }) ∧
    (∀ (s : State) (u : UnitIx) (n : Nat) (f : FarOp) (ext : Option (List Byte)), s.dev.up = true → s.fab.rows = [] →
      s.farAt u n = some f → f.kind = .fld → f.phase = .sent → s.asked u f = false → regionOf f.ga.toNat = .unmapped →
      ∃ t, exec (.farAccessPerform u n ext) s = .next t ∧ t.mem = s.mem ∧ t.farAt u n = some { f with phase := .done 2, data := [] }) ∧
    (∀ (s : State) (u : UnitIx) (n : Nat) (f : FarOp), s.dev.up = true → s.farAt u n = some f → f.phase = .held →
      (∀ g ∈ (s.tile u).far, g.kind ≠ .fst) →
      ∃ t, exec (.heldFarLoadRelease u n) s = .next t ∧ t.farAt u n = some { f with phase := .sent } ∧ s.SameUnits t u ∧ t.mem = s.mem ∧
        t.csr = s.csr) ∧
    ∀ (s : State) (u : UnitIx) (n : Nat) (f g : FarOp), s.dev.up = true → s.farAt u n = some f → f.phase = .held → g ∈ (s.tile u).far →
      g.kind = .fst → g.seq < f.seq → g.phase = .sent → overlaps g.ga.toNat g.len f.ga.toNat f.len = true →
      exec (.heldFarLoadRelease u n) s = .next s) ∧
  ((∀ (s : State) (p : PortIx) (x : Option XferOf), exec (.fabricTransferReceive p x true) s = .next s) ∧
    (∀ (s : State) (p : PortIx), s.Canonical → s.dev.up = true → fld (s.reg Csr.crcPort) 5 5 = 0 →
      ∃ t, exec (.fabricTransferReceive p none false) s = .next t ∧
        (t.reg Csr.crcCnt).toNat = min 0xFFFFFFFF ((s.reg Csr.crcCnt).toNat + 1) ∧ t.reg Csr.crcPort = BitVec.ofNat 32 (p.val + 32) ∧
        s.SameRegs t [Csr.crcCnt, Csr.crcPort] ∧ t.tiles = s.tiles ∧ t.mem = s.mem ∧ t.lk = s.lk) ∧
    (∀ (s : State) (p : PortIx) (u : UnitIx) (e : Fin 2) (r : Run) (j : Job), s.dev.up = true → (s.tile u).re[e] = some r →
      ((s.tile u).ticket r.tkt).job = some j → j.isLocal = false →
      ∃ t, exec (.fabricTransferReceive p (some (.elem u e false)) false) s = .next t ∧ (t.tile u).re[e] = some { r with ans := some (9, []) } ∧
        s.SameUnits t u ∧ t.mem = s.mem) ∧
    ∀ (s : State) (p : PortIx) (u : UnitIx) (n : Nat) (f : FarOp), s.dev.up = true → s.farAt u n = some f → f.phase = .sent →
      ∃ t, exec (.fabricTransferReceive p (some (.far u n)) false) s = .next t ∧ t.farAt u n = some { f with phase := .done 9, data := [] } ∧
        s.SameUnits t u ∧ t.mem = s.mem) ∧
  ((∀ (s : State) (u : UnitIx) (n : Nat) (f : FarOp) (st : Byte), s.dev.up = true → (s.tile u).waiting = false → s.farAt u n = some f →
      (∀ g ∈ (s.tile u).far, g.seq = f.seq → g = f) → (f.phase = .port st ∨ f.phase = .done st) →
      ∃ t, exec (.ticketComplete u n) s = .next t ∧ (t.tile u).far = (s.tile u).far.filter (fun g => decide (g.seq ≠ f.seq)) ∧
        s.SameUnits t u ∧
        (∀ k, f.tkt = some k → ((s.tile u).ticket k).st = .pending → ((t.tile u).ticket k).st = (if st.toNat = 0 then .done else .failed) ∧
          ((t.tile u).ticket k).status = st)) ∧
    ∀ (s : State) (u : UnitIx) (n : Nat) (f : FarOp) (a : Nat), s.Canonical → s.OneShadow → s.dev.up = true → (s.tile u).waiting = false →
      s.farAt u n = some f → f.phase = .done 0 → f.kind = .fld → f.dst = .mem a → a + f.data.length ≤ 0x200000 →
      ∃ t, exec (.ticketComplete u n) s = .next t ∧ t.bytes (localBase u + a) f.data.length = f.data ∧
        ∀ b < 2 ^ 36, (b < localBase u + a ∨ localBase u + a + f.data.length ≤ b) → t.byte b = s.byte b)

/-- An acquire of a semaphore whose count is above 0 takes one and answers 1, else answers 0; a release adds one up to the maximum; the
asking unit is kept as the last; an index above 1023 is unmapped (R255, R256).

A spore goes to the queue of its role's holder, stamped with the role's epoch; while that queue is full it waits (R250, R251).

Answers a next state with its own effect, under conditions on state and operands alone: semaphorePerform, sporeDeliver. -/
def Obligations.SemaphoresAndSporesAreServed : Prop :=
  ((∀ (s : State) (u : UnitIx) (n : Nat) (f : FarOp) (w : Nat), s.Canonical → s.OneShadow → s.dev.up = true → s.farAt u n = some f →
      f.phase = .sent → (f.kind = .semacq ∨ f.kind = .semrel) → f.ga.toNat < 1024 → s.hasUe (semAddr f.ga.toNat) 8 = false →
      (semStep (decide (f.kind = .semacq)) u.val (s.load (semAddr f.ga.toNat) 8)).2 = some w →
      ∃ t, exec (.semaphorePerform u n []) s = .next t ∧ t.load (semAddr f.ga.toNat) 8 = w ∧ s.SameUnits t u ∧
        (∀ b < 2 ^ 36, (b < semAddr f.ga.toNat ∨ semAddr f.ga.toNat + 8 ≤ b) → t.byte b = s.byte b) ∧
        (∀ g, t.farAt u n = some g → g.phase = .done 0 ∧
          g.data = leBytes 4 (semStep (decide (f.kind = .semacq)) u.val (s.load (semAddr f.ga.toNat) 8)).1)) ∧
    (∀ (s : State) (u : UnitIx) (n : Nat) (f : FarOp), s.dev.up = true → s.farAt u n = some f → f.phase = .sent →
      (f.kind = .semacq ∨ f.kind = .semrel) → f.ga.toNat < 1024 → s.hasUe (semAddr f.ga.toNat) 8 = false →
      (semStep (decide (f.kind = .semacq)) u.val (s.load (semAddr f.ga.toNat) 8)).2 = none →
      ∃ t, exec (.semaphorePerform u n []) s = .next t ∧ t.mem = s.mem ∧ s.SameUnits t u ∧
        t.farAt u n = some { f with phase := .done 0, data := leBytes 4 (if f.kind = .semacq then 0 else 3) }) ∧
    (∀ (s : State) (u : UnitIx) (n : Nat) (f : FarOp), s.dev.up = true → s.farAt u n = some f → f.phase = .sent →
      (f.kind = .semacq ∨ f.kind = .semrel) → 1024 ≤ f.ga.toNat →
      ∃ t, exec (.semaphorePerform u n []) s = .next t ∧ t.farAt u n = some { f with phase := .done 2, data := [] } ∧ s.SameUnits t u ∧
        t.mem = s.mem ∧ t.csr = s.csr) ∧
    ∀ c m port : Nat, c < 2 ^ 16 → m < 2 ^ 16 →
      (0 < c → (semStep true port (c + m * 2 ^ 16)) = (1, some (withBits (c - 1 + m * 2 ^ 16) 36 32 port))) ∧
      (c = 0 → (semStep true port (c + m * 2 ^ 16)) = (0, none)) ∧
      (c < m → (semStep false port (c + m * 2 ^ 16)) = (1, some (withBits (c + 1 + m * 2 ^ 16) 36 32 port))) ∧
      (m ≤ c → (semStep false port (c + m * 2 ^ 16)) = (3, none))) ∧
  ((∀ (s : State) (u : UnitIx) (n : Nat) (f : FarOp), s.dev.up = true → s.farAt u n = some f → f.phase = .sent → f.kind = .spore →
      (∀ g ∈ (s.tile u).far, g.kind = .spore → f.seq ≤ g.seq) → s.hasUe (roleAddr f.ga.toNat) 4 = false →
      (s.role f.ga.toNat).2.1 = true → (s.role f.ga.toNat).1 < 17 → s.fab.spill = [] → s.spqFull (s.role f.ga.toNat).1 = false →
      ∃ t, exec (.sporeDeliver u n) s = .next t ∧
        (t.tile (unitIx (s.role f.ga.toNat).1)).spqTail = (s.tile (unitIx (s.role f.ga.toNat).1)).spqTail + 1 ∧
        (t.tile (unitIx (s.role f.ga.toNat).1)).spqHead = (s.tile (unitIx (s.role f.ga.toNat).1)).spqHead ∧
        ∀ g, t.farAt u n = some g → g.phase = .done 0) ∧
    ∀ (s : State) (u : UnitIx) (n : Nat) (f : FarOp), s.dev.up = true → s.farAt u n = some f → f.phase = .sent → f.kind = .spore →
      s.hasUe (roleAddr f.ga.toNat) 4 = false → (s.role f.ga.toNat).2.1 = true → s.spqFull (s.role f.ga.toNat).1 = true →
      exec (.sporeDeliver u n) s = .next s)

/-! ## Streams -/

/-- LAND writes the input's sample at its place in the block; VALID writes the validity map; DRAIN takes an output block; COPY moves bytes;
each counts its step in CH_POS; a channel with no step to run does nothing (R302, R303).

A transfer discarded for its CRC, or a step that cannot be read, stops the channel; the service core restarts a stopped one at the block
it names (R28, R307).

Answers a next state with its own effect, under conditions on state and operands alone: land, valid, drain, copy, channelRestart. -/
def Obligations.StreamChannelsMoveData : Prop :=
  ((∀ (s : State) (c : Fin 96) (i d : Nat), s.Canonical → s.OneShadow → s.NoRows → runsStep s c i 1 → (s.stepOf c.val i).count = 1 →
      (s.stepOf c.val i).dsts = [d] → regionOf (d + 4 * s.landIx) = .bank → d + 4 * s.landIx < 0x0D000000 →
      oneBank (d + 4 * s.landIx) 4 = true →
      ∃ t, exec (.land c false none) s = .next t ∧ t.bytes (d + 4 * s.landIx) 4 = leBytes 4 (s.inputVal (s.stepOf c.val i).src).toNat ∧
        (∀ b < 2 ^ 36, (b < d + 4 * s.landIx ∨ d + 4 * s.landIx + 4 ≤ b) → t.byte b = s.byte b) ∧
        t.reg (chReg c.val 8) = BitVec.ofNat 32 (i % 256 + s.blk % 2 ^ 24 * 256)) ∧
    (∀ (s : State) (c : Fin 96) (i d : Nat), s.Canonical → s.OneShadow → s.NoRows → runsStep s c i 2 → (s.stepOf c.val i).dsts = [d] →
      regionOf d = .bank → d < 0x0D000000 → oneBank d 288 = true →
      ∃ t, exec (.valid c false none) s = .next t ∧ t.bytes d 288 = s.validMap ∧
        (∀ b < 2 ^ 36, (b < d ∨ d + 288 ≤ b) → t.byte b = s.byte b) ∧
        t.reg (chReg c.val 8) = BitVec.ofNat 32 (i % 256 + s.blk % 2 ^ 24 * 256)) ∧
    (∀ (s : State) (c : Fin 96) (i ix : Nat) (p : Plan), s.Canonical → s.NoRows → runsStep s c i 3 → (s.stepOf c.val i).count = 1 →
      (s.stepOf c.val i).dsts = [ix] → (s.stepOf c.val i).zero = false → s.plan = some p → (∀ u, (s.tile u).fenced = false) →
      s.ecc = [] → 0 < s.bsize →
      regionOf (s.stepOf c.val i).src = .bank → oneBank (s.stepOf c.val i).src (4 * s.bsize) = true →
      ∃ t, exec (.drain c none) s = .next t ∧
        t.aud.draining = s.aud.draining.map (fun e =>
          if e.1 = ix then (ix, wordsIn (s.bytes (s.stepOf c.val i).src (4 * s.bsize)) ++ e.2.drop s.bsize) else e) ∧
        t.mem = s.mem ∧ t.reg (chReg c.val 8) = BitVec.ofNat 32 (i % 256 + s.blk % 2 ^ 24 * 256)) ∧
    (∀ (s : State) (c : Fin 96) (i d : Nat), s.Canonical → s.OneShadow → s.NoRows → runsStep s c i 4 → (s.stepOf c.val i).dsts = [d] →
      (s.stepOf c.val i).zero = false → s.ecc = [] → 0 < (s.stepOf c.val i).count →
      (s.stepOf c.val i).src % 64 + (s.stepOf c.val i).count ≤ 64 → regionOf (s.stepOf c.val i).src = .bank →
      oneBank (s.stepOf c.val i).src (s.stepOf c.val i).count = true → regionOf d = .bank → d < 0x0D000000 →
      oneBank d (s.stepOf c.val i).count = true →
      ∃ t, exec (.copy c none none) s = .next t ∧
        t.bytes d (s.stepOf c.val i).count = s.bytes (s.stepOf c.val i).src (s.stepOf c.val i).count ∧
        (∀ b < 2 ^ 36, (b < d ∨ d + (s.stepOf c.val i).count ≤ b) → t.byte b = s.byte b) ∧
        t.reg (chReg c.val 8) = BitVec.ofNat 32 (i % 256 + s.blk % 2 ^ 24 * 256)) ∧
    ∀ (s : State) (c : Fin 96), s.chanNext c.val = none → fld (s.reg (chReg c.val 0)) 3 1 ≠ 4 →
      exec (.land c false none) s = .next s ∧ exec (.valid c false none) s = .next s ∧ exec (.drain c none) s = .next s ∧
        exec (.copy c none none) s = .next s) ∧
  ((∀ (s : State) (c : Fin 96) (i : Nat), s.Canonical → runsStep s c i 4 → 0 < (s.stepOf c.val i).count →
      ∃ t, exec (.copy c (some 0) none) s = .next t ∧ t.chanNext c.val = none ∧ fld (t.reg (chReg c.val 4)) 1 0 = 2 ∧
        fld (t.reg (chReg c.val 4)) 15 8 = 9 ∧ fld (t.reg (chReg c.val 4)) 23 16 = i % 256 ∧ t.mem = s.mem) ∧
    (∀ (s : State) (c : Fin 96) (i : Nat), s.Canonical → s.dev.up = true → s.leaves c.val = true → s.chanNext c.val = some i →
      s.stepUe c.val i = true →
      ∃ t, exec (.drain c none) s = .next t ∧ t.chanNext c.val = none ∧ fld (t.reg (chReg c.val 4)) 1 0 = 2 ∧
        fld (t.reg (chReg c.val 4)) 15 8 = 6 ∧ t.mem = s.mem) ∧
    (∀ (s : State) (c : Fin 96) (blk : Nat), s.dev.up = true → fld (s.reg (chReg c.val 4)) 1 1 = 1 →
      ∃ t, exec (.channelRestart c blk) s = .next t ∧ ((t.aud.chans)[c]).restart = some blk ∧ t.chanNext c.val = s.chanNext c.val ∧
        t.csr = s.csr ∧ t.mem = s.mem ∧ t.tiles = s.tiles) ∧
    ∀ (s : State) (c : Fin 96) (blk : Nat), fld (s.reg (chReg c.val 4)) 1 1 = 0 → exec (.channelRestart c blk) s = .next s)

/-! ## Routine engines -/

/-- The oldest queued operation starts on the lower-numbered free engine, and BMOV reads and keeps its descriptors as it starts; at an element
boundary a routine gives way to a handler's operation and resumes after it (R142, R147, R519).

Element after element, a routine advances; its last one completes its ticket with NORMAL and frees its engine, a microword that fails
its parity with UCODE_FAULT and a report, the routine's checks and an element's own fault with that status and that element (R135, R143, R145).

What the multiply, divide and square-root routines write: exact products of both signs, the low and the high half, the saturated and
rounded Q31 product, quotient and remainder, and the two corners of a division with their flag, the floating-point quotient and root; no other
byte changes (R121, R123, R124, R177).

Answers a next state with its own effect, under conditions on state and operands alone: routineStart, routineElement, routineSuspend,
routineResume. -/
def Obligations.RoutineEnginesAdvance : Prop :=
  ((∀ (s : State) (u : UnitIx) (r : Run) (rest : List Run) (e : Fin 2), s.dev.up = true → (s.tile u).rqueue = r :: rest →
      (s.tile u).freeEngine = some e →
      ∃ t x, exec (.routineStart u) s = .next t ∧ (t.tile u).rqueue = rest ∧ (t.tile u).re[e] = some x ∧ x.tkt = r.tkt ∧ x.elem = r.elem ∧
        x.start = (s.tile u).wall ∧ (t.tile u).a = (s.tile u).a ∧ s.sameTickets t u ∧ s.SameUnits t u ∧ t.mem = s.mem ∧
        (s.ecc = [] → t.csr = s.csr)) ∧
    (∀ (s : State) (u : UnitIx) (r : Run) (rest : List Run) (e : Fin 2) (j : Job), s.dev.up = true → (s.tile u).rqueue = r :: rest →
      (s.tile u).freeEngine = some e → ((s.tile u).ticket r.tkt).job = some j → j.spare = none → j.opc = 0x38 → j.descs = none →
      s.hasUe (localBase u + j.dstAt) 8 = false → s.hasUe (localBase u + j.src1.toNat) 8 = false →
      ∃ t, exec (.routineStart u) s = .next t ∧ ((t.tile u).ticket r.tkt).job = some { j with
        descs := some (BitVec.ofNat 64 (s.localLoad u j.dstAt 8), BitVec.ofNat 64 (s.localLoad u j.src1.toNat 8)) }) ∧
    (∀ (s : State) (u : UnitIx) (e : Fin 2) (r h : Run), s.dev.up = true → (s.tile u).re[e] = some r → (s.tile u).suspFor[e] = some h →
      h.due < r.elem →
      ∃ t x, exec (.routineSuspend u e) s = .next t ∧ (t.tile u).susp[e] = some r ∧ (t.tile u).suspFor[e] = none ∧
        (t.tile u).re[e] = some x ∧ x.tkt = h.tkt ∧ x.elem = h.elem ∧ s.sameTickets t u ∧ s.SameUnits t u ∧ t.mem = s.mem ∧
        (s.ecc = [] → t.csr = s.csr)) ∧
    (∀ (s : State) (u : UnitIx) (e : Fin 2) (r : Run), s.dev.up = true → (s.tile u).re[e] = none → (s.tile u).suspFor[e] = none →
      (s.tile u).susp[e] = some r →
      ∃ t x, exec (.routineResume u e) s = .next t ∧ (t.tile u).susp[e] = none ∧ (t.tile u).re[e] = some x ∧ x.tkt = r.tkt ∧ x.elem = r.elem ∧
        x.start = (s.tile u).wall ∧ x.resumed = true ∧ s.sameTickets t u ∧ s.SameUnits t u ∧ t.mem = s.mem ∧ (s.ecc = [] → t.csr = s.csr)) ∧
    ∀ (s : State) (u : UnitIx) (e : Fin 2) (r : Run), (s.tile u).re[e] = some r → (s.tile u).suspFor[e] = none →
      (∀ (k : Fin 2) (x : Run), (s.tile u).re[k] = some x → x.fresh = false) →
      exec (.routineResume u e) s = .next s ∧ exec (.routineSuspend u e) s = .next s) ∧
  ((∀ (s : State) (u : UnitIx) (e : Fin 2) (r : Run) (j : Job) (n : Nat) (ext : Option (List Byte)), s.dev.up = true →
      (s.tile u).re[e] = some r → ((s.tile u).ticket r.tkt).job = some j → (s.tile u).elementNow e r j = true → (s.tile u).entryBad j r = false →
      s.elemCount u j = .ok n → r.elem + 1 < n → (s.element u j r ext).held = false → (s.element u j r ext).st = 0 →
      ∃ t x, exec (.routineElement u e false ext) s = .next t ∧ (t.tile u).re[e] = some x ∧ x.tkt = r.tkt ∧ x.elem = r.elem + 1 ∧
        ((t.tile u).ticket r.tkt).st = (((s.element u j r ext).act s).tile u |>.ticket r.tkt).st ∧
        t.mem = ((s.element u j r ext).act s).mem) ∧
    (∀ (s : State) (u : UnitIx) (e : Fin 2) (r : Run) (j : Job) (ext : Option (List Byte)), elementDue s u e r j → j.spare = none →
      j.opc.toNat < 0x28 → 0x20 ≤ j.opc.toNat → r.elem = 0 →
      ∃ t, exec (.routineElement u e false ext) s = .next t ∧ (t.tile u).re[e] = none ∧ ((t.tile u).ticket r.tkt).st = .done ∧
        ((t.tile u).ticket r.tkt).status = 0 ∧ s.SameUnits t u) ∧
    (∀ (s : State) (u : UnitIx) (e : Fin 2) (r : Run) (j : Job) (ext : Option (List Byte)), s.dev.up = true →
      (s.tile u).re[e] = some r → (∀ k : Fin 2, (s.tile u).suspFor[k] = none) → (s.tile u).waiting = false →
      ((s.tile u).ticket r.tkt).st = .pending → ((s.tile u).ticket r.tkt).job = some j → (s.tile u).elementNow e r j = true →
      ∃ t, exec (.routineElement u e true ext) s = .next t ∧ (t.tile u).re[e] = none ∧ ((t.tile u).ticket r.tkt).st = .failed ∧
        ((t.tile u).ticket r.tkt).status = 0x0B ∧ (t.tile u).a = (s.tile u).a ∧ (t.tile u).v = (s.tile u).v ∧ s.SameUnits t u ∧
        t.mem = s.mem ∧ (s.ecc = [] → t.csr = s.csr ∧ ∃ d, t.reports = s.reports ++ [d] ∧ d.code = 0x0113)) ∧
    (∀ (s : State) (u : UnitIx) (e : Fin 2) (r : Run) (j : Job) (st fa : Nat) (ext : Option (List Byte)), elementDue s u e r j →
      s.elemCount u j = .error (st, fa) → 0 < st →
      ∃ t, exec (.routineElement u e false ext) s = .next t ∧ (t.tile u).re[e] = none ∧ ((t.tile u).ticket r.tkt).st = .failed ∧
        ((t.tile u).ticket r.tkt).status = BitVec.ofNat 8 st ∧ ((t.tile u).ticket r.tkt).elem = BitVec.ofNat 16 r.elem ∧ s.SameUnits t u ∧
        t.mem = s.mem) ∧
    (∀ (s : State) (u : UnitIx) (e : Fin 2) (r : Run) (j : Job) (n : Nat) (ext : Option (List Byte)), elementDue s u e r j →
      s.elemCount u j = .ok n → r.elem < n → j.isLocal = true → (s.element u j r ext).st ≠ 0 →
      ∃ t, exec (.routineElement u e false ext) s = .next t ∧ (t.tile u).re[e] = none ∧ ((t.tile u).ticket r.tkt).st = .failed ∧
        ((t.tile u).ticket r.tkt).status = BitVec.ofNat 8 (s.element u j r ext).st ∧
        ((t.tile u).ticket r.tkt).elem = BitVec.ofNat 16 r.elem ∧ s.SameUnits t u ∧ t.mem = s.mem) ∧
    ∀ (s : State) (u : UnitIx) (e : Fin 2) (bad : Bool) (ext : Option (List Byte)), (s.tile u).re[e] = none →
      exec (.routineElement u e bad ext) s = .next s) ∧
  ((∀ (s : State) (u : UnitIx) (e : Fin 2) (r : Run) (j : Job) (a : Nat) (x y : Int), s.Canonical → s.OneShadow →
      lastElement s u e r j a → toInt 32 j.src1.toNat = x → toInt 32 j.src2.toNat = y → j.opc = 0x10 →
      ∃ t, exec (.routineElement u e false none) s = .next t ∧ toInt 64 (t.load (localBase u + a) 8) = x * y ∧
        (t.tile u).istat = (s.tile u).istat ∧ ∀ b < 2 ^ 36, (b < localBase u + a ∨ localBase u + a + 8 ≤ b) → t.byte b = s.byte b) ∧
    (∀ (s : State) (u : UnitIx) (e : Fin 2) (r : Run) (j : Job) (a : Nat), s.Canonical → s.OneShadow → lastElement s u e r j a → j.opc = 0x11 →
      ∃ t, exec (.routineElement u e false none) s = .next t ∧
        t.load (localBase u + a) 8 = (j.src1.toNat % 2 ^ 32) * (j.src2.toNat % 2 ^ 32) ∧ (t.tile u).istat = (s.tile u).istat) ∧
    (∀ (s : State) (u : UnitIx) (e : Fin 2) (r : Run) (j : Job) (a : Nat), s.Canonical → s.OneShadow → lastElement s u e r j a → j.opc = 0x12 →
      ∃ t, exec (.routineElement u e false none) s = .next t ∧
        t.load (localBase u + a) 8 = j.src1.toNat * j.src2.toNat % 2 ^ 64 ∧ (t.tile u).istat = (s.tile u).istat) ∧
    (∀ (s : State) (u : UnitIx) (e : Fin 2) (r : Run) (j : Job) (a : Nat), s.Canonical → s.OneShadow → lastElement s u e r j a → j.opc = 0x13 →
      ∃ t, exec (.routineElement u e false none) s = .next t ∧
        toInt 64 (t.load (localBase u + a) 8) = toInt 64 j.src1.toNat * toInt 64 j.src2.toNat / 2 ^ 64) ∧
    (∀ (s : State) (u : UnitIx) (e : Fin 2) (r : Run) (j : Job) (a : Nat), s.Canonical → s.OneShadow → lastElement s u e r j a → j.opc = 0x14 →
      ∃ t, exec (.routineElement u e false none) s = .next t ∧ t.load (localBase u + a) 8 = j.src1.toNat * j.src2.toNat / 2 ^ 64) ∧
    (∀ (s : State) (u : UnitIx) (e : Fin 2) (r : Run) (j : Job) (a : Nat), s.Canonical → s.OneShadow → lastElement s u e r j a → j.opc = 0x15 →
      ∃ t, exec (.routineElement u e false none) s = .next t ∧
        toInt 32 (t.load (localBase u + a) 4) = min (2 ^ 31 - 1) ((toInt 32 j.src1.toNat * toInt 32 j.src2.toNat + 2 ^ 30) / 2 ^ 31) ∧
        (t.tile u).istat = (if toInt 32 j.src1.toNat = -2 ^ 31 ∧ toInt 32 j.src2.toNat = -2 ^ 31
          then (s.tile u).istat ||| BitVec.ofNat 32 iSAT else (s.tile u).istat) ∧
        ∀ b < 2 ^ 36, (b < localBase u + a ∨ localBase u + a + 4 ≤ b) → t.byte b = s.byte b) ∧
    (∀ (s : State) (u : UnitIx) (e : Fin 2) (r : Run) (j : Job) (a : Nat), s.Canonical → s.OneShadow → lastElement s u e r j a → j.opc = 0x18 →
      j.src2.toNat % 2 ^ 32 ≠ 0 → ¬(toInt 32 j.src1.toNat = -2 ^ 31 ∧ toInt 32 j.src2.toNat = -1) →
      ∃ t, exec (.routineElement u e false none) s = .next t ∧
        toInt 32 (t.load (localBase u + a) 4) = Int.tdiv (toInt 32 j.src1.toNat) (toInt 32 j.src2.toNat) ∧
        toInt 32 (t.load (localBase u + a + 4) 4) = Int.tmod (toInt 32 j.src1.toNat) (toInt 32 j.src2.toNat) ∧
        (t.tile u).istat = (s.tile u).istat ∧ ∀ b < 2 ^ 36, (b < localBase u + a ∨ localBase u + a + 8 ≤ b) → t.byte b = s.byte b) ∧
    (∀ (s : State) (u : UnitIx) (e : Fin 2) (r : Run) (j : Job) (a : Nat), s.Canonical → s.OneShadow → lastElement s u e r j a →
      (j.opc = 0x18 ∨ j.opc = 0x19) → j.src2.toNat % 2 ^ 32 = 0 →
      ∃ t, exec (.routineElement u e false none) s = .next t ∧ t.load (localBase u + a) 4 = 0xFFFFFFFF ∧
        t.load (localBase u + a + 4) 4 = j.src1.toNat % 2 ^ 32 ∧ (t.tile u).istat = (s.tile u).istat ||| BitVec.ofNat 32 iDZ ∧
        ((t.tile u).ticket r.tkt).st = .done) ∧
    (∀ (s : State) (u : UnitIx) (e : Fin 2) (r : Run) (j : Job) (a : Nat), s.Canonical → s.OneShadow → lastElement s u e r j a → j.opc = 0x18 →
      toInt 32 j.src1.toNat = -2 ^ 31 → toInt 32 j.src2.toNat = -1 →
      ∃ t, exec (.routineElement u e false none) s = .next t ∧ toInt 32 (t.load (localBase u + a) 4) = -2 ^ 31 ∧
        t.load (localBase u + a + 4) 4 = 0 ∧ (t.tile u).istat = (s.tile u).istat ||| BitVec.ofNat 32 iOV ∧
        ((t.tile u).ticket r.tkt).st = .done) ∧
    (∀ (s : State) (u : UnitIx) (e : Fin 2) (r : Run) (j : Job) (a : Nat), s.Canonical → s.OneShadow → lastElement s u e r j a → j.opc = 0x1B →
      j.src2 ≠ 0 →
      ∃ t, exec (.routineElement u e false none) s = .next t ∧ t.load (localBase u + a) 8 = j.src1.toNat / j.src2.toNat ∧
        t.load (localBase u + a + 8) 8 = j.src1.toNat % j.src2.toNat) ∧
    ∀ (s : State) (u : UnitIx) (e : Fin 2) (r : Run) (j : Job) (a : Nat), s.Canonical → s.OneShadow → lastElement s u e r j a →
      (j.opc = 0x20 → ∃ t, exec (.routineElement u e false none) s = .next t ∧
        t.bytes (localBase u + a) 4 = leBytes 4 (f32.div (FMode.ofBits j.fmode) j.src1.toNat j.src2.toNat).bits) ∧
      (j.opc = 0x23 → ∃ t, exec (.routineElement u e false none) s = .next t ∧
        t.bytes (localBase u + a) 8 = leBytes 8 (f64.sqrt (FMode.ofBits j.fmode) j.src1.toNat).bits))

/-! ## Results, traps and interrupts -/

/-- A due result retires in a cycle without a frond: registers, predicates, vector bits under their mask, memory bytes, system registers and
flags, each alone; with nothing pending nothing happens (R86, R119, R191, R226).

Answers a next state with its own effect, under conditions on state and operands alone: resultRetire. -/
def Obligations.DueResultsRetire : Prop :=
  (∀ (s : State) (u : UnitIx) (c : BitVec 2) (i : BitVec 4) (v : Word), oneDue s u (.areg c i v) → (c.toNat < 2 ∨ i.toNat < 8) →
    ∃ t, exec (.resultRetire u) s = .next t ∧ (t.tile u).areg c i = v ∧ (t.tile u).pend = [] ∧
      (∀ d k, (d ≠ c ∨ k ≠ i) → (t.tile u).areg d k = (s.tile u).areg d k) ∧
      (t.tile u).v = (s.tile u).v ∧ (t.tile u).p = (s.tile u).p ∧ (t.tile u).pc = (s.tile u).pc ∧ s.SameUnits t u ∧ t.mem = s.mem ∧ t.csr = s.csr) ∧
  (∀ (s : State) (u : UnitIx) (r : BitVec 5) (m v : VReg), oneDue s u (.vec r m v) →
    ∃ t, exec (.resultRetire u) s = .next t ∧ (t.tile u).vreg r = blend ((s.tile u).vreg r) m v ∧ fld (t.tile u).status 11 11 = 1 ∧
      (∀ q, q ≠ r → (t.tile u).vreg q = (s.tile u).vreg q) ∧ (t.tile u).a = (s.tile u).a ∧ (t.tile u).p = (s.tile u).p ∧
      s.SameUnits t u ∧ t.mem = s.mem ∧ t.csr = s.csr) ∧
  (∀ (s : State) (u : UnitIx) (i : BitVec 3) (b : Bool), oneDue s u (.pred i b) →
    ∃ t, exec (.resultRetire u) s = .next t ∧ (t.tile u).p.getLsbD i.toNat = b ∧
      (∀ k < 8, k ≠ i.toNat → (t.tile u).p.getLsbD k = (s.tile u).p.getLsbD k) ∧ (t.tile u).a = (s.tile u).a ∧
      s.SameUnits t u ∧ t.mem = s.mem ∧ t.csr = s.csr) ∧
  (∀ (s : State) (u : UnitIx) (a : Nat) (bs : List Byte), s.Canonical → s.OneShadow → oneDue s u (.mem a bs) →
    a + bs.length ≤ 0x200000 →
    ∃ t, exec (.resultRetire u) s = .next t ∧ t.bytes (localBase u + a) bs.length = bs ∧ (t.tile u).a = (s.tile u).a ∧
      (t.tile u).v = (s.tile u).v ∧ (t.tile u).p = (s.tile u).p ∧ s.SameUnits t u ∧
      ∀ b < 2 ^ 36, (b < localBase u + a ∨ localBase u + a + bs.length ≤ b) → t.byte b = s.byte b) ∧
  (∀ (s : State) (u : UnitIx) (f : Word), oneDue s u (.istat f) →
    ∃ t, exec (.resultRetire u) s = .next t ∧ (t.tile u).istat = (s.tile u).istat ||| f ∧ (t.tile u).a = (s.tile u).a ∧
      s.SameUnits t u ∧ t.mem = s.mem ∧ t.csr = s.csr) ∧
  (∀ (s : State) (u : UnitIx) (f : BitVec 5) (l0 : Nat) (pc : Word) (slot : BitVec 3), oneDue s u (.fflags f 0 l0 pc slot) →
    ∃ t, exec (.resultRetire u) s = .next t ∧ (t.tile u).fcsr = (s.tile u).fcsr ||| f.setWidth 32 ∧ (t.tile u).a = (s.tile u).a ∧
      s.SameUnits t u ∧ t.mem = s.mem ∧ t.csr = s.csr) ∧
  (∀ (s : State) (u : UnitIx) (v : Word), oneDue s u (.vcfg v) →
    ∃ t, exec (.resultRetire u) s = .next t ∧ (t.tile u).vcfg = v ∧ s.SameUnits t u ∧ t.mem = s.mem ∧ t.csr = s.csr) ∧
  (∀ (s : State) (u : UnitIx) (k : TicketIx) (st : Byte), oneDue s u (.tdone k st) → ((s.tile u).ticket k).st = .pending →
    ∃ t, exec (.resultRetire u) s = .next t ∧ ((t.tile u).ticket k).st = (if st = 0 then .done else .failed) ∧
      ((t.tile u).ticket k).status = st ∧ s.SameUnits t u ∧ t.mem = s.mem ∧ t.csr = s.csr) ∧
  (∀ (s : State) (u : UnitIx) (r : BitVec 5) (a : Nat) (m : BitVec 64) (d : VReg), s.Canonical → s.OneShadow →
    oneDue s u (.vst r a m (some d)) → a + 64 ≤ 0x200000 →
    ∃ t, exec (.resultRetire u) s = .next t ∧
      (∀ i < 64, t.byte (localBase u + a + i) = if m.getLsbD i then d.extractLsb' (8 * i) 8 else s.byte (localBase u + a + i)) ∧
      (∀ b < 2 ^ 36, (b < localBase u + a ∨ localBase u + a + 64 ≤ b) → t.byte b = s.byte b) ∧ (t.tile u).v = (s.tile u).v ∧
      s.SameUnits t u) ∧
  (∀ (s : State) (u : UnitIx) (b : Bool), oneDue s u (.predOff b) →
    ∃ t, exec (.resultRetire u) s = .next t ∧ (t.tile u).predOff = b ∧ (t.tile u).ctl = (s.tile u).ctl ∧
      s.SameUnits t u ∧ t.mem = s.mem ∧ t.csr = s.csr) ∧
  (∀ (s : State) (u : UnitIx) (k : BitVec 2) (first last n : Word), oneDue s u (.loopSet k first last n) →
    ∃ t, exec (.resultRetire u) s = .next t ∧ (rfGet Loop.reset (t.tile u).loops k.toNat).active = decide (n ≠ 0) ∧
      (rfGet Loop.reset (t.tile u).loops k.toNat).first = first ∧ (rfGet Loop.reset (t.tile u).loops k.toNat).last = last ∧
      rfGet 0 (t.tile u).lc k.toNat = n ∧ (t.tile u).order = (if n = 0 then [] else [k]) ++ (s.tile u).order.filter (· ≠ k) ∧
      s.SameUnits t u ∧ t.mem = s.mem ∧ t.csr = s.csr) ∧
  (∀ (s : State) (u : UnitIx) (v : Word), oneDue s u (.sreg 0x00 v) →
    ∃ t, exec (.resultRetire u) s = .next t ∧ (t.tile u).status = blend (s.tile u).status 0x00000FFF v ∧ s.SameUnits t u ∧
      t.mem = s.mem ∧ t.csr = s.csr) ∧
  (∀ (s : State) (u : UnitIx) (v : Word), oneDue s u (.sreg 0x02 v) →
    ∃ t, exec (.resultRetire u) s = .next t ∧ (t.tile u).isp = v &&& 0x003FFFC0 ∧ s.SameUnits t u ∧ t.mem = s.mem ∧ t.csr = s.csr) ∧
  (∀ (s : State) (u : UnitIx) (k : Fin 4) (v : Word), oneDue s u (.sreg (BitVec.ofNat 8 (0x10 + k.val)) v) → (s.tile u).rep.active = false →
    ∃ t, exec (.resultRetire u) s = .next t ∧ rfGet 0 (t.tile u).lc k.val = v ∧ s.SameUnits t u ∧ t.mem = s.mem ∧ t.csr = s.csr) ∧
  ∀ (s : State) (u : UnitIx), (s.tile u).pend = [] → exec (.resultRetire u) s = .next s

/-- An FP trap whose count has run out is delivered, and an eligible interrupt is accepted in RUN at an acceptance point; in NAP it wakes the
unit; a unit with no eligible interrupt stays as it was (R194, R221, R222 to R225, R230).

Answers a next state with its own effect, under conditions on state and operands alone: fpTrapDeliver, interruptAccept, interruptNoEntry. -/
def Obligations.TrapsAndInterruptsAreEntered : Prop :=
  (∀ (s : State) (u : UnitIx), s.Canonical → s.OneShadow → s.dev.up = true → (s.tile u).accepts = true → (s.tile u).mode = .run →
    (s.tile u).trapDue = true → (s.tile u).ispOk = true → (s.tile u).pend = [] →
    ∃ t, exec (.fpTrapDeliver u) s = .next t ∧ fld (t.tile u).ftrapInfo 16 16 = 0 ∧
      s.entered t u { vec := 32, level := 2, pos := 0, mtrap := false, faddr := 0, haddr := none, vindex := none, wstate := 0 } (s.tile u).pc) ∧
  (∀ (s : State) (u : UnitIx), (s.tile u).trapDue = false → exec (.fpTrapDeliver u) s = .next s) ∧
  (∀ (s : State) (u : UnitIx) (v : Nat), s.Canonical → s.OneShadow → s.dev.up = true → (s.tile u).accepts = true →
    (s.tile u).mode = .run → (s.tile u).atAcceptance = true → (s.tile u).trapDue = false → (s.tile u).chooseVector = some v →
    (s.tile u).ispOk = true → (s.tile u).pend = [] →
    ∃ t, exec (.interruptAccept u) s = .next t ∧ (t.tile u).ipend.getLsbD v = false ∧
      s.entered t u (vectorEntry v ((s.tile u).vecLevel v) 0) (s.tile u).pc) ∧
  (∀ (s : State) (u : UnitIx) (v : Nat), s.Canonical → s.OneShadow → s.dev.up = true → (s.tile u).accepts = true →
    (s.tile u).mode = .nap → (s.tile u).chooseVector = some v → (s.tile u).ispOk = true → (s.tile u).pend = [] →
    ∃ t, exec (.interruptAccept u) s = .next t ∧ (t.tile u).mode = .run ∧ (t.tile u).ipend.getLsbD v = false ∧
      s.entered t u (vectorEntry v ((s.tile u).vecLevel v) 1) (s.tile u).pc) ∧
  (∀ (s : State) (u : UnitIx) (v : Nat), (s.tile u).mode = .sleep → (s.tile u).chooseVector = some v → (s.tile u).vecLevel v < 2 →
    exec (.interruptAccept u) s = .next s) ∧
  (∀ (s : State) (u : UnitIx), (s.tile u).trapDue = false → (s.tile u).chooseVector = none → exec (.interruptAccept u) s = .next s) ∧
  ∀ (s : State) (u : UnitIx), exec (.interruptNoEntry u) s = .next s

/-! ## The current governor -/

/-- Leave is asked for, granted, given back and withdrawn: booked leave raises the ballast at once and a grant lowers it by as much; unbooked
leave is granted in order of arrival and only while the headroom covers it; a withdrawn grant asks again at the head of the queue (R437,
R439).

Answers a next state with its own effect, under conditions on state and operands alone: leaveRequest, leaveGrant, leaveRelease, leaveWithdraw. -/
def Obligations.LeaveIsAskedGrantedAndReleased : Prop :=
  (∀ (s : State) (h : LeaveHolder), s.Canonical → s.mayAsk h = true → isUnbooked h = true →
    ∃ t, exec (.leaveRequest h) s = .next t ∧
      t.dev.power.waiting = s.dev.power.waiting ++ [{ who := h, units := s.leaveUnits h, again := false }] ∧
      t.dev.power.granted = s.dev.power.granted ∧ t.tiles = s.tiles ∧ t.mem = s.mem ∧ t.ballast = s.ballast) ∧
  (∀ (s : State) (h : LeaveHolder), s.Canonical → s.mayAsk h = true → isUnbooked h = false →
    ∃ t, exec (.leaveRequest h) s = .next t ∧
      t.dev.power.waiting = s.dev.power.waiting ++ [{ who := h, units := s.leaveUnits h, again := false }] ∧
      t.dev.power.granted = s.dev.power.granted ∧ t.tiles = s.tiles ∧ t.mem = s.mem ∧ t.ballast = min 511 (s.ballast + s.leaveUnits h)) ∧
  (∀ (s : State) (h : LeaveHolder) (r : LeaveReq), s.Canonical → s.dev.power.waiting.find? (fun r => decide (r.who = h)) = some r →
    isUnbooked h = false →
    ∃ t, exec (.leaveGrant h) s = .next t ∧ t.dev.power.granted = s.dev.power.granted ++ [r] ∧
      t.dev.power.waiting = dropReq h s.dev.power.waiting ∧ t.ballast = s.ballast - r.units ∧ t.tiles = s.tiles ∧ t.mem = s.mem) ∧
  (∀ (s : State) (h : LeaveHolder) (r : LeaveReq), s.Canonical → s.dev.power.waiting.find? (fun r => decide (r.who = h)) = some r →
    isUnbooked h = true → s.headUnbooked = some r → (r.units : Int) ≤ s.headroom →
    ∃ t, exec (.leaveGrant h) s = .next t ∧ t.dev.power.granted = s.dev.power.granted ++ [r] ∧
      t.dev.power.waiting = dropReq h s.dev.power.waiting ∧ t.ballast = s.ballast ∧ t.tiles = s.tiles ∧ t.mem = s.mem) ∧
  (∀ (s : State) (h : LeaveHolder) (r : LeaveReq), s.dev.power.waiting.find? (fun r => decide (r.who = h)) = some r →
    isUnbooked h = true → s.headroom < r.units → exec (.leaveGrant h) s = .next s) ∧
  (∀ (s : State) (h : LeaveHolder) (r : LeaveReq), s.Canonical → s.dev.power.granted.find? (fun r => decide (r.who = h)) = some r →
    s.needsLeave h = false →
    ∃ t, exec (.leaveRelease h) s = .next t ∧ t.dev.power.granted = dropReq h s.dev.power.granted ∧
      t.dev.power.waiting = s.dev.power.waiting ∧ t.ballast = min 511 (s.ballast + r.units) ∧ t.tiles = s.tiles ∧ t.mem = s.mem) ∧
  (∀ (s : State) (h : LeaveHolder) (r : LeaveReq), s.Canonical → s.dev.power.granted.find? (fun r => decide (r.who = h)) = some r →
    isUnbooked h = true → s.headroom < 0 →
    ∃ t, exec (.leaveWithdraw h) s = .next t ∧ t.dev.power.granted = dropReq h s.dev.power.granted ∧
      t.dev.power.waiting = { r with again := true } :: s.dev.power.waiting ∧
      (t.reg Csr.govCut).toNat = min 0xFFFFFFFF ((s.reg Csr.govCut).toNat + 1) ∧ t.tiles = s.tiles ∧ t.mem = s.mem) ∧
  ∀ (s : State) (h : LeaveHolder), 0 ≤ s.headroom → exec (.leaveWithdraw h) s = .next s

/-! ## Supply, clocks, heat and voltage -/

/-- Clock and voltage monitors: a measurement within its window is kept, one outside is reported once, loses the lock of its PLL, and a rail
beyond its reset limit resets the device with its bit as the cause (R432, R444).

A temperature sample keeps the 24 sensors; at 165.0 °C the device is reset with cause 4; the thermal cap goes once Tj has stayed below
130.0 °C for 1,000 samples (R445).

A battery sample is kept in millivolts; the supply state moves by the lowest row of Table 16-7 whose samples in a row are reached; after
the return from DEEP the held tiles are released (R440, R442, R443).

Answers a next state with its own effect, under conditions on state and operands alone: clockMonitor, voltageMonitor, temperatureSample,
thermalCapRemove, battSenseSample, deepTileRelease, pllRelock. -/
def Obligations.MonitorsGuardTheSupply : Prop :=
  ((∀ (s : State) (i : Fin 6) (ppm : Int), s.Canonical → s.dev.up = true → i.val < 5 → -10000 ≤ ppm → ppm ≤ 10000 →
      ∃ t, exec (.clockMonitor i ppm) s = .next t ∧ t.reg (Csr.clkMon i.val) = BitVec.ofNat 32 (ofInt 32 ppm) ∧
        s.SameRegs t [Csr.clkMon i.val] ∧ t.tiles = s.tiles ∧ t.mem = s.mem ∧ t.reports = s.reports) ∧
    (∀ (s : State) (i : Fin 6) (ppm : Int), s.Canonical → s.dev.up = true → 1 ≤ i.val → 10000 < ppm →
      fld (s.reg Csr.clkMonStat) i.val i.val = 0 →
      ∃ t, exec (.clockMonitor i ppm) s = .next t ∧ fld (t.reg Csr.clkMonStat) i.val i.val = 1 ∧
        fld (t.reg Csr.pllStat) (i.val - 1) (i.val - 1) = 0 ∧ s.SameRegs t [Csr.clkMon i.val, Csr.clkMonStat, Csr.pllStat] ∧ t.tiles = s.tiles ∧ t.mem = s.mem ∧
        t.reports = s.reports ++ [{ code := 0x0170, unit := 0xFF, detail := [BitVec.ofNat 32 i.val, BitVec.ofNat 32 (ofInt 32 ppm)] }]) ∧
    (∀ (s : State) (i : Fin 8) (mv : BitVec 16), s.Canonical → s.dev.up = true → s.railReset i.val mv.toNat = true →
      ∃ t, exec (.voltageMonitor i mv) s = .next t ∧ t.dev.up = false ∧ t.reg Csr.rstCause = BitVec.ofNat 32 (2 + 2 ^ i.val * 16) ∧
        t.mem = s.mem) ∧
    (∀ (s : State) (i : Fin 8) (mv : BitVec 16), s.Canonical → s.dev.up = true → s.railReset i.val mv.toNat = false →
      (s.railWindow i.val).1 ≤ mv.toNat → mv.toNat ≤ (s.railWindow i.val).2 →
      ∃ t, exec (.voltageMonitor i mv) s = .next t ∧ t.reg (Csr.vmon i.val) = BitVec.ofNat 32 mv.toNat ∧
        fld (t.reg Csr.supplyStat) (5 + i.val) (5 + i.val) = 0 ∧ t.tiles = s.tiles ∧ t.mem = s.mem ∧ t.reports = s.reports) ∧
    (∀ (s : State) (i : Fin 8) (mv : BitVec 16), s.Canonical → s.dev.up = true → s.railReset i.val mv.toNat = false →
      (mv.toNat < (s.railWindow i.val).1 ∨ (s.railWindow i.val).2 < mv.toNat) → fld (s.reg Csr.supplyStat) (5 + i.val) (5 + i.val) = 0 →
      ∃ t, exec (.voltageMonitor i mv) s = .next t ∧ fld (t.reg Csr.supplyStat) (5 + i.val) (5 + i.val) = 1 ∧
        fld (t.reg Csr.vmonStat) i.val i.val = 1 ∧ fld (t.reg Csr.supplyEvt) 4 4 = 1 ∧ t.tiles = s.tiles ∧ t.mem = s.mem ∧
        t.reports = s.reports ++ [{ code := 0x0171, unit := 0xFF, detail := [BitVec.ofNat 32 i.val, BitVec.ofNat 32 mv.toNat] }]) ∧
    ∀ (s : State) (k : Fin 2), s.Canonical → s.dev.up = true →
      ∃ t, exec (.pllRelock k) s = .next t ∧ fld (t.reg Csr.pllStat) (k.val + 1) (k.val + 1) = 1 ∧ s.SameRegs t [Csr.pllStat] ∧
        t.tiles = s.tiles ∧ t.mem = s.mem ∧ t.dev = s.dev) ∧
  ((∀ (s : State) (ts : List Word), s.Canonical → s.dev.up = true → ts.length = 24 → (∀ x ∈ ts, toInt 32 x.toNat < 1350) →
      ∃ t, exec (.temperatureSample ts) s = .next t ∧ (∀ i < 24, t.reg (Csr.tmon i) = ts.getD i 0) ∧ t.dev.up = true ∧
        t.dev.power.thermCap = s.dev.power.thermCap ∧ t.tiles = s.tiles ∧ t.mem = s.mem ∧ t.reports = s.reports) ∧
    (∀ (s : State) (ts : List Word) (i : Nat), s.Canonical → s.dev.up = true → i < 24 → 1650 ≤ toInt 32 (ts.getD i 0).toNat →
      ∃ t, exec (.temperatureSample ts) s = .next t ∧ t.dev.up = false ∧ t.reg Csr.rstCause = 4 ∧ t.mem = s.mem) ∧
    (∀ s : State, s.Canonical → s.dev.up = true → s.dev.power.thermCap = true → 1000 ≤ s.dev.age.capRun →
      ∃ t, exec .thermalCapRemove s = .next t ∧ t.dev.power.thermCap = false ∧ fld (t.reg Csr.thermStat) 0 0 = 0 ∧ t.mem = s.mem) ∧
    ∀ s : State, s.dev.age.capRun < 1000 → exec .thermalCapRemove s = .next s) ∧
  ((∀ (s : State) (code : BitVec 12), s.Canonical → s.dev.up = true →
      supplyMove s.supply (fun i => if battBeyond i code.toNat then s.dev.power.runs.getD i 0 + 1 else 0) = none →
      ∃ t, exec (.battSenseSample code) s = .next t ∧ t.supply = s.supply ∧ fld (t.reg Csr.battMv) 15 0 = code.toNat * 45000 / 4096 ∧
        (∀ i < 6, t.dev.power.runs.getD i 0 = if battBeyond i code.toNat then s.dev.power.runs.getD i 0 + 1 else 0) ∧
        s.SameRegs t [Csr.battMv, Csr.battMin, Csr.battMax] ∧ t.tiles = s.tiles ∧ t.mem = s.mem) ∧
    (∀ (s : State) (code : BitVec 12) (st : Nat), s.Canonical → s.dev.up = true →
      supplyMove s.supply (fun i => if battBeyond i code.toNat then s.dev.power.runs.getD i 0 + 1 else 0) = some st →
      ∃ t, exec (.battSenseSample code) s = .next t ∧ t.supply = st ∧ t.mem = s.mem) ∧
    ∀ s : State, s.Canonical → s.dev.up = true → s.supply ≠ 2 → s.dev.safety.fallDeep.isSome = true → s.winOpen = false →
      s.dev.sched.kf = none →
      ∃ t, exec .deepTileRelease s = .next t ∧ (∀ u, (t.tile u).heldOff = false) ∧ t.dev.safety.fallDeep = none ∧
        fld (t.reg Csr.supplyStat) 4 4 = 0 ∧ s.SameRegs t [Csr.supplyStat] ∧ t.mem = s.mem)

/-- PMIC_WARN lowers the budget to 144 units at once, and 10 ms after its fall no longer; a fall of PWR_GOOD resets the device, or with ARM set
completes the entry into parked standby; after 10 ms a lowered budget lets the plan tier rise (R428, R429, R438).

VDD_CORE moves one code towards its target at a time, each shown to the regulator and with VID_MODE 1 written into it, and is held there; a lost steering source makes the
always-on loop hold until a measurement returns (R424 to R426, R431).

Answers a next state with its own effect, under conditions on state and operands alone: pmicWarnAssert, pmicWarnLoweringEnd, pwrGoodFall,
budgetHoldExpire, vidStep, aonSourceLoss, aonSourceReturn, pmicWarnFall. -/
def Obligations.PowerAndVoltageMove : Prop :=
  ((∀ s : State, s.Canonical → s.dev.up = true →
      ∃ t, exec .pmicWarnAssert s = .next t ∧ fld (t.reg Csr.supplyStat) 3 3 = 1 ∧ fld (t.reg Csr.pmicStat) 1 1 = 1 ∧
        fld (t.reg Csr.supplyEvt) 3 3 = 1 ∧ t.dev.power.warnPin = true ∧ t.budgetNow ≤ 144 ∧ fld (t.reg Csr.govBudget) 8 0 = t.budgetNow ∧
        t.mem = s.mem) ∧
    (∀ s : State, s.Canonical → s.dev.up = true → s.dev.power.warnPin = true →
      ∃ t, exec .pmicWarnFall s = .next t ∧ t.dev.power.warnPin = false ∧ t.dev.power.warnFall = some s.sample.toNat ∧
        fld (t.reg Csr.pmicStat) 1 1 = 0 ∧ s.SameRegs t [Csr.pmicStat] ∧ t.tiles = s.tiles ∧ t.mem = s.mem) ∧
    (∀ (s : State) (n : Nat), s.Canonical → s.dev.up = true → s.dev.power.warnPin = false → s.dev.power.warnFall = some n →
      n + 480 ≤ s.sample.toNat →
      ∃ t, exec .pmicWarnLoweringEnd s = .next t ∧ fld (t.reg Csr.supplyStat) 3 3 = 0 ∧ t.dev.power.warnFall = none ∧
        fld (t.reg Csr.govBudget) 8 0 = t.budgetNow ∧ t.mem = s.mem) ∧
    (∀ s : State, s.Canonical → s.dev.up = true → fld (s.reg Csr.stbyCfg) 1 1 = 1 →
      ∃ t, exec .pwrGoodFall s = .next t ∧ t.dev.up = false ∧ t.dev.power.inStby = true ∧ t.reg Csr.rstCause = 7 ∧
        t.reg Csr.stbyCfg = s.reg Csr.stbyCfg ∧ t.mem = s.mem) ∧
    (∀ s : State, s.Canonical → s.dev.up = true → fld (s.reg Csr.stbyCfg) 1 1 = 0 →
      ∃ t, exec .pwrGoodFall s = .next t ∧ t.dev.up = false ∧ t.reg Csr.rstCause = 1 ∧ t.mem = s.mem) ∧
    (∀ s : State, s.dev.up = true → s.dev.power.budgetAt + 480 ≤ s.sample.toNat →
      ∃ t, exec .budgetHoldExpire s = .next t ∧ t.dev.power.mayRise = true ∧ t.csr = s.csr ∧ t.tiles = s.tiles ∧ t.mem = s.mem) ∧
    ∀ s : State, s.sample.toNat < s.dev.power.budgetAt + 480 → exec .budgetHoldExpire s = .next s) ∧
  ((∀ s : State, s.Canonical → s.dev.up = true → s.vidCode < s.vidTarget →
      ∃ t, exec .vidStep s = .next t ∧ t.vidCode = s.vidCode + 1 ∧ t.vidTarget = s.vidTarget ∧ t.dev.power.vidHeld = false ∧
        t.out = s.pmicVid (s.vidCode + 1) ++ .vid (s.vidCode + 1) :: s.out ∧ t.mem = s.mem) ∧
    (∀ s : State, s.Canonical → s.dev.up = true → s.vidTarget < s.vidCode →
      ∃ t, exec .vidStep s = .next t ∧ t.vidCode = s.vidCode - 1 ∧ t.vidTarget = s.vidTarget ∧ t.dev.power.vidHeld = false ∧
        t.out = s.pmicVid (s.vidCode - 1) ++ .vid (s.vidCode - 1) :: s.out ∧ t.mem = s.mem) ∧
    (∀ s : State, s.Canonical → s.dev.up = true → s.vidCode = s.vidTarget →
      ∃ t, exec .vidStep s = .next t ∧ t.vidCode = s.vidCode ∧ t.dev.power.vidHeld = true ∧ t.out = s.out ∧ t.mem = s.mem) ∧
    (∀ s : State, s.Canonical → s.dev.up = true → fld (s.reg Csr.aonCfg) 1 0 ≠ 0 → fld (s.reg Csr.aonStat) 1 1 = 0 →
      ∃ t, exec .aonSourceLoss s = .next t ∧ fld (t.reg Csr.aonStat) 1 1 = 1 ∧ s.SameRegs t [Csr.aonStat] ∧ t.tiles = s.tiles ∧
        t.mem = s.mem) ∧
    (∀ s : State, s.Canonical → s.dev.up = true → fld (s.reg Csr.aonStat) 1 1 = 1 →
      ∃ t, exec .aonSourceReturn s = .next t ∧ fld (t.reg Csr.aonStat) 1 1 = 0 ∧ s.SameRegs t [Csr.aonStat] ∧ t.tiles = s.tiles ∧
        t.mem = s.mem) ∧
    ∀ s : State, fld (s.reg Csr.aonStat) 1 1 = 1 → exec .aonSourceLoss s = .next s)

/-! ## Faults, the verdict and the event log -/

/-- The hub takes a report: it keeps the code and the block; a report of severity 0 or 1 changes no unit but for its event; a stopped, silent
or parity-faulted tile is fenced and goes DARK; a monitor's failure enters the safe output state, with its ramp from the next tick on; a PAIRED
device drops out in its place and its peer takes its outputs (R393, R400, R404, R405, R407, Table 15-2).

The verdict of a block whose copies agree: both CRCs are shown, nothing is recorded, and no unit or register else changes; a block
whose copies differ with no copy at fault by itself is recorded as a detected fault and enters the safe output state; with no plan nothing
happens (R411, R412, R414, Table 15-3).

Answers a next state with its own effect, under conditions on state and operands alone: faultReport, hubMismatch, verdict. -/
def Obligations.FaultsAreReportedAndJudged : Prop :=
  ((∀ (s : State) (r : Report), s.Canonical → s.dev.up = true → s.severity r < 2 → s.dev.safety.resetAt = none →
      ∃ t, exec (.faultReport r) s = .next t ∧ t.reg Csr.lastCode = BitVec.ofNat 32 r.code.toNat ∧
        t.reg Csr.lastBlkLo = BitVec.ofNat 32 s.blk ∧ t.reports = s.reports.erase r ∧
        (∀ u, { t.tile u with ipend := (s.tile u).ipend } = s.tile u) ∧ t.mem = s.mem) ∧
    (∀ (s : State) (r : Report), s.Canonical → s.dev.up = true → s.dev.safety.resetAt = none → r.unit.toNat < 16 →
      (r.code = 0x0110 ∨ r.code = 0x0111 ∨ r.code = 0x0112 ∨ r.code = 0x0142 ∨ r.code = 0x0143 ∨ r.code = 0x0160) →
      ∃ t, exec (.faultReport r) s = .next t ∧ (t.tile (unitIx r.unit.toNat)).fenced = true ∧ (t.tile (unitIx r.unit.toNat)).mode = .dark ∧
        fld (t.reg Csr.fence) r.unit.toNat r.unit.toNat = 1 ∧ t.reg Csr.lastCode = BitVec.ofNat 32 r.code.toNat ∧ t.mem = s.mem) ∧
    (∀ (s : State) (d : List Word), s.Canonical → s.dev.up = true → s.dev.safety.resetAt = none → s.pst ≠ 3 → s.pst ≠ 5 →
      fld (s.reg Csr.safeStat) 1 0 = 0 →
      ∃ t, exec (.faultReport { code := 0x0172, unit := 0xFF, detail := d }) s = .next t ∧ fld (t.reg Csr.safeStat) 1 0 = 1 ∧
        t.reg Csr.s0Tick = BitVec.ofNat 32 (s.sample.toNat + 1) ∧ t.dev.safety.fall = some (s.sample.toNat + 1) ∧
        fld (t.reg Csr.condStat) 1 1 = 0 ∧ t.mem = s.mem) ∧
    (∀ (s : State) (d : List Word), s.Canonical → s.dev.up = true → s.dev.safety.resetAt = none → s.pst = 3 → s.lk.ownDrop = none →
      ∃ t, exec (.faultReport { code := 0x0172, unit := 0xFF, detail := d }) s = .next t ∧ t.pst = 5 ∧
        t.lk.ownDrop = some s.sample.toNat ∧ t.lk.latent = true ∧ t.out = .lkSync true :: s.out ∧
        fld (t.reg Csr.safeStat) 1 0 = fld (s.reg Csr.safeStat) 1 0 ∧ t.dev.safety.fall = s.dev.safety.fall ∧ t.mem = s.mem) ∧
    (∀ (s : State) (d : List Word), s.Canonical → s.dev.up = true → d.getD 0 0 = 5 →
      ∃ t, exec (.faultReport { code := 0x0170, unit := 0xFF, detail := d }) s = .next t ∧ t.dev.up = false ∧ t.reg Csr.rstCause = 3 ∧
        t.mem = s.mem) ∧
    ∀ s : State, s.Canonical → s.dev.up = true → s.dev.safety.resetAt = none → s.pst ≠ 3 → s.pst ≠ 5 → fld (s.reg Csr.safeStat) 1 0 = 0 →
      ∃ t, exec .hubMismatch s = .next t ∧ fld (t.reg Csr.safeStat) 1 0 = 1 ∧ t.reg Csr.lastCode = 0x01B0 ∧ t.mem = s.mem) ∧
  ((∀ (s : State) (p : Plan) (k : SafetyTask), s.Canonical → s.plan = some p → p.tasks = [k] → s.dev.safety.swapped = [] →
      s.dev.safety.selfDet = [] → (s.tile (unitIx k.lead)).fenced = false → (s.tile (unitIx k.check)).fenced = false →
      crc32 (s.bytes (bankBase k.lead + k.areaL.1) k.areaL.2) = crc32 (s.bytes (bankBase k.check + k.areaC.1) k.areaC.2) →
      ∃ t, exec .verdict s = .next t ∧ t.reg (Csr.vdCrcA 0) = crc32 (s.bytes (bankBase k.lead + k.areaL.1) k.areaL.2) ∧
        t.reg (Csr.vdCrcB 0) = t.reg (Csr.vdCrcA 0) ∧ t.reg Csr.verdictStat = 0 ∧
        s.SameRegs t [Csr.verdictStat, Csr.vdCrcA 0, Csr.vdCrcB 0] ∧ t.dev.safety.events = s.dev.safety.events ∧
        t.tiles = s.tiles ∧ t.mem = s.mem) ∧
    (∀ (s : State) (p : Plan) (k : SafetyTask), s.Canonical → s.plan = some p → p.tasks = [k] → s.dev.safety.swapped = [] →
      s.dev.safety.selfDet = [] → (s.tile (unitIx k.lead)).fenced = false → (s.tile (unitIx k.check)).fenced = false →
      s.pst ≠ 3 → s.pst ≠ 5 → fld (s.reg Csr.safeStat) 1 0 = 0 →
      crc32 (s.bytes (bankBase k.lead + k.areaL.1) k.areaL.2) ≠ crc32 (s.bytes (bankBase k.check + k.areaC.1) k.areaC.2) →
      ∃ t, exec .verdict s = .next t ∧ fld (t.reg Csr.verdictStat) 0 0 = 1 ∧ fld (t.reg Csr.safeStat) 1 0 = 1 ∧
        t.reg Csr.lastCode = 0x0151 ∧ fld (t.reg Csr.faultStat) 10 10 = 1 ∧ t.dev.safety.fall = some (s.sample.toNat + 1)) ∧
    ∀ s : State, s.plan = none → exec .verdict s = .next s)

/-- The oldest record made is written at its place in the log with its SEQ, once the START record stands there; 200 ms after the last fault the
stored plan is restarted, at most 3 times in an operating cycle (R374, R400, R409).

Parked standby: its entry sets ARM, mutes every output and sends the PMIC its sequence; an enabled wake source cancels it, or once parked
is recorded and powers the device up (R433, R434).

Answers a next state with its own effect, under conditions on state and operands alone: automaticRestart, eventLogWrite, standbyEntry,
standbyCancel, standbyWake. -/
def Obligations.RecordsRestartAndStandby : Prop :=
  ((∀ (s : State) (e : EventRec) (rest : List EventRec), s.Canonical → s.OneShadow → s.dev.safety.events = e :: rest →
      s.dev.safety.logReady = true →
      ∃ t, exec .eventLogWrite s = .next t ∧ t.dev.safety.events = rest ∧ t.dev.safety.nextSeq = s.dev.safety.nextSeq + 1 ∧
        t.bytes (mramBase + logBase + s.dev.safety.nextSeq.toNat % 4096 * 64) (e.bytes s.dev.safety.nextSeq s.dev.safety.boot).length =
          e.bytes s.dev.safety.nextSeq s.dev.safety.boot ∧
        s.SameRegs t [Csr.mramWr] ∧ t.tiles = s.tiles ∧
        ∀ b < 2 ^ 36, (b < mramBase + logBase + s.dev.safety.nextSeq.toNat % 4096 * 64 ∨
          mramBase + logBase + s.dev.safety.nextSeq.toNat % 4096 * 64 + (e.bytes s.dev.safety.nextSeq s.dev.safety.boot).length ≤ b) →
          t.byte b = s.byte b) ∧
    (∀ s : State, (s.dev.safety.events = [] ∨ s.dev.safety.logReady = false) → exec .eventLogWrite s = .next s) ∧
    (∀ (s : State) (n : Nat), s.Canonical → s.dev.up = true → s.dev.safety.lastDet = some n → s.isSafe = true → n + 9600 ≤ s.sample.toNat →
      s.dev.sched.stored = true → (s.reg Csr.restartCnt).toNat < 3 →
      ∃ t, exec .automaticRestart s = .next t ∧ t.dev.sched.warm = true ∧ t.reg Csr.restartCnt = s.reg Csr.restartCnt + 1 ∧
        t.dev.safety.lastDet = none ∧ s.SameRegs t [Csr.restartCnt] ∧ t.tiles = s.tiles ∧ t.mem = s.mem) ∧
    ∀ (s : State) (n : Nat), s.dev.safety.lastDet = some n → s.sample.toNat < n + 9600 → exec .automaticRestart s = .next s) ∧
  ((∀ s : State, s.Canonical → s.dev.up = true → fld (s.reg Csr.stbyCfg) 0 0 = 1 → fld (s.reg Csr.stbyCfg) 1 1 = 0 → s.busyNow = false →
      s.dev.power.lastAct + fld (s.reg Csr.stbyCfg) 11 2 * 48000 ≤ s.sample.toNat →
      ∃ t, exec .standbyEntry s = .next t ∧ fld (t.reg Csr.stbyCfg) 1 1 = 1 ∧ t.dev.power.stbyMute = true ∧
        t.dev.safety.fallAll = some (s.sample.toNat + 1) ∧ t.out = .pmic 0 :: s.out ∧ t.tiles = s.tiles) ∧
    (∀ s : State, fld (s.reg Csr.stbyCfg) 0 0 = 0 → exec .standbyEntry s = .next s) ∧
    (∀ (s : State) (k : Fin 5), s.Canonical → s.dev.up = true → s.wakeOn k.val = true → fld (s.reg Csr.stbyCfg) 1 1 = 1 →
      s.dev.power.stbyMute = true →
      ∃ t, exec (.standbyCancel k) s = .next t ∧ fld (t.reg Csr.stbyCfg) 1 1 = 0 ∧ t.dev.power.stbyMute = false ∧
        t.dev.safety.fallAll = none ∧ s.SameRegs t [Csr.stbyCfg] ∧ t.tiles = s.tiles ∧ t.mem = s.mem) ∧
    (∀ (s : State) (k : Fin 5), s.wakeOn k.val = false → exec (.standbyCancel k) s = .next s ∧ exec (.standbyWake k) s = .next s) ∧
    ∀ (s : State) (k : Fin 5), s.Canonical → s.dev.up = false → s.dev.power.inStby = true → s.wakeOn k.val = true → s.reg Csr.wakeSrc = 0 →
      ∃ t, exec (.standbyWake k) s = .next t ∧ t.reg Csr.wakeSrc = BitVec.ofNat 32 (2 ^ k.val) ∧ t.out = .pmic 1 :: s.out ∧
        s.SameRegs t [Csr.wakeSrc] ∧ t.tiles = s.tiles ∧ t.mem = s.mem)

/-! ## Margins and ageing -/

/-- The monitors: a measurement is kept in MRG_NOW, one below ALARM_PS raises an alarm, those of a DARK tile report nothing; an in-situ flag is counted and at its limit alarms; an
alarm acted on drives one voltage code more (R447, R448, R450, R457).

The planner: a trigger starts a re-plan, which ends with the plan of every tile; a change of band is put in force; ten seconds above
140.0 °C are an excursion; minutes are counted while the device is on or parked (R451, R452, R456, R459, R461).

Answers a next state with its own effect, under conditions on state and operands alone: replicaMeasure, isdFlag, marginAlarm, sramMarginMeasure,
replanTrigger, replanComplete, bandChange, excursion, minuteCount. -/
def Obligations.AgeingIsWatchedAndPlanned : Prop :=
  ((∀ (s : State) (u : UnitIx) (slack : Int) (mon : Fin 12), s.Canonical → s.dev.up = true → u.val < 16 → s.monOff u.val = false →
      s.alarmPs ≤ slack →
      ∃ t, exec (.replicaMeasure u slack mon) s = .next t ∧ fld (t.reg (Csr.mrgNow u.val)) 7 0 = min 255 slack.toNat ∧
        fld (t.reg (Csr.mrgNow u.val)) 11 8 = mon.val ∧ s.SameRegs t [Csr.mrgNow u.val] ∧ t.dev.age.alarms = s.dev.age.alarms ∧
        t.tiles = s.tiles ∧ t.mem = s.mem) ∧
    (∀ (s : State) (u : UnitIx) (slack : Int) (mon : Fin 12), s.dev.up = true → u.val < 16 → s.monOff u.val = false → slack < s.alarmPs →
      ∃ t, exec (.replicaMeasure u slack mon) s = .next t ∧ t.dev.age.alarms = s.dev.age.alarms ++ [(u.val, false)] ∧ t.tiles = s.tiles ∧
        t.mem = s.mem) ∧
    (∀ (s : State) (n : Fin 16), s.Canonical → s.dev.up = true → (s.tile (unitIx n.val)).state ≠ .dark →
      ∃ t, exec (.isdFlag n) s = .next t ∧ (t.reg (Csr.isdCnt n.val)).toNat = min 0xFFFFFFFF ((s.reg (Csr.isdCnt n.val)).toNat + 1) ∧
        t.tiles = s.tiles ∧ t.mem = s.mem) ∧
    (∀ (s : State) (n : Fin 16), (s.tile (unitIx n.val)).state = .dark → exec (.isdFlag n) s = .next s) ∧
    (∀ (s : State) (u : UnitIx) (slack : Int) (mon : Fin 12), u.val < 16 → s.monOff u.val = true → exec (.replicaMeasure u slack mon) s = .next s) ∧
    (∀ (s : State) (n : Nat) (rest : List (Nat × Bool)), s.Canonical → s.dev.up = true → s.dev.age.alarms = (n, false) :: rest →
      s.dev.age.lastOff = none → s.vidCode < 10 →
      ∃ t, exec .marginAlarm s = .next t ∧ t.dev.age.alarms = rest ∧ t.vidTarget = max s.vidTarget (s.vidCode + 1) ∧ t.vidCode = s.vidCode ∧
        t.dev.age.lastOff = some s.sample.toNat ∧ fld (t.reg Csr.agePlanStat) 7 7 = 1 ∧ t.dev.age.trigs.contains 4 = true ∧ t.mem = s.mem) ∧
    (∀ s : State, s.dev.age.alarms = [] → exec .marginAlarm s = .next s) ∧
    ∀ (s : State) (g : Fin 4) (mv : BitVec 8), s.Canonical → s.dev.up = true → 50 ≤ mv.toNat →
      ∃ t, exec (.sramMarginMeasure g mv) s = .next t ∧ fld (t.reg (Csr.sramMrg g.val)) 7 0 = mv.toNat ∧ s.SameRegs t [Csr.sramMrg g.val] ∧
        t.tiles = s.tiles ∧ t.mem = s.mem ∧ t.dev = s.dev) ∧
  ((∀ s : State, s.Canonical → s.dev.up = true → fld (s.reg Csr.agePlanStat) 5 3 = 0 → s.dev.age.running = none → s.dev.age.putting = none →
      5 ≤ s.phase →
      ∃ t, exec (.replanTrigger 1) s = .next t ∧ t.dev.age.running = some 1 ∧ fld (t.reg Csr.agePlanStat) 1 0 = 1 ∧
        s.SameRegs t [Csr.agePlanStat] ∧ t.tiles = s.tiles ∧ t.mem = s.mem) ∧
    (∀ (s : State) (k : Fin 5), s.dev.up = true → (k.val = 3 ∨ k.val = 4) → s.dev.age.trigs.contains k.val = true → s.dev.age.running = none →
      ∃ t, exec (.replanTrigger k) s = .next t ∧ t.dev.age.running = some k.val ∧ t.dev.age.trigs = s.dev.age.trigs.erase k.val ∧
        t.tiles = s.tiles ∧ t.mem = s.mem) ∧
    (∀ (s : State) (ms : List TileMeasure) (k n : Nat), s.Canonical → s.dev.up = true → s.dev.age.running = some k → n < 16 →
      (∀ j < 16, ∀ b < 5, fld ((s.planTile j (measureOf ms j)).1) (6 * b + 1) (6 * b) ≠ 3) →
      ∃ t, exec (.replanComplete ms) s = .next t ∧ t.reg (Csr.tileMplan n) = (s.planTile n (measureOf ms n)).1 ∧
        t.reg (Csr.fcast n) = (s.planTile n (measureOf ms n)).2 ∧ t.dev.age.running = s.dev.age.queued ∧ t.dev.age.queued = none ∧
        (t.reg Csr.replanCnt).toNat = min 0xFFFFFFFF ((s.reg Csr.replanCnt).toNat + 1) ∧ t.dev.age.lastOp = (s.reg Csr.opMin).toNat) ∧
    (∀ (s : State) (ms : List TileMeasure), s.dev.age.running = none → exec (.replanComplete ms) s = .next s) ∧
    (∀ s : State, s.Canonical → s.dev.up = true → s.band < bandUp s.tj s.band → s.band < 5 →
      ∃ t, exec .bandChange s = .next t ∧ t.band = bandUp s.tj s.band ∧ t.dev.age.coolRun = 0) ∧
    (∀ s : State, s.Canonical → s.dev.up = true → bandUp s.tj s.band ≤ s.band → 1000 ≤ s.dev.age.coolRun → 0 < s.band → s.band < 5 →
      ∃ t, exec .bandChange s = .next t ∧ t.band = s.band - 1 ∧ t.dev.age.coolRun = 0) ∧
    (∀ s : State, s.Canonical → s.dev.up = true → 10000 ≤ s.dev.age.hotRun → fld (s.reg Csr.excStat) 1 1 = 1 →
      ∃ t, exec .excursion s = .next t ∧ fld (t.reg Csr.excStat) 1 1 = 0 ∧ fld (t.reg Csr.ageEvt) 2 2 = 1 ∧ t.dev.age.trigs.contains 3 = true ∧
        t.tiles = s.tiles ∧ t.mem = s.mem) ∧
    (∀ s : State, s.dev.age.hotRun < 10000 → exec .excursion s = .next s) ∧
    (∀ s : State, s.Canonical → s.dev.up = true → s.dev.power.inStby = false →
      ∃ t, exec .minuteCount s = .next t ∧ (t.reg Csr.opMin).toNat = min 0xFFFFFFFF ((s.reg Csr.opMin).toNat + 1) ∧
        s.SameRegs t [Csr.opMin, Csr.nextInt] ∧ t.tiles = s.tiles ∧ t.mem = s.mem ∧ t.dev = s.dev) ∧
    ∀ s : State, s.Canonical → s.dev.power.inStby = true →
      ∃ t, exec .minuteCount s = .next t ∧ (t.reg Csr.sbMin).toNat = min 0xFFFFFFFF ((s.reg Csr.sbMin).toNat + 1) ∧
        t.reg Csr.opMin = s.reg Csr.opMin ∧ s.SameRegs t [Csr.sbMin, Csr.stbyLo, Csr.stbyHi] ∧ t.tiles = s.tiles ∧ t.mem = s.mem)

/-! ## Memory controllers -/

/-- A row transfer waits for an idle cycle of its sub-bank and is then performed, its wait measured, and answers the far store that it carries out;
one withdrawn stays in line and is counted; a corrected word is written back (R53, R54, R56, R63).

A BIST slice holds an idle tile or the service core awake at its entry and lets it return, a tick held meanwhile wakes it, and a failure is
reported; the scrub reads the codewords in turn, rewrites one with two to four wrong bits and reports one beyond correction (R60, R61, R418, R419).

Answers a next state with its own effect, under conditions on state and operands alone: externalRowTransfer, rowTransferWithdraw, eccWriteback,
bistSliceStart, bistSliceEnd, mramScrub. -/
def Obligations.MemoryIsServedAndTested : Prop :=
  ((∀ (s : State) (b : BankIx) (sub now : Nat) (x : RowXfer), s.Canonical → s.OneShadow → s.ecc = [] → s.fab.rows = [] → b.val ≠ 22 →
      x.far = none → x.bank = b → subOf x = sub → x.ofs + x.bs.length ≤ bankSize b.val → x.ofs % 64 + x.bs.length ≤ 64 →
      ∃ t, exec (.externalRowTransfer b sub (some x) now) s = .next t ∧ t.fab.rows = [] ∧
        (x.wr = true → t.bytes (bankBase b.val + x.ofs) x.bs.length = x.bs ∧ t.out = s.out) ∧
        (x.wr = false → t.out = .row x.port.val (bankBase b.val + x.ofs) false (s.bytes (bankBase b.val + x.ofs) x.bs.length) :: s.out) ∧
        (∀ a < 2 ^ 36, x.wr = false ∨ a < bankBase b.val + x.ofs ∨ bankBase b.val + x.ofs + x.bs.length ≤ a → t.byte a = s.byte a) ∧
        (t.reg (bankReg b.val 0x18)).toNat = max (s.reg (bankReg b.val 0x18)).toNat (min (now - x.at_) 0xFFFFFFFF) ∧
        (t.reg (bankReg b.val 0x14)).toNat =
          (if 64 < now - x.at_ then min 0xFFFFFFFF ((s.reg (bankReg b.val 0x14)).toNat + 1) else (s.reg (bankReg b.val 0x14)).toNat) ∧
        s.SameRegs t [bankReg b.val 0x14, bankReg b.val 0x18] ∧ t.tiles = s.tiles) ∧
    (∀ (s : State) (b : BankIx) (sub now i o : Nat) (x : RowXfer) (u : UnitIx) (f : FarOp), s.Canonical → s.OneShadow → s.fab.rows = [] →
      b.val ≠ 22 → x.far = some (u, i) → s.farAt u i = some f → (∀ g ∈ (s.tile u).far, g.seq = f.seq → g = f) → f.phase = .sent → f.kind = .fst →
      locate f.ga.toNat = some (b.val, o) → o / 0x10000 = sub → o + f.data.length ≤ bankSize b.val → o % 64 + f.data.length ≤ 64 →
      ∃ t, exec (.externalRowTransfer b sub (some x) now) s = .next t ∧ t.fab.rows = [] ∧
        t.farAt u i = some { f with phase := .done 0, data := [] } ∧ s.SameUnits t u ∧
        t.bytes (bankBase b.val + o) f.data.length = f.data ∧
        ∀ a < 2 ^ 36, (a < bankBase b.val + o ∨ bankBase b.val + o + f.data.length ≤ a) → t.byte a = s.byte a) ∧
    (∀ (s : State) (b : BankIx) (sub now : Nat) (x : RowXfer), s.Canonical → x.far = none → x.bank = b → subOf x = sub →
      ∃ t, exec (.rowTransferWithdraw b sub (some x) none now) s = .next t ∧ t.fab.rows = s.fab.rows ++ [x] ∧ t.mem = s.mem ∧ t.tiles = s.tiles ∧
        (t.reg (bankReg b.val 0x1C)).toNat = min 0xFFFFFFFF ((s.reg (bankReg b.val 0x1C)).toNat + 1) ∧
        s.SameRegs t [bankReg b.val 0x1C]) ∧
    (∀ (s : State) (b : BankIx) (sub now o : Nat), s.Canonical → o < bankSize b.val →
      ∃ t, exec (.rowTransferWithdraw b sub none (some o) now) s = .next t ∧ t.fab.marks = s.fab.marks ++ [((bankBase b.val + o) / 64, now)] ∧
        t.fab.rows = s.fab.rows ∧ t.mem = s.mem ∧ t.tiles = s.tiles ∧
        (t.reg (bankReg b.val 0x1C)).toNat = min 0xFFFFFFFF ((s.reg (bankReg b.val 0x1C)).toNat + 1) ∧
        s.SameRegs t [bankReg b.val 0x1C]) ∧
    ∀ (s : State) (a : BitVec 36) (p : Nat), s.wback.contains (a.toNat / 8 * 8) = true → s.mark (a.toNat / 8 * 8) = some (.ce p) →
      ∃ t, exec (.eccWriteback a) s = .next t ∧ t.mark (a.toNat / 8 * 8) = none ∧ t.wback.contains (a.toNat / 8 * 8) = false ∧
        t.mem = s.mem ∧ t.csr = s.csr ∧ t.tiles = s.tiles) ∧
  ((∀ (s : State) (u : Fin 21), u.val ≤ 16 → s.bistMay u.val = true → (s.tile (unitIx u.val)).bist = none →
      ∃ t, exec (.bistSliceStart u) s = .next t ∧
        (t.tile (unitIx u.val)).bist = some { mode := (s.tile (unitIx u.val)).mode, pc := (s.tile (unitIx u.val)).pc } ∧
        (t.tile (unitIx u.val)).mode = .run ∧ (t.tile (unitIx u.val)).pc = Config.bistEntry u.val ∧
        s.SameUnits t (unitIx u.val) ∧ t.mem = s.mem ∧ t.csr = s.csr) ∧
    (∀ (s : State) (u : Fin 21), (u.val ≤ 16 ∧ (s.bistMay u.val = false ∨ (s.tile (unitIx u.val)).bist ≠ none)) ∨ 16 < u.val →
      exec (.bistSliceStart u) s = .next s) ∧
    (∀ (s : State) (u : Fin 21) (part : Byte) (ok : Bool), s.Canonical → (u.val ≤ 16 → (s.tile (unitIx u.val)).bist ≠ none) →
      ∃ t, exec (.bistSliceEnd u part ok) s = .next t ∧ (t.reg Csr.bistStat).toNat = part.toNat + 256 * u.val ∧ s.SameRegs t [Csr.bistStat] ∧
        (∀ r, u.val ≤ 16 → (s.tile (unitIx u.val)).bist = some r →
          (t.tile (unitIx u.val)).bist = none ∧ (t.tile (unitIx u.val)).heldTick = false ∧ (t.tile (unitIx u.val)).mode = r.mode ∧
          (t.tile (unitIx u.val)).pc = r.pc ∧ (t.tile (unitIx u.val)).wakeDue =
            ((s.tile (unitIx u.val)).wakeDue || ((s.tile (unitIx u.val)).heldTick && decide (r.mode ≠ .dark)))) ∧
        (16 < u.val → t.tiles = s.tiles) ∧ t.mem = s.mem ∧
        t.reports = s.reports ++ (if ok then [] else [{ code := 0x0160, unit := BitVec.ofNat 8 u.val, detail := [t.reg Csr.bistStat] }])) ∧
    (∀ (s : State), s.Canonical → s.dev.up = true → s.fab.scrub < 0x20000 → s.wrongBits s.fab.scrub = 0 →
      ∃ t, exec .mramScrub s = .next t ∧ t.fab.scrub = (s.fab.scrub + 1) % 0x20000 ∧ t.mem = s.mem ∧ t.merr = s.merr ∧ t.reports = s.reports ∧
        fld (t.reg Csr.mramStat) 1 1 = 1 ∧ s.SameRegs t [Csr.mramStat, Csr.mramPass] ∧
        (t.reg Csr.mramPass).toNat =
          if s.fab.scrub < 0x1FFFF then (s.reg Csr.mramPass).toNat else min 0xFFFFFFFF ((s.reg Csr.mramPass).toNat + 1)) ∧
    (∀ (s : State), s.Canonical → s.dev.up = true → 2 ≤ s.wrongBits s.fab.scrub → s.wrongBits s.fab.scrub ≤ 4 →
      ∃ t, exec .mramScrub s = .next t ∧ t.wrongBits s.fab.scrub = 0 ∧ t.mem = s.mem ∧
        (t.reg Csr.mramCe).toNat = min 0xFFFFFFFF ((s.reg Csr.mramCe).toNat + 1) ∧
        (t.reg Csr.mramWr).toNat = min 0xFFFFFFFF ((s.reg Csr.mramWr).toNat + 1)) ∧
    ∀ (s : State), s.Canonical → s.dev.up = true → 5 ≤ s.wrongBits s.fab.scrub →
      ∃ t, exec .mramScrub s = .next t ∧ t.merr = s.merr ∧ t.mem = s.mem ∧
        (t.reg Csr.mramUe).toNat = min 0xFFFFFFFF ((s.reg Csr.mramUe).toNat + 1) ∧
        ∃ r, t.reports = s.reports ++ [r] ∧ r.code = 0x0104 ∧ r.detail = [BitVec.ofNat 32 (32 * s.fab.scrub)])

/-- A borrowed window is copied, tested and restored, and every byte reads the same throughout; the windows are taken in turn, the shadow
array after the last; a fault retires the window, or stops the test (R66, R68, R417).

Answers a next state with its own effect, under conditions on state and operands alone: bmtStep, bmtPhaseAdvance. -/
def Obligations.BackgroundTestKeepsEveryByte : Prop :=
  (∀ (s : State) (n : BankIx), (s.bmtOf n.val).phase = .none → (s.bmtOf n.val).stopped = false → (s.bmtOf n.val).retired = none →
    ∃ t, exec (.bmtStep n) s = .next t ∧ t.mem = s.mem ∧ t.csr = s.csr ∧ t.tiles = s.tiles ∧
      (if (s.bmtOf n.val).rows = 64 ∧ windowsOf n.val ≤ (s.bmtOf n.val).window + 1 then (t.bmtOf n.val).phase = .shadow
       else (t.bmtOf n.val).phase = .copy ∧ (t.bmtOf n.val).rows = 0 ∧
         (t.bmtOf n.val).window = if (s.bmtOf n.val).rows = 64 then (s.bmtOf n.val).window + 1 else 0)) ∧
  (∀ (s : State) (n : BankIx), s.Canonical → s.OneShadow → s.ecc = [] → (s.bmtOf n.val).phase = .copy → (s.bmtOf n.val).rows = 0 →
    (s.bmtOf n.val).window < windowsOf n.val →
    ∃ t, exec (.bmtPhaseAdvance n 64 false) s = .next t ∧ (t.bmtOf n.val).phase = .test ∧
      (t.bmtOf n.val).window = (s.bmtOf n.val).window ∧ (∀ a < 2 ^ 36, t.byte a = s.byte a) ∧ t.csr = s.csr ∧ t.tiles = s.tiles) ∧
  (∀ (s : State) (n : BankIx) (rows : Fin 65), (s.bmtOf n.val).phase = .test →
    ∃ t, exec (.bmtPhaseAdvance n rows false) s = .next t ∧ (t.bmtOf n.val).phase = .restore ∧ (t.bmtOf n.val).rows = 0 ∧
      (t.bmtOf n.val).window = (s.bmtOf n.val).window ∧ (∀ a, t.byte a = s.byte a) ∧ t.mem = s.mem ∧ t.csr = s.csr) ∧
  (∀ (s : State) (n : BankIx) (rows : Fin 65), s.Canonical → s.OneShadow → (s.bmtOf n.val).phase = .test →
    ∃ t, exec (.bmtPhaseAdvance n rows true) s = .next t ∧ (t.bmtOf n.val).phase = .none ∧ (t.bmtOf n.val).stopped = true ∧
      (t.bmtOf n.val).retired = some (s.bmtOf n.val).window ∧ (∀ a, t.byte a = s.byte a) ∧ fld (t.reg (bankReg n.val 0x28)) 0 0 = 1 ∧
      ∃ r, t.reports = s.reports ++ [r] ∧ r.code = 0x0161 ∧ r.unit.toNat = n.val) ∧
  (∀ (s : State) (n : BankIx), s.Canonical → s.OneShadow → s.ecc = [] → (s.bmtOf n.val).phase = .restore → (s.bmtOf n.val).rows = 0 →
    (s.bmtOf n.val).window < windowsOf n.val →
    ∃ t, exec (.bmtPhaseAdvance n 64 false) s = .next t ∧ (t.bmtOf n.val).phase = .none ∧ (t.bmtOf n.val).rows = 64 ∧
      (∀ a < 2 ^ 36, t.byte a = s.byte a) ∧ t.csr = s.csr ∧ t.tiles = s.tiles) ∧
  (∀ (s : State) (n : BankIx) (rows : Fin 65), s.Canonical → (s.bmtOf n.val).phase = .shadow →
    ∃ t, exec (.bmtPhaseAdvance n rows false) s = .next t ∧ (t.bmtOf n.val).phase = .none ∧ (t.bmtOf n.val).rows = 65 ∧
      (t.reg (bankReg n.val 0x24)).toNat = min 0xFFFFFFFF ((s.reg (bankReg n.val 0x24)).toNat + 1) ∧ t.mem = s.mem) ∧
  ∀ (s : State) (n : BankIx) (rows : Fin 65), (s.bmtOf n.val).phase = .shadow →
    ∃ t, exec (.bmtPhaseAdvance n rows true) s = .next t ∧ (t.bmtOf n.val).phase = .none ∧ (t.bmtOf n.val).stopped = true ∧
      (t.bmtOf n.val).retired = (s.bmtOf n.val).retired ∧ t.mem = s.mem ∧
      ∃ r, t.reports = s.reports ++ [r] ∧ r.code = 0x0162 ∧ r.unit.toNat = n.val

/-! ## Registers and windows -/

/-- A write reaches a register by its access code: bits under its mask, or bits cleared where a 1 is written; one that the register's rule
does not permit is discarded and counted; an access to an unassigned address is counted as an address error; a read gives what the register holds,
and clears an RC register; the two words of a 64-bit pair are read and written as one (R16, R17, R19, R486, R490).

Answers a next state with its own effect, under conditions on state and operands alone: pairLowRead, pairHighWrite, readClearAccess, csrWrite. -/
def Obligations.RegistersAreReadAndWritten : Prop :=
  (∀ (s : State) (q : Requester) (a : BitVec 24) (v : Word) (d : RegDef), s.Canonical → s.dev.up = true → plainAt (dwordOf a) = true →
    regDef (dwordOf a) = some d → mayWrite d q = true → d.acc ≠ .w1c ∨ d.sc = true →
    ∃ t, exec (.csrWrite q a v) s = .next t ∧ t.reg (0x20000000 + dwordOf a) = blend (s.reg (0x20000000 + dwordOf a)) d.mask v ∧
      s.SameRegs t [0x20000000 + dwordOf a] ∧ t.tiles = s.tiles ∧ t.mem = s.mem ∧ t.ce = s.ce ∧ t.host = s.host) ∧
  (∀ (s : State) (q : Requester) (a : BitVec 24) (v : Word) (d : RegDef), s.Canonical → s.dev.up = true → plainAt (dwordOf a) = true →
    regDef (dwordOf a) = some d → mayWrite d q = true → d.acc = .w1c → d.sc = false →
    ∃ t, exec (.csrWrite q a v) s = .next t ∧
      t.reg (0x20000000 + dwordOf a) = s.reg (0x20000000 + dwordOf a) &&& ~~~(v &&& d.mask) ∧
      s.SameRegs t [0x20000000 + dwordOf a] ∧ t.tiles = s.tiles ∧ t.mem = s.mem) ∧
  (∀ (s : State) (q : Requester) (a : BitVec 24) (v : Word) (d : RegDef), s.Canonical → s.dev.up = true → 0x110000 ≤ dwordOf a →
    regDef (dwordOf a) = some d → mayWrite d q = false →
    ∃ t, exec (.csrWrite q a v) s = .next t ∧ (t.reg Csr.wrDisc).toNat = min 0xFFFFFFFF ((s.reg Csr.wrDisc).toNat + 1) ∧
      s.SameRegs t [Csr.wrDisc] ∧ t.tiles = s.tiles ∧ t.mem = s.mem ∧ t.ce = s.ce ∧ t.host = s.host) ∧
  (∀ (s : State) (q : Requester) (a : BitVec 24) (v : Word), s.Canonical → s.dev.up = true → regDef (dwordOf a) = none →
    ∃ t, exec (.csrWrite q a v) s = .next t ∧ (t.reg Csr.addrErrCnt).toNat = min 0xFFFFFFFF ((s.reg Csr.addrErrCnt).toNat + 1) ∧
      fld (t.reg Csr.hostErr) 0 0 = 1 ∧
      (fld (s.reg Csr.hostErr) 0 0 = 0 → (t.reg Csr.errAddr).toNat = dwordOf a + 2 ^ 24 * portOf q) ∧
      (fld (s.reg Csr.hostErr) 0 0 = 1 → t.reg Csr.errAddr = s.reg Csr.errAddr) ∧
      s.SameRegs t [Csr.addrErrCnt, Csr.hostErr, Csr.errAddr] ∧ t.tiles = s.tiles ∧ t.mem = s.mem) ∧
  (∀ (s : State) (u : UnitIx) (a : BitVec 24) (v : Word), s.dev.up = true → u.val < 16 → dwordOf a = 0x10000 * u.val + 0x300 →
    ∃ t, exec (.csrWrite (.tile 16) a v) s = .next t ∧ (t.tile u).flCfg = v &&& 0x1FFFF ∧ s.SameUnits t u ∧ t.csr = s.csr ∧
      t.mem = s.mem) ∧
  (∀ (s : State) (q : Requester) (a : BitVec 24) (d : RegDef), s.Canonical → s.dev.up = true → regDef (dwordOf a) = some d → d.acc = .rc →
    isPairLow (dwordOf a) = false → isPairLow (dwordOf a - 4) = false →
    ∃ t, exec (.readClearAccess q a) s = .next t ∧ t.out = .jtag (s.regVal (dwordOf a)) :: s.out ∧ t.reg (0x20000000 + dwordOf a) = 0 ∧
      s.SameRegs t [0x20000000 + dwordOf a] ∧ t.tiles = s.tiles ∧ t.mem = s.mem) ∧
  (∀ (s : State) (q : Requester) (a : BitVec 24) (d : RegDef), s.dev.up = true → 0x110000 ≤ dwordOf a → regDef (dwordOf a) = some d →
    (d.acc = .ro ∨ d.acc = .rw ∨ d.acc = .w1c) → isPairLow (dwordOf a) = false → isPairLow (dwordOf a - 4) = false →
    ∃ t, exec (.readClearAccess q a) s = .next t ∧ t.out = .jtag (s.regVal (dwordOf a)) :: s.out ∧ t.csr = s.csr ∧ t.tiles = s.tiles ∧
      t.mem = s.mem) ∧
  (∀ (s : State) (q : Requester) (a : BitVec 24), s.Canonical → s.dev.up = true → regDef (dwordOf a) = none →
    ∃ t, exec (.readClearAccess q a) s = .next t ∧ t.out = .jtag 0 :: s.out ∧
      (t.reg Csr.addrErrCnt).toNat = min 0xFFFFFFFF ((s.reg Csr.addrErrCnt).toNat + 1) ∧ fld (t.reg Csr.hostErr) 0 0 = 1 ∧
      s.SameRegs t [Csr.addrErrCnt, Csr.hostErr, Csr.errAddr] ∧ t.tiles = s.tiles ∧ t.mem = s.mem) ∧
  (∀ (s : State) (q : Requester) (a : BitVec 24) (d d2 : RegDef), s.dev.up = true → isPairLow (dwordOf a) = true →
    regDef (dwordOf a) = some d → regDef (dwordOf a + 4) = some d2 → (d.acc = .ro ∨ d.acc = .rw) →
    ∃ t, exec (.pairLowRead q a) s = .next t ∧ t.out = .jtag (s.regVal (dwordOf a)) :: s.out ∧ t.csr = s.csr ∧ t.mem = s.mem ∧
      t.tiles = s.tiles ∧ ∀ t' : State, t'.fab = t.fab → (t'.csrRead q (dwordOf a + 4)).2 = s.regVal (dwordOf a + 4)) ∧
  ∀ (s : State) (q : Requester) (a : BitVec 24) (v lo : Word), s.Canonical → s.dev.up = true →
    (dwordOf a = 0x700014 ∨ dwordOf a = 0x70001C) → (q = .host ∨ q = .tile 16) →
    s.pairWord (portOf q) (dwordOf a - 4) = some lo →
    ∃ t d dl, exec (.pairHighWrite q a v) s = .next t ∧ regDef (dwordOf a) = some d ∧ regDef (dwordOf a - 4) = some dl ∧
      t.reg (0x20000000 + dwordOf a) = blend (s.reg (0x20000000 + dwordOf a)) d.mask v ∧
      t.reg (0x20000000 + (dwordOf a - 4)) = blend (s.reg (0x20000000 + (dwordOf a - 4))) dl.mask lo ∧
      s.SameRegs t [0x20000000 + dwordOf a, 0x20000000 + (dwordOf a - 4)] ∧ t.tiles = s.tiles ∧ t.mem = s.mem

/-- A BAR0 request is register accesses in ascending order; BAR4 reaches banks while it is open, and is answered Unsupported Request while
it is closed (R320, R322).

A partner's READ or WRITE flit is performed at its address less 0x4000_0000 and answered with its tag; an answer completes the far
operation or host request it belongs to (R50, R383; the flags' status and the range of the flit's address are logs 44 and 45).

Answers a next state with its own effect, under conditions on state and operands alone: bar0Access, bar4Access, flitRead, flitReadRsp, flitWrite,
flitWriteAck. -/
def Obligations.WindowsReachTheirTarget : Prop :=
  ((∀ (s : State) (o tag : Nat) (be : BitVec 4), s.dev.up = true → s.tunnel = true → o < 0x1000000 → o % 4 = 0 →
      ∃ t, exec (.bar0Access (.read o tag [be])) s = .next t ∧
        t.out = .completion tag 0 false (enabled [be] (leBytes 4 (s.csrRead .host o).2.toNat)) :: (s.csrRead .host o).1.out ∧ t.mem = s.mem ∧
        t.csr = (s.csrRead .host o).1.csr) ∧
    (∀ (s : State) (o tag : Nat) (v : Word), s.dev.up = true → s.tunnel = true → o < 0x1000000 → o % 4 = 0 →
      exec (.bar0Access (.write o tag [(0xF, v)])) s = exec (.csrWrite .host (BitVec.ofNat 24 o) v) s) ∧
    (∀ (s : State) (o tag : Nat) (be : BitVec 4) (v : Word), s.Canonical → s.dev.up = true → s.tunnel = true → o < 0x1000000 → o % 4 = 0 →
      be ≠ 0xF → regDef o ≠ none →
      ∃ t, exec (.bar0Access (.write o tag [(be, v)])) s = .next t ∧ fld (t.reg Csr.hostErr) 1 1 = 1 ∧ s.SameRegs t [Csr.hostErr] ∧
        t.tiles = s.tiles ∧ t.mem = s.mem) ∧
    (∀ (s : State) (o tag : Nat) (bes : List (BitVec 4)), s.Canonical → s.dev.up = true → s.tunnel = true → (s.lc = 1 ∨ s.lc = 3) →
      s.fab.rows = [] → fld (s.reg Csr.bar4Sel) 3 0 = 0 → o % 64 + 4 * bes.length ≤ 64 → 0 < bes.length → o % 4 = 0 → regionOf o = .bank →
      s.hasUe o (4 * bes.length) = false →
      ∃ t, exec (.bar4Access (.read o tag bes)) s = .next t ∧
        t.out = .completion tag 0 false (enabled bes (s.bytes o (4 * bes.length))) :: s.out ∧ t.mem = s.mem) ∧
    (∀ (s : State) (o tag : Nat) (v : Word), s.Canonical → s.OneShadow → s.NoRows → s.dev.up = true → s.tunnel = true → (s.lc = 1 ∨ s.lc = 3) →
      fld (s.reg Csr.bar4Sel) 3 0 = 0 → o % 4 = 0 → regionOf o = .bank → o < 0x0D000000 →
      ∃ t, exec (.bar4Access (.write o tag [(0xF, v)])) s = .next t ∧ t.bytes o 4 = leBytes 4 v.toNat ∧
        (∀ b < 2 ^ 36, (b < o ∨ o + 4 ≤ b) → t.byte b = s.byte b) ∧ t.tiles = s.tiles ∧ t.out = s.out) ∧
    ∀ (s : State) (o tag : Nat) (bes : List (BitVec 4)) (dws : List (BitVec 4 × Word)), s.Canonical → s.dev.up = true → s.tunnel = true →
      s.lc ≠ 1 → s.lc ≠ 3 →
      ∃ t, exec (.bar4Access (.read o tag bes)) s = .next t ∧ exec (.bar4Access (.write o tag dws)) s = .next t ∧
        t.out = .completion tag 1 false [] :: s.out ∧ t.mem = s.mem ∧ fld (t.reg Csr.hostErr) 6 6 = 1 ∧ s.SameRegs t [Csr.hostErr]) ∧
  ((∀ (s : State) (tag : Byte) (a : BitVec 36) (n : Nat), s.dev.up = true → s.lst = 3 → s.fab.rows = [] → flitOk a.toNat n = true →
      regionOf (partnerAddr a.toNat) = .bank → oneBank (partnerAddr a.toNat) n = true → s.hasUe (partnerAddr a.toNat) n = false →
      ∃ t, exec (.flitRead tag a n) s = .next t ∧ t.mem = s.mem ∧ t.tiles = s.tiles ∧
        t.out = .flit 2 (flitBytes 2 tag.toNat a.toNat n 0 (s.bytes (partnerAddr a.toNat) n)) :: s.out) ∧
    (∀ (s : State) (tag : Byte) (a : BitVec 36) (bs : List Byte), s.Canonical → s.OneShadow → s.NoRows → s.dev.up = true → s.lst = 3 →
      flitOk a.toNat bs.length = true → regionOf (partnerAddr a.toNat) = .bank → oneBank (partnerAddr a.toNat) bs.length = true →
      partnerAddr a.toNat < 0x0D000000 →
      ∃ t, exec (.flitWrite tag a bs) s = .next t ∧ t.bytes (partnerAddr a.toNat) bs.length = bs ∧
        (∀ b < 2 ^ 36, (b < partnerAddr a.toNat ∨ partnerAddr a.toNat + bs.length ≤ b) → t.byte b = s.byte b) ∧ t.tiles = s.tiles ∧
        t.out = .flit 4 (flitBytes 4 tag.toNat a.toNat 0 0 []) :: s.out) ∧
    (∀ (s : State) (tag st : Byte) (bs : List Byte) (u : UnitIx) (n : Nat) (f : FarOp), s.dev.up = true → s.lst = 3 →
      s.lk.reqs = [{ tag := tag.toNat, unit := some u, seq := f.seq, wr := false }] → s.farAt u n = some f → f.kind ≠ .fst →
      ∃ t, exec (.flitReadRsp tag st bs) s = .next t ∧ t.lk.reqs = [] ∧ t.farAt u n = some { f with phase := .done st, data := padTo f.len bs } ∧
        s.SameUnits t u ∧ t.mem = s.mem ∧ t.csr = s.csr) ∧
    ∀ (s : State) (tag st : Byte) (u : UnitIx) (n : Nat) (f : FarOp), s.dev.up = true → s.lst = 3 →
      s.lk.reqs = [{ tag := tag.toNat, unit := some u, seq := f.seq, wr := true }] → s.farAt u n = some f → f.kind = .fst →
      ∃ t, exec (.flitWriteAck tag st) s = .next t ∧ t.lk.reqs = [] ∧ t.farAt u n = some { f with phase := .done st } ∧
        s.SameUnits t u ∧ t.mem = s.mem ∧ t.csr = s.csr)

/-! ## Rings and event records -/

/-- A doorbell in range sets the index of a running ring, one out of range puts the ring into ERROR, one that the ring does not take is
counted; a ring is enabled when its configuration is valid and ends its reset DISABLED; indices are polled from and written to the sync page
(R327, R328, R330, R343, R344).

The oldest record that waits for an event ring with space goes to its place in the ring, after the index of its own ring where that is due,
and PI advances; a record for a ring that does not run is dropped and counted; the vector is raised at most
once in a moderation interval, after which one message follows for records left (R334 to R337).

The next command is read from the ring served next; a descriptor that fails its checks is refused, a failed read puts the ring into
ERROR; the data of a command are kept with it; a NOP completes at once (R323, R331, R332).

Answers a next state with its own effect, under conditions on state and operands alone: hostReadComplete, doorbell, ringEnable, ringReset,
shadowPoll, indexWriteback, commandFetch, cmdNop, eventRecordWrite, msixModerationExpire, ringResetComplete. -/
def Obligations.RingsCarryCommandsAndRecords : Prop :=
  ((∀ (s : State) (r : Fin 56) (v : Word), s.Canonical → s.dev.up = true → s.ringSt r.val = 1 →
      (if r.val < 48 then (v - s.reg (Csr.ringCi r.val)).toNat ≤ s.ringLen r.val ∧ (v - s.reg (Csr.ringPi r.val)).toNat ≤ s.ringLen r.val
       else (v - s.reg (Csr.ringCi r.val)).toNat ≤ s.ringUsed r.val) →
      ∃ t, exec (.doorbell r v true) s = .next t ∧ t.reg (if r.val < 48 then Csr.ringPi r.val else Csr.ringCi r.val) = v ∧
        s.SameRegs t [if r.val < 48 then Csr.ringPi r.val else Csr.ringCi r.val] ∧ t.host = s.host ∧ t.mem = s.mem ∧ t.tiles = s.tiles) ∧
    (∀ (s : State) (r : Fin 56) (v : Word), s.Canonical → s.dev.up = true → s.ringSt r.val = 1 →
      (if r.val < 48 then s.ringLen r.val < (v - s.reg (Csr.ringCi r.val)).toNat ∨ s.ringLen r.val < (v - s.reg (Csr.ringPi r.val)).toNat
       else s.ringUsed r.val < (v - s.reg (Csr.ringCi r.val)).toNat) →
      ∃ t, exec (.doorbell r v true) s = .next t ∧ t.ringSt r.val = 2 ∧ fld (t.reg (Csr.ringCtl r.val)) 31 24 = 0x27 ∧
        t.reg (Csr.ringPi r.val) = s.reg (Csr.ringPi r.val) ∧ t.reg (Csr.ringCi r.val) = s.reg (Csr.ringCi r.val) ∧
        fld (t.reg (if r.val < 32 then Csr.ringErr0 else Csr.ringErr1)) (r.val % 32) (r.val % 32) = 1 ∧
        fld (t.reg (Csr.ringCtl r.val)) 2 2 = 0) ∧
    (∀ (s : State) (r : Fin 56) (v : Word) (full : Bool), s.Canonical → s.dev.up = true → s.ringSt r.val ≠ 1 ∨ full = false →
      ∃ t, exec (.doorbell r v full) s = .next t ∧ (t.reg Csr.dbErrCnt).toNat = min 0xFFFFFFFF ((s.reg Csr.dbErrCnt).toNat + 1) ∧
        fld (t.reg Csr.hostErr) 2 2 = 1 ∧ s.SameRegs t [Csr.dbErrCnt, Csr.hostErr] ∧ t.host = s.host) ∧
    (∀ (s : State) (r : Fin 56) (v : Word), s.Canonical → s.dev.up = true → s.ringSt r.val = 0 → (r.val ≠ 48 ∨ s.host.retDue = false) →
      (s.setReg (Csr.ringCtl r.val) (blend (s.reg (Csr.ringCtl r.val)) (ctlMask r.val) v)).ringOk r.val = true →
      ∃ t, exec (.ringEnable r v) s = .next t ∧ t.ringSt r.val = 1 ∧ t.reg (Csr.ringPi r.val) = 0 ∧ t.reg (Csr.ringCi r.val) = 0 ∧
        fld (t.reg (Csr.ringCtl r.val)) 8 4 = fld v 8 4 ∧ s.SameRegs t [Csr.ringCtl r.val, Csr.ringPi r.val, Csr.ringCi r.val] ∧
        t.host = s.host) ∧
    (∀ (s : State) (r : Fin 56) (v : Word), s.Canonical → s.dev.up = true → s.ringSt r.val = 0 →
      (s.setReg (Csr.ringCtl r.val) (blend (s.reg (Csr.ringCtl r.val)) (ctlMask r.val) v)).ringOk r.val = false →
      ∃ t, exec (.ringEnable r v) s = .next t ∧ t.ringSt r.val = 0 ∧ fld (t.reg Csr.hostErr) 5 5 = 1) ∧
    (∀ (s : State) (r : Fin 56), s.Canonical → s.dev.up = true → s.ringSt r.val ≠ 3 →
      ∃ t, exec (.ringReset r) s = .next t ∧ t.ringSt r.val = 3 ∧ (∀ c ∈ t.host.cur, c.ring ≠ r.val) ∧ t.mem = s.mem ∧ t.tiles = s.tiles ∧
        fld (t.reg (if r.val < 32 then Csr.ringErr0 else Csr.ringErr1)) (r.val % 32) (r.val % 32) = 0 ∧
        fld (t.reg (Csr.ringCtl r.val)) 31 24 = 0) ∧
    (∀ (s : State) (r : Fin 56), s.Canonical → s.dev.up = true → s.ringSt r.val = 3 →
      ∃ t, exec (.ringResetComplete r) s = .next t ∧ t.ringSt r.val = 0 ∧ t.reg (Csr.ringPi r.val) = 0 ∧ t.reg (Csr.ringCi r.val) = 0 ∧
        t.host = { s.host with wb := s.host.wb.filter (· ≠ r.val) } ∧ t.mem = s.mem) ∧
    (∀ (s : State) (r : Fin 32) (vals : List Word), s.Canonical → s.dev.up = true → s.hostGoes = true → s.tunnel = true → 0 < fld (s.reg Csr.poll) 9 0 →
      s.inWin s.syncBase 4096 = true → s.reg Csr.shadowEn0 = BitVec.ofNat 32 (2 ^ r.val) → s.reg Csr.shadowEn1 = 0 → s.ringSt r.val = 1 →
      0 < (vals.getD r.val 0 - s.reg (Csr.ringPi r.val)).toNat → (vals.getD r.val 0 - s.reg (Csr.ringPi r.val)).toNat ≤ s.ringLen r.val →
      (vals.getD r.val 0 - s.reg (Csr.ringCi r.val)).toNat ≤ s.ringLen r.val →
      ∃ t, exec (.shadowPoll (some vals)) s = .next t ∧ t.reg (Csr.ringPi r.val) = vals.getD r.val 0 ∧ s.SameRegs t [Csr.ringPi r.val] ∧
        t.out = .hostRead s.syncBase 0xE0 :: s.out ∧ t.host = s.host) ∧
    (∀ (s : State), s.Canonical → s.dev.up = true → s.hostGoes = true → s.tunnel = true → 0 < fld (s.reg Csr.poll) 9 0 →
      s.inWin s.syncBase 4096 = true →
      ∃ t, exec (.shadowPoll none) s = .next t ∧ fld (t.reg Csr.hostErr) 4 4 = 1 ∧ s.SameRegs t [Csr.hostErr] ∧ t.host = s.host) ∧
    ∀ (s : State) (r : Fin 56), s.dev.up = true → s.hostGoes = true → s.tunnel = true → s.ringSt r.val = 1 ∨ s.ringSt r.val = 2 →
      s.inWin s.syncBase 4096 = true →
      ∃ t, exec (.indexWriteback r) s = .next t ∧ t.csr = s.csr ∧ t.host = { s.host with wb := s.host.wb.filter (· ≠ r.val) } ∧
        t.out = .hostWrite (s.syncBase + 0x800 + 4 * r.val)
          (leBytes 4 (s.reg (if r.val < 48 then Csr.ringCi r.val else Csr.ringPi r.val)).toNat) :: s.out) ∧
  ((∀ (s : State) (e : Fin 8) (r : HostRec), s.Canonical → s.dev.up = true → s.hostGoes = true → s.tunnel = true →
      s.host.waiting = [(e.val, r)] →
      s.ringSt (48 + e.val) = 1 → s.ringUsed (48 + e.val) < s.ringLen (48 + e.val) →
      ∃ t, exec (.eventRecordWrite e) s = .next t ∧ t.host.waiting = [] ∧
        t.reg (Csr.ringPi (48 + e.val)) = s.reg (Csr.ringPi (48 + e.val)) + 1 ∧ s.SameRegs t [Csr.ringPi (48 + e.val)] ∧
        (.hostWrite (s.ringBase (48 + e.val) + (s.reg (Csr.ringPi (48 + e.val))).toNat % s.ringLen (48 + e.val) * 32)
          ((if r.typ = 3 then { r with block := BitVec.ofNat 64 s.blk } else r).bytes (s.reg (Csr.ringPi (48 + e.val))).toNat
            (s.ringLen (48 + e.val)))) ∈ t.out ∧
        (s.host.wb.contains r.ring = true → s.ringSt r.ring = 1 → s.inWin s.syncBase 4096 = true → s.host.modOn.getD e.val false = true →
          ∃ x, t.out = x :: .hostWrite (s.syncBase + 0x800 + 4 * r.ring)
            (leBytes 4 (s.reg (if r.ring < 48 then Csr.ringCi r.ring else Csr.ringPi r.ring)).toNat) :: s.out) ∧
        (s.host.modOn.getD e.val false = false → s.host.msixEn = true → s.host.msixMask = false →
          (s.msixWord (4 * fld (s.reg (Csr.ringCtl (48 + e.val))) 17 12 + 3)).getLsbD 0 = false →
          t.out.head? = some (.msix (fld (s.reg (Csr.ringCtl (48 + e.val))) 17 12)))) ∧
    (∀ (s : State) (e : Fin 8) (r : HostRec), s.Canonical → s.dev.up = true → s.hostGoes = true → s.host.waiting = [(e.val, r)] →
      s.ringSt (48 + e.val) ≠ 1 →
      ∃ t, exec (.eventRecordWrite e) s = .next t ∧ t.host.waiting = [] ∧ t.out = s.out ∧
        (t.reg (Csr.erLost e.val)).toNat = min 0xFFFFFFFF ((s.reg (Csr.erLost e.val)).toNat + 1) ∧
        t.host.lost.getD e.val 0 = s.host.lost.getD e.val 0 + 1) ∧
    (∀ (s : State) (e : Fin 8), s.dev.up = true → s.host.modOn.getD e.val false = true → s.ringUsed (48 + e.val) ≠ 0 →
      s.host.msixEn = true → s.host.msixMask = false → (s.msixWord (4 * fld (s.reg (Csr.ringCtl (48 + e.val))) 17 12 + 3)).getLsbD 0 = false →
      ∃ t, exec (.msixModerationExpire e) s = .next t ∧ t.out = .msix (fld (s.reg (Csr.ringCtl (48 + e.val))) 17 12) :: s.out ∧
        t.csr = s.csr ∧ t.host.waiting = s.host.waiting) ∧
    ∀ (s : State) (e : Fin 8), s.dev.up = true → s.host.modOn.getD e.val false = true → s.ringUsed (48 + e.val) = 0 →
      ∃ t, exec (.msixModerationExpire e) s = .next t ∧ t.out = s.out ∧ t.host.modOn.getD e.val true = false ∧ t.csr = s.csr) ∧
  ((∀ (s : State) (r : Nat) (d : List Byte), s.Canonical → s.dev.up = true → s.hostGoes = true → s.tunnel = true → s.nextRing = some r →
      s.cmdBad (HostCmd.ofBytes r (s.reg (Csr.ringCi r)) (padTo 64 d)) (padTo 64 d) = none →
      ∃ t, exec (.commandFetch (some d)) s = .next t ∧ t.host.cur = s.host.cur ++ [HostCmd.ofBytes r (s.reg (Csr.ringCi r)) (padTo 64 d)] ∧
        t.host.served = r ∧ t.csr = s.csr ∧ t.mem = s.mem ∧
        t.out = (if (HostCmd.ofBytes r (s.reg (Csr.ringCi r)) (padTo 64 d)).op = 3 then
            [.hostRead (HostCmd.ofBytes r (s.reg (Csr.ringCi r)) (padTo 64 d)).addr.toNat (HostCmd.ofBytes r (s.reg (Csr.ringCi r)) (padTo 64 d)).len]
          else []) ++ .hostRead (s.ringBase r + (s.reg (Csr.ringCi r)).toNat % s.ringLen r * 64) 64 :: s.out) ∧
    (∀ (s : State) (r st : Nat) (d : List Byte), s.Canonical → s.dev.up = true → s.hostGoes = true → s.tunnel = true → s.nextRing = some r →
      s.erFree (s.ringEr r) → s.cmdBad (HostCmd.ofBytes r (s.reg (Csr.ringCi r)) (padTo 64 d)) (padTo 64 d) = some st →
      ∃ t, exec (.commandFetch (some d)) s = .next t ∧ s.accepted t (HostCmd.ofBytes r (s.reg (Csr.ringCi r)) (padTo 64 d)) ∧
        s.completes t (HostCmd.ofBytes r (s.reg (Csr.ringCi r)) (padTo 64 d)) st (s.reg Csr.aseq + 1) ∧ t.mem = s.mem) ∧
    (∀ (s : State) (r : Nat), s.Canonical → s.dev.up = true → s.hostGoes = true → s.tunnel = true → s.nextRing = some r →
      ∃ t, exec (.commandFetch none) s = .next t ∧ t.ringSt r = 2 ∧ fld (t.reg (Csr.ringCtl r)) 31 24 = 0x13 ∧
        t.reg (Csr.ringCi r) = s.reg (Csr.ringCi r)) ∧
    (∀ (s : State) (r : Fin 48) (c : HostCmd) (d : List Byte), s.dev.up = true → s.hostGoes = true → r.val < 16 → s.curOf r.val = some c →
      c.op = 3 ∨ c.op = 4 → c.data = none →
      ∃ t, exec (.hostReadComplete r (some d)) s = .next t ∧ t.curOf r.val = some { c with data := some (padTo c.len d) } ∧ t.csr = s.csr ∧
        t.mem = s.mem ∧ t.out = s.out) ∧
    (∀ (s : State) (r : Fin 48) (c : HostCmd), s.Canonical → s.dev.up = true → s.hostGoes = true → r.val < 16 → s.curOf r.val = some c →
      c.op = 3 ∨ c.op = 4 → c.data = none → s.erFree (s.ringEr c.ring) →
      ∃ t, exec (.hostReadComplete r none) s = .next t ∧ s.accepted t c ∧ s.completes t c 0x13 (s.reg Csr.aseq + 1) ∧
        fld (t.reg Csr.hostErr) 4 4 = 1) ∧
    ∀ (s : State) (r : Fin 16) (c : HostCmd), s.Canonical → s.dev.up = true → s.curOf r.val = some c → c.op = 0 → s.erFree (s.ringEr c.ring) →
      ∃ t, exec (.cmdNop r) s = .next t ∧ s.accepted t c ∧ s.completes t c 0 (s.reg Csr.aseq + 1) ∧ t.mem = s.mem ∧ t.out = s.out)

/-! ## Host commands -/

/-- A LOAD_PLAN that passes its checks is accepted and reads its image; while another load runs it is refused BUSY; the load ends with the
status of the image's verification, and an image to be stored is written, its first 64 bytes zero until the end (R234, R264, R265, R331, R332,
R473, R474).

Answers a next state with its own effect, under conditions on state and operands alone: loadPlanSwitch, loadPlanReplace, loadPlanStore,
planVerifyComplete. -/
def Obligations.PlansAreLoaded : Prop :=
  (∀ (s : State) (r : Fin 16) (c : HostCmd), s.Canonical → s.dev.up = true → s.curOf r.val = some c → c.op = 1 → fld c.arg0 1 0 = 0 →
    s.host.load = none → s.dev.sched.replace = none → 0 < s.lc → s.lc < 4 → s.plan ≠ none →
    ∃ t, exec (.loadPlanSwitch r) s = .next t ∧ s.accepted t c ∧ t.host.load = some { c with aseq := s.reg Csr.aseq + 1 } ∧
      t.out = .hostRead c.addr.toNat c.len :: (s.forwardOut 3 (c.raw 0)).out ∧ t.mem = s.mem ∧ t.dev = s.dev) ∧
  (∀ (s : State) (r : Fin 16) (c : HostCmd), s.Canonical → s.dev.up = true → s.curOf r.val = some c → c.op = 1 → fld c.arg0 1 0 = 2 →
    s.host.load = none → s.dev.sched.replace = none → 0 < s.lc → s.lc < 4 → c.len ≤ 2097152 →
    ∃ t, exec (.loadPlanStore r) s = .next t ∧ s.accepted t c ∧ t.host.load = some { c with aseq := s.reg Csr.aseq + 1 } ∧
      t.out = .hostRead c.addr.toNat c.len :: (s.forwardOut 3 (c.raw 0)).out ∧ t.mem = s.mem ∧ t.dev = s.dev) ∧
  (∀ (s : State) (r : Fin 16) (c : HostCmd) (n : Nat), s.Canonical → s.dev.up = true → s.curOf r.val = some c → c.op = 1 → fld c.arg0 1 0 = 1 →
    s.host.load = none → s.dev.sched.replace = none → 0 < s.lc → s.lc < 4 → s.held390 = false → s.host.changes = [] → s.plan ≠ none →
    pickBlock c.block (s.blk + 2) = some n →
    ∃ t z, exec (.loadPlanReplace r) s = .next t ∧ s.accepted t c ∧ t.dev.sched.replace = some z ∧ z.block = n ∧ z.plan = none ∧
      t.out = .hostRead c.addr.toNat c.len :: (s.forwardOut 3 (c.raw 0)).out ∧ t.mem = s.mem ∧ t.plan = s.plan) ∧
  (∀ (s : State) (r : Fin 16) (c : HostCmd), s.Canonical → s.dev.up = true → s.curOf r.val = some c → c.op = 1 → fld c.arg0 1 0 = 0 →
    s.host.load ≠ none → s.erFree (s.ringEr c.ring) →
    ∃ t, exec (.loadPlanSwitch r) s = .next t ∧ s.accepted t c ∧ s.completes t c 0x14 (s.reg Csr.aseq + 1) ∧ t.host.load = s.host.load) ∧
  (∀ (s : State) (c : HostCmd) (g : PlanImage) (p : Plan), s.dev.up = true → s.merr = [] → s.host.load = some c → s.loadPuts = false →
    fld c.arg0 1 0 = 0 → s.plan = some p → s.verifyPlan (g.ofLen c.len) = none → (g.ofLen c.len).plan.sects.all (freeFor p) = true →
    ∃ t, exec (.planVerifyComplete (some g)) s = .next t ∧ t.host.load = none ∧
      ((g.ofLen c.len).plan, s.dev.sched.variant) ∈ t.dev.sched.loaded ∧ t.plan = s.plan) ∧
  (∀ (s : State) (c : HostCmd) (g : PlanImage), s.Canonical → s.dev.up = true → s.merr = [] → s.host.load = some c → s.fab.puts = [] →
    fld c.arg0 1 0 = 2 → s.verifyStored (g.ofLen c.len) = none →
    ∃ t x, exec (.planVerifyComplete (some g)) s = .next t ∧ t.host.load = some c ∧ t.fab.puts = [x] ∧ x.bs = (g.ofLen c.len).bytes ∧
      t.bytes (mramBase + 0x100000) 64 = zeros 64 ∧ t.dev.images.plan = none ∧ t.plan = s.plan) ∧
  ∀ (s : State) (c : HostCmd) (g : PlanImage) (st : Nat), s.Canonical → s.dev.up = true → s.merr = [] → s.host.load = some c →
    s.loadPuts = false → c.ring < 16 → fld c.arg0 1 0 ≠ 2 → s.verifyPlan (g.ofLen c.len) = some st → s.erFree (s.ringEr c.ring) →
    ∃ t, exec (.planVerifyComplete (some g)) s = .next t ∧ t.host.load = none ∧ s.completes t c st c.aseq ∧
      t.dev.sched.loaded = s.dev.sched.loaded ∧ t.mem = s.mem

/-- A command that names a block it can meet is accepted as a change of that block, one whose cutoff has passed is refused LATE; a change
completes at its block (R260, R261, R264, R284, R333, R339, R342).

Answers a next state with its own effect, under conditions on state and operands alone: switchPlan, paramWrite, filterLoad, streamOpen,
streamClose, commandTakeEffect. -/
def Obligations.ChangesWaitForTheirBlock : Prop :=
  (∀ (s : State) (r : Fin 16) (c : HostCmd) (q : Plan × Tier) (n : Nat), s.Canonical → s.dev.up = true → s.curOf r.val = some c → c.op = 2 →
    s.dev.sched.replace = none → s.host.changes = [] → s.held390 = false → s.plan ≠ none →
    s.dev.sched.loaded.find? (fun x => decide (x.1.planId = c.arg0)) = some q → q.1.block = s.bsize → pickBlock c.block (s.blk + 2) = some n →
    ∃ t, exec (.switchPlan r) s = .next t ∧ s.accepted t c ∧ t.switchDue = some (n, q.1) ∧ t.plan = s.plan ∧ t.mem = s.mem) ∧
  (∀ (s : State) (r : Fin 16) (c : HostCmd) (g : ParamRegion) (bs : List Byte) (p : Plan) (n : Nat), s.Canonical → s.dev.up = true →
    s.curOf r.val = some c → c.op = 3 → c.data = some bs → s.dev.sched.replace = none → s.held390 = false → s.plan = some p →
    s.host.changes = [] → pickBlock c.block s.firstWin = some n →
    (Plan.params p s.dev.sched.variant).find? (fun x => decide (x.id = fld c.arg0 15 0)) = some g → c.arg1.toNat + c.len ≤ g.loc.len →
    c.len ≤ 65536 →
    ∃ t x, exec (.paramWrite r) s = .next t ∧ s.accepted t c ∧ t.host.changes = [x] ∧ x.block = n ∧ x.kind = .param g c.arg1.toNat bs ∧
      t.mem = s.mem) ∧
  (∀ (s : State) (r : Fin 16) (c : HostCmd) (bs : List Byte), s.Canonical → s.dev.up = true → s.curOf r.val = some c → c.op = 3 →
    c.data = some bs → s.dev.sched.replace = none → s.held390 = false → s.plan ≠ none → pickBlock c.block s.firstWin = none →
    s.erFree (s.ringEr c.ring) →
    ∃ t, exec (.paramWrite r) s = .next t ∧ s.accepted t c ∧ s.completes t c 1 (s.reg Csr.aseq + 1) ∧ t.host.changes = s.host.changes) ∧
  (∀ (s : State) (r : Fin 16) (c : HostCmd) (k : Fin 4) (j : CeJob) (bs : List Byte) (p : Plan) (n : Nat), s.Canonical → s.OneShadow →
    s.dev.up = true → s.curOf r.val = some c → c.op = 4 → c.data = some bs → s.dev.sched.replace = none → s.held390 = false → s.plan = some p →
    s.host.changes = [] → pickBlock c.block s.firstWin = some n → fld c.arg0 1 0 = k.val →
    (Plan.ceJobs p s.dev.sched.variant k.val)[fld c.arg0 15 8]? = some j → j.valid = true → j.single = false → j.slotBytes = c.len →
    (s.eng k).pend = [] → bs.length = c.len → (s.eng k).setB.contains (fld c.arg0 15 8) = false → j.slotB + c.len ≤ 0x600000 →
    ∃ t x, exec (.filterLoad r) s = .next t ∧ s.accepted t c ∧ t.host.changes = [x] ∧ x.block = n ∧ t.bytes (ceAddr k j.slotB) c.len = bs ∧
      (∀ b < 2 ^ 36, (b < ceAddr k j.slotB ∨ ceAddr k j.slotB + c.len ≤ b) → t.byte b = s.byte b)) ∧
  (∀ (s : State) (r : Fin 16) (c : HostCmd) (e : HostEp) (p : Plan) (n : Nat), s.Canonical → s.dev.up = true → s.curOf r.val = some c →
    c.op = 5 → s.dev.sched.replace = none → s.plan = some p → s.host.changes = [] → s.host.streams = [] →
    pickBlock c.block s.firstWin = some n → p.eps.find? (fun x => decide (x.ix = fld c.arg0 4 0)) = some e →
    e.d2h = decide (32 ≤ c.arg1.toNat) →
    ∃ t x, exec (.streamOpen r) s = .next t ∧ s.accepted t c ∧ t.host.streams = [x] ∧ x.ep = e ∧ x.ring = c.arg1.toNat ∧ x.start = n ∧
      x.stop = none ∧ t.mem = s.mem) ∧
  (∀ (s : State) (r : Fin 16) (c : HostCmd) (x : HStream) (n : Nat), s.Canonical → s.dev.up = true → s.curOf r.val = some c →
    c.op = 6 → s.dev.sched.replace = none → s.plan ≠ none → s.host.streams = [x] → x.ep.ix = fld c.arg0 4 0 → x.stop = none →
    pickBlock c.block s.firstWin = some n →
    ∃ t, exec (.streamClose r) s = .next t ∧ s.accepted t c ∧ t.host.streams = [{ x with stop := some n }] ∧ t.mem = s.mem) ∧
  ∀ (s : State) (x : Change) (g : ParamRegion) (o : Nat) (bs : List Byte), s.Canonical → s.dev.up = true → s.host.changes = [x] →
    x.block ≤ s.blk → x.kind = .param g o bs → x.old = false → x.cmd.ring < 16 → s.host.streams = [] → s.erFree (s.ringEr x.cmd.ring) →
    ∃ t, exec .commandTakeEffect s = .next t ∧ t.host.changes = [] ∧ s.completes t x.cmd 0 x.cmd.aseq ∧ t.csr = s.csr ∧ t.mem = s.mem

/-- DIAG exports write the records asked for and complete; the path test starts on every routed output; while one runs, another is refused
BUSY (R331, R371, R374, R375).

The next descriptor of a stream ring is read and checked; the next block of an H2D stream is read and staged; the oldest staged block of a D2H
stream is written to its place in the current descriptor (R339 to R341).

Answers a next state with its own effect, under conditions on state and operands alone: hostReadComplete, diagEventExport, diagMarginExport,
diagPathTest, h2dDescriptorFetch, d2hBlockWrite. -/
def Obligations.DiagnosticsAndHostStreams : Prop :=
  ((∀ (s : State) (r : Fin 16) (c : HostCmd), s.Canonical → s.dev.up = true → s.curOf r.val = some c → c.op = 7 → fld c.arg0 7 0 = 1 →
      s.merr = [] → s.tunnel = true → s.host.diag = none → s.erFree (s.ringEr c.ring) →
      ∃ t, exec (.diagEventExport r) s = .next t ∧ s.accepted t c ∧ s.completes t c 0 (s.reg Csr.aseq + 1) ∧ t.mem = s.mem ∧
        t.out = .hostWrite c.addr.toNat ((s.exportEvents c.arg1 (c.len / 64)).take c.len) :: s.out) ∧
    (∀ (s : State) (r : Fin 16) (c : HostCmd), s.Canonical → s.dev.up = true → s.curOf r.val = some c → c.op = 7 → fld c.arg0 7 0 = 2 →
      s.merr = [] → s.tunnel = true → s.host.diag = none → s.erFree (s.ringEr c.ring) →
      ∃ t, exec (.diagMarginExport r) s = .next t ∧ s.accepted t c ∧ s.completes t c 0 (s.reg Csr.aseq + 1) ∧ t.mem = s.mem ∧
        t.out = .hostWrite c.addr.toNat ((s.exportMargin c.arg1 (c.len / 64)).take c.len) :: s.out) ∧
    (∀ (s : State) (r : Fin 16) (c : HostCmd), s.Canonical → s.dev.up = true → s.curOf r.val = some c → c.op = 7 → fld c.arg0 7 0 = 3 →
      s.host.diag = none → s.pathOk = true →
      ∃ t x, exec (.diagPathTest r) s = .next t ∧ s.accepted t c ∧ t.host.diag = some { c with aseq := s.reg Csr.aseq + 1 } ∧
        t.net.path = some x ∧ x.run = true ∧ x.host = true ∧ x.done = [] ∧ x.left = s.routed.map (·.ix)) ∧
    ∀ (s : State) (r : Fin 16) (c : HostCmd), s.Canonical → s.dev.up = true → s.curOf r.val = some c → c.op = 7 → fld c.arg0 7 0 = 3 →
      s.host.diag ≠ none → s.erFree (s.ringEr c.ring) →
      ∃ t, exec (.diagPathTest r) s = .next t ∧ s.accepted t c ∧ s.completes t c 0x14 (s.reg Csr.aseq + 1) ∧ t.net = s.net) ∧
  ((∀ (s : State) (r : Fin 48) (x : HStream) (d : List Byte), s.dev.up = true → s.hostGoes = true → s.tunnel = true → 16 ≤ r.val →
      s.host.streams = [x] → x.ring = r.val → s.ringSt r.val = 1 → x.quiet = false → x.descs.length < s.ringUsed r.val → x.ep.d2h = true →
      leNat ((padTo 64 d).take 2) = 0 → leNat (((padTo 64 d).drop 4).take 4) = 0 → ((padTo 64 d).drop 0x14).all (· = 0) = true →
      0 < leNat (((padTo 64 d).drop 0x10).take 4) → leNat (((padTo 64 d).drop 0x10).take 4) % x.ep.bpb = 0 →
      leNat (((padTo 64 d).drop 8).take 8) % 64 = 0 →
      s.inWin (leNat (((padTo 64 d).drop 8).take 8)) (leNat (((padTo 64 d).drop 0x10).take 4)) = true →
      ∃ t e, exec (.hostReadComplete r (some d)) s = .next t ∧ t.csr = s.csr ∧ t.mem = s.mem ∧
        t.host.streams = [{ x with descs := x.descs ++ [e] }] ∧ e.addr = leNat (((padTo 64 d).drop 8).take 8) ∧
        e.tag = leNat (((padTo 64 d).drop 2).take 2) ∧ e.blocks * x.ep.bpb = leNat (((padTo 64 d).drop 0x10).take 4) ∧ e.done = 0 ∧
        t.out = .hostRead (s.ringBase r.val + ((s.reg (Csr.ringCi r.val)).toNat + x.descs.length) % s.ringLen r.val * 64) 64 :: s.out) ∧
    (∀ (s : State) (ep : Fin 32) (x : HStream) (d : StreamDesc) (bs : List Byte) (k : Nat), s.dev.up = true → s.hostGoes = true → s.tunnel = true →
      s.host.streams = [x] → x.ep.ix = ep.val → x.ep.d2h = false → k = max x.next (max x.start (s.lastWin + 1)) → k ≤ s.blk + 8 →
      x.serves k = true → x.descs.find? (fun d => decide (d.first.getD 0 ≤ k) && decide (k < d.first.getD 0 + d.blocks)) = some d →
      ∃ t, exec (.h2dDescriptorFetch ep (some bs)) s = .next t ∧ t.csr = s.csr ∧ t.mem = s.mem ∧
        t.host.streams = [{ x with staged := x.staged ++ [(k, padTo x.ep.bpb bs)], next := k + 1 }] ∧
        t.out = .hostRead (d.addr + (k - d.first.getD 0) * x.ep.bpb) x.ep.bpb :: s.out) ∧
    ∀ (s : State) (ep : Fin 32) (x : HStream) (d : StreamDesc) (k : Nat) (bs : List Byte) (rest : List (Nat × List Byte)) (ds : List StreamDesc),
      s.dev.up = true → s.hostGoes = true → s.tunnel = true → s.host.streams = [x] → x.ep.ix = ep.val → x.ep.d2h = true →
      x.staged = (k, bs) :: rest → x.descs = d :: ds → d.first.getD k + d.done = k → d.done + 1 < d.blocks → x.stop = none →
      (match rest with | [] => x.inRun = false | y :: _ => y.1 = k + 1) →
      ∃ t, exec (.d2hBlockWrite ep) s = .next t ∧ t.csr = s.csr ∧ t.mem = s.mem ∧
        t.host.streams = [{ x with staged := rest, descs := { d with first := some (d.first.getD k), done := d.done + 1 } :: ds }] ∧
        t.out = .hostWrite (d.addr + d.done * x.ep.bpb) bs :: s.out)

/-! ## Links -/

/-- USB4 trains after 120 ms; a link loss resets the host's registers, counts, drops what is in progress and ends the streams; CL states
are shown (R317, R345).

Configuration reads answer the DWORD as it stands and writes change its writable bits; a BAR2 access outside its windows is counted and
reads zero; D3hot is a link loss; in DEVELOP and RETURN the device attaches on USB 2.0 after 2 s without USB4 and there answers its commands,
WRITE_IMAGE once a good image is written (R319, R321, R345 to R347, R474; the header's bits are the family's, log 46).

Answers a next state with its own effect, under conditions on state and operands alone: usb4LinkUp, linkLoss, bar2OtherAccess, usb2Attach,
usb2Query, usb2WriteImage, usb2Reset, usb4ClStateRequest, pcieConfigAccess. -/
def Obligations.HostLinksAndRecovery : Prop :=
  ((∀ (s : State) (gen3 x2 : Bool), s.Canonical → s.dev.up = true → fld (s.reg Csr.linkStat) 1 1 = 0 → s.phase ≠ 9 →
      5760 ≤ s.sample.toNat →
      ∃ t, exec (.usb4LinkUp gen3 x2) s = .next t ∧ t.tunnel = true ∧ fld (t.reg Csr.linkStat) 0 0 = 1 ∧
        fld (t.reg Csr.linkStat) 5 5 = b2n x2 ∧ fld (t.reg Csr.linkStat) 4 3 = (if gen3 then 2 else 1) ∧ s.SameRegs t [Csr.linkStat] ∧
        t.host.trained = true ∧ t.mem = s.mem) ∧
    (∀ (s : State) (c : LinkLoss), s.Canonical → s.dev.up = true → s.tunnel = true → fld (s.reg Csr.linkStat) 0 0 = 1 →
      ∃ t, exec (.linkLoss c) s = .next t ∧ t.reg Csr.linkEpoch = s.reg Csr.linkEpoch + 1 ∧
        (t.reg Csr.linkDown).toNat = min 0xFFFFFFFF ((s.reg Csr.linkDown).toNat + 1) ∧ (∀ r < 56, t.ringSt r = 0) ∧ t.host.cur = [] ∧
        t.host.waiting = [] ∧ t.host.retDue = true ∧ t.host.msixEn = false ∧ (∀ x ∈ t.host.streams, x.quiet = true ∧ x.stop ≠ none ∧ x.descs = []) ∧
        t.mem = s.mem ∧ (c ≠ .down → c ≠ .tunnel → t.tiles = s.tiles)) ∧
    (∀ (s : State) (c : LinkLoss), s.dev.up = true → fld (s.reg Csr.linkStat) 0 0 = 0 → fld (s.reg Csr.linkStat) 1 1 = 0 → exec (.linkLoss c) s = .next s) ∧
    ∀ (s : State) (cl : BitVec 2), s.Canonical → s.dev.up = true → fld (s.reg Csr.linkStat) 0 0 = 1 →
      ∃ t, exec (.usb4ClStateRequest cl) s = .next t ∧ fld (t.reg Csr.linkStat) 7 6 = cl.toNat ∧ s.SameRegs t [Csr.linkStat] ∧ t.host = s.host) ∧
  ((∀ (s : State) (dw tag : Nat), s.dev.up = true → s.tunnel = true →
      ∃ t, exec (.pcieConfigAccess (.read dw tag)) s = .next t ∧ t.out = .completion tag 0 false (leBytes 4 (s.cfgWord dw).toNat) :: s.out ∧
        t.csr = s.csr ∧ t.host = s.host) ∧
    (∀ (s : State) (dw : Nat) (v : Word), s.dev.up = true → s.tunnel = true → dw ≠ Config.msixCap → dw ≠ Config.pmCsr →
      ∃ t, exec (.pcieConfigAccess (.write dw 0xF v)) s = .next t ∧ t.cfgWord dw = blend (s.cfgWord dw) (cfgMaskOf dw) v ∧
        (∀ e, e ≠ dw → t.cfgWord e = s.cfgWord e) ∧ t.csr = s.csr ∧ t.out = s.out) ∧
    (∀ (s : State) (v : Word), s.Canonical → s.dev.up = true → s.tunnel = true → Config.pmCsr ≠ Config.msixCap → fld v 1 0 = 3 →
      ∃ t, exec (.pcieConfigAccess (.write Config.pmCsr 0xF v)) s = .next t ∧ t.tunnel = false ∧
        t.reg Csr.linkEpoch = s.reg Csr.linkEpoch + 1 ∧ (∀ r < 56, t.ringSt r = 0) ∧ t.mem = s.mem) ∧
    (∀ (s : State) (o tag : Nat) (be : BitVec 4), s.Canonical → s.dev.up = true → s.tunnel = true → 0xE0 ≤ o → o < 0x8000 → o % 4 = 0 →
      ∃ t, exec (.bar2OtherAccess (.read o tag [be])) s = .next t ∧ t.out = .completion tag 0 false (enabled [be] (zeros 4)) :: s.out ∧
        (t.reg Csr.dbErrCnt).toNat = min 0xFFFFFFFF ((s.reg Csr.dbErrCnt).toNat + 1) ∧ s.SameRegs t [Csr.dbErrCnt] ∧ t.host = s.host) ∧
    (∀ (s : State) (i : Fin 256) (v : Word) (tag : Nat), s.Canonical → s.dev.up = true → s.tunnel = true → i.val % 4 = 1 → s.host.pba = 0 →
      swf 0 s.host.msix = true →
      ∃ t, exec (.bar2OtherAccess (.write (0x8000 + 4 * i.val) tag [(0xF, v)])) s = .next t ∧ t.msixWord i.val = v ∧ t.csr = s.csr ∧
        (∀ j, j ≠ i.val → t.msixWord j = s.msixWord j) ∧ t.out = s.out) ∧
    (∀ (s : State), s.Canonical → s.dev.up = true → (s.lc = 1 ∨ s.lc = 3) → s.host.trained = false → 96000 ≤ s.sample.toNat →
      ∃ t, exec .usb2Attach s = .next t ∧ t.usb2On = true ∧ s.SameRegs t [Csr.linkStat] ∧ t.host = s.host ∧ t.mem = s.mem) ∧
    (∀ (s : State), s.dev.up = true → s.usb2On = true →
      ∃ t bs, exec .usb2Query s = .next t ∧ t.out = .usb bs :: s.out ∧ bs.take 1 = [0] ∧ (bs.drop 4).take 4 = leBytes 4 (s.reg 0x20F00000).toNat ∧
        t.csr = s.csr ∧ t.mem = s.mem) ∧
    (∀ (s : State) (ty : Byte) (img : NewImage) (bs : List Byte) (st : Nat), s.dev.up = true → s.usb2On = true → ty.toNat ≤ 3 →
      s.merr = [] → s.imageRefused ty.toNat (imageOf img bs) bs.length = some st →
      ∃ t a, exec (.usb2WriteImage ty img bs) s = .next t ∧ t.out = .usb a :: s.out ∧ a.take 1 = [BitVec.ofNat 8 st] ∧ t.mem = s.mem ∧
        t.dev = s.dev ∧ t.csr = s.csr) ∧
    (∀ (s : State) (g : PlanImage) (bs : List Byte), s.Canonical → s.dev.up = true → s.usb2On = true → s.merr = [] → s.fab.puts = [] →
      s.imageRefused 1 (.plan { g with bytes := bs }) bs.length = none →
      ∃ t x, exec (.usb2WriteImage 1 (.plan g) bs) s = .next t ∧ t.out = s.out ∧ t.fab.puts = [x] ∧ x.img = .plan { g with bytes := bs } ∧
        x.bs = bs ∧ x.ans = .usb bs.length ∧ t.bytes (mramBase + 0x100000) 64 = zeros 64 ∧ t.dev.images.plan = none) ∧
    (∀ (s : State), s.dev.up = true → s.usb2On = true →
      ∃ t a, exec .usb2Reset s = .next t ∧ t.out = .usb a :: s.out ∧ t.dev.up = false) ∧
    ∀ (s : State), s.dev.up = true → s.usb2On = false → exec .usb2Query s = .next s ∧ exec .usb2Reset s = .next s)

/-! ## Lifecycle, provisioning, debug and MRAM commands -/

/-- A lifecycle token is written word by word and verified once; an accepted one mutes the outputs, wipes the user partitions and the key
slots when the ramp has ended, and only then blows the fuse and resets the device (R478, R479).

While provisioning is open a key slot takes its words once and is committed to its place; DONE closes it and makes BLANK DEVELOP
(R480).

Answers a next state with its own effect, under conditions on state and operands alone: lcTokGo, lcTransition, lcTokDataWrite, provCommit,
provDone, provDataWrite. -/
def Obligations.LifecycleAndKeysAreCarriedOut : Prop :=
  ((∀ (s : State) (v : Word), s.Canonical → s.dev.up = true →
      ∃ t, exec (.lcTokDataWrite v) s = .next t ∧ t.dev.sec.token.getD (fld (s.reg Csr.lcTokIdx) 5 0) 0 = v ∧
        (t.reg Csr.lcTokIdx).toNat = (fld (s.reg Csr.lcTokIdx) 5 0 + 1) % 64 ∧ s.SameRegs t [Csr.lcTokIdx] ∧ t.mem = s.mem ∧
        ∀ i < 64, i ≠ fld (s.reg Csr.lcTokIdx) 5 0 → t.dev.sec.token.getD i 0 = s.dev.sec.token.getD i 0) ∧
    (∀ (s : State) (sigOk : Bool) (nonce : List Word), s.Canonical → s.dev.up = true → s.fwRuns = true → s.merr = [] →
      ∃ t, exec (.lcTokGo sigOk nonce) s = .next t ∧ t.reg Csr.lcTokStat = (if s.tokenOk sigOk then 2 else 3) ∧
        (∀ i < 8, t.reg (Csr.lcNonce i) = nonce.getD i 0) ∧ t.lc = s.lc ∧ t.mem = s.mem ∧
        (s.tokenOk sigOk = true → t.dev.sec.tokTarget = some (leNat ((s.dev.sec.tokenBytes.drop 4).take 1))) ∧
        (s.tokenOk sigOk = false → t.dev.sec.tokTarget = s.dev.sec.tokTarget ∧ ∃ e, t.dev.safety.events = s.dev.safety.events ++ [e] ∧ e.code = 0x0306)) ∧
    (∀ (s : State), s.dev.up = true → s.dev.sec.tokTarget = none → exec .lcTransition s = .next s) ∧
    (∀ (s : State) (k : Nat), s.dev.up = true → s.dev.sec.tokTarget = some k → fld (s.reg Csr.mramWipe) 3 3 = 0 → s.dev.safety.fallAll = none →
      ∃ t, exec .lcTransition s = .next t ∧ t.dev.safety.fallAll = some (s.sample.toNat + 1) ∧ (∀ u : UnitIx, u.val < 16 → (t.tile u).heldOff = true) ∧
        t.csr = s.csr ∧ t.mem = s.mem) ∧
    (∀ (s : State) (k s0 : Nat), s.Canonical → s.OneShadow → s.dev.up = true → s.dev.sec.tokTarget = some k → fld (s.reg Csr.mramWipe) 3 3 = 0 →
      s.dev.safety.fallAll = some s0 → s0 + 240 ≤ s.sample.toNat →
      ∃ t, exec .lcTransition s = .next t ∧ fld (t.reg Csr.mramWipe) 3 3 = 1 ∧ t.reg Csr.keyStat = 0 ∧ t.lc = s.lc ∧
        (∀ a < 2 ^ 36, t.byte a =
          if (mramBase + 0x100000 ≤ a ∧ a < mramBase + 0x320000) ∨ (mramBase + keyBase ≤ a ∧ a < mramBase + keyBase + 0x4000) then 0 else s.byte a)) ∧
    ∀ (s : State) (k : Nat), s.Canonical → s.dev.up = true → s.dev.sec.tokTarget = some k → k < 5 → fld (s.reg Csr.mramWipe) 3 3 = 1 →
      ∃ t, exec .lcTransition s = .next t ∧ t.lc = k ∧ t.dev.up = false ∧ t.reg Csr.rstCause = 5) ∧
  ((∀ (s : State) (v : Word), s.dev.up = true → s.provOpen = true → s.dev.sec.slotBuf.length < 256 →
      ∃ t, exec (.provDataWrite v) s = .next t ∧ t.dev.sec.slotBuf = s.dev.sec.slotBuf ++ [v] ∧ t.csr = s.csr ∧ t.mem = s.mem) ∧
    (∀ (s : State) (v : Word), s.Canonical → s.OneShadow → s.dev.up = true → s.provOpen = true → fld v 3 0 ≤ 6 →
      fld (s.reg Csr.keyStat) (fld v 3 0) (fld v 3 0) = 0 → 1 ≤ fld v 10 4 → fld v 10 4 ≤ s.dev.sec.slotBuf.length → fld v 10 4 ≤ 256 →
      ∃ t, exec (.provCommit v) s = .next t ∧ fld (t.reg Csr.keyStat) (fld v 3 0) (fld v 3 0) = 1 ∧ fld (t.reg Csr.provStat) 1 1 = 0 ∧
        t.bytes (mramBase + keyBase + 1024 * fld v 3 0) (4 * fld v 10 4) =
          ((s.dev.sec.slotBuf.take (fld v 10 4)).flatMap fun w => leBytes 4 w.toNat) ∧ t.dev.sec.slotBuf = []) ∧
    (∀ (s : State) (v : Word), s.Canonical → s.dev.up = true → (s.provOpen = false ∨ fld (s.reg Csr.keyStat) (fld v 3 0) (fld v 3 0) = 1) →
      ∃ t, exec (.provCommit v) s = .next t ∧ fld (t.reg Csr.provStat) 1 1 = 1 ∧ t.mem = s.mem ∧ t.reg Csr.keyStat = s.reg Csr.keyStat) ∧
    (∀ (s : State), s.Canonical → s.dev.up = true → s.provOpen = true → fld (s.reg Csr.keyStat) 0 0 = 1 → s.lc = 0 →
      ∃ t, exec .provDone s = .next t ∧ t.provOpen = false ∧ t.lc = 1 ∧ s.SameRegs t [Csr.lcStat] ∧ t.mem = s.mem) ∧
    ∀ (s : State), s.dev.up = true → fld (s.reg Csr.keyStat) 0 0 = 0 → exec .provDone s = .next s)

/-- A debug response that verifies grants a level that the lifecycle permits, one that does not is counted and after three no attempt passes;
the challenge is renewed; a unit halts at an acceptance point, steps one frond and halts at a breakpoint (R481, R492).

The service core's MRAM commands run one at a time and end with their bytes written or erased and their status; other requesters are
discarded and counted; an image is written in bursts, and with the last its first 64 bytes, when it takes its place and is answered (R473, R474,
R483).

A serial controller performs the transfers of its owner and holds how they ended and what they brought, a pin takes the level that its owner
writes or, from outside, has; a write that anyone else asks for is an ownership error, and a read gives the value as it stands (R40, R41, R510; the
encoding of a value is log 74).

Answers a next state with its own effect, under conditions on state and operands alone: dbgCmdGo, dbgRespDataWrite, dbgHalt, dbgStep,
breakpointHit, mramWriteCmd, mramEraseCmd, mramCmdComplete, i2cClockStretchTimeout, serialTransferComplete. -/
def Obligations.DebugAndMramCommandsRun : Prop :=
  ((∀ (s : State) (v : Word), s.Canonical → s.dev.up = true →
      ∃ t, exec (.dbgRespDataWrite v) s = .next t ∧ t.dev.sec.resp.getD (fld (s.reg Csr.dbgRespIdx) 4 0) 0 = v ∧
        (t.reg Csr.dbgRespIdx).toNat = (fld (s.reg Csr.dbgRespIdx) 4 0 + 1) % 32 ∧ s.SameRegs t [Csr.dbgRespIdx]) ∧
    (∀ (s : State) (level : Fin 4) (chal : List Word), s.Canonical → s.dev.up = true → fld (s.reg Csr.dbgStat) 3 2 < 3 → 1 ≤ level.val →
      level.val ≤ dbgMax s.lc → s.keyOk 6 = true →
      ∃ t, exec (.dbgCmdGo true level chal) s = .next t ∧ fld (t.reg Csr.dbgStat) 1 0 = level.val ∧
        fld (t.reg Csr.dbgStat) 3 2 = fld (s.reg Csr.dbgStat) 3 2 ∧ ∀ i < 8, t.reg (Csr.dbgChal i) = chal.getD i 0) ∧
    (∀ (s : State) (sigOk : Bool) (level : Fin 4) (chal : List Word), s.Canonical → s.dev.up = true →
      (sigOk = false ∨ dbgMax s.lc < level.val ∨ fld (s.reg Csr.dbgStat) 3 2 = 3) →
      ∃ t, exec (.dbgCmdGo sigOk level chal) s = .next t ∧ fld (t.reg Csr.dbgStat) 1 0 = fld (s.reg Csr.dbgStat) 1 0 ∧
        fld (t.reg Csr.dbgStat) 3 2 = min 3 (fld (s.reg Csr.dbgStat) 3 2 + 1) ∧ ∀ i < 8, t.reg (Csr.dbgChal i) = chal.getD i 0) ∧
    (∀ (s : State) (u : UnitIx), fld (s.tile u).dbgCtl 0 0 = 1 → (s.tile u).halted = false → (s.tile u).mode = .run → (s.tile u).bist = none →
      (s.tile u).atAcceptance = true → (s.tile u).pend = [] →
      ∃ t, exec (.dbgHalt u) s = .next t ∧ (t.tile u).halted = true ∧ (t.tile u).frond = [] ∧ (t.tile u).pc = (s.tile u).pc ∧
        (t.tile u).a = (s.tile u).a ∧ (t.tile u).v = (s.tile u).v ∧ t.mem = s.mem ∧ s.SameUnits t u) ∧
    (∀ (s : State) (u : UnitIx), s.dbgFull = true → (s.tile u).halted = true →
      ∃ t, exec (.dbgStep u) s = .next t ∧ (t.tile u).stepping = true ∧ (t.tile u).halted = true ∧ s.SameUnits t u ∧ t.mem = s.mem ∧ t.csr = s.csr) ∧
    ∀ (s : State) (u : UnitIx) (b : Word), b ∈ (s.tile u).bkpt.toList → fld b 0 0 = 1 → fld b 20 3 * 8 = (s.tile u).pc.toNat →
      (s.tile u).mode = .run → (s.tile u).bist = none → (s.tile u).halted = false → (s.tile u).frond = [] → (s.tile u).waiting = false → (s.tile u).pend = [] →
      ∃ t, exec (.breakpointHit u) s = .next t ∧ (t.tile u).halted = true ∧ fld (t.tile u).dbgCtl 0 0 = 1 ∧ (t.tile u).pc = (s.tile u).pc ∧
        s.SameUnits t u ∧ t.mem = s.mem) ∧
  ((∀ (s : State), s.Canonical → s.dev.up = true → s.fab.mram = none →
      ∃ t, exec (.mramWriteCmd (.tile 16)) s = .next t ∧ fld (t.reg Csr.mramStat) 0 0 = 1 ∧ t.reg Csr.mramCmdStat = 0 ∧ t.mem = s.mem ∧
        t.fab.mram = some (1, (s.reg Csr.mramCmdAddr).toNat, (s.reg Csr.mramCmdLen).toNat,
          (s.reg Csr.mramCmdSrcLo).toNat + (s.reg Csr.mramCmdSrcHi).toNat * 2 ^ 32)) ∧
    (∀ (s : State), s.Canonical → s.dev.up = true → s.fab.mram = none →
      ∃ t src, exec (.mramEraseCmd (.tile 16)) s = .next t ∧ fld (t.reg Csr.mramStat) 0 0 = 1 ∧ t.reg Csr.mramCmdStat = 0 ∧ t.mem = s.mem ∧
        t.fab.mram = some (2, (s.reg Csr.mramCmdAddr).toNat, (s.reg Csr.mramCmdLen).toNat, src)) ∧
    (∀ (s : State) (q : Requester), s.Canonical → s.dev.up = true → q ≠ .tile 16 →
      ∃ t, exec (.mramWriteCmd q) s = .next t ∧ exec (.mramEraseCmd q) s = .next t ∧ s.SameRegs t [Csr.wrDisc] ∧
        (t.reg Csr.wrDisc).toNat = min 0xFFFFFFFF ((s.reg Csr.wrDisc).toNat + 1) ∧ t.fab = s.fab ∧ t.mem = s.mem) ∧
    (∀ (s : State) (o n src : Nat) (ext : List Byte), s.Canonical → s.OneShadow → s.dev.up = true → s.fab.mram = some (2, o, n, src) →
      s.fab.puts = [] → 0 < n → o + n ≤ mramSize →
      ∃ t, exec (.mramCmdComplete ext) s = .next t ∧ t.fab.mram = none ∧ t.reg Csr.mramCmdStat = 1 ∧ fld (t.reg Csr.mramStat) 0 0 = 0 ∧
        ∀ a < 2 ^ 36, t.byte a = if mramBase + o ≤ a ∧ a < mramBase + o + n then 0 else s.byte a) ∧
    (∀ (s : State) (o n src : Nat) (ext : List Byte), s.Canonical → s.OneShadow → s.dev.up = true → s.fab.mram = some (1, o, n, src) →
      s.NoRows → 0 < n → o + n ≤ mramSize → regionOf src = .bank → regionOf (src + n - 1) = .bank →
      (locate src).map (·.1) = (locate (src + n - 1)).map (·.1) → s.hasUe src n = false →
      ∃ t, exec (.mramCmdComplete ext) s = .next t ∧ t.fab.mram = none ∧ t.reg Csr.mramCmdStat = 1 ∧
        t.bytes (mramBase + o) n = s.bytes src n ∧ ∀ a < 2 ^ 36, (a < mramBase + o ∨ mramBase + o + n ≤ a) → t.byte a = s.byte a) ∧
    (∀ (s : State) (op o n src : Nat) (ext : List Byte), s.Canonical → s.dev.up = true → s.fab.mram = some (op, o, n, src) → mramSize < o + n →
      ∃ t, exec (.mramCmdComplete ext) s = .next t ∧ t.fab.mram = none ∧ t.reg Csr.mramCmdStat = 5 ∧ t.mem = s.mem) ∧
    (∀ (s : State) (x : ImagePut) (g : PlanImage) (ext : List Byte), s.Canonical → s.dev.up = true → s.fab.mram = none →
      fld (s.reg Csr.mramWipe) 3 3 = 0 → s.fab.puts = [x] → x.img = .plan g → x.next + 4096 < x.bs.length →
      ∃ t, exec (.mramCmdComplete ext) s = .next t ∧ t.fab.puts = [{ x with next := x.next + 4096 }] ∧ t.dev.images = s.dev.images ∧
        t.bytes (mramBase + 0x100000 + x.next) 4096 = (x.bs.drop x.next).take 4096 ∧ t.out = s.out) ∧
    ∀ (s : State) (x : ImagePut) (g : PlanImage) (n : Nat) (ext : List Byte), s.Canonical → s.dev.up = true → s.fab.mram = none →
      fld (s.reg Csr.mramWipe) 3 3 = 0 → s.fab.puts = [x] → x.img = .plan g → 64 ≤ x.bs.length → x.bs.length ≤ x.next + 4096 → x.ans = .usb n →
      ∃ t a, exec (.mramCmdComplete ext) s = .next t ∧ t.fab.puts = [] ∧ t.dev.images.plan = some g ∧ fld (t.reg Csr.mramStat) 0 0 = 0 ∧
        t.bytes (mramBase + 0x100000) 64 = x.bs.take 64 ∧ t.out = .usb a :: s.out ∧ a.take 1 = [0]) ∧
  ((∀ (s : State) (c : Fin 56) (tx rx : List Byte), s.dev.up = true → c.val < 8 →
      ∃ t, exec (.serialTransferComplete c (.tile (s.serialOwner c.val)) (.write tx rx)) s = .next t ∧ t.out = .serial c.val tx :: s.out ∧
        t.fab.serial.find? (fun x => decide (x.1 = c.val)) = some (c.val, true, rx) ∧ t.csr = s.csr ∧ t.tiles = s.tiles ∧ t.mem = s.mem) ∧
    (∀ (s : State) (c : Fin 56) (tx rx : List Byte), s.dev.up = true → 8 ≤ c.val →
      ∃ t, exec (.serialTransferComplete c (.tile (s.serialOwner c.val)) (.write tx rx)) s = .next t ∧ t.out = .serial c.val tx :: s.out ∧
        t.fab.pins.getLsbD (c.val - 8) = (tx.getD 0 0).getLsbD 0 ∧ (∀ i < 48, i ≠ c.val - 8 → t.fab.pins.getLsbD i = s.fab.pins.getLsbD i) ∧
        t.fab.serial = s.fab.serial ∧ t.csr = s.csr ∧ t.tiles = s.tiles ∧ t.mem = s.mem) ∧
    (∀ (s : State) (c : Fin 56) (q : Requester) (b : Bool), s.dev.up = true → 8 ≤ c.val →
      ∃ t, exec (.serialTransferComplete c q (.level b)) s = .next t ∧ t.fab.pins.getLsbD (c.val - 8) = b ∧ t.out = s.out ∧
        (∀ i < 48, i ≠ c.val - 8 → t.fab.pins.getLsbD i = s.fab.pins.getLsbD i) ∧ t.csr = s.csr ∧ t.tiles = s.tiles ∧ t.mem = s.mem) ∧
    (∀ (s : State) (c : Fin 56) (q : Requester), s.dev.up = true →
      exec (.serialTransferComplete c q .read) s = .next (s.emit (.serialValue c.val (s.serialValue c.val)))) ∧
    (∀ (s : State) (c : Fin 4) (bs : List Byte), s.dev.up = true →
      ∃ t, exec (.i2cClockStretchTimeout c (.tile (s.serialOwner c.val)) bs) s = .next t ∧
        t.out = .busClear c.val :: .serial c.val bs :: s.out ∧
        t.fab.serial.find? (fun x => decide (x.1 = c.val)) = some (c.val, false, []) ∧ t.csr = s.csr ∧ t.tiles = s.tiles ∧ t.mem = s.mem) ∧
    ∀ (s : State) (c : Fin 56) (q : Requester) (tx rx : List Byte), s.dev.up = true → q ≠ .tile (s.serialOwner c.val) →
      ∃ t r, exec (.serialTransferComplete c q (.write tx rx)) s = .next t ∧ t.reports = s.reports ++ [r] ∧ r.code = 0x01D0 ∧ t.out = s.out ∧
        t.fab = s.fab ∧ t.csr = s.csr)

/-- Writes of single registers with an effect of their own: fault injection in DEVELOP, the service core's kick, software interrupts, the
spore queue's head and the patch registers; a device event reaches the service core and the tiles routed to it (R154, R220, R251, R416, R422,
R486, R494, R495; the order of the patch words is log 70).

Answers a next state with its own effect, under conditions on state and operands alone: injGo, scKickWrite, iswiWrite, spqHeadWrite,
upatchDataAccess, deviceEvent. -/
def Obligations.RegistersWithEffects : Prop :=
  (∀ (s : State) (v : Word), s.dev.up = true → s.lc ≠ 1 → exec (.injGo v) s = .next s) ∧
  (∀ (s : State) (v : Word) (c : Nat), s.dev.up = true → s.lc = 1 → fld v 6 6 = 1 → injCode (fld v 5 0) = some c →
    ∃ r : Report, r.code.toNat = c ∧ exec (.injGo v) s = .next (((s.setReg Csr.injCtl (v &&& 0x7F)).takeReport r).orReg Csr.injStat 1)) ∧
  (∀ (s : State), s.dev.up = true → s.dev.sched.stage ≠ .none →
    ∃ t, exec (.scKickWrite (.tile 16)) s = .next t ∧ t.dev.sched.kicked = true ∧ t.csr = s.csr ∧ t.tiles = s.tiles ∧ t.mem = s.mem) ∧
  (∀ (s : State) (u : UnitIx) (v : Word), s.dev.up = true → (s.tile u).state ≠ .dark →
    ∃ t, exec (.iswiWrite u (.tile 16) v) s = .next t ∧ (∀ i < 4, (t.tile u).ipend.getLsbD (34 + i) = ((s.tile u).ipend.getLsbD (34 + i) || v.getLsbD i)) ∧
      (∀ i, i < 34 ∨ 38 ≤ i → (t.tile u).ipend.getLsbD i = (s.tile u).ipend.getLsbD i) ∧ s.SameUnits t u ∧ t.csr = s.csr ∧ t.mem = s.mem) ∧
  (∀ (s : State) (q : Requester) (u : UnitIx) (v : Word), s.Canonical → s.dev.up = true → q ≠ .tile 16 →
    ∃ t, exec (.scKickWrite q) s = .next t ∧ exec (.iswiWrite u q v) s = .next t ∧ exec (.upatchDataAccess u q (some v)) s = .next t ∧
      (t.reg Csr.wrDisc).toNat = min 0xFFFFFFFF ((s.reg Csr.wrDisc).toNat + 1) ∧ s.SameRegs t [Csr.wrDisc] ∧ t.tiles = s.tiles ∧ t.dev = s.dev) ∧
  (∀ (s : State) (u : UnitIx) (q : Requester) (v : Word), s.dev.up = true → spqWriter u q = true → s.fab.spill = [] →
    (v - (s.tile u).spqHead).toNat ≤ ((s.tile u).spqTail - (s.tile u).spqHead).toNat →
    ∃ t, exec (.spqHeadWrite u q v) s = .next t ∧ (t.tile u).spqHead = v ∧ (t.tile u).spqTail = (s.tile u).spqTail ∧ s.SameUnits t u ∧
      t.csr = s.csr ∧ t.mem = s.mem) ∧
  (∀ (s : State) (u : UnitIx) (q : Requester) (v : Word), s.Canonical → s.dev.up = true →
    ((s.tile u).spqTail - (s.tile u).spqHead).toNat < (v - (s.tile u).spqHead).toNat →
    ∃ t, exec (.spqHeadWrite u q v) s = .next t ∧ t.tiles = s.tiles ∧ (t.reg Csr.wrDisc).toNat = min 0xFFFFFFFF ((s.reg Csr.wrDisc).toNat + 1) ∧
      s.SameRegs t [Csr.wrDisc]) ∧
  (∀ (s : State) (u : UnitIx) (v : Word), s.dev.up = true → s.patchLocked u = false →
    ((s.tile u).upatchIdx.toNat < 128 ∨ ((s.tile u).upatchIdx.toNat < 320 ∧ ((s.tile u).upatchIdx.toNat - 128) % 6 < 5)) →
    ∃ t, exec (.upatchDataAccess u (.tile 16) (some v)) s = .next t ∧ (t.tile u).patch.word (s.tile u).upatchIdx.toNat = v ∧
      (t.tile u).upatchIdx = (s.tile u).upatchIdx + 1 ∧ s.SameUnits t u ∧ t.csr = s.csr ∧ t.mem = s.mem) ∧
  (∀ (s : State) (u : UnitIx) (q : Requester), s.dev.up = true → q ≠ .tile 16 → exec (.upatchDataAccess u q none) s = .next s) ∧
  (∀ (s : State) (u : UnitIx), s.dev.up = true →
    ∃ t, exec (.upatchDataAccess u (.tile 16) none) s = .next t ∧ (t.tile u).upatchIdx = (s.tile u).upatchIdx + 1 ∧ (t.tile u).patch = (s.tile u).patch ∧
      s.SameUnits t u ∧ t.csr = s.csr) ∧
  ∀ (s : State) (v : BitVec 8), s.dev.up = true → 64 ≤ v.toNat → v.toNat ≤ 206 →
    ∃ t, exec (.deviceEvent v) s = .next t ∧ t.csr = s.csr ∧ t.mem = s.mem ∧ (t.tile 16).ipend.getLsbD v.toNat = true ∧
      ∀ u : UnitIx, u.val < 16 →
        (t.tile u).ipend.getLsbD v.toNat =
          ((s.tile u).ipend.getLsbD v.toNat || (decide ((s.tile u).state ≠ .dark) && (s.tile u).evroute.getLsbD (v.toNat - 64))) ∧
        ∀ i, i ≠ v.toNat → (t.tile u).ipend.getLsbD i = (s.tile u).ipend.getLsbD i

/-! ## Diagnostics -/

/-- One request is in progress at a time: a request that passes the checks waits for its service, one that does not gets its code unless it
was sent functionally, one that meets another is answered busy; one of an unknown client is ignored; a long one is answered pending (R360 to R362).

The session changes as asked or returns to default after 5 s without a request, taking the rights with it; a hard reset restarts the
device, a soft one the stored plan; the tester's presence is answered (R361, R362, R363, R366).

A port that is enabled and serves DoIP answers vehicle identification; routing is activated for one source on each connection; closing a connection ends
the session it owned (R360, R361; the messages' layouts are ISO 13400's, log 49).

Answers a next state with its own effect, under conditions on state and operands alone: udsRequestReceive, diagnosticSessionControl,
ecuResetHard, ecuResetSoft, testerPresent, responsePending, s3Timeout, doipVehicleIdentification, doipRoutingActivation, doipConnectionClose. -/
def Obligations.DiagnosticRequestsAndSessions : Prop :=
  ((∀ (s : State) (c : UdsClient) (func : Bool) (sid sub : Byte) (rid : BitVec 16), s.dev.up = true → s.asks c func → s.net.busy = none →
      s.udsRefused c sid.toNat (if hasSub sid.toNat then sub.toNat % 128 else 0) rid.toNat = none →
      ∃ t, exec (.udsRequestReceive c func sid sub rid) s = .next t ∧ t.out = s.out ∧ t.csr = s.csr ∧ t.mem = s.mem ∧
        t.net.busy = some { client := c, sid := sid, sub := sub, par := rid, func := func, since := s.sample.toNat }) ∧
    (∀ (s : State) (c : UdsClient) (sid sub : Byte) (rid : BitVec 16) (code : Byte), s.dev.up = true → s.asks c false → s.net.busy = none →
      s.udsRefused c sid.toNat (if hasSub sid.toNat then sub.toNat % 128 else 0) rid.toNat = some code →
      ∃ t, exec (.udsRequestReceive c false sid sub rid) s = .next t ∧ s.told t c (nrc sid code) ∧
        t.net.busy = none ∧ t.net.session = s.net.session ∧ t.dev = s.dev ∧ t.mem = s.mem) ∧
    (∀ (s : State) (c : UdsClient) (func : Bool) (sid sub : Byte) (rid : BitVec 16), s.dev.up = true → s.asks c func → s.net.busy ≠ none →
      ∃ t, exec (.udsRequestReceive c func sid sub rid) s = .next t ∧ s.told t c (nrc sid 0x21) ∧
        t.net.busy = s.net.busy ∧ t.net.session = s.net.session ∧ t.dev = s.dev ∧ t.mem = s.mem) ∧
    (∀ (s : State) (c : UdsClient) (func : Bool) (sid sub : Byte) (rid : BitVec 16), s.dev.up = true → ¬s.asks c func →
      exec (.udsRequestReceive c func sid sub rid) s = .next s) ∧
    (∀ (s : State) (b : UdsBusy), s.dev.up = true → s.net.busy = some b → b.since + 2400 ≤ s.sample.toNat →
      ∃ t, exec .responsePending s = .next t ∧ s.told t b.client (nrc b.sid 0x78) ∧
        t.net.busy = some { b with since := s.sample.toNat + 93600 } ∧ t.net.session = s.net.session ∧ t.mem = s.mem) ∧
    ∀ (s : State) (b : UdsBusy), s.dev.up = true → s.net.busy = some b → s.sample.toNat < b.since + 2400 → exec .responsePending s = .next s) ∧
  ((∀ (s : State) (b : UdsBusy), s.serves 0x10 (some 3) b → (∀ x, s.net.path = some x → x.run = false) →
      ∃ t, exec .diagnosticSessionControl s = .next t ∧ s.granted t b [3, 0x00, 0x32, 0x01, 0xF4] ∧ t.net.session = 3 ∧
        t.net.owner = some b.client ∧ t.net.lvl01 = false ∧ t.net.lvl11 = false ∧ t.mem = s.mem) ∧
    (∀ (s : State) (b : UdsBusy), s.serves 0x10 (some 1) b →
      ∃ t, exec .diagnosticSessionControl s = .next t ∧ s.granted t b [1, 0x00, 0x32, 0x01, 0xF4] ∧ t.net.session = 1 ∧ t.net.owner = none ∧
        t.net.lvl01 = false ∧ t.net.lvl11 = false ∧ t.dev.safety.dtcOff = false ∧ t.mem = s.mem) ∧
    (∀ (s : State) (b : UdsBusy), s.serves 0x10 (some 2) b → s.net.session = 3 → s.net.moving = false →
      ∃ t, exec .diagnosticSessionControl s = .next t ∧ s.granted t b [2, 0x00, 0x32, 0x01, 0xF4] ∧ t.net.session = 2 ∧
        t.dev.sched.prog = (if s.plan.isSome then some s.firstWin else none) ∧ t.mem = s.mem) ∧
    (∀ (s : State) (b : UdsBusy), s.serves 0x10 (some 2) b → s.net.session = 3 → s.net.moving = true →
      ∃ t, exec .diagnosticSessionControl s = .next t ∧ s.denied t b 0x88 ∧ t.net.session = 3 ∧ t.dev = s.dev) ∧
    (∀ (s : State), s.dev.up = true → s.net.session ≠ 1 → s.net.busy = none → s.net.lastReq + 240000 ≤ s.sample.toNat →
      ∃ t, exec .s3Timeout s = .next t ∧ t.net.session = 1 ∧ t.net.owner = none ∧ t.net.lvl01 = false ∧ t.net.lvl11 = false ∧ t.mem = s.mem ∧
        t.csr = s.csr) ∧
    (∀ (s : State), s.dev.up = true → (s.net.session = 1 ∨ s.sample.toNat < s.net.lastReq + 240000) → exec .s3Timeout s = .next s) ∧
    (∀ (s : State) (b : UdsBusy), s.Canonical → s.serves 0x11 (some 1) b → b.sub.getLsbD 7 = false →
      ∃ t, exec .ecuResetHard s = .next t ∧ t.dev.up = false ∧ t.reg Csr.rstCause = 5 ∧ t.out = .uds b.client [0x51, 0x01] :: s.out) ∧
    (∀ (s : State) (b : UdsBusy), s.serves 0x11 (some 3) b →
      ∃ t, exec .ecuResetSoft s = .next t ∧ s.granted t b [3] ∧ t.dev.sched.warm = true ∧ t.net.session = 1 ∧ t.dev.up = true ∧ t.mem = s.mem) ∧
    ∀ (s : State) (b : UdsBusy), s.serves 0x3E (some 0) b →
      ∃ t, exec .testerPresent s = .next t ∧ s.granted t b [0] ∧ t.net.session = s.net.session ∧ t.dev = s.dev ∧ t.mem = s.mem) ∧
  ((∀ (s : State) (m : Fin 4), s.dev.up = true → fld (s.reg (ethReg m.val 0)) 0 0 = 1 →
      fld (s.reg (ethReg m.val 0)) 8 8 = 1 →
      ∃ t f, exec (.doipVehicleIdentification m) s = .next t ∧ t.net.tx = s.net.tx ++ [f] ∧ f.port = m.val ∧ f.q = 0 ∧ t.out = s.out ∧
        t.csr = s.csr) ∧
    (∀ (s : State) (m : Fin 4), s.dev.up = true → fld (s.reg (ethReg m.val 0)) 0 0 = 0 ∨ fld (s.reg (ethReg m.val 0)) 8 8 = 0 →
      exec (.doipVehicleIdentification m) s = .next s) ∧
    (∀ (s : State) (k : Fin 2) (m : Fin 4) (src : BitVec 16) (typ : Byte), s.dev.up = true → fld (s.reg (ethReg m.val 0)) 0 0 = 1 →
      fld (s.reg (ethReg m.val 0)) 8 8 = 1 →
      (typ = 0 ∨ typ = 0xE0) → s.net.conns[k] = none →
      ∃ t f, exec (.doipRoutingActivation k m src typ) s = .next t ∧ t.net.conns[k] = some (m.val, src) ∧ t.net.tx = s.net.tx ++ [f] ∧
        f.port = m.val ∧ ∀ j : Fin 2, j ≠ k → t.net.conns[j] = s.net.conns[j]) ∧
    (∀ (s : State) (k : Fin 2) (m : Fin 4) (src : BitVec 16) (typ : Byte), s.dev.up = true → fld (s.reg (ethReg m.val 0)) 0 0 = 1 →
      fld (s.reg (ethReg m.val 0)) 8 8 = 1 → typ ≠ 0 →
      typ ≠ 0xE0 →
      ∃ t f, exec (.doipRoutingActivation k m src typ) s = .next t ∧ t.net.conns = s.net.conns ∧ t.net.tx = s.net.tx ++ [f]) ∧
    ∀ (s : State) (k : Fin 2) (src : BitVec 16), s.dev.up = true → s.net.owner = some (.doip k src) → s.net.session ≠ 1 →
      ∃ t, exec (.doipConnectionClose k) s = .next t ∧ t.net.conns[k] = none ∧ t.net.session = 1 ∧ t.net.owner = none ∧ t.net.lvl01 = false ∧
        t.net.lvl11 = false ∧ t.mem = s.mem)

/-- DTCs are counted, listed and read by status and number, cleared, and recorded or not as the setting says (R362, R367; the layout of
snapshots and extended data is open, log 47).

Data identifiers are read as they stand and a VIN is written into a calibration copy, answered when it is; a seed is given unless the delay after wrong keys runs,
a right key opens its level and a third wrong one starts the delay; certificates grant what their role gives (R364, R369; the authentication
codes are ISO 14229-1's, log 48).

Answers a next state with its own effect, under conditions on state and operands alone: clearDiagnosticInformation, reportNumberOfDtc,
reportDtcByStatusMask, reportDtcSnapshot, reportDtcExtData, reportSupportedDtc, readDataByIdentifier, writeDataByIdentifier, securityAccessSeed,
securityAccessKey, deauthenticate, verifyCertificate, proofOfOwnership, authenticationConfiguration, controlDtcSettingOn, controlDtcSettingOff. -/
def Obligations.DtcsDataAndAccess : Prop :=
  ((∀ (s : State) (b : UdsBusy), s.serves 0x14 none b →
      ∃ t, exec (.clearDiagnosticInformation 0xFFFFFF) s = .next t ∧ s.granted t b [] ∧ t.dev.safety.dtcs = [] ∧ t.mem = s.mem) ∧
    (∀ (s : State) (b : UdsBusy) (g : BitVec 24), s.serves 0x14 none b → g ≠ 0xFFFFFF →
      ∃ t, exec (.clearDiagnosticInformation g) s = .next t ∧ s.denied t b 0x31 ∧ t.dev = s.dev ∧ t.mem = s.mem) ∧
    (∀ (s : State) (b : UdsBusy) (mask : Byte), s.serves 0x19 (some 1) b →
      ∃ t, exec (.reportNumberOfDtc mask) s = .next t ∧ s.granted t b ([1, 0x2F, 0x01] ++ be 2 (s.dtcsBy mask).length) ∧ t.dev = s.dev) ∧
    (∀ (s : State) (b : UdsBusy) (mask : Byte), s.serves 0x19 (some 2) b →
      ∃ t, exec (.reportDtcByStatusMask mask) s = .next t ∧ t.dev = s.dev ∧
        s.granted t b ([2, 0x2F] ++ (s.dtcsBy mask).flatMap fun d => be24 d.dtc ++ [d.status &&& 0x2F])) ∧
    (∀ (s : State) (b : UdsBusy) (d : DtcRec) (r : Byte), s.serves 0x19 (some 4) b → s.dtcList.find? (fun x => decide (x.dtc = d.dtc)) = some d →
      (r = 1 ∨ r = 0xFF) →
      ∃ t, exec (.reportDtcSnapshot d.dtc r) s = .next t ∧ t.dev = s.dev ∧
        s.granted t b ([4] ++ be24 d.dtc ++ [d.status &&& 0x2F, 1] ++ Config.snapBytes d.snapBlock d.snapTj d.snapMv d.snapState)) ∧
    (∀ (s : State) (b : UdsBusy) (d : DtcRec) (r : Byte), s.serves 0x19 (some 6) b → s.dtcList.find? (fun x => decide (x.dtc = d.dtc)) = some d →
      (r = 1 ∨ r = 0xFF) →
      ∃ t, exec (.reportDtcExtData d.dtc r) s = .next t ∧ t.dev = s.dev ∧
        s.granted t b ([6] ++ be24 d.dtc ++ [d.status &&& 0x2F, 1] ++ Config.extBytes d.occ d.unit)) ∧
    (∀ (s : State) (b : UdsBusy) (n : BitVec 24) (r : Byte), s.serves 0x19 (some 4) b → (∀ d ∈ s.dtcList, d.dtc ≠ n) →
      ∃ t, exec (.reportDtcSnapshot n r) s = .next t ∧ s.denied t b 0x31 ∧ t.dev = s.dev) ∧
    (∀ (s : State) (b : UdsBusy), s.serves 0x19 (some 0xA) b →
      ∃ t bs, exec .reportSupportedDtc s = .next t ∧ t.dev = s.dev ∧ s.granted t b ([0xA, 0x2F] ++ bs) ∧ bs.length = 4 * 20 ∧
        (s.dtcList = [] → bs = allDtcs.flatMap fun d => be24 d ++ [0])) ∧
    (∀ (s : State) (b : UdsBusy), s.serves 0x85 (some 1) b →
      ∃ t, exec .controlDtcSettingOn s = .next t ∧ s.granted t b [1] ∧ t.dev.safety.dtcOff = false ∧ t.dev.safety.dtcs = s.dev.safety.dtcs) ∧
    ∀ (s : State) (b : UdsBusy), s.serves 0x85 (some 2) b →
      ∃ t, exec .controlDtcSettingOff s = .next t ∧ s.granted t b [2] ∧ t.dev.safety.dtcOff = true ∧ t.dev.safety.dtcs = s.dev.safety.dtcs) ∧
  ((∀ (s : State) (b : UdsBusy) (ds : List (BitVec 16)), s.serves 0x22 none b → ds ≠ [] → ds.length ≤ 8 → (∀ d ∈ ds, s.did d.toNat ≠ none) →
      ∃ t, exec (.readDataByIdentifier ds) s = .next t ∧ t.dev = s.dev ∧ t.mem = s.mem ∧
        s.granted t b (ds.flatMap fun d => be 2 d.toNat ++ (s.did d.toNat).getD [])) ∧
    (∀ (s : State) (b : UdsBusy) (d : BitVec 16), s.serves 0x22 none b → s.did d.toNat = none →
      ∃ t, exec (.readDataByIdentifier [d]) s = .next t ∧ s.denied t b 0x31 ∧ t.dev = s.dev) ∧
    (∀ (s : State) (b : UdsBusy) (bs : List Byte), s.serves 0x2E none b → bs.length = 17 → s.calPick ≠ none → s.fab.puts = [] →
      ∃ t x g, exec (.writeDataByIdentifier 0xF190 bs) s = .next t ∧ t.fab.puts = [x] ∧ x.img = .cal g ∧ g.vin = bs ∧
        x.ans = .uds b [0xF1, 0x90] ∧ t.net.busy = some b ∧ t.out = s.out) ∧
    (∀ (s : State) (b : UdsBusy) (d : BitVec 16) (bs : List Byte), s.serves 0x2E none b → d ∉ [0xF190, 0xFD50, 0xFD51] →
      ∃ t, exec (.writeDataByIdentifier d bs) s = .next t ∧ s.denied t b 0x31 ∧ t.dev = s.dev ∧ t.mem = s.mem) ∧
    (∀ (s : State) (b : UdsBusy) (seed : List Byte), s.serves 0x27 (some 1) b → s.keyDelay = false → s.net.lvl01 = false →
      ∃ t, exec (.securityAccessSeed seed) s = .next t ∧ s.granted t b (1 :: padTo 16 seed) ∧ t.net.seed = some 1 ∧ t.dev = s.dev) ∧
    (∀ (s : State) (b : UdsBusy) (seed : List Byte), s.serves 0x27 (some 0x11) b → s.keyDelay = true →
      ∃ t, exec (.securityAccessSeed seed) s = .next t ∧ s.denied t b 0x37 ∧ t.net.seed = s.net.seed) ∧
    (∀ (s : State) (b : UdsBusy), s.serves 0x27 (some 2) b → s.net.seed = some 1 → s.levelsOpen = true → s.keyOk 3 = true →
      attemptsOf s.calNow false = 0 →
      ∃ t, exec (.securityAccessKey true) s = .next t ∧ s.granted t b [b.sub] ∧ t.net.lvl01 = true ∧ t.net.seed = none ∧
        t.net.lvl11 = s.net.lvl11) ∧
    (∀ (s : State) (b : UdsBusy), s.serves 0x27 (some 2) b → s.net.seed = some 1 → 2 ≤ attemptsOf s.calNow false →
      ∃ t, exec (.securityAccessKey false) s = .next t ∧ s.denied t b 0x36 ∧ t.net.lvl01 = s.net.lvl01 ∧ t.net.seed = none ∧
        t.net.delay = s.sample.toNat + 480000) ∧
    (∀ (s : State) (b : UdsBusy) (right : Bool), s.serves 0x27 (some 0x12) b → s.net.seed ≠ some 0x11 →
      ∃ t, exec (.securityAccessKey right) s = .next t ∧ s.denied t b 0x24 ∧ t.net.lvl11 = s.net.lvl11 ∧ t.dev = s.dev) ∧
    (∀ (s : State) (b : UdsBusy), s.serves 0x29 (some 0) b →
      ∃ t, exec .deauthenticate s = .next t ∧ s.granted t b [0, 0x10] ∧ t.net.lvl01 = false ∧ t.net.lvl11 = false ∧ t.net.cert = none) ∧
    (∀ (s : State) (b : UdsBusy) (hi : Bool) (chal : List Byte), s.serves 0x29 (some 1) b → s.merr = [] → s.levelsOpen = true →
      s.keyOk 5 = true →
      ∃ t, exec (.verifyCertificate true hi chal) s = .next t ∧ s.granted t b ([1, 0x11] ++ be 2 chal.length ++ chal ++ [0, 0]) ∧
        t.net.cert = some (if hi then 0x11 else 1) ∧ t.net.lvl01 = s.net.lvl01 ∧ t.net.lvl11 = s.net.lvl11) ∧
    (∀ (s : State) (b : UdsBusy) (hi : Bool) (chal : List Byte), s.serves 0x29 (some 1) b →
      ∃ t, exec (.verifyCertificate false hi chal) s = .next t ∧ s.denied t b 0x51 ∧ t.net.cert = s.net.cert) ∧
    (∀ (s : State) (b : UdsBusy), s.serves 0x29 (some 3) b → s.net.cert = some 0x11 → s.levelsOpen = true →
      ∃ t, exec (.proofOfOwnership true) s = .next t ∧ s.granted t b [3, 0x12, 0, 0] ∧ t.net.lvl11 = true ∧ t.net.lvl01 = s.net.lvl01 ∧
        t.net.cert = none) ∧
    ∀ (s : State) (b : UdsBusy), s.serves 0x29 (some 8) b →
      ∃ t, exec .authenticationConfiguration s = .next t ∧ s.granted t b [8, 2] ∧ t.net.lvl01 = s.net.lvl01 ∧ t.net.lvl11 = s.net.lvl11)

/-- Routines start, stop and give their results; the path test treats its outputs one by one and aborts at an output boundary (R370 to
R375).

A download is announced, staged block by block in order, a block repeated changing nothing, and written only after its image has been
verified; the request is answered when the image is written (R365, R474).

Answers a next state with its own effect, under conditions on state and operands alone: acousticPathTestStart, stopRoutine,
requestRoutineResults, marginHistoryReadout, eventLogExport, checkProgrammingDependencies, requestDownload, transferData, requestTransferExit,
pathTestOutputStep, mramCmdComplete. -/
def Obligations.DiagnosticRoutinesAndDownloads : Prop :=
  ((∀ (s : State) (b : UdsBusy) (mask : List Byte), s.serves 0x31 (some 1) b → b.par = 0xFE10 → mask.length = 16 → s.pathOk = true →
      ∃ t x, exec (.acousticPathTestStart mask) s = .next t ∧ s.granted t b [1, 0xFE, 0x10] ∧ t.net.path = some x ∧ x.run = true ∧ x.host = false ∧
        x.done = [] ∧ x.left = (s.routed.filter fun e => (BitVec.ofNat 128 (leNat mask)).getLsbD e.ix).map (·.ix)) ∧
    (∀ (s : State) (b : UdsBusy) (x : PathTest), s.serves 0x31 (some 2) b → b.par = 0xFE10 → s.net.path = some x → x.run = true → x.host = false →
      ∃ t, exec .stopRoutine s = .next t ∧ s.granted t b [2, 0xFE, 0x10] ∧ t.net.path = some { x with stop := some 2 }) ∧
    (∀ (s : State) (b : UdsBusy), s.serves 0x31 (some 2) b → b.par ≠ 0xFE10 →
      ∃ t, exec .stopRoutine s = .next t ∧ s.denied t b 0x24 ∧ t.net.path = s.net.path) ∧
    (∀ (s : State) (b : UdsBusy) (x : Nat × List Byte), s.serves 0x31 (some 3) b → b.par ≠ 0xFE10 →
      s.net.rtn.find? (fun x => decide (x.1 = b.par.toNat)) = some x →
      ∃ t, exec .requestRoutineResults s = .next t ∧ s.granted t b ([3] ++ be 2 b.par.toNat ++ x.2) ∧ t.dev = s.dev) ∧
    (∀ (s : State) (b : UdsBusy) (first : Word) (cnt : Byte), s.serves 0x31 (some 1) b → b.par = 0xFE20 → 0 < cnt.toNat → cnt.toNat ≤ 64 →
      ∃ t, exec (.marginHistoryReadout first cnt) s = .next t ∧ s.granted t b [1, 0xFE, 0x20] ∧
        t.net.rtn.find? (fun x => decide (x.1 = 0xFE20)) = some (0xFE20, s.exportMargin first cnt.toNat)) ∧
    (∀ (s : State) (b : UdsBusy) (first : Word) (cnt : Byte), s.serves 0x31 (some 1) b → b.par = 0xFE21 → 0 < cnt.toNat → cnt.toNat ≤ 64 →
      ∃ t, exec (.eventLogExport first cnt) s = .next t ∧ s.granted t b [1, 0xFE, 0x21] ∧
        t.net.rtn.find? (fun x => decide (x.1 = 0xFE21)) = some (0xFE21, s.exportEvents first cnt.toNat)) ∧
    (∀ (s : State) (b : UdsBusy), s.serves 0x31 (some 1) b → b.par = 0xFF01 →
      ∃ t r, exec .checkProgrammingDependencies s = .next t ∧ s.granted t b [1, 0xFF, 0x01] ∧
        t.net.rtn.find? (fun x => decide (x.1 = 0xFF01)) = some (0xFF01, [r]) ∧ t.dev = s.dev) ∧
    (∀ (s : State) (m : PathMeasure) (x : PathTest) (i j : Nat) (rest : List Nat), s.dev.up = true → s.net.path = some x → x.run = true →
      x.blk0 ≤ s.blk → s.pathCause x = none → x.left = i :: j :: rest → s.refOf i = none →
      ∃ t, exec (.pathTestOutputStep m) s = .next t ∧ t.net.path =
        some { x with left := j :: rest, status := 4, done := x.done ++ [pathEntry i 6 0 0 0 0 [] 0 m.fbstat.toNat] }) ∧
    ∀ (s : State) (m : PathMeasure) (x : PathTest) (c : Nat), s.dev.up = true → s.net.path = some x → x.run = true → x.host = false →
      x.blk0 ≤ s.blk → s.pathCause x = some c →
      ∃ t y, exec (.pathTestOutputStep m) s = .next t ∧ t.net.path = some y ∧ y.run = false ∧ y.status = c ∧ y.left = [] ∧
        y.done.length = x.done.length + x.left.length) ∧
  ((∀ (s : State) (b : UdsBusy) (addr len : Word), s.serves 0x34 none b → addr.toNat ≤ 3 → len.toNat ≤ targetSize addr.toNat →
      ∃ t, exec (.requestDownload 0 0x44 addr len) s = .next t ∧ s.granted t b [0x20, 0x10, 0x02] ∧ t.mem = s.mem ∧
        t.net.dl = some { target := addr.toNat, len := len.toNat, got := [], ctr := 1 }) ∧
    (∀ (s : State) (b : UdsBusy) (d : Download) (bs : List Byte), s.serves 0x36 none b → s.net.dl = some d → bs ≠ [] → bs.length ≤ 4096 →
      d.got.length + bs.length ≤ d.len →
      ∃ t, exec (.transferData d.ctr bs) s = .next t ∧ s.granted t b [d.ctr] ∧ t.mem = s.mem ∧
        t.net.dl = some { d with got := d.got ++ bs, ctr := d.ctr + 1 }) ∧
    (∀ (s : State) (b : UdsBusy) (d : Download) (ctr : Byte) (bs : List Byte), s.serves 0x36 none b → s.net.dl = some d → ctr + 1 = d.ctr →
      d.got ≠ [] →
      ∃ t, exec (.transferData ctr bs) s = .next t ∧ s.granted t b [ctr] ∧ t.net.dl = s.net.dl ∧ t.mem = s.mem) ∧
    (∀ (s : State) (b : UdsBusy) (d : Download) (ctr : Byte) (bs : List Byte), s.serves 0x36 none b → s.net.dl = some d → ctr ≠ d.ctr →
      ctr + 1 ≠ d.ctr →
      ∃ t, exec (.transferData ctr bs) s = .next t ∧ s.denied t b 0x73 ∧ t.net.dl = s.net.dl ∧ t.mem = s.mem) ∧
    (∀ (s : State) (b : UdsBusy) (d : Download) (g : PlanImage), s.Canonical → s.serves 0x37 none b → s.net.dl = some d → d.got.length = d.len →
      s.fab.puts = [] → s.imageRefused d.target (.plan { g with bytes := d.got }) d.len = none →
      ∃ t x, exec (.requestTransferExit (.plan g)) s = .next t ∧ t.fab.puts = [x] ∧ x.img = .plan { g with bytes := d.got } ∧ x.bs = d.got ∧
        x.ans = .uds b [] ∧ t.net.busy = some b ∧ t.net.dl = none ∧ t.out = s.out ∧ t.bytes (mramBase + 0x100000) 64 = zeros 64 ∧
        t.dev.images.plan = none) ∧
    (∀ (s : State) (b : UdsBusy) (x : ImagePut) (g : PlanImage) (ext : List Byte), s.dev.up = true → s.net.busy = some b → s.fab.mram = none →
      fld (s.reg Csr.mramWipe) 3 3 = 0 → s.fab.puts = [x] → x.img = .plan g → x.bs.length ≤ x.next + 4096 → x.ans = .uds b [] →
      ∃ t, exec (.mramCmdComplete ext) s = .next t ∧ s.granted t b [] ∧ t.dev.images.plan = some g ∧ t.fab.puts = []) ∧
    ∀ (s : State) (b : UdsBusy) (d : Download) (img : NewImage) (st : Nat), s.serves 0x37 none b → s.net.dl = some d →
      d.got.length = d.len → s.imageRefused d.target (imageOf img d.got) d.len = some st →
      ∃ t, exec (.requestTransferExit img) s = .next t ∧ s.denied t b 0x72 ∧ t.mem = s.mem ∧ t.dev = s.dev ∧ t.net.dl = none)

/-! ## Vehicle networks -/

/-- A received Ethernet frame is counted by what becomes of it; a port sends the head of its highest queue while that queue's gate is open
long enough, and counts the frames a gate holds; a gate list takes effect at a start of its cycle (R349, R350, R355).

A follower is synchronised after Syncs within 1,000 ns of its time and stops being so at a larger offset or the third interval without
one; a master sends Sync, an enabled port measures its link's delay (R352, R353).

Answers a next state with its own effect, under conditions on state and operands alone: ethFrameReceive, ethFrameTransmit, gateListChange,
gptpSyncReceive, gptpSyncSend, gptpPdelayReq, gptpSyncIntervalExpire, ethLinkChange. -/
def Obligations.EthernetAndGptp : Prop :=
  ((∀ (s : State) (m : Fin 4) (f : EthFrame), s.dev.up = true → fld (s.reg (ethReg m.val 0)) 0 0 = 0 →
      exec (.ethFrameReceive m f) s = .next s) ∧
    (∀ (s : State) (m : Fin 4) (f : EthFrame), s.Canonical → s.dev.up = true → fld (s.reg (ethReg m.val 0)) 0 0 = 1 →
      (f.fcsOk = false ∨ 1522 < f.len) →
      ∃ t, exec (.ethFrameReceive m f) s = .next t ∧
        (t.reg (ethReg m.val (if f.fcsOk then 0x48 else 0x44))).toNat = min 0xFFFFFFFF ((s.reg (ethReg m.val (if f.fcsOk then 0x48 else 0x44))).toNat + 1) ∧
        fld (t.reg (ethReg m.val 0x3C)) (if f.fcsOk then 1 else 0) (if f.fcsOk then 1 else 0) = 1 ∧
        s.SameRegs t [ethReg m.val 0x44, ethReg m.val 0x48, ethReg m.val 0x3C] ∧ t.net = s.net ∧ t.mem = s.mem) ∧
    (∀ (s : State) (m : Fin 4) (f : EthFrame), s.Canonical → s.dev.up = true → fld (s.reg (ethReg m.val 0)) 0 0 = 1 → f.fcsOk = true →
      f.len ≤ 1522 → f.tagged = false → f.full = false → (f.kind = .other ∨ f.kind = .arp) →
      ∃ t, exec (.ethFrameReceive m f) s = .next t ∧ (t.reg (ethReg m.val 0x40)).toNat = min 0xFFFFFFFF ((s.reg (ethReg m.val 0x40)).toNat + 1) ∧
        (t.reg (ethReg m.val (if f.kind = .arp then 0x5C else 0x4C))).toNat =
          min 0xFFFFFFFF ((s.reg (ethReg m.val (if f.kind = .arp then 0x5C else 0x4C))).toNat + 1) ∧
        s.SameRegs t [ethReg m.val 0x40, ethReg m.val (if f.kind = .arp then 0x5C else 0x4C)] ∧ t.tiles = s.tiles ∧ t.net = s.net) ∧
    (∀ (s : State) (m : Fin 4) (now : DWord) (credit : BitVec 2) (f : TxFrame), s.Canonical → s.dev.up = true →
      fld (s.reg (ethReg m.val 0)) 0 0 = 1 → s.net.tx = [f] → f.port = m.val → f.q = 7 → f.cls = 2 → f.len ≤ 1522 →
      (s.net.gates.getD m.val { now := none, next := none }).now = none →
      ∃ t, exec (.ethFrameTransmit m now credit) s = .next t ∧ t.net.tx = [] ∧ t.out = .frame m.val 7 f.vid f.what :: s.out ∧
        (t.reg (ethReg m.val 0x60)).toNat = min 0xFFFFFFFF ((s.reg (ethReg m.val 0x60)).toNat + 1) ∧
        s.SameRegs t [ethReg m.val 0x60, ethReg m.val 0x9C, ethReg m.val 0x70] ∧ t.mem = s.mem) ∧
    (∀ (s : State) (m : Fin 4) (now : DWord) (credit : BitVec 2) (f : TxFrame) (e : EthSet), s.Canonical → s.dev.up = true →
      fld (s.reg (ethReg m.val 0)) 0 0 = 1 → s.net.tx = [f] → f.port = m.val → f.q = 7 →
      (s.net.gates.getD m.val { now := none, next := none }).now = some e → gateOpen (some e) now 7 = none →
      ∃ t, exec (.ethFrameTransmit m now credit) s = .next t ∧ t.net.tx = [f] ∧ t.out = s.out ∧
        (t.reg (ethReg m.val 0xBC)).toNat = min 0xFFFFFFFF ((s.reg (ethReg m.val 0xBC)).toNat + 1) ∧
        s.SameRegs t [ethReg m.val 0xBC, ethReg m.val 0x64]) ∧
    (∀ (s : State) (m : Fin 4) (now : DWord) (e : EthSet), s.Canonical → s.dev.up = true →
      (s.net.gates.getD m.val { now := none, next := none }).next = some e → e.change.toNat ≤ now.toNat →
      (e.cycle = 0 ∨ (now - e.base).toNat % e.cycle = 0) →
      ∃ t, exec (.gateListChange m now) s = .next t ∧ t.net.gates.getD m.val { now := none, next := none } = { now := some e, next := none } ∧
        (t.reg (ethReg m.val 0x30)).toNat = e.cycle % 2 ^ 32 ∧ s.SameRegs t [ethReg m.val 0x2C, ethReg m.val 0x30]) ∧
    (∀ (s : State) (m : Fin 4) (now : DWord) (e : EthSet), s.dev.up = true →
      (s.net.gates.getD m.val { now := none, next := none }).next = some e → now.toNat < e.change.toNat →
      exec (.gateListChange m now) s = .next s) ∧
    ∀ (s : State) (m : Fin 4) (on : Bool) (speed : BitVec 2), s.Canonical → s.dev.up = true →
      ∃ t, exec (.ethLinkChange m on speed) s = .next t ∧ fld (t.reg (ethReg m.val 4)) 0 0 = b2n on ∧
        (on = true → fld (t.reg (ethReg m.val 4)) 2 1 = speed.toNat) ∧ s.SameRegs t [ethReg m.val 4]) ∧
  ((∀ (s : State) (m : Fin 4) (ofs : Int), s.Canonical → s.dev.up = true → s.ptpRole m.val = 2 → ofs.natAbs < 1000 →
      2 ≤ (s.net.ptp.getD m.val { lost := 0, seen := false, good := 0 }).good →
      ∃ t, exec (.gptpSyncReceive m ofs) s = .next t ∧ fld (t.reg (ethReg m.val 0x18)) 0 0 = 1 ∧ t.reg (ethReg m.val 0x1C) = sat32 ofs ∧
        fld (t.reg (ethReg m.val 0x18)) 15 8 = 0 ∧ (t.net.ptp.getD m.val { lost := 0, seen := false, good := 0 }).seen = true ∧ t.mem = s.mem) ∧
    (∀ (s : State) (m : Fin 4) (ofs : Int), s.Canonical → s.dev.up = true → s.ptpRole m.val = 2 → 1000 ≤ ofs.natAbs →
      fld (s.reg (ethReg m.val 0x18)) 0 0 = 1 →
      ∃ t, exec (.gptpSyncReceive m ofs) s = .next t ∧ fld (t.reg (ethReg m.val 0x18)) 0 0 = 0 ∧ fld (t.reg (ethReg m.val 0x3C)) 3 3 = 1 ∧
        (t.net.ptp.getD m.val { lost := 0, seen := false, good := 0 }).lost = s.sample.toNat) ∧
    (∀ (s : State) (m : Fin 4) (ofs : Int), s.dev.up = true → s.ptpRole m.val ≠ 2 → exec (.gptpSyncReceive m ofs) s = .next s) ∧
    (∀ (s : State) (m : Fin 4), s.Canonical → s.dev.up = true → s.ptpRole m.val = 2 →
      (s.net.ptp.getD m.val { lost := 0, seen := false, good := 0 }).seen = false → fld (s.reg (ethReg m.val 0x18)) 15 8 = 2 →
      ∃ t, exec (.gptpSyncIntervalExpire m) s = .next t ∧ fld (t.reg (ethReg m.val 0x18)) 0 0 = 0 ∧ fld (t.reg (ethReg m.val 0x18)) 15 8 = 3 ∧
        (t.reg (ethReg m.val 0xF4)).toNat = min 0xFFFFFFFF ((s.reg (ethReg m.val 0xF4)).toNat + 1)) ∧
    (∀ (s : State) (m : Fin 4), s.dev.up = true → s.ptpRole m.val = 2 →
      (s.net.ptp.getD m.val { lost := 0, seen := false, good := 0 }).seen = true →
      ∃ t, exec (.gptpSyncIntervalExpire m) s = .next t ∧ (t.net.ptp.getD m.val { lost := 0, seen := false, good := 0 }).seen = false ∧
        (t.net.ptp.getD m.val { lost := 0, seen := false, good := 0 }).good =
          (s.net.ptp.getD m.val { lost := 0, seen := false, good := 0 }).good + 1 ∧ t.csr = s.csr) ∧
    (∀ (s : State) (m : Fin 4), s.Canonical → s.dev.up = true → s.ptpRole m.val = 1 →
      ∃ t f, exec (.gptpSyncSend m) s = .next t ∧ t.net.tx = s.net.tx ++ [f] ∧ f.port = m.val ∧ f.q = 7 ∧ f.what = .ptp m.val 0 ∧
        (t.reg (ethReg m.val 0xE0)).toNat = min 0xFFFFFFFF ((s.reg (ethReg m.val 0xE0)).toNat + 1) ∧ s.SameRegs t [ethReg m.val 0xE0]) ∧
    ∀ (s : State) (m : Fin 4) (d : Nat), s.Canonical → s.dev.up = true → s.ptpRole m.val ≠ 0 →
      ∃ t f, exec (.gptpPdelayReq m (some d)) s = .next t ∧ t.net.tx = s.net.tx ++ [f] ∧ f.what = .ptp m.val 1 ∧
        (t.reg (ethReg m.val 0x28)).toNat = min 0xFFFFFFFF d ∧ fld (t.reg (ethReg m.val 0x18)) 2 2 = b2n (decide (d < 800)))

/-- A CAN frame that passes a filter and the checks of its signal-map entry writes the slot's pending copy; a timeout gives it its substitute;
a controller goes bus-off and recovers, and shows its error state (R356 to R358).

Answers a next state with its own effect, under conditions on state and operands alone: canFrameReceive, signalTimeout, canBusOff,
canBusOffRecover, canErrorStateChange. -/
def Obligations.CanSignalsReachTheirSlots : Prop :=
  (∀ (s : State) (c : Fin 2) (id : BitVec 30) (bs : List Byte), s.dev.up = true → fld (s.reg (Csr.can c.val 0)) 0 0 = 0 →
    exec (.canFrameReceive c id bs) s = .next s) ∧
  (∀ (s : State) (c : Fin 2) (id : BitVec 30) (bs : List Byte), s.Canonical → s.dev.up = true → fld (s.reg (Csr.can c.val 0)) 0 0 = 1 →
    fld (s.reg (Csr.can c.val 0x10)) 1 0 < 2 → s.canPass c id = false →
    ∃ t, exec (.canFrameReceive c id bs) s = .next t ∧
      (t.reg (Csr.can c.val 0x20)).toNat = min 0xFFFFFFFF ((s.reg (Csr.can c.val 0x20)).toNat + 1) ∧
      (t.reg (Csr.can c.val 0x28)).toNat = min 0xFFFFFFFF ((s.reg (Csr.can c.val 0x28)).toNat + 1) ∧
      s.SameRegs t [Csr.can c.val 0x20, Csr.can c.val 0x28] ∧ t.net = s.net) ∧
  (∀ (s : State) (c : Fin 2) (id : BitVec 30) (bs : List Byte) (k : CalImage) (e : SigEntry), s.Canonical →
    swf SlotCopy.none s.net.slots = true → s.dev.up = true → fld (s.reg (Csr.can c.val 0)) 0 0 = 1 → fld (s.reg (Csr.can c.val 0x10)) 1 0 < 2 →
    s.canPass c id = true → s.net.cal = some k → k.sigMap = [e] → e.bus = c → e.id = id.setWidth 32 → e.crc = none → e.alive = none →
    f32le e.lo (sigValue e (sigRaw e bs)) = true → f32le (sigValue e (sigRaw e bs)) e.hi = true → s.forwarded = false →
    ∃ t, exec (.canFrameReceive c id bs) s = .next t ∧ t.slot e.slot =
        { val := sigValue e (sigRaw e bs), raw := BitVec.ofNat 32 (sigRaw e bs), count := (s.slot e.slot).count + 1, valid := true
          timeout := false, range := false, changed := true } ∧
      (∀ j, j ≠ e.slot → t.slot j = s.slot j) ∧ s.SameRegs t [Csr.can c.val 0x20] ∧ t.mem = s.mem) ∧
  (∀ (s : State) (c : Fin 2) (id : BitVec 30) (bs : List Byte) (k : CalImage) (e : SigEntry), s.Canonical →
    swf SlotCopy.none s.net.slots = true → s.dev.up = true → fld (s.reg (Csr.can c.val 0)) 0 0 = 1 → fld (s.reg (Csr.can c.val 0x10)) 1 0 < 2 →
    s.canPass c id = true → s.net.cal = some k → k.sigMap = [e] → e.bus = c → e.id = id.setWidth 32 →
    f32le e.lo (sigValue e (sigRaw e bs)) = false → s.forwarded = false →
    ∃ t, exec (.canFrameReceive c id bs) s = .next t ∧ (t.slot e.slot).range = true ∧ (t.slot e.slot).val = (s.slot e.slot).val ∧
      (t.slot e.slot).count = (s.slot e.slot).count ∧ fld (t.reg (Csr.can c.val 0x18)) 2 2 = 1) ∧
  (∀ (s : State) (k : CalImage) (e : SigEntry) (ix : Nat), swf SlotCopy.none s.net.slots = true → s.dev.up = true → s.net.cal = some k →
    k.sigMap[ix]? = some e → 0 < e.timeout → (s.slot e.slot).timeout = false →
    (sget { ref := none, last := 0 } s.net.sig ix).last + 48 * e.timeout ≤ s.sample.toNat →
    ∃ t, exec (.signalTimeout ix) s = .next t ∧ (t.slot e.slot).val = e.sub ∧ (t.slot e.slot).timeout = true ∧ (t.slot e.slot).changed = true ∧
      t.mem = s.mem) ∧
  (∀ (s : State) (c : Fin 2), s.Canonical → s.dev.up = true → fld (s.reg (Csr.can c.val 0x10)) 1 0 < 2 →
    ∃ t, exec (.canBusOff c) s = .next t ∧ fld (t.reg (Csr.can c.val 0x10)) 1 0 = 2 ∧ fld (t.reg (Csr.can c.val 0x10)) 2 2 = 1 ∧
      fld (t.reg (Csr.can c.val 0x18)) 0 0 = 1 ∧
      (t.reg (Csr.can c.val 0x1C)).toNat = min 0xFFFFFFFF ((s.reg (Csr.can c.val 0x1C)).toNat + 1)) ∧
  (∀ (s : State) (c : Fin 2), s.Canonical → s.dev.up = true → fld (s.reg (Csr.can c.val 0x10)) 2 2 = 1 →
    ∃ t, exec (.canBusOffRecover c) s = .next t ∧ t.reg (Csr.can c.val 0x10) = 0 ∧ t.reg (Csr.can c.val 0x14) = 0 ∧
      s.SameRegs t [Csr.can c.val 0x10, Csr.can c.val 0x14] ∧ t.net = s.net) ∧
  ∀ (s : State) (c : Fin 2) (tec recv : BitVec 8), s.Canonical → s.dev.up = true → fld (s.reg (Csr.can c.val 0x10)) 1 0 < 2 →
    ∃ t, exec (.canErrorStateChange c tec recv) s = .next t ∧
      fld (t.reg (Csr.can c.val 0x10)) 1 0 = b2n (decide (128 ≤ tec.toNat) || decide (128 ≤ recv.toNat)) ∧
      (t.reg (Csr.can c.val 0x14)).toNat = tec.toNat + 256 * recv.toNat ∧
      (fld (s.reg (Csr.can c.val 0x10)) 1 0 = 0 → (128 ≤ tec.toNat ∨ 128 ≤ recv.toNat) → fld (t.reg (Csr.can c.val 0x18)) 1 1 = 1)

/-! ## The Lichen pair -/

/-- A sideband pulse shows the peer alive, a missing one is counted, DROP starts the takeover; training and alignment bring the link up or to
CONFLICT; too many replays or 8 ticks without a STATE flit retrain it; codewords are taken in sequence (R378, R382, R384, R386).

STATE flits show the peer, and a waiting device starts to join a running one; a joining device takes bulk and delta data but for its
private part; a PARTNER takes the signals,
listener values, host blocks and plan changes that the PRIMARY forwards; phases end in order and its tiles wake at the join block (R383, R387 to R390, R398).

Answers a next state with its own effect, under conditions on state and operands alone: lkSidebandPulse, linkTrainDone, linkAlign, linkRetrain,
codewordReceive, flitState, flitForward, flitBulk, flitDelta, resyncPhaseEnd, resyncJoin. -/
def Obligations.ThePairComesUpAndJoins : Prop :=
  ((∀ (s : State) (ps : Word), s.Canonical → s.dev.up = true → s.pairEn = true →
      ∃ t, exec (.lkSidebandPulse 0 ps) s = .next t ∧ t.reg Csr.syncPhase = ps ∧ fld (t.reg Csr.lkStat) 3 3 = 1 ∧ fld (t.reg Csr.lkStat) 4 4 = 0 ∧ t.lst = s.lst ∧
        t.lk.sbGap = 0 ∧ t.lk.pulsed = true ∧ s.SameRegs t [Csr.lkStat, Csr.syncPhase] ∧ t.mem = s.mem) ∧
    (∀ (s : State) (ps : Word), s.Canonical → s.dev.up = true → s.pairEn = true →
      ∃ t, exec (.lkSidebandPulse 1 ps) s = .next t ∧ fld (t.reg Csr.lkStat) 3 3 = 0 ∧ fld (t.reg Csr.lkErr) 3 3 = 1 ∧
        t.lk.sbGap = s.lk.sbGap + 1 ∧ s.SameRegs t [Csr.lkStat, Csr.lkErr]) ∧
    (∀ (s : State) (ps : Word), s.Canonical → s.dev.up = true → s.pairEn = true → s.pst = 3 → s.lk.peerDrop = none →
      ∃ t, exec (.lkSidebandPulse 2 ps) s = .next t ∧ fld (t.reg Csr.lkStat) 4 4 = 1 ∧ t.lk.peerDrop = some s.sample.toNat ∧
        (t.reg Csr.dropCnt).toNat = min 0xFFFFFFFF ((s.reg Csr.dropCnt).toNat + 1) ∧
        (t.reg Csr.takeCnt).toNat = min 0xFFFFFFFF ((s.reg Csr.takeCnt).toNat + 1) ∧ ∃ ms, t.lk.moves = s.lk.moves ++ ms ∧ ∀ m ∈ ms, m.take = true) ∧
    (∀ (s : State) (ok : Bool), s.Canonical → s.dev.up = true → (s.lst = 1 ∨ s.lst = 4) →
      ∃ t, exec (.linkTrainDone ok) s = .next t ∧ t.lst = (if ok then 2 else 1) ∧ t.lk.reqs = [] ∧ t.mem = s.mem) ∧
    (∀ (s : State), s.Canonical → s.dev.up = true → s.lst = 2 →
      ∃ t, exec (.linkAlign true true) s = .next t ∧ t.lst = 3 ∧ t.lk.flGap = 0 ∧ t.lk.replays = [] ∧
        (∀ l < 8, fld (t.reg (laneReg l 4)) 1 0 = 3) ∧
        s.SameRegs t (Csr.lkStat :: (upFrom 0 8).flatMap fun l => [laneReg l 0, laneReg l 4])) ∧
    (∀ (s : State) (opposite same : Bool), s.Canonical → s.dev.up = true → s.lst = 2 → (opposite && same) = false →
      ∃ t, exec (.linkAlign opposite same) s = .next t ∧ t.lst = 5 ∧ t.pst = 0 ∧
        fld (t.reg Csr.lkErr) (if opposite then 7 else 6) (if opposite then 7 else 6) = 1) ∧
    (∀ (s : State), s.Canonical → s.dev.up = true → s.lst = 3 → (16 ≤ s.lk.replays.length ∨ 8 ≤ s.lk.flGap) →
      ∃ t, exec .linkRetrain s = .next t ∧ t.lst = 4 ∧ t.lk.replays = [] ∧
        (t.reg Csr.retrainCnt).toNat = min 0xFFFFFFFF ((s.reg Csr.retrainCnt).toNat + 1) ∧
        (s.pst = 3 → fld (s.reg Csr.lkStat) 3 3 = 1 → t.pst = 4)) ∧
    (∀ (s : State), s.dev.up = true → s.lst = 3 → s.lk.replays.length < 16 → s.lk.flGap < 8 → exec .linkRetrain s = .next s) ∧
    (∀ (s : State) (ack : Byte), s.dev.up = true → s.lst = 3 →
      ∃ t, exec (.codewordReceive s.lk.rxSeq ack false 0 [] false) s = .next t ∧ t.lk.rxSeq = s.lk.rxSeq + 1 ∧ t.lk.txAck = ack ∧
        t.lk.nak = false ∧ t.csr = s.csr) ∧
    ∀ (s : State) (seq ack : Byte) (nak : Bool), s.Canonical → s.dev.up = true → s.lst = 3 →
      ∃ t, exec (.codewordReceive seq ack nak 2 [] false) s = .next t ∧ t.lk.nak = true ∧ t.lk.rxSeq = s.lk.rxSeq ∧
        (t.reg Csr.fecUnc).toNat = min 0xFFFFFFFF ((s.reg Csr.fecUnc).toNat + 1) ∧
        (t.reg Csr.replayCnt).toNat = min 0xFFFFFFFF ((s.reg Csr.replayCnt).toNat + 1) ∧ fld (t.reg Csr.lkErr) 0 0 = 1) ∧
  ((∀ (s : State) (x : PeerState), s.Canonical → s.dev.up = true → s.lst = 3 → x.drop = false → s.agrees x = true → s.receives x = false →
      (x.pstate ≠ 2 ∨ (s.pst ≠ 3 ∧ s.pst ≠ 4)) →
      ∃ t, exec (.flitState x) s = .next t ∧ t.lk.peer = some x ∧ t.lk.flSeen = true ∧ t.lk.flGap = 0 ∧
        fld (t.reg Csr.pairStat) 5 3 = x.pstate.val ∧ t.pst = s.pst ∧ s.SameRegs t [Csr.pairStat]) ∧
    (∀ (s : State) (x : PeerState), s.Canonical → s.dev.up = true → s.lst = 3 → x.drop = false → s.agrees x = true → s.pst = 1 →
      (x.pstate = 3 ∨ x.pstate = 4) →
      ∃ t, exec (.flitState x) s = .next t ∧ t.pst = 2 ∧ t.sample = x.sample ∧ t.lk.own = [] ∧ t.lk.recv = true ∧
        fld (t.reg Csr.resyncStat) 1 0 = 1 ∧ t.reg Csr.resyncBytes = 0 ∧ ∀ u : UnitIx, u.val < 16 → (t.tile u).heldOff = true) ∧
    (∀ (s : State) (x : PeerState), s.Canonical → s.dev.up = true → s.lst = 3 → x.drop = false → s.agrees x = false →
      ∃ t, exec (.flitState x) s = .next t ∧ fld (t.reg Csr.lkErr) 7 7 = 1 ∧ t.pst = s.pst ∧ t.sample = s.sample) ∧
    (∀ (s : State) (a : BitVec 36) (bs : List Byte), s.Canonical → s.OneShadow → s.dev.up = true → s.lst = 3 → s.pst = 2 →
      fld (s.reg Csr.resyncStat) 1 0 = 1 → s.ecc = [] → oneBank a.toNat bs.length = true → bs ≠ [] → privateByte a.toNat = false →
      ∃ t, exec (.flitBulk a bs) s = .next t ∧ t.bytes a.toNat bs.length = bs ∧
        (∀ b < 2 ^ 36, (b < a.toNat ∨ a.toNat + bs.length ≤ b) → t.byte b = s.byte b) ∧
        t.reg Csr.resyncBytes = s.reg Csr.resyncBytes + BitVec.ofNat 32 (bs.length / 64) ∧ s.SameRegs t [Csr.resyncBytes]) ∧
    (∀ (s : State) (a : BitVec 36) (bs : List Byte), s.Canonical → s.OneShadow → s.dev.up = true → s.lst = 3 → s.pst = 2 →
      s.ecc = [] → oneBank a.toNat bs.length = true → bs ≠ [] → privateByte a.toNat = false →
      ∃ t, exec (.flitDelta a bs) s = .next t ∧ t.bytes a.toNat bs.length = bs ∧
        (∀ b < 2 ^ 36, (b < a.toNat ∨ a.toNat + bs.length ≤ b) → t.byte b = s.byte b) ∧ t.csr = s.csr) ∧
    (∀ (s : State) (a : BitVec 36) (bs : List Byte), s.dev.up = true → s.lst = 3 → s.pst = 2 → privateByte a.toNat = true →
      exec (.flitDelta a bs) s = .next s) ∧
    (∀ (s : State), s.Canonical → s.dev.up = true → fld (s.reg Csr.resyncStat) 1 0 = 1 →
      ∃ t, exec .resyncPhaseEnd s = .next t ∧ fld (t.reg Csr.resyncStat) 1 0 = 2 ∧ s.SameRegs t [Csr.resyncStat, Csr.resyncBytes] ∧ t.lk = s.lk ∧
        (s.lk.recv = true → t.out = s.out ∧ t.reg Csr.resyncBytes = s.reg Csr.resyncBytes) ∧
        (s.lk.recv = false → t.out.length = s.out.length + 23 ∧ t.reg Csr.resyncBytes = 1047552)) ∧
    (∀ (s : State), s.dev.up = true → fld (s.reg Csr.resyncStat) 1 0 = 2 → s.lk.join = none →
      ∃ t, exec .resyncPhaseEnd s = .next t ∧ t.lk.join = some (s.blk + 1) ∧ t.csr = s.csr ∧ t.mem = s.mem) ∧
    (∀ (s : State) (i : Fin 256) (val raw : Word) (fl : BitVec 3), swf SlotCopy.none s.net.slots = true → s.dev.up = true → s.lst = 3 →
      s.dev.lkRole = true → (s.pst = 2 ∨ s.pst = 3) → s.lk.heard = [] →
      ∃ t, exec (.flitForward (.signal i val raw fl)) s = .next t ∧
        t.slot i.val = { s.slot i.val with
          val := val, raw := raw, count := (s.slot i.val).count + 1, valid := fl.getLsbD 0, timeout := fl.getLsbD 1, range := fl.getLsbD 2
          changed := true } ∧ (∀ j : Nat, j ≠ i.val → t.slot j = s.slot j) ∧ t.csr = s.csr) ∧
    (∀ (s : State) (k : Fin 32) (n : Nat) (ws : List Word), s.dev.up = true → s.lst = 3 → s.dev.lkRole = true → (s.pst = 2 ∨ s.pst = 3) →
      ∃ t, exec (.flitForward (.listen k n ws)) s = .next t ∧ (t.listenOf (32 + k.val)).held.head? = some (2 * n, ws) ∧ t.mem = s.mem) ∧
    (∀ (s : State) (x : HStream) (b : Nat) (bs : List Byte), s.dev.up = true → s.lst = 3 → s.dev.lkRole = true → (s.pst = 2 ∨ s.pst = 3) →
      s.host.streams = [x] →
      ∃ t, exec (.flitForward (.h2d x.ep.ix b (some bs))) s = .next t ∧ t.csr = s.csr ∧ t.mem = s.mem ∧ t.host.streams =
        [{ x with staged := (b, padTo x.ep.bpb bs) :: x.staged.filter (fun y => decide (y.1 ≠ b)), next := max x.next (b + 1) }]) ∧
    (∀ (s : State) (pid : Word) (n : Nat) (q : Plan × Tier), s.dev.up = true → s.lst = 3 → s.dev.lkRole = true → (s.pst = 2 ∨ s.pst = 3) →
      s.dev.sched.loaded.find? (fun x => decide (x.1.planId = pid)) = some q → s.host.changes = [] →
      ∃ t x, exec (.flitForward (.switch pid n)) s = .next t ∧ t.host.changes = [x] ∧ x.block = n ∧ x.kind = .switch q.1 ∧ 16 ≤ x.cmd.ring ∧
        t.plan = s.plan ∧ t.mem = s.mem) ∧
    (∀ (s : State) (f : Forward), s.dev.up = true → (s.lst ≠ 3 ∨ s.dev.lkRole = false) → exec (.flitForward f) s = .next s) ∧
    ∀ (s : State) (q : Nat), s.Canonical → s.dev.up = true → s.lk.join = some q → q ≤ s.blk + 1 → fld (s.reg Csr.resyncStat) 1 0 = 2 →
      s.lk.recv = true →
      ∃ t, exec .resyncJoin s = .next t ∧ fld (t.reg Csr.resyncStat) 1 0 = 3 ∧ (∀ u : UnitIx, u.val < 16 → (t.tile u).heldOff = false) ∧
        t.lk = s.lk ∧ t.mem = s.mem)

/-- Journalled data of a block takes effect only when its COMMIT closes the block before; the comparison of a block's records that agree
changes no state of the pair, and one that differs while PAIRED brings the safe output state (R391, R392, R396).

Ownership moves at its moving points; a survivor is ALONE, a dropped device resets 1 ms after its last output has moved; a SPLIT
survivor goes to its survivor plan; a silent peer is taken over into the safe output state; a PARTNER without a pulse goes SOLO (R387, R393 to
R397; that only changed outputs of fast lanes move at the next tick is log 51).

Answers a next state with its own effect, under conditions on state and operands alone: flitRecord, flitMirror, flitCommit, journalApply,
verdictPoint, droppedReset, ownershipMove, survivorSwitch, peerSilent, partnerWaitTimeout. -/
def Obligations.ThePairComparesAndTakesOver : Prop :=
  ((∀ (s : State) (m : Mirror), s.Canonical → s.dev.up = true → s.lst = 3 → s.pst = 3 →
      ∃ t, exec (.flitMirror m) s = .next t ∧ t.lk.journal = s.lk.journal ++ [m] ∧ t.mem = s.mem ∧ s.SameRegs t [Csr.jrnlStat]) ∧
    (∀ (s : State) (b : Nat), s.Canonical → s.dev.up = true → s.lst = 3 → s.pst = 3 → b < 2 ^ 32 →
      ∃ t, exec (.flitCommit b) s = .next t ∧ t.lk.commit = some b ∧ (t.reg Csr.commitLo).toNat = b ∧ t.reg Csr.commitHi = 0 ∧
        fld (t.reg Csr.jrnlStat) 20 20 = 1 ∧ t.mem = s.mem) ∧
    (∀ (s : State) (a : BitVec 36) (bs : List Byte) (j : Nat), s.Canonical → s.OneShadow → s.dev.up = true → s.lk.journal = [.write a bs] →
      s.lk.commit = some j → j + 1 = s.blk → oneBank a.toNat bs.length = true →
      ∃ t, exec .journalApply s = .next t ∧ t.bytes a.toNat bs.length = bs ∧ t.lk.journal = [] ∧ t.lk.commit = none ∧
        ∀ b < 2 ^ 36, (b < a.toNat ∨ a.toNat + bs.length ≤ b) → t.byte b = s.byte b) ∧
    (∀ (s : State), s.dev.up = true → (∀ j, s.lk.commit = some j → j + 1 ≠ s.blk) →
      ∃ t, exec .journalApply s = .next t ∧ t.lk.journal = [] ∧ t.lk.commit = none ∧ t.mem = s.mem ∧ t.lk.mirrored = s.lk.mirrored) ∧
    (∀ (s : State) (fl : Bool) (b : Nat) (crc : Word), s.dev.up = true → s.lst = 3 →
      ∃ t r, exec (.flitRecord fl b crc) s = .next t ∧ t.lk.peerRecs.find? (fun x => decide (x.blk = b)) = some r ∧
        (if fl then r.crcF else r.crcB) = some crc ∧ t.csr = s.csr ∧ t.mem = s.mem) ∧
    (∀ (s : State) (r : PairRec), s.Canonical → s.dev.up = true → s.bsize ≠ 0 → s.pst = 3 → s.lk.join = none → s.lk.mismatch = false →
      s.lk.ownDrop = none → s.lk.peerDrop = none → s.lk.peerRecs.find? (fun x => decide (x.blk = s.blk)) = some r → r.crcB = some s.crcBlk →
      ∃ t, exec (.verdictPoint false) s = .next t ∧ t.reg Csr.lkVerdict = 1 ∧ t.reg Csr.crcOwn = s.crcBlk ∧ t.reg Csr.crcPeer = s.crcBlk ∧
        t.pst = 3 ∧ t.reg Csr.misCnt = s.reg Csr.misCnt ∧ fld (t.reg Csr.safeStat) 1 0 = fld (s.reg Csr.safeStat) 1 0) ∧
    (∀ (s : State) (r : PairRec) (c : Word), s.Canonical → s.dev.up = true → s.bsize ≠ 0 → s.pst = 3 → s.lk.join = none →
      s.lk.ownDrop = none → s.lk.peerDrop = none → s.lk.peerRecs.find? (fun x => decide (x.blk = s.blk)) = some r → r.crcB = some c →
      c ≠ s.crcBlk → fld (s.reg Csr.safeStat) 1 0 = 0 →
      ∃ t, exec (.verdictPoint false) s = .next t ∧ fld (t.reg Csr.lkVerdict) 0 0 = 0 ∧ t.reg Csr.crcOwn = s.crcBlk ∧ t.reg Csr.crcPeer = c ∧
        (t.reg Csr.misCnt).toNat = min 0xFFFFFFFF ((s.reg Csr.misCnt).toNat + 1) ∧ fld (t.reg Csr.safeStat) 1 0 = 1) ∧
    ∀ (s : State) (fl : Bool), s.dev.up = true → s.pst = 0 → s.lk.peerDrop = none → s.lk.ownDrop = none → exec (.verdictPoint fl) s = .next s) ∧
  ((∀ (s : State) (m : OwnMove), s.Canonical → s.dev.up = true → s.lk.moves = [m] → m.at_ ≤ s.sample.toNat → m.take = true →
      fld (s.reg Csr.pairStat) 7 7 = 0 → (s.pairMode ≠ 2 ∨ s.lk.latent = false) →
      ∃ t, exec .ownershipMove s = .next t ∧ t.lk.moves = [] ∧ t.pst = 4 ∧ t.lk.own = s.lk.own ++ m.outs.filter (fun o => !s.lk.own.contains o) ∧
        fld (t.reg Csr.pairStat) 7 7 = b2n (s.allOuts.all fun o => t.lk.own.contains o) ∧ t.lk.lastMove = some s.sample.toNat ∧ t.mem = s.mem) ∧
    (∀ (s : State) (m : OwnMove), s.Canonical → s.dev.up = true → s.lk.moves = [m] → m.at_ ≤ s.sample.toNat → m.take = false →
      fld (s.reg Csr.pairStat) 7 7 = 0 →
      ∃ t, exec .ownershipMove s = .next t ∧ t.lk.moves = [] ∧ t.pst = s.pst ∧ t.lk.own = s.lk.own.filter (fun o => !m.outs.contains o) ∧
        fld (t.reg Csr.pairStat) 7 6 = 0) ∧
    (∀ (s : State), s.dev.up = true → (∀ m ∈ s.lk.moves, s.sample.toNat < m.at_) → exec .ownershipMove s = .next s) ∧
    (∀ (s : State) (n : Nat), s.Canonical → s.dev.up = true → s.pst = 5 → s.lk.moves = [] → s.lk.lastMove = some n → n + 48 ≤ s.sample.toNat →
      ∃ t, exec .droppedReset s = .next t ∧ t.dev.up = false ∧ t.reg Csr.rstCause = 8) ∧
    (∀ (s : State) (n : Nat), s.dev.up = true → s.lk.lastMove = some n → (s.pst ≠ 5 ∨ s.sample.toNat < n + 48) → exec .droppedReset s = .next s) ∧
    (∀ (s : State) (p : Plan) (x : Plan × Tier), s.dev.up = true → s.plan = some p → s.pairMode = 2 → s.lk.peerDrop ≠ none → s.lk.ownDrop = none →
      (s.dev.sched.stage = .none ∨ s.dev.sched.stage = .drain) →
      s.dev.sched.loaded.find? (fun x => decide (x.1.planId = p.pair.survivor)) = some x →
      ∃ t, exec .survivorSwitch s = .next t ∧ t.dev.sched.target = some x.1 ∧ t.csr = s.csr ∧ t.mem = s.mem ∧
        t.lk = { s.lk with surv := some (s.blk + 1) }) ∧
    (∀ (s : State), s.Canonical → s.dev.up = true → s.pst = 3 → 2 ≤ s.lk.sbGap → 2 ≤ s.lk.flGap → s.lk.peerDrop = none →
      fld (s.reg Csr.safeStat) 1 0 = 0 →
      ∃ t, exec .peerSilent s = .next t ∧ fld (t.reg Csr.safeStat) 1 0 = 1 ∧ t.lk.peerDrop = some s.sample.toNat ∧
        (t.reg Csr.takeCnt).toNat = min 0xFFFFFFFF ((s.reg Csr.takeCnt).toNat + 1)) ∧
    ∀ (s : State), s.Canonical → s.dev.up = true → s.pst = 1 → s.dev.lkRole = true → 9600 ≤ s.sample.toNat → s.lk.pulsed = false →
      ∃ t, exec .partnerWaitTimeout s = .next t ∧ t.pst = 0 ∧ s.SameRegs t [Csr.pairStat] ∧ t.mem = s.mem)

/-! ## Operations of fronds -/

/-- Integer and fixed-point operations on two sources: a frond that one of them ends issues, its result and its sticky flags are on their way at
distance 3, the updates of its specifiers at distance 2 (R86, R107, R114 to R116).

Answers a next state with its own effect, under conditions on state and operands alone: sext, zext, mov, add, sub, adds, subs, neg, abss, and,
or, xor, andn, shl, shr, sar, shls, min, max, minu, maxu, mulq15, macq15, rndq. -/
def Obligations.IntegerOperationsSendTheirResults : Prop :=
  (∀ (s : State) (u : UnitIx) (w : OpWord) (c : Instr) (f : Nat → Nat → Nat → Nat × Nat),
    (c, f) ∈ [(.add u w, addR), (.sub u w, subR), (.adds u w, addsR), (.subs u w, subsR), (.shls u w, shlsR),
      (.and u w, fun _ a b => (Nat.land a b, 0)), (.or u w, fun _ a b => (Nat.lor a b, 0)), (.xor u w, fun _ a b => (Nat.xor a b, 0)),
      (.andn u w, fun n a b => (andnR n a b, 0)), (.shl u w, fun n a b => (shlR n a b, 0)), (.shr u w, fun n a b => (shrR n a b, 0)),
      (.sar u w, fun n a b => (sarR n a b, 0)), (.min u w, fun n a b => (minR n a b, 0)), (.max u w, fun n a b => (maxR n a b, 0)),
      (.minu u w, fun _ a b => (min a b, 0)), (.maxu u w, fun _ a b => (max a b, 0))] →
    issues s u c w = true → straight s u = true →
    let x := lastCtx s u c
    let d := formDst x w.dst w.wb false
    let a := readSrc x .int w.src1 w.wb
    let b := readSrc x .int w.src2 w.wb
    ∃ t, exec c s = .next t ∧ moved s t u c ∧
      onTheirWay s t u w.mSlot 3 (intResult d.dest w.wb (f (8 * w.wb) a.val b.val).1 ++ istatWr (f (8 * w.wb) a.val b.val).2) ∧
      onTheirWay s t u w.mSlot 2 (d.upd ++ a.upd ++ b.upd)) ∧
  (∀ (s : State) (u : UnitIx) (w : OpWord) (c : Instr) (n : Nat) (f : Nat → Nat × Nat),
    (c, n, f) ∈ [(.mov u w, w.wb, fun a => (a, 0)), (.neg u w, w.wb, negR (8 * w.wb)), (.abss u w, w.wb, abssR (8 * w.wb)),
      (.sext u w, w.wb / 2, fun a => (sextTo (4 * w.wb) (8 * w.wb) a, 0)), (.zext u w, w.wb / 2, fun a => (a % 2 ^ (4 * w.wb), 0))] →
    issues s u c w = true → straight s u = true →
    let x := lastCtx s u c
    let d := formDst x w.dst w.wb false
    let a := readSrc x .int w.src1 n
    ∃ t, exec c s = .next t ∧ moved s t u c ∧
      onTheirWay s t u w.mSlot 3 (intResult d.dest w.wb (f a.val).1 ++ istatWr (f a.val).2) ∧ onTheirWay s t u w.mSlot 2 (d.upd ++ a.upd)) ∧
  (∀ (s : State) (u : UnitIx) (w : OpWord), issues s u (.mulq15 u w) w = true → straight s u = true →
    let x := lastCtx s u (.mulq15 u w)
    let r := mulq15R (readSrc x .int w.src1 2).val (readSrc x .int w.src2 2).val
    ∃ t, exec (.mulq15 u w) s = .next t ∧ moved s t u (.mulq15 u w) ∧
      onTheirWay s t u w.mSlot 3 (intResult (formDst x w.dst 2 false).dest 2 r.1 ++ istatWr r.2)) ∧
  (∀ (s : State) (u : UnitIx) (w : OpWord), issues s u (.rndq u w) w = true → straight s u = true →
    let x := lastCtx s u (.rndq u w)
    let r := rndqR (readSrc x .int w.src1 4).val
    ∃ t, exec (.rndq u w) s = .next t ∧ moved s t u (.rndq u w) ∧
      onTheirWay s t u w.mSlot 3 (intResult (formDst x w.dst 2 false).dest 2 r.1 ++ istatWr r.2)) ∧
  ∀ (s : State) (u : UnitIx) (w : OpWord), issues s u (.macq15 u w) w = true → straight s u = true →
    let x := lastCtx s u (.macq15 u w)
    let d := (formDst x w.dst 4 true).dest
    let r := macq15R (dstValue x d 4) (readSrc x .int w.src1 2).val (readSrc x .int w.src2 2).val
    ∃ t, exec (.macq15 u w) s = .next t ∧ moved s t u (.macq15 u w) ∧ onTheirWay s t u w.mSlot 3 (intResult d 4 r.1 ++ istatWr r.2)

/-- What those results are: sums wrap and set OV when the exact sum does not fit; saturating results are the exact value clamped, with SAT when
the clamp changes it; shifts by the width or more give zero, or all sign bits; MULQ15, MACQ15 and RNDQ round half up and saturate (R115, R116). -/
def Obligations.IntegerResultsAreExactValuesNarrowed : Prop :=
  ∀ n ∈ [8, 16, 32, 64], ∀ a b : Nat, a < 2 ^ n → b < 2 ^ n →
    (addR n a b).1 = (a + b) % 2 ^ n ∧ ((addR n a b).2 = iOV ↔ toInt n (addR n a b).1 ≠ toInt n a + toInt n b) ∧
    ((subR n a b).1 + b) % 2 ^ n = a ∧ ((subR n a b).2 = iOV ↔ toInt n (subR n a b).1 ≠ toInt n a - toInt n b) ∧
    toInt n (addsR n a b).1 = max (-2 ^ (n - 1)) (min (2 ^ (n - 1) - 1) (toInt n a + toInt n b)) ∧
    ((addsR n a b).2 = iSAT ↔ toInt n (addsR n a b).1 ≠ toInt n a + toInt n b) ∧
    toInt n (subsR n a b).1 = max (-2 ^ (n - 1)) (min (2 ^ (n - 1) - 1) (toInt n a - toInt n b)) ∧
    ((abssR n a).2 = iSAT ↔ a = 2 ^ (n - 1)) ∧ toInt n (abssR n a).1 = min (2 ^ (n - 1) - 1) ((toInt n a).natAbs : Int) ∧
    (n ≤ b → shlR n a b = 0 ∧ shrR n a b = 0 ∧ sarR n a b = if toInt n a < 0 then 2 ^ n - 1 else 0) ∧
    (b < n → shlR n a b = a * 2 ^ b % 2 ^ n ∧ shrR n a b = a / 2 ^ b ∧ toInt n (sarR n a b) = toInt n a / 2 ^ b) ∧
    toInt n (shlsR n a b).1 = max (-2 ^ (n - 1)) (min (2 ^ (n - 1) - 1) (toInt n a * 2 ^ min b n)) ∧
    toInt n (minR n a b) = min (toInt n a) (toInt n b) ∧ toInt n (maxR n a b) = max (toInt n a) (toInt n b) ∧
    toInt 16 (mulq15R a b).1 = min 0x7FFF ((toInt 16 a * toInt 16 b + 0x4000) / 0x8000) ∧
    toInt 16 (rndqR a).1 = min 0x7FFF ((toInt 32 a + 0x8000) / 0x10000) ∧
    toInt 32 (macq15R 0 a b).1 = min 0x7FFFFFFF (2 * (toInt 16 a * toInt 16 b))

/-- Compares and PLOG: the test, combined with the old predicate as COMB says, is on its way to the predicate at distance 2 (R117, R118, R188).

The address unit and the moves of slot X: the new value of the register that D names is on its way at distance 2, that of a lane at distance
3; EXT has no effect of its own but gives AMOVX and AADDX, which stand before it, their operand (R80, R112, R113, R179).

Answers a next state with its own effect, under conditions on state and operands alone: ext, fmovD, fmovS, cmp, plog, fcmp, amovi, amovx, amov,
aaddi, aadd, asub, ashli, aaddx, aget, aput. -/
def Obligations.ComparesAddressUnitAndMoves : Prop :=
  ((∀ (s : State) (u : UnitIx) (w : OpWord), issues s u (.cmp u w) w = true → straight s u = true →
      let x := lastCtx s u (.cmp u w)
      let a := readSrc x .int w.src1 w.wb
      let b := readSrc x .int w.src2 w.wb
      ∃ t, exec (.cmp u w) s = .next t ∧ moved s t u (.cmp u w) ∧ onTheirWay s t u w.mSlot 2
        (.pred (BitVec.ofNat 3 (bitsOf w.dst 2 0)) (combine (bitsOf w.dst 5 4) (cmpTest (8 * w.wb) (bitsOf w.dst 11 8) a.val b.val)
          ((s.tile u).p.getLsbD (bitsOf w.dst 2 0))) :: (a.upd ++ b.upd))) ∧
    (∀ (s : State) (u : UnitIx) (w : OpWord), issues s u (.plog u w) w = true → straight s u = true →
      ∃ t, exec (.plog u w) s = .next t ∧ moved s t u (.plog u w) ∧ onTheirWay s t u w.mSlot 2
        [.pred (BitVec.ofNat 3 (bitsOf w.dst 2 0)) (combine (bitsOf w.dst 5 4)
          (plogFn (bitsOf w.src2 11 8) ((s.tile u).p.getLsbD (bitsOf w.src1 2 0)) ((s.tile u).p.getLsbD (bitsOf w.src2 2 0)))
          ((s.tile u).p.getLsbD (bitsOf w.dst 2 0)))]) ∧
    (∀ (s : State) (u : UnitIx) (w : OpWord), issues s u (.fcmp u w) w = true → straight s u = true →
      let x := lastCtx s u (.fcmp u w)
      let f := if w.w = 3 then f64 else f32
      let a := readSrc x (.fp f) w.src1 w.wb
      let b := readSrc x (.fp f) w.src2 w.wb
      let r := f.cmp (s.tile u).fmode (bitsOf w.dst 11 8) a.val b.val
      ∃ t, exec (.fcmp u w) s = .next t ∧ moved s t u (.fcmp u w) ∧ onTheirWay s t u w.mSlot 2
        (.pred (BitVec.ofNat 3 (bitsOf w.dst 2 0)) (combine (bitsOf w.dst 5 4) r.1 ((s.tile u).p.getLsbD (bitsOf w.dst 2 0)))
          :: (flagWr x w.mSlot r.2 ++ a.upd ++ b.upd))) ∧
    ∀ n ∈ [8, 16, 32, 64], ∀ a b : Nat, a < 2 ^ n → b < 2 ^ n →
      (cmpTest n 0 a b = true ↔ a = b) ∧ (cmpTest n 1 a b = true ↔ a ≠ b) ∧ (cmpTest n 2 a b = true ↔ toInt n a < toInt n b) ∧
      (cmpTest n 3 a b = true ↔ toInt n a ≤ toInt n b) ∧ (cmpTest n 4 a b = true ↔ toInt n a > toInt n b) ∧
      (cmpTest n 5 a b = true ↔ toInt n a ≥ toInt n b) ∧ (cmpTest n 6 a b = true ↔ a < b) ∧ (cmpTest n 7 a b = true ↔ a ≤ b) ∧
      (cmpTest n 8 a b = true ↔ a > b) ∧ (cmpTest n 9 a b = true ↔ a ≥ b) ∧
      (cmpTest n 10 a b = true ↔ ∀ i, ¬(a.testBit i = true ∧ b.testBit i = true)) ∧
      (cmpTest n 11 a b = true ↔ ∃ i, a.testBit i = true ∧ b.testBit i = true)) ∧
  ((∀ (s : State) (u : UnitIx) (w : OpWord) (c : Instr) (v : Word),
      let r := fun (x : Nat) => (s.tile u).areg (BitVec.ofNat 2 (bitsOf x 5 4)) (BitVec.ofNat 4 (bitsOf x 3 0))
      let imm := BitVec.ofNat 32 (sextTo 16 32 (w.bits 15 0))
      (c, v) ∈ [(.amovi u w, imm), (.amov u w, r (w.bits 41 36)), (.aaddi u w, r (w.bits 41 36) + imm),
        (.aadd u w, r (w.bits 41 36) + r (w.bits 35 30)), (.asub u w, r (w.bits 41 36) - r (w.bits 35 30)),
        (.ashli u w, r (w.bits 41 36) <<< w.bits 4 0),
        (.aget u w, ((s.tile u).vreg (BitVec.ofNat 5 (w.bits 15 11))).extractLsb' (32 * w.bits 10 7) 32)] →
      issues s u c w = true → straight s u = true →
      ∃ t, exec c s = .next t ∧ moved s t u c ∧
        onTheirWay s t u 2 2 [.areg (BitVec.ofNat 2 (bitsOf (w.bits 47 42) 5 4)) (BitVec.ofNat 4 (bitsOf (w.bits 47 42) 3 0)) v]) ∧
    (∀ (s : State) (u : UnitIx) (w e : OpWord) (c : Instr) (v : Word),
      let x := w.bits 41 36
      let imm := BitVec.ofNat 32 (e.bits 31 0)
      (c, v) ∈ [(.amovx u w, imm), (.aaddx u w, (s.tile u).areg (BitVec.ofNat 2 (bitsOf x 5 4)) (BitVec.ofNat 4 (bitsOf x 3 0)) + imm)] →
      w.stop = false → w.performed (s.tile u) = true → (s.tile u).fetching = true → (s.tile u).frond = [] → (s.tile u).pc.toNat < 0x200000 →
      let s1 := s.modTile u fun t => { t with frond := [c] }
      issues s1 u (.ext u e) e = true → straight s1 u = true →
      exec c s = .next s1 ∧ ∃ t, exec (.ext u e) s1 = .next t ∧ moved s1 t u (.ext u e) ∧
        onTheirWay s1 t u 2 2 [.areg (BitVec.ofNat 2 (bitsOf (w.bits 47 42) 5 4)) (BitVec.ofNat 4 (bitsOf (w.bits 47 42) 3 0)) v]) ∧
    (∀ (s : State) (u : UnitIx) (w : OpWord), issues s u (.aput u w) w = true → straight s u = true →
      let v := (s.tile u).areg (BitVec.ofNat 2 (bitsOf (w.bits 41 36) 5 4)) (BitVec.ofNat 4 (bitsOf (w.bits 41 36) 3 0))
      ∃ t, exec (.aput u w) s = .next t ∧ moved s t u (.aput u w) ∧ onTheirWay s t u 2 3 [.vec (BitVec.ofNat 5 (w.bits 15 11))
        (BitVec.ofNat 512 (0xFFFFFFFF * 2 ^ (32 * w.bits 10 7))) (BitVec.ofNat 512 (v.toNat * 2 ^ (32 * w.bits 10 7)))]) ∧
    (∀ (s : State) (u : UnitIx) (w : OpWord) (c : Instr) (f : Nat → Nat),
      (c, f) ∈ [(.fmovD u w, fun x => x % 2 ^ 64), (.fmovS u w, fun x => x % 2 ^ 32 + 0xFFFFFFFF00000000)] →
      issues s u c w = true → straight s u = true →
      ∃ t, exec c s = .next t ∧ moved s t u c ∧ onTheirWay s t u 3 2 [.vec (BitVec.ofNat 5 (w.bits 47 43))
        (BitVec.ofNat 512 0xFFFFFFFFFFFFFFFF) (BitVec.ofNat 512 (f ((s.tile u).vreg (BitVec.ofNat 5 (w.bits 42 38))).toNat))]) ∧
    ∀ (s : State) (u : UnitIx) (w : OpWord), issues s u (.ext u w) w = true → straight s u = true →
      ∃ t, exec (.ext u w) s = .next t ∧ moved s t u (.ext u w))

/-- Scalar floating point: results under the rounding mode in force, with their flags, are on their way at distance 5; a result to lane 0 is
boxed (R175, R177, R178, R181, R191).

Answers a next state with its own effect, under conditions on state and operands alone: fadd, fsub, fmul, fma, fnms, fneg, fabs, fcvtDS, fcvtSD,
fcvtHS, fcvtSH, fcvtI32S, fcvtI32D, fcvtI64D, fcvtSI32, fcvtDI32, fcvtDI64, fcvtQ31S, fcvtSQ31. -/
def Obligations.FloatingPointOperationsSendTheirResults : Prop :=
  (∀ (s : State) (u : UnitIx) (w : OpWord) (c : Instr) (f : Fmt → FMode → Nat → Nat → Nat → FRes),
    (c, f) ∈ [(.fadd u w, fun f md _ a b => f.add md a b), (.fsub u w, fun f md _ a b => f.sub md a b),
      (.fmul u w, fun f md _ a b => f.mul md a b), (.fma u w, fun f md d a b => f.fma md false a b d),
      (.fnms u w, fun f md d a b => f.fma md true a b d)] →
    issues s u c w = true → straight s u = true →
    let x := lastCtx s u c
    let g := if w.w = 3 then f64 else f32
    let d := (formDst x w.dst w.wb false).dest
    let r := f g (s.tile u).fmode (dstValue x d w.wb) (readSrc x (.fp g) w.src1 w.wb).val (readSrc x (.fp g) w.src2 w.wb).val
    ∃ t, exec c s = .next t ∧ moved s t u c ∧ onTheirWay s t u w.mSlot 5 (fpResult d w.wb r.bits ++ flagWr x w.mSlot r.flags)) ∧
  (∀ (s : State) (u : UnitIx) (w : OpWord) (c : Instr) (f : Nat → Nat),
    (c, f) ∈ [(.fneg u w, fun a => Nat.xor a (2 ^ (8 * w.wb - 1))), (.fabs u w, fun a => a % 2 ^ (8 * w.wb - 1))] →
    issues s u c w = true → straight s u = true →
    let x := lastCtx s u c
    ∃ t, exec c s = .next t ∧ moved s t u c ∧ onTheirWay s t u w.mSlot 5
      (fpResult (formDst x w.dst w.wb false).dest w.wb (f (readSrc x (.fp (if w.w = 3 then f64 else f32)) w.src1 w.wb).val))) ∧
  (∀ (s : State) (u : UnitIx) (w : OpWord) (c : Instr) (dw sw : Nat) (k : ImmKind) (f : FMode → Nat → FRes),
    (c, dw, sw, k, f) ∈ [(.fcvtDS u w, 8, 4, .fp f32, fcvt f32 f64), (.fcvtSD u w, 4, 8, .fp f64, fcvt f64 f32),
      (.fcvtHS u w, 2, 4, .fp f32, fcvt f32 f16), (.fcvtSH u w, 4, 2, .fp f16, fcvt f16 f32),
      (.fcvtSI32 u w, 4, 4, .int, fun md a => f32.ofIntW md 32 a), (.fcvtDI32 u w, 8, 4, .int, fun md a => f64.ofIntW md 32 a),
      (.fcvtDI64 u w, 8, 8, .int, fun md a => f64.ofIntW md 64 a), (.fcvtSQ31 u w, 4, 4, .int, ofQ31)] →
    issues s u c w = true → straight s u = true →
    let x := lastCtx s u c
    let r := f (s.tile u).fmode (readSrc x k w.src1 sw).val
    ∃ t, exec c s = .next t ∧ moved s t u c ∧
      onTheirWay s t u w.mSlot 5 (fpResult (formDst x w.dst dw false).dest dw r.bits ++ flagWr x w.mSlot r.flags)) ∧
  (∀ (s : State) (u : UnitIx) (w : OpWord) (c : Instr) (dw sw : Nat) (g : Fmt),
    (c, dw, sw, g) ∈ [(.fcvtI32S u w, 4, 4, f32), (.fcvtI32D u w, 4, 8, f64), (.fcvtI64D u w, 8, 8, f64)] →
    issues s u c w = true → straight s u = true →
    let x := lastCtx s u c
    let r := g.toIntW (s.tile u).fmode (8 * dw) (readSrc x (.fp g) w.src1 sw).val
    ∃ t, exec c s = .next t ∧ moved s t u c ∧
      onTheirWay s t u w.mSlot 5 (intResult (formDst x w.dst dw false).dest dw r.bits ++ flagWr x w.mSlot r.flags)) ∧
  ∀ (s : State) (u : UnitIx) (w : OpWord), issues s u (.fcvtQ31S u w) w = true → straight s u = true →
    let x := lastCtx s u (.fcvtQ31S u w)
    let r := toQ31 (s.tile u).fmode (readSrc x (.fp f32) w.src1 4).val
    ∃ t, exec (.fcvtQ31S u w) s = .next t ∧ moved s t u (.fcvtQ31S u w) ∧ onTheirWay s t u w.mSlot 5
      (intResult (formDst x w.dst 4 false).dest 4 r.1 ++ istatWr (if r.2.1 then iSAT else 0) ++ flagWr x w.mSlot r.2.2)

/-- Special operands of the floating-point operations: any NaN operand gives the default NaN, with NV for a signalling one; opposite infinities,
zero times infinity, zero by zero and the root of a negative number are invalid; a finite number by zero is an infinity with DZ; addition and
multiplication commute (R184, R185). -/
def Obligations.FloatingPointSpecialOperands : Prop :=
  ∀ f ∈ [f32, f64], ∀ (md : FMode) (x y : Nat),
    let a := f.read md.daz x
    let b := f.read md.daz y
    f.add md x y = f.add md y x ∧ f.mul md x y = f.mul md y x ∧
    ((a.isNan || b.isNan) = true → ∀ r ∈ [f.add md x y, f.sub md x y, f.mul md x y, f.div md x y],
      r.bits = f.nan ∧ r.flags = if a.isSnan || b.isSnan then fNV else 0) ∧
    (∀ p, a = .inf p → b = .inf (!p) → f.add md x y = { bits := f.nan, flags := fNV }) ∧
    (∀ p, a = .inf p → b = .inf p → f.sub md x y = { bits := f.nan, flags := fNV }) ∧
    (∀ p q e, a = .inf p → b = .fin q 0 e → f.mul md x y = { bits := f.nan, flags := fNV }) ∧
    (∀ p q d e, a = .fin p 0 d → b = .fin q 0 e → f.div md x y = { bits := f.nan, flags := fNV }) ∧
    (∀ p q, a = .inf p → b = .inf q → f.div md x y = { bits := f.nan, flags := fNV }) ∧
    (∀ p q m d e, m ≠ 0 → a = .fin p m d → b = .fin q 0 e → f.div md x y = { bits := f.inf (p != q), flags := fDZ }) ∧
    (∀ m e, m ≠ 0 → a = .fin true m e → f.sqrt md x = { bits := f.nan, flags := fNV }) ∧
    (∀ p e, a = .fin p 0 e → f.sqrt md x = { bits := f.zero p, flags := 0 }) ∧
    (∀ p q d e, a = .fin p 0 d → b = .fin q 0 e → p ≠ q → f.add md x y = { bits := f.zero (decide (md.rm = 2)), flags := 0 })

/-- Vector arithmetic: the results of the active elements, and no other bit of the destination, are on their way with the flags of all active
elements, integer results at distance 2 and floating-point ones at distance 5 (R158, R161, R163, R180, R189).

SETVL sets vl to the least of AVL and the maximum; vector compares write a mask, and a predicate where PWE asks for it; VLD and VST move the
active elements of one range of local memory, VST taking its data a cycle later (R89, R157, R158, R164 to R166).

Answers a next state with its own effect, under conditions on state and operands alone: setvl, vmov, vid, vadd, vsub, vadds, vsubs, vand, vor,
vxor, vshl, vshr, vsar, vmin, vmax, vmulq15, vcmp, vmerge, vfadd, vfsub, vfmul, vfma, vfnms, vfmin, vfmax, vfcmp, vfcvt, vld, vst. -/
def Obligations.VectorUnitSendsItsResults : Prop :=
  ((∀ (s : State) (u : UnitIx) (w : OpWord) (c : Instr) (k dw : Nat) (f : Nat → Nat × Nat × BitVec 5),
      let x := lastCtx s u c
      let eb := (s.tile u).eb
      let a := vs1At x w eb
      let b := vs2At x w eb
      let int := fun (g : Nat → Nat → Nat → Nat × Nat) => ((2, eb, fun i => ((g (8 * eb) (a i) (b i)).1, (g (8 * eb) (a i) (b i)).2, 0)) :
        Nat × Nat × (Nat → Nat × Nat × BitVec 5))
      let bit := fun (g : Nat → Nat → Nat → Nat) => int fun n p q => (g n p q, 0)
      let g := if (s.tile u).sew = 3 then f64 else f32
      let md := (s.tile u).fmode
      let fp := fun (k : Nat) (h : Nat → Nat → Nat → FRes) => ((k, eb, fun i =>
        ((h (vdAt x w eb i) (a i) (b i)).bits, 0, (h (vdAt x w eb i) (a i) (b i)).flags)) : Nat × Nat × (Nat → Nat × Nat × BitVec 5))
      (c, k, dw, f) ∈ [(.vmov u w, 2, eb, fun i => (a i, 0, 0)), (.vid u w, 2, eb, fun i => (i, 0, 0)),
        (.vadd u w, int addR), (.vsub u w, int subR), (.vadds u w, int addsR), (.vsubs u w, int subsR), (.vand u w, bit fun _ => Nat.land),
        (.vor u w, bit fun _ => Nat.lor), (.vxor u w, bit fun _ => Nat.xor), (.vshl u w, bit shlR), (.vshr u w, bit shrR), (.vsar u w, bit sarR),
        (.vmin u w, bit minR), (.vmax u w, bit maxR), (.vmulq15 u w, 2, 2, fun i => ((mulq15R (vs1At x w 2 i) (vs2At x w 2 i)).1,
          (mulq15R (vs1At x w 2 i) (vs2At x w 2 i)).2, 0)),
        (.vmerge u w, 2, eb, fun i => (if ((s.tile u).vreg 0).getLsbD i then a i else b i, 0, 0)),
        (.vfadd u w, fp 5 fun _ => g.add md), (.vfsub u w, fp 5 fun _ => g.sub md), (.vfmul u w, fp 5 fun _ => g.mul md),
        (.vfma u w, fp 5 fun d p q => g.fma md false p q d), (.vfnms u w, fp 5 fun d p q => g.fma md true p q d),
        (.vfmin u w, fp 2 fun _ => g.minMax md false), (.vfmax u w, fp 2 fun _ => g.minMax md true)] →
      issues s u c w = true → straight s u = true →
      let els := activeList (s.tile u).vl (w.bits 32 31) ((s.tile u).vreg 0)
      let r := vCollect els dw f
      ∃ t, exec c s = .next t ∧ moved s t u c ∧ (els ≠ [] → onTheirWay s t u (vSlot w) k
        (.vec (BitVec.ofNat 5 (w.bits 47 43)) (BitVec.ofNat 512 r.mask) (BitVec.ofNat 512 r.val) :: (istatWr r.ist ++ flagWr x (vSlot w) r.fl)))) ∧
    (∀ (s : State) (u : UnitIx) (w : OpWord) (sw dw : Nat), vfcvtWidths (w.bits 21 16) (s.tile u).eb = some (sw, dw) →
      issues s u (.vfcvt u w) w = true → straight s u = true →
      let x := lastCtx s u (.vfcvt u w)
      let els := activeList (s.tile u).vl (w.bits 32 31) ((s.tile u).vreg 0)
      let r := vCollect els dw fun i => cvtFn (w.bits 21 16) (s.tile u).eb (s.tile u).fmode (vs1At x w sw i)
      ∃ t, exec (.vfcvt u w) s = .next t ∧ moved s t u (.vfcvt u w) ∧ (els ≠ [] → onTheirWay s t u (vSlot w) 5
        (.vec (BitVec.ofNat 5 (w.bits 47 43)) (BitVec.ofNat 512 r.mask) (BitVec.ofNat 512 r.val) :: (istatWr r.ist ++ flagWr x (vSlot w) r.fl)))) ∧
    ∀ (els : List Nat) (dw : Nat) (f : Nat → Nat × Nat × BitVec 5) (i : Nat), dw ∈ [1, 2, 4, 8] → els.Nodup → (∀ j ∈ els, j < 64 / dw) → i < 64 / dw →
      bitsOf (vCollect els dw f).mask (8 * dw * (i + 1) - 1) (8 * dw * i) = (if i ∈ els then 2 ^ (8 * dw) - 1 else 0) ∧
      bitsOf (vCollect els dw f).val (8 * dw * (i + 1) - 1) (8 * dw * i) = if i ∈ els then (f i).1 % 2 ^ (8 * dw) else 0) ∧
  ((∀ (s : State) (u : UnitIx) (w : OpWord) (avl : Nat), issues s u (.setvl u w) w = true → straight s u = true →
      ((w.bits 40 39 = 0 ∧ avl = ((s.tile u).areg 0 (BitVec.ofNat 4 (w.bits 38 35))).toNat) ∨ (w.bits 40 39 = 1 ∧ avl = w.bits 15 0) ∨
        (w.bits 40 39 = 2 ∧ avl = ((extOf (frondWith s u (.setvl u w))).getD 0).toNat) ∨ (w.bits 40 39 = 3 ∧ avl = 64 / 2 ^ w.bits 42 41)) →
      let vl := min avl (64 / 2 ^ w.bits 42 41)
      ∃ t, exec (.setvl u w) s = .next t ∧ moved s t u (.setvl u w) ∧
        onTheirWay s t u (vSlot w) 2 [.vcfg (BitVec.ofNat 32 (vl + w.bits 42 41 * 2 ^ 8))] ∧
        (w.bits 47 47 = 1 → onTheirWay s t u (vSlot w) 2 [.areg 0 (BitVec.ofNat 4 (w.bits 46 43)) (BitVec.ofNat 32 vl)])) ∧
    (∀ (s : State) (u : UnitIx) (w : OpWord) (c : Instr) (f : Nat → Bool × BitVec 5),
      let x := lastCtx s u c
      let eb := (s.tile u).eb
      let g := if (s.tile u).sew = 3 then f64 else f32
      (c, f) ∈ [(.vcmp u w, fun i => (cmpTest (8 * eb) (w.bits 29 26) (vs1At x w eb i) (vs2At x w eb i), 0)),
        (.vfcmp u w, fun i => g.cmp (s.tile u).fmode (w.bits 29 26) (vs1At x w eb i) (vs2At x w eb i))] →
      issues s u c w = true → straight s u = true →
      let els := activeList (s.tile u).vl (w.bits 32 31) ((s.tile u).vreg 0)
      let m := els.foldl (fun n i => n + b2n (f i).1 * 2 ^ i) 0
      ∃ t, exec c s = .next t ∧ moved s t u c ∧
        (els ≠ [] → onTheirWay s t u (vSlot w) 2 (.vec (BitVec.ofNat 5 (w.bits 47 43)) (BitVec.ofNat 512 0xFFFFFFFFFFFFFFFF) (BitVec.ofNat 512 m)
          :: flagWr x (vSlot w) (els.foldl (fun y i => y ||| (f i).2) 0))) ∧
        (w.bits 25 25 = 1 → onTheirWay s t u (vSlot w) 2 [.pred (BitVec.ofNat 3 (w.bits 24 22)) (decide (m ≠ 0))])) ∧
    (∀ (s : State) (u : UnitIx) (w : OpWord), issues s u (.vld u w) w = true → straight s u = true →
      let x := lastCtx s u (.vld u w)
      let eb := (s.tile u).eb
      let els := activeList (s.tile u).vl (w.bits 32 31) ((s.tile u).vreg 0)
      let r := vCollect els eb fun i => (s.localLoad u ((vmemBase x w + i * eb) % 2 ^ 32) eb, 0, 0)
      ∃ t, exec (.vld u w) s = .next t ∧ moved s t u (.vld u w) ∧
        (els ≠ [] → onTheirWay s t u (vSlot w) 4 [.vec (BitVec.ofNat 5 (w.bits 47 43)) (BitVec.ofNat 512 r.mask) (BitVec.ofNat 512 r.val)]) ∧
        onTheirWay s t u (vSlot w) 2 (vmemUpd x w)) ∧
    ∀ (s : State) (u : UnitIx) (w : OpWord), issues s u (.vst u w) w = true → straight s u = true →
      let x := lastCtx s u (.vst u w)
      let eb := (s.tile u).eb
      let els := activeList (s.tile u).vl (w.bits 32 31) ((s.tile u).vreg 0)
      ∃ t, exec (.vst u w) s = .next t ∧ moved s t u (.vst u w) ∧
        (els ≠ [] → onTheirWay s t u (vSlot w) 3 [.vst (BitVec.ofNat 5 (w.bits 47 43)) (vmemBase x w)
          (BitVec.ofNat 64 (els.foldl (fun n i => n + onesBelow eb * 2 ^ (eb * i)) 0)) none]) ∧
        onTheirWay s t u (vSlot w) 2 (vmemUpd x w))

/-- A frond of M, A, X and V operations sends the results of each of its operations that is performed on their way, and no other, and leaves
everything else alone in its own cycle: registers, flags, tickets, memory, other units and the register file but for GOV_UNBOOKED; what it does
comes when its results retire (R86, R87, R437). -/
def Obligations.FrondsSendTheirResultsAndChangeNothing : Prop :=
  ∀ (s : State) (u : UnitIx) (c : Instr) (o : OpInfo), opInfo c = some o → opUnit c = some u → o.slot < 6 →
    issues s u c o.w = true → straight s u = true → (s.tile u).pend = [] → s.ecc = [] →
    ∃ t, exec c s = .next t ∧ moved s t u c ∧
      (t.tile u).pend = ((frondOps s u (frondWith s u c)).filter (·.perf)).flatMap (fun f => f.out.wr.map fun x =>
        ({ retire := (s.tile u).cycle + x.1 - 1, issue := (s.tile u).cycle, slot := f.info.slot, w := x.2 } : Pend)) ∧
      (t.tile u).a = (s.tile u).a ∧ (t.tile u).m = (s.tile u).m ∧ (t.tile u).cb = (s.tile u).cb ∧
      (t.tile u).cl = (s.tile u).cl ∧ (t.tile u).v = (s.tile u).v ∧ (t.tile u).p = (s.tile u).p ∧ (t.tile u).lc = (s.tile u).lc ∧
      (t.tile u).status = (s.tile u).status ∧ (t.tile u).ctl = (s.tile u).ctl ∧ (t.tile u).isp = (s.tile u).isp ∧
      (t.tile u).istat = (s.tile u).istat ∧ (t.tile u).fcsr = (s.tile u).fcsr ∧ (t.tile u).vcfg = (s.tile u).vcfg ∧
      (t.tile u).vindex = (s.tile u).vindex ∧ (t.tile u).tkt = (s.tile u).tkt ∧ (t.tile u).far = (s.tile u).far ∧
      (t.tile u).re = (s.tile u).re ∧ (t.tile u).mode = (s.tile u).mode ∧ s.SameUnits t u ∧ t.mem = s.mem ∧ s.SameRegs t [Csr.govUnbooked] ∧
      t.dev = s.dev ∧ t.aud = s.aud ∧ t.net = s.net ∧ t.lk = s.lk ∧ t.out = s.out

/-! ## None -/

/-- A unit that does not take words ignores them; a word without its stop bit joins the frond; after a REP of count 0 the next frond is skipped;
an operation whose guard fails does nothing (R75, R77, R85, R212). -/
def Obligations.WordsCollectIntoFronds : Prop :=
  (∀ (s : State) (u : UnitIx) (c : Instr) (o : OpInfo), opInfo c = some o → opUnit c = some u → (s.tile u).fetching = false →
    exec c s = .next s) ∧
  (∀ (s : State) (u : UnitIx) (c : Instr) (o : OpInfo), opInfo c = some o → opUnit c = some u → (s.tile u).fetching = true →
    o.w.stop = false → (s.tile u).frond.length < 7 → (s.tile u).pc.toNat + 8 * (s.tile u).frond.length < 0x200000 →
    exec c s = .next (s.modTile u fun t => { t with frond := t.frond ++ [opSent u c] })) ∧
  (∀ (s : State) (u : UnitIx) (c : Instr) (o : OpInfo), opInfo c = some o → opUnit c = some u → (s.tile u).fetching = true →
    o.w.stop = true → (s.tile u).repSkip = true → (s.tile u).pend = [] → (s.tile u).fromBuffer (s.tile u).pc.toNat = none →
    ∃ t, exec c s = .next t ∧ moved s t u c ∧ (t.tile u).repSkip = false ∧ (t.tile u).a = (s.tile u).a ∧ (t.tile u).v = (s.tile u).v ∧
      (t.tile u).p = (s.tile u).p ∧ (t.tile u).tkt = (s.tile u).tkt ∧ (t.tile u).pend = [] ∧ t.mem = s.mem ∧ t.csr = s.csr ∧ s.SameUnits t u) ∧
  ∀ (s : State) (u : UnitIx) (c : Instr) (o : OpInfo), opInfo c = some o → opUnit c = some u → alone s u o.w = true → branchKind c = none →
    o.w.performed (s.tile u) = false → (s.tile u).interruptNow = none → s.ecc = [] → frondFault s u [wordBad c] (frondOps s u [c]) = none →
    ∃ t, exec c s = .next t ∧ moved s t u c ∧ (t.tile u).a = (s.tile u).a ∧ (t.tile u).v = (s.tile u).v ∧ (t.tile u).p = (s.tile u).p ∧
      (t.tile u).lc = (s.tile u).lc ∧ (t.tile u).tkt = (s.tile u).tkt ∧ (t.tile u).mode = (s.tile u).mode ∧ (t.tile u).pend = [] ∧
      t.mem = s.mem ∧ t.csr = s.csr ∧ s.SameUnits t u

/-- Precise faults of a frond of one operation below L3: the unit enters the vector of the fault at L3 with the frond's PC as return point and
the faulting address, and the operation does nothing: fetch beyond local memory, illegal operations, misaligned, out-of-range and uncorrectable
operands, no free ticket, a failed ticket, a ticket in the wrong state, DONE with a ticket outstanding, a macro-trap at L2, register parity
(R69, R82, R103, R128, R130, R136, R137, R151, R215, R222 to R229). -/
def Obligations.FaultyFrondsEnterTheirVector : Prop :=
  (∀ (s : State) (u : UnitIx) (c : Instr) (o : OpInfo), opInfo c = some o → opUnit c = some u → s.Canonical → s.OneShadow →
    (s.tile u).fetching = true → o.w.stop = true → (s.tile u).frond = [] → (s.tile u).repSkip = false → (s.tile u).trapReady = false →
    straight s u = true → (s.tile u).pend = [] → (s.tile u).ispOk = true → (s.tile u).level < 3 → 0x200000 ≤ (s.tile u).pc.toNat →
    (s.tile u).fromBuffer (s.tile u).pc.toNat = none →
    ∃ t, exec c s = .next t ∧ s.entered t u (faultEntry 2 (s.tile u).pc.toNat) (s.tile u).pc) ∧
  (∀ (s : State) (u : UnitIx) (w : OpWord) (c : Instr), s.Canonical → s.OneShadow → alone s u w = true → (s.tile u).level < 3 →
    ((w.ge = false ∧ (w.gn = true ∨ w.gp ≠ 0) ∧ c = .nop u w) ∨ (w.body ≠ 0 ∧ (c = .nop u w ∨ c = .fbar u w ∨ c = .done u w)) ∨
      ((s.tile u).level = 0 ∧ c = .reti u w) ∨ ((s.tile u).level ≠ 0 ∧ (c = .done u w ∨ c = .nap u w)) ∨
      (w.w = 0 ∧ (c = .sext u w ∨ c = .zext u w)) ∨ (w.w.toNat < 2 ∧ (c = .fadd u w ∨ c = .fcmp u w)) ∨
      (9 < spMode w.dst ∧ (c = .add u w ∨ c = .mov u w)) ∨ (w.bits 47 5 ≠ 0 ∧ (s.tile u).override 0x01 = none ∧ c = .join u w) ∨
      (w.bits 47 5 ≠ 0 ∧ (s.tile u).override 0x04 = none ∧ c = .trel u w) ∨
      (u.val = 16 ∧ (c = .vadd u w ∨ c = .vld u w ∨ c = .gather u w)) ∨ 
      (∃ x : DWord, opWordOf x = w ∧ decodeOp u x = .macroTrap u x ∧ (wordSlot x = 6 → (s.tile u).override (wordOpc x) = none) ∧ c = .macroTrap u x)) →
    ∃ t, exec c s = .next t ∧ s.entered t u (faultEntry 1 0) (s.tile u).pc) ∧
  (∀ (s : State) (u : UnitIx) (w : OpWord), s.Canonical → s.OneShadow → alone s u w = true → (s.tile u).level < 3 → w.guardOk = true →
    w.performed (s.tile u) = true → w.bad = false → spMode w.dst = 7 → spLegal true none w.dst w.wb = true → spMode w.src1 = 0 →
    w.src2 = 0 →
    let a := (s.tile u).dp * 0x1000 + w.src1 % 4096
    (a % w.wb ≠ 0 → ∃ t, exec (.mov u w) s = .next t ∧ s.entered t u (faultEntry 3 a) (s.tile u).pc) ∧
    (a % w.wb = 0 → 0x200000 ≤ a → ∃ t, exec (.mov u w) s = .next t ∧ s.entered t u (faultEntry 2 a) (s.tile u).pc) ∧
    (a % w.wb = 0 → a < 0x200000 → s.hasUe (localBase u + a) w.wb = true →
      ∃ t, exec (.mov u w) s = .next t ∧ s.entered t u (faultEntry 4 a) (s.tile u).pc)) ∧
  (∀ (s : State) (u : UnitIx) (w : OpWord), s.Canonical → s.OneShadow → alone s u w = true → (s.tile u).level < 3 → w.guardOk = true →
    w.performed (s.tile u) = true → w.bad = false → w.w = 0 →
    (w.body = 0 → (s.tile u).level = 0 → (s.tile u).outstanding = true →
      ∃ t, exec (.done u w) s = .next t ∧ s.entered t u (faultEntry 8 0) (s.tile u).pc) ∧
    (w.bits 47 5 = 0 → (s.tile u).override 0x01 = none → ((s.tile u).ticket (ticketIx (w.bits 4 0))).st = .failed →
      ((s.tile u).ticket (ticketIx (w.bits 4 0))).opc.toNat < 0x30 →
      ∃ t, exec (.join u w) s = .next t ∧ s.entered t u (faultEntry 6 0) (s.tile u).pc) ∧
    (w.bits 47 5 = 0 → ((s.tile u).ticket (ticketIx (w.bits 4 0))).st ≠ .failed → ∀ c o, (c, o) ∈ [(.retry u w, 0x03), (.trel u w, 0x04)] →
      (s.tile u).override o = none → ∃ t, exec c s = .next t ∧ s.entered t u (faultEntry 7 0) (s.tile u).pc) ∧
    (w.bits 47 16 = 0 → w.bits 7 5 = 0 → (s.tile u).override 0x05 = none → ((s.tile u).ticket (ticketIx (w.bits 4 0))).st ≠ .pending →
      ∃ t, exec (.tdone u w) s = .next t ∧ s.entered t u (faultEntry 7 0) (s.tile u).pc) ∧
    (w.bits 45 40 = 0 → w.bits 31 0 = 0 → (s.tile u).override 0x0F = none → (s.tile u).freeTicket = none →
      ∃ t, exec (.cesub u w) s = .next t ∧ s.entered t u (faultEntry 5 0) (s.tile u).pc) ∧
    (∀ (x e : DWord), opWordOf x = w → wordSlot x = 6 → (u.val = 16 → wordOpc x / 2 ≠ 0x18) → (s.tile u).override (wordOpc x) = some e → bitsOf e.toNat 8 8 = 1 →
      trapLegal (lastCtx s u (.macroTrap u x)) w = true → (s.tile u).level = 2 →
      ∃ t, exec (.macroTrap u x) s = .next t ∧ s.entered t u (faultEntry 9 0) (s.tile u).pc)) ∧
  (∀ (s : State) (u : UnitIx) (c : Instr) (o : OpInfo), opInfo c = some o → opUnit c = some u → s.Canonical → s.OneShadow →
    alone s u o.w = true → (s.tile u).level < 3 → o.w.bad = true → o.w.performed (s.tile u) = true →
    (frondOps s u [c]).any (fun x => illegalAt (s.tile u) u (frondOps s u [c]) x || x.out.wait) = false →
    ∃ t, exec c s = .next t ∧ s.entered t u (faultEntry 10 0) (s.tile u).pc) ∧
  ∀ (s : State) (u : UnitIx) (w : OpWord), alone s u w = true → (s.tile u).level = 3 → w.body ≠ 0 → s.ecc = [] →
    ∃ t r, exec (.nop u w) s = .next t ∧ (t.tile u).stopped = true ∧ (t.tile u).pc = (s.tile u).pc ∧ t.reports = s.reports ++ [r] ∧
      r.code = 0x0142 ∧ r.unit.toNat = u.val ∧ t.mem = s.mem

/-- JOIN frees a DONE ticket and delivers its flags, passes a FREE one and waits for a PENDING one; JOINANY takes the lowest ticket that is not
pending, or 32 where none is outstanding; RETRY reissues a FAILED operation from its element; TREL frees a FAILED ticket; TDONE completes a
PENDING one at distance 2; no other ticket changes (R126, R130, R131, R136, R137, R151).

Answers a next state with its own effect, under conditions on state and operands alone: join, joinany, retry, trel, tdone. -/
def Obligations.TicketControlOperations : Prop :=
  (∀ (s : State) (u : UnitIx) (w : OpWord), (s.tile u).override 0x01 = none → issues s u (.join u w) w = true → straight s u = true → (s.tile u).pend = [] → s.ecc = [] →
    let k := ticketIx (w.bits 4 0)
    let x := (s.tile u).ticket k
    ∃ t, exec (.join u w) s = .next t ∧ moved s t u (.join u w) ∧ ((t.tile u).ticket k).st = .free ∧ (x.st = .done ∨ x.st = .free) ∧
      (x.st = .done → x.fflags ≠ 0 → onTheirWay s t u 6 2 [.fflags x.fflags
        (if (s.tile u).level = 0 then x.fflags &&& BitVec.ofNat 5 (fld (s.tile u).fcsr 12 8) else 0) (s.tile u).l0 x.pc 6]) ∧
      (∀ j, j ≠ k → (t.tile u).ticket j = (s.tile u).ticket j) ∧ (t.tile u).a = (s.tile u).a ∧ (t.tile u).v = (s.tile u).v ∧
      (t.tile u).p = (s.tile u).p ∧ t.mem = s.mem ∧ s.SameUnits t u) ∧
  (∀ (s : State) (u : UnitIx) (w : OpWord), alone s u w = true → w.guardOk = true → w.performed (s.tile u) = true → w.w = 0 →
    w.bits 47 5 = 0 → (s.tile u).override 0x01 = none → (s.tile u).interruptNow = none →
    ((s.tile u).ticket (ticketIx (w.bits 4 0))).st = .pending →
    exec (.join u w) s = .next (s.modTile u fun t => { t with frond := [.join u w], waiting := true, wakeDue := false })) ∧
  (∀ (s : State) (u : UnitIx) (w : OpWord) (k : TicketIx), (s.tile u).override 0x02 = none → issues s u (.joinany u w) w = true → straight s u = true → (s.tile u).pend = [] →
    s.ecc = [] → Nat.testBit (w.bits 31 0) k.val = true → ((s.tile u).ticket k).st = .done →
    (∀ j : TicketIx, j.val < k.val → Nat.testBit (w.bits 31 0) j.val = true →
      ((s.tile u).ticket j).st = .free ∨ ((s.tile u).ticket j).st = .pending) →
    ∃ t, exec (.joinany u w) s = .next t ∧ moved s t u (.joinany u w) ∧ ((t.tile u).ticket k).st = .free ∧
      (∀ j, j ≠ k → (t.tile u).ticket j = (s.tile u).ticket j) ∧
      onTheirWay s t u 6 2 [.areg 0 (BitVec.ofNat 4 (w.bits 35 32)) (BitVec.ofNat 32 k.val)] ∧ t.mem = s.mem ∧ s.SameUnits t u) ∧
  (∀ (s : State) (u : UnitIx) (w : OpWord), (s.tile u).override 0x02 = none → issues s u (.joinany u w) w = true → straight s u = true → (s.tile u).pend = [] → s.ecc = [] →
    (∀ j : TicketIx, Nat.testBit (w.bits 31 0) j.val = true → ((s.tile u).ticket j).st = .free) →
    ∃ t, exec (.joinany u w) s = .next t ∧ moved s t u (.joinany u w) ∧ (t.tile u).tkt = (s.tile u).tkt ∧
      onTheirWay s t u 6 2 [.areg 0 (BitVec.ofNat 4 (w.bits 35 32)) 32] ∧ t.mem = s.mem ∧ s.SameUnits t u) ∧
  (∀ (s : State) (u : UnitIx) (w : OpWord) (j : Job), (s.tile u).override 0x03 = none → issues s u (.retry u w) w = true → straight s u = true → (s.tile u).pend = [] →
    s.ecc = [] → let k := ticketIx (w.bits 4 0)
    ((s.tile u).ticket k).job = some j → j.trap = false → (farKindOf ((s.tile u).ticket k).opc.toNat = none ∨ j.spare ≠ none) →
    (s.tile u).rqueue = [] → (s.tile u).freeEngine = some 0 →
    ∃ t r i, exec (.retry u w) s = .next t ∧ moved s t u (.retry u w) ∧ ((t.tile u).ticket k).st = .pending ∧ ((t.tile u).ticket k).job = some i ∧
      { i with descs := j.descs } = j ∧ (t.tile u).re[(0 : Fin 2)] = some r ∧ r.tkt = k ∧ r.elem = ((s.tile u).ticket k).elem.toNat ∧
      (∀ i, i ≠ k → { (t.tile u).ticket i with job := ((s.tile u).ticket i).job } = (s.tile u).ticket i) ∧ t.mem = s.mem ∧ s.SameUnits t u) ∧
  (∀ (s : State) (u : UnitIx) (w : OpWord) (j : Job) (kind : FarKind), (s.tile u).override 0x03 = none → issues s u (.retry u w) w = true → straight s u = true →
    (s.tile u).pend = [] → s.ecc = [] → let k := ticketIx (w.bits 4 0)
    ((s.tile u).ticket k).job = some j → j.trap = false → j.spare = none → farKindOf ((s.tile u).ticket k).opc.toNat = some kind →
    ∃ t f, exec (.retry u w) s = .next t ∧ moved s t u (.retry u w) ∧ ((t.tile u).ticket k).st = .pending ∧ (t.tile u).far = (s.tile u).far ++ [f] ∧
      f.tkt = some k ∧ f.kind = kind ∧ f.len = j.len ∧ f.data = j.bytes ∧ t.mem = s.mem ∧ s.SameUnits t u) ∧
  (∀ (s : State) (u : UnitIx) (w : OpWord) (j : Job), (s.tile u).override 0x03 = none → alone s u w = true → w.guardOk = true →
    w.performed (s.tile u) = true → w.bad = false → w.w = 0 → w.bits 47 5 = 0 → (s.tile u).interruptNow = none → (s.tile u).level < 2 →
    let k := ticketIx (w.bits 4 0)
    ((s.tile u).ticket k).st = .failed → ((s.tile u).ticket k).job = some j → j.trap = true →
    ∃ t, exec (.retry u w) s = .next t ∧ (t.tile u).level = 2 ∧ ((t.tile u).ticket k).st = .pending ∧
      (t.tile u).pc.toNat = bitsOf (((s.tile u).override j.opc.toNat).getD 0).toNat 52 32 / 8 * 8 ∧ s.SameUnits t u) ∧
  (∀ (s : State) (u : UnitIx) (w : OpWord), (s.tile u).override 0x04 = none → issues s u (.trel u w) w = true → straight s u = true → (s.tile u).pend = [] → s.ecc = [] →
    let k := ticketIx (w.bits 4 0)
    ∃ t, exec (.trel u w) s = .next t ∧ moved s t u (.trel u w) ∧ ((s.tile u).ticket k).st = .failed ∧ ((t.tile u).ticket k).st = .free ∧
      (∀ j, j ≠ k → (t.tile u).ticket j = (s.tile u).ticket j) ∧ (t.tile u).a = (s.tile u).a ∧ t.mem = s.mem ∧ s.SameUnits t u) ∧
  ∀ (s : State) (u : UnitIx) (w : OpWord), (s.tile u).override 0x05 = none → issues s u (.tdone u w) w = true → straight s u = true → (s.tile u).pend = [] → s.ecc = [] →
    ∃ t, exec (.tdone u w) s = .next t ∧ moved s t u (.tdone u w) ∧ (t.tile u).tkt = (s.tile u).tkt ∧
      onTheirWay s t u 6 2 [.tdone (ticketIx (w.bits 4 0)) (BitVec.ofNat 8 (w.bits 15 8))] ∧ t.mem = s.mem ∧ s.SameUnits t u

/-! ## Rules stated whole -/

/-- TREL frees a FAILED ticket and leaves what has landed; on a ticket in any other state it raises TICKET_STATE (R137).

Answers a next state with its own effect, under conditions on state and operands alone: trel. -/
def Obligations.TrelFreesAFailedTicket : Prop :=
  ∀ (s : State) (u : UnitIx) (w : OpWord), s.Canonical → s.OneShadow → alone s u w = true → (s.tile u).level < 3 → w.guardOk = true →
    w.performed (s.tile u) = true → w.bad = false → w.w = 0 → w.bits 47 5 = 0 → (s.tile u).override 0x04 = none → s.ecc = [] →
    let k := ticketIx (w.bits 4 0)
    (((s.tile u).ticket k).st = .failed → (s.tile u).interruptNow = none → ∃ t, exec (.trel u w) s = .next t ∧ moved s t u (.trel u w) ∧ ((t.tile u).ticket k).st = .free ∧
      (∀ j, j ≠ k → (t.tile u).ticket j = (s.tile u).ticket j) ∧ (t.tile u).a = (s.tile u).a ∧ (t.tile u).v = (s.tile u).v ∧
      (t.tile u).p = (s.tile u).p ∧ (t.tile u).pend = [] ∧ t.mem = s.mem ∧ s.SameUnits t u) ∧
    (((s.tile u).ticket k).st ≠ .failed → ∃ t, exec (.trel u w) s = .next t ∧ s.entered t u (faultEntry 7 0) (s.tile u).pc)

/-! ## None -/

/-- Fabric operations take the lowest free ticket of their partition and leave with their captured operands; a far load or store that its port
refuses carries the status, a far load behind an overlapping store is held; a redirected opcode enters its macro-trap handler at L2 with its
ticket PENDING (R127, R138, R139, R141, R151, R250, R256, R276).

Routine operations take the lowest free ticket with their operands captured and go to the lower-numbered free engine (R120, R127, R135,
R142, R169, R518).

Answers a next state with its own effect, under conditions on state and operands alone: macroTrap, fld, fst, spore, semacq, semrel, cesub,
mulS32, mulU32, mull64, mulhS64, mulhU64, mulq31, divS32, divU32, divS64, divU64, fdivS, fdivD, fsqrtS, fsqrtD, biq, fft4, cmac, nlms, gather,
scatter, bmov, peak, rms. -/
def Obligations.LongOperationsTakeATicket : Prop :=
  ((∀ (s : State) (u : UnitIx) (w : OpWord) (c : Instr) (opc : Nat) (kind : FarKind) (k : TicketIx),
      (c, opc, kind) ∈ [(.fld u w, 8, FarKind.fld), (.fst u w, 9, .fst)] → (s.tile u).override opc = none → (s.tile u).freeTicket = some k →
      issues s u c w = true → straight s u = true → (s.tile u).pend = [] → s.ecc = [] →
      let x := lastCtx s u c
      let l := (spAddr x w.dst 1).1
      let ga := (readSrc x .int w.src1 8).val
      let n := (readSrc x .int w.src2 1).val
      ∃ t f, exec c s = .next t ∧ moved s t u c ∧ (t.tile u).far = (s.tile u).far ++ [f] ∧ f.tkt = some k ∧ f.kind = kind ∧
        f.ga = BitVec.ofNat 36 ga ∧ f.len = n ∧ f.dst = .mem l ∧ (kind = .fst → n ≤ 64 → f.data = s.bytes (localBase u + l) n) ∧
        f.phase = (if portStatus (BitVec.ofNat 64 ga).toNat n l ≠ 0 then .port (BitVec.ofNat 8 (portStatus (BitVec.ofNat 64 ga).toNat n l))
          else if kind = .fld ∧ (s.tile u).storeAhead (BitVec.ofNat 64 ga).toNat n then .held else .sent) ∧
        ((t.tile u).ticket k).st = .pending ∧ ((t.tile u).ticket k).opc = BitVec.ofNat 7 opc ∧ ((t.tile u).ticket k).pc = (s.tile u).pc ∧
        (∀ j, j ≠ k → (t.tile u).ticket j = (s.tile u).ticket j) ∧ t.mem = s.mem ∧ s.SameUnits t u) ∧
    (∀ (s : State) (u : UnitIx) (w : OpWord) (k : TicketIx), (s.tile u).override 0x0C = none → (s.tile u).freeTicket = some k →
      issues s u (.spore u w) w = true → straight s u = true → (s.tile u).pend = [] → s.ecc = [] →
      let x := lastCtx s u (.spore u w)
      let l := (spAddr x w.dst 1).1
      let role := (readSrc x .int w.src1 1).val
      ∃ t f, exec (.spore u w) s = .next t ∧ moved s t u (.spore u w) ∧ (t.tile u).far = (s.tile u).far ++ [f] ∧ f.tkt = some k ∧ f.kind = .spore ∧
        f.ga = BitVec.ofNat 36 role ∧ f.data = leBytes 8 (u.val + role * 2 ^ 8 + (s.tile u).sporeSeq.toNat * 2 ^ 32) ++ (s.bytes (localBase u + l) 64).drop 8 ∧
        (t.tile u).sporeSeq = (s.tile u).sporeSeq + 1 ∧ ((t.tile u).ticket k).st = .pending ∧ t.mem = s.mem ∧ s.SameUnits t u) ∧
    (∀ (s : State) (u : UnitIx) (w : OpWord) (c : Instr) (opc : Nat) (kind : FarKind) (k : TicketIx),
      (c, opc, kind) ∈ [(.semacq u w, 0x0D, FarKind.semacq), (.semrel u w, 0x0E, .semrel)] → (s.tile u).override opc = none →
      (s.tile u).freeTicket = some k → issues s u c w = true → straight s u = true → (s.tile u).pend = [] → s.ecc = [] →
      let x := lastCtx s u c
      ∃ t f, exec c s = .next t ∧ moved s t u c ∧ (t.tile u).far = (s.tile u).far ++ [f] ∧ f.tkt = some k ∧ f.kind = kind ∧ f.phase = .sent ∧
        f.ga = BitVec.ofNat 36 (readSrc x .int w.src1 2).val ∧ f.dst = (formDst x w.dst 4 false).dest ∧ ((t.tile u).ticket k).st = .pending ∧
        t.mem = s.mem ∧ s.SameUnits t u) ∧
    (∀ (s : State) (u : UnitIx) (w : OpWord) (k : TicketIx), (s.tile u).override 0x0F = none → (s.tile u).freeTicket = some k →
      issues s u (.cesub u w) w = true → straight s u = true → (s.tile u).pend = [] → s.ecc = [] →
      ∃ t f, exec (.cesub u w) s = .next t ∧ moved s t u (.cesub u w) ∧ (t.tile u).far = (s.tile u).far ++ [f] ∧ f.tkt = some k ∧ f.kind = .cesub ∧
        f.phase = .sent ∧ f.ga = BitVec.ofNat 36 (w.bits 47 46) ∧ f.len = w.bits 39 32 ∧ f.data = leBytes 8 s.blk ∧
        ((t.tile u).ticket k).st = .pending ∧ t.mem = s.mem ∧ s.SameUnits t u) ∧
    (∀ (s : State) (u : UnitIx) (x : DWord), decodeOp u x ≠ .macroTrap u x → exec (.macroTrap u x) s = exec (decodeOp u x) s) ∧
    ∀ (s : State) (u : UnitIx) (x e : DWord) (k : TicketIx), let w := opWordOf x
      alone s u w = true → w.guardOk = true → w.performed (s.tile u) = true → (s.tile u).interruptNow = none → wordSlot x = 6 →
      (u.val = 16 → wordOpc x / 2 ≠ 0x18) →
      (s.tile u).override (wordOpc x) = some e → bitsOf e.toNat 8 8 = 1 → trapLegal (lastCtx s u (.macroTrap u x)) w = true →
      (s.tile u).level < 2 → w.src1 = 0x6000 → w.src2 = 0x6000 → spMode w.dst = 7 → (s.tile u).freeTicket = some k →
      ∃ t, exec (.macroTrap u x) s = .next t ∧ (t.tile u).level = 2 ∧ (t.tile u).pc.toNat = bitsOf e.toNat 52 32 / 8 * 8 ∧
        ((t.tile u).ticket k).st = .pending ∧ ((t.tile u).ticket k).opc = BitVec.ofNat 7 (wordOpc x) ∧ (t.tile u).isp = BitVec.ofNat 32 ((s.tile u).isp.toNat - 128) ∧
        (t.tile u).a = (s.tile u).a ∧ (t.tile u).v = (s.tile u).v ∧ s.SameUnits t u) ∧
  ((∀ (s : State) (u : UnitIx) (w : OpWord) (c : Instr) (opc dw sw : Nat) (imm : ImmKind) (two : Bool) (k : TicketIx),
      (c, opc, dw, sw, imm, two) ∈ [(.mulS32 u w, 0x10, 8, 4, ImmKind.int, true), (.mulU32 u w, 0x11, 8, 4, .int, true), (.mull64 u w, 0x12, 8, 8, .int, true),
        (.mulhS64 u w, 0x13, 8, 8, .int, true), (.mulhU64 u w, 0x14, 8, 8, .int, true), (.mulq31 u w, 0x15, 4, 4, .int, true),
        (.divS32 u w, 0x18, 4, 4, .int, true), (.divU32 u w, 0x19, 4, 4, .int, true), (.divS64 u w, 0x1A, 8, 8, .int, true),
        (.divU64 u w, 0x1B, 8, 8, .int, true), (.fdivS u w, 0x20, 4, 4, .fp f32, true), (.fdivD u w, 0x21, 8, 8, .fp f64, true),
        (.fsqrtS u w, 0x22, 4, 4, .fp f32, false), (.fsqrtD u w, 0x23, 8, 8, .fp f64, false)] →
      (s.tile u).override opc = none → (s.tile u).freeTicket = some k → (s.tile u).rqueue = [] → (s.tile u).freeEngine = some 0 →
      issues s u c w = true → straight s u = true → (s.tile u).pend = [] → s.ecc = [] →
      let x := lastCtx s u c
      ∃ t j r, exec c s = .next t ∧ moved s t u c ∧ ((t.tile u).ticket k).st = .pending ∧ ((t.tile u).ticket k).opc = BitVec.ofNat 7 opc ∧
        ((t.tile u).ticket k).pc = (s.tile u).pc ∧ ((t.tile u).ticket k).job = some j ∧ j.opc = BitVec.ofNat 7 opc ∧ j.spare = none ∧
        j.dst = (formDst x w.dst dw false).dest ∧ j.src1 = BitVec.ofNat 64 (readSrc x imm w.src1 sw).val ∧
        (two = true → j.src2 = BitVec.ofNat 64 (readSrc x imm w.src2 sw).val) ∧ j.fmode = BitVec.ofNat 5 (fld (s.tile u).fcsr 20 16) ∧
        (t.tile u).re[(0 : Fin 2)] = some r ∧ r.tkt = k ∧ r.elem = 0 ∧
        (∀ i, i ≠ k → { (t.tile u).ticket i with job := ((s.tile u).ticket i).job } = (s.tile u).ticket i) ∧
        t.mem = s.mem ∧ s.SameUnits t u) ∧
    (∀ (s : State) (u : UnitIx) (w : OpWord) (c : Instr) (opc dw sw : Nat) (k : TicketIx),
      (c, opc, dw, sw) ∈ [(.biq u w, 0x28, 4, 4), (.fft4 u w, 0x29, 8, 8), (.cmac u w, 0x2A, 8, 8), (.nlms u w, 0x2B, 4, 4), (.bmov u w, 0x38, 8, 8),
        (.peak u w, 0x3C, 8, 4), (.rms u w, 0x3D, 8, 4)] →
      (s.tile u).override opc = none → (s.tile u).freeTicket = some k → (s.tile u).rqueue = [] → (s.tile u).freeEngine = some 0 →
      issues s u c w = true → straight s u = true → (s.tile u).pend = [] → s.ecc = [] →
      let x := lastCtx s u c
      ∃ t j r, exec c s = .next t ∧ moved s t u c ∧ ((t.tile u).ticket k).st = .pending ∧ ((t.tile u).ticket k).job = some j ∧
        j.opc = BitVec.ofNat 7 opc ∧ j.dst = .mem (spAddr x w.dst dw).1 ∧ j.src1 = BitVec.ofNat 64 (spAddr x w.src1 sw).1 ∧
        j.src2 = BitVec.ofNat 64 (if opc < 0x30 then (spAddr x w.src2 8).1 else (readSrc x .int w.src2 4).val) ∧
        (t.tile u).re[(0 : Fin 2)] = some r ∧ r.tkt = k ∧ r.elem = 0 ∧ t.mem = s.mem ∧ s.SameUnits t u) ∧
    ∀ (s : State) (u : UnitIx) (w : OpWord) (c : Instr) (opc : Nat) (k : TicketIx),
      (c, opc) ∈ [(.gather u w, 0x30), (.scatter u w, 0x31)] →
      (s.tile u).override opc = none → (s.tile u).freeTicket = some k → (s.tile u).rqueue = [] → (s.tile u).freeEngine = some 0 →
      issues s u c w = true → straight s u = true → (s.tile u).pend = [] → s.ecc = [] →
      let els := activeList (s.tile u).vl (w.bits 36 35) ((s.tile u).vreg 0)
      ∃ t j r, exec c s = .next t ∧ moved s t u c ∧ ((t.tile u).ticket k).st = .pending ∧ ((t.tile u).ticket k).job = some j ∧
        j.opc = BitVec.ofNat 7 opc ∧ j.far = decide (w.bits 37 37 = 1) ∧ j.vi = (s.tile u).vreg (BitVec.ofNat 5 (w.bits 42 38)) ∧
        j.vd = (s.tile u).vreg (BitVec.ofNat 5 (w.bits 47 43)) ∧ j.act = BitVec.ofNat 64 (els.foldl (fun n i => n + 2 ^ i) 0) ∧
        j.src1 = BitVec.ofNat 64 (readSrc (lastCtx s u c) .int w.src1 (if w.bits 37 37 = 1 then 8 else 4)).val ∧
        (t.tile u).re[(0 : Fin 2)] = some r ∧ r.tkt = k ∧ r.elem = 0 ∧ t.mem = s.mem ∧ s.SameUnits t u)

/-- Branches take effect after two delay fronds, one whose guard fails is not taken, a call's link is on its way; the last delay frond goes to the
target after the empty fronds of the prediction (R96, R202, R205).

LOOP sets its loop up, or skips its body with a count of 0; the end frond of a loop goes back while the counter is above 1 and ends the loop
otherwise; REP issues the next frond the latched number of times, or skips it (R207 to R212).

Answers a next state with its own effect, under conditions on state and operands alone: br, brx, bra, call, calla, ret, loop, rep, pflush. -/
def Obligations.BranchesLoopsAndRepeats : Prop :=
  ((∀ (s : State) (u : UnitIx) (w : OpWord) (c : Instr) (tgt : Word) (link : Bool),
      let rel := BitVec.ofNat 32 (ofInt 32 (((s.tile u).pc.toNat : Int) + 8 * toInt 24 (w.bits 23 0)))
      let reg := (s.tile u).areg 0 (BitVec.ofNat 4 (w.bits 43 40))
      (c, tgt, link) ∈ [(.br u w, rel, false), (.brx u w, (extOf (frondWith s u c)).getD 0, false), (.bra u w, reg, false), (.call u w, rel, true),
        (.calla u w, reg, true), (.ret u w, reg, false)] →
      issues s u c w = true → straight s u = true → untrapped s u c = true → (s.tile u).pend = [] → s.ecc = [] →
      ∃ t, exec c s = .next t ∧ moved s t u c ∧ (t.tile u).br.delay = 2 ∧ (t.tile u).br.taken = true ∧ (t.tile u).br.target = tgt ∧
        tgt.toNat % 8 = 0 ∧ (link = true → onTheirWay s t u 7 2 [.areg 0 (BitVec.ofNat 4 (w.bits 47 44)) (BitVec.ofNat 32 (lastCtx s u c).link)]) ∧
        (t.tile u).a = (s.tile u).a ∧ (t.tile u).lc = (s.tile u).lc ∧ t.mem = s.mem ∧ s.SameUnits t u) ∧
    (∀ (s : State) (u : UnitIx) (w : OpWord) (c : Instr), c ∈ [.br u w, .brx u w, .bra u w, .call u w, .calla u w, .ret u w] →
      alone s u w = true → w.performed (s.tile u) = false → (s.tile u).interruptNow = none → frondFault s u [wordBad c] (frondOps s u [c]) = none →
      ∃ t, exec c s = .next t ∧ moved s t u c ∧ (t.tile u).br.delay = 2 ∧ (t.tile u).br.taken = false ∧ (t.tile u).pend = [] ∧
        (t.tile u).loops = (s.tile u).loops ∧ t.mem = s.mem ∧ s.SameUnits t u) ∧
    (∀ (s : State) (u : UnitIx) (c : Instr) (o : OpInfo), opInfo c = some o → opUnit c = some u → o.slot < 6 → issues s u c o.w = true →
      (s.tile u).rep.active = false → (s.tile u).halted = false → fld (s.tile u).dbgCtl 0 0 = 0 → (s.tile u).br.taken = true →
      ((s.tile u).br.delay = 2 → ∃ t, exec c s = .next t ∧ moved s t u c ∧ (t.tile u).br = { (s.tile u).br with delay := 1 }) ∧
      ((s.tile u).br.delay = 1 → ∃ t, exec c s = .next t ∧ (t.tile u).pc = (s.tile u).br.target ∧ (t.tile u).br = Branch.reset ∧
        (t.tile u).frond = [] ∧ (t.tile u).cycle = (s.tile u).cycle + 1 + (s.tile u).br.gap)) ∧
    ∀ (s : State) (u : UnitIx) (w : OpWord), issues s u (.pflush u w) w = true → straight s u = true →
      untrapped s u (.pflush u w) = true → (s.tile u).pend = [] → s.ecc = [] →
      ∃ t, exec (.pflush u w) s = .next t ∧ moved s t u (.pflush u w) ∧ (t.tile u).ras = [] ∧ (∀ e ∈ (t.tile u).targets, e.2.cnt = 0) ∧
        t.mem = s.mem ∧ s.SameUnits t u) ∧
  ((∀ (s : State) (u : UnitIx) (w : OpWord) (n : Word),
      ((w.bits 45 44 = 0 ∧ n = (s.tile u).areg 0 (BitVec.ofNat 4 (w.bits 43 40))) ∨ (w.bits 45 44 = 1 ∧ n = BitVec.ofNat 32 (w.bits 39 24)) ∨
        (w.bits 45 44 = 2 ∧ n = (extOf (frondWith s u (.loop u w))).getD 0)) →
      issues s u (.loop u w) w = true → straight s u = true → untrapped s u (.loop u w) = true → (s.tile u).pend = [] → s.ecc = [] →
      let first := ((s.tile u).pc.toNat + 8 * w.bits 23 12) % 2 ^ 32
      let last := (first + 8 * w.bits 11 0) % 2 ^ 32
      ∃ t, exec (.loop u w) s = .next t ∧ moved s t u (.loop u w) ∧
        onTheirWay s t u 7 2 [.loopSet (BitVec.ofNat 2 (w.bits 47 46)) (BitVec.ofNat 32 first) (BitVec.ofNat 32 last) n] ∧
        (n ≠ 0 → (t.tile u).br = (s.tile u).br) ∧
        (n = 0 → (t.tile u).br.delay = 2 ∧ (t.tile u).br.taken = true ∧ (t.tile u).br.target = BitVec.ofNat 32 (nextFrond s u last)) ∧
        t.mem = s.mem ∧ s.SameUnits t u) ∧
    (∀ (s : State) (u : UnitIx) (c : Instr) (o : OpInfo) (k : BitVec 2), opInfo c = some o → opUnit c = some u → o.slot < 6 →
      issues s u c o.w = true → (s.tile u).br.delay = 0 → (s.tile u).rep.active = false → (s.tile u).halted = false → fld (s.tile u).dbgCtl 0 0 = 0 →
      (s.tile u).pend = [] → (s.tile u).rep.held = none → (s.tile u).order = [k] → (rfGet Loop.reset (s.tile u).loops k.toNat).active = true →
      (rfGet Loop.reset (s.tile u).loops k.toNat).last = (s.tile u).pc →
      (1 < (rfGet 0 (s.tile u).lc k.toNat).toNat → ∃ t, exec c s = .next t ∧ (t.tile u).pc = (rfGet Loop.reset (s.tile u).loops k.toNat).first ∧
        rfGet 0 (t.tile u).lc k.toNat = rfGet 0 (s.tile u).lc k.toNat - 1 ∧ (rfGet Loop.reset (t.tile u).loops k.toNat).active = true ∧
        (t.tile u).cycle = (s.tile u).cycle + 1) ∧
      ((rfGet 0 (s.tile u).lc k.toNat).toNat ≤ 1 → ∃ t, exec c s = .next t ∧ moved s t u c ∧ rfGet 0 (t.tile u).lc k.toNat = 0 ∧
        (rfGet Loop.reset (t.tile u).loops k.toNat).active = false ∧ (t.tile u).order = [])) ∧
    (∀ (s : State) (u : UnitIx) (w : OpWord) (n : Nat),
      ((w.bits 44 44 = 0 ∧ n = w.bits 11 0) ∨ (w.bits 44 44 = 1 ∧ n = min 4095 (rfGet 0 (s.tile u).lc (w.bits 47 46)).toNat)) →
      issues s u (.rep u w) w = true → straight s u = true → untrapped s u (.rep u w) = true → (s.tile u).pend = [] → s.ecc = [] →
      ∃ t, exec (.rep u w) s = .next t ∧ moved s t u (.rep u w) ∧
        (n = 0 → (t.tile u).repSkip = true) ∧ (n ≠ 0 → (t.tile u).rep.active = true ∧ (t.tile u).rep.left.toNat = n) ∧ t.mem = s.mem ∧ s.SameUnits t u) ∧
    ∀ (s : State) (u : UnitIx) (c : Instr) (o : OpInfo), opInfo c = some o → opUnit c = some u → o.slot < 6 → issues s u c o.w = true →
      (s.tile u).br.delay = 0 → (s.tile u).atLoopEnd = false → (s.tile u).halted = false → fld (s.tile u).dbgCtl 0 0 = 0 →
      (s.tile u).pend = [] → (s.tile u).rep.active = true → (s.tile u).rep.held = none →
      (1 < (s.tile u).rep.left.toNat → ∃ t, exec c s = .next t ∧ (t.tile u).pc = (s.tile u).pc ∧ (t.tile u).frond = [] ∧
        (t.tile u).rep.left = (s.tile u).rep.left - 1 ∧ (t.tile u).cycle = (s.tile u).cycle + 1) ∧
      ((s.tile u).rep.left.toNat ≤ 1 → ∃ t, exec c s = .next t ∧ moved s t u c ∧ (t.tile u).rep.active = false))

/-- DONE ends the slice in SLEEP and NAP waits for the fast lane; FBAR, IFENCE and PBAR issue their empty fronds; NOP only passes; MFSR and MTSR
move system registers; RETI restores the frame at ISP (R33, R99, R196, R201, R206, R215, R216, R227).

Answers a next state with its own effect, under conditions on state and operands alone: nop, done, nap, fbar, ifence, pbar, mfsr, mtsr, reti. -/
def Obligations.SliceEndsBarriersAndSystemRegisters : Prop :=
  (∀ (s : State) (u : UnitIx) (w : OpWord), issues s u (.done u w) w = true → straight s u = true →
    untrapped s u (.done u w) = true → (s.tile u).pend = [] → s.ecc = [] →
    ∃ t, exec (.done u w) s = .next t ∧ (t.tile u).mode = .sleep ∧ (t.tile u).doneInBlk = true ∧ (t.tile u).frond = [] ∧
      (t.tile u).pc = BitVec.ofNat 32 ((s.tile u).pc.toNat + 8 * (frondWith s u (.done u w)).length) ∧ (s.tile u).level = 0 ∧
      (s.tile u).outstanding = false ∧ s.SameUnits t u) ∧
  (∀ (s : State) (u : UnitIx) (w : OpWord), issues s u (.nap u w) w = true → straight s u = true →
    untrapped s u (.nap u w) = true → (s.tile u).pend = [] → s.ecc = [] →
    ∃ t, exec (.nap u w) s = .next t ∧ (t.tile u).frond = [] ∧ (s.tile u).level = 0 ∧
      ((s.tile u).offLane = true → (t.tile u).mode = .sleep ∧ (t.tile u).offLane = false) ∧
      ((s.tile u).offLane = false → ((s.tile u).heldTick = false ∨ fld (s.tile u).flCfg 0 0 = 0) → (t.tile u).mode = .nap) ∧
      ((s.tile u).offLane = false → (s.tile u).heldTick = true → fld (s.tile u).flCfg 0 0 = 1 →
        (t.tile u).mode = .run ∧ (t.tile u).heldTick = false) ∧ s.SameUnits t u) ∧
  (∀ (s : State) (u : UnitIx) (w : OpWord) (c : Instr) (n : Nat), (c, n) ∈ [(.nop u w, 0), (.fbar u w, 4), (.pbar u w, 6), (.ifence u w, 10)] →
    alone s u w = true → issues s u c w = true → s.ecc = [] →
    ∃ t, exec c s = .next t ∧ (t.tile u).pc = BitVec.ofNat 32 ((s.tile u).pc.toNat + 8) ∧ (t.tile u).frond = [] ∧
      (t.tile u).cycle = (s.tile u).cycle + 1 + n ∧ (n = 10 → ∀ k < 4, (rfGet Loop.reset (t.tile u).loops k).captured = false) ∧
      (t.tile u).a = (s.tile u).a ∧ (t.tile u).m = (s.tile u).m ∧ (t.tile u).v = (s.tile u).v ∧ (t.tile u).p = (s.tile u).p ∧
      (t.tile u).lc = (s.tile u).lc ∧ (t.tile u).tkt = (s.tile u).tkt ∧ (t.tile u).pend = [] ∧ t.mem = s.mem ∧ t.csr = s.csr ∧ s.SameUnits t u) ∧
  (∀ (s : State) (u : UnitIx) (w : OpWord) (v : Word), sregRead s u (w.bits 47 40) = some v → issues s u (.mfsr u w) w = true →
    straight s u = true → untrapped s u (.mfsr u w) = true → (s.tile u).pend = [] → s.ecc = [] →
    ∃ t, exec (.mfsr u w) s = .next t ∧ moved s t u (.mfsr u w) ∧ onTheirWay s t u 7 2 [.areg 0 (BitVec.ofNat 4 (w.bits 39 36)) v] ∧
      (t.tile u).a = (s.tile u).a ∧ t.mem = s.mem ∧ s.SameUnits t u) ∧
  (∀ (s : State) (u : UnitIx), sregRead s u 0x00 = some (s.tile u).status ∧ sregRead s u 0x02 = some (s.tile u).isp ∧
    sregRead s u 0x05 = some (s.tile u).fcsr ∧ sregRead s u 0x18 = some (BitVec.ofNat 32 s.blk) ∧
    (∀ k < 4, sregRead s u (0x10 + k) = some (rfGet 0 (s.tile u).lc k)) ∧ ∀ n, 0x47 < n → sregRead s u n = none) ∧
  (∀ (s : State) (u : UnitIx) (w : OpWord) (v : Word),
    ((w.bits 35 34 = 0 ∧ v = (s.tile u).areg 0 (BitVec.ofNat 4 (w.bits 39 36))) ∨ (w.bits 35 34 = 1 ∧ v = BitVec.ofNat 32 (w.bits 15 0)) ∨
      (w.bits 35 34 = 2 ∧ v = (extOf (frondWith s u (.mtsr u w))).getD 0)) →
    issues s u (.mtsr u w) w = true → straight s u = true → untrapped s u (.mtsr u w) = true → (s.tile u).pend = [] → s.ecc = [] →
    ∃ t, exec (.mtsr u w) s = .next t ∧ moved s t u (.mtsr u w) ∧ onTheirWay s t u 7 4 [.sreg (BitVec.ofNat 8 (w.bits 47 40)) v] ∧
      (w.bits 47 40 = 1 → onTheirWay s t u 7 6 [.predOff (v.getLsbD 0)]) ∧ t.mem = s.mem ∧ s.SameUnits t u) ∧
  ∀ (s : State) (u : UnitIx) (w : OpWord), alone s u w = true → issues s u (.reti u w) w = true → s.ecc = [] →
    let f := fun (o : Nat) => s.localLoad u ((s.tile u).isp.toNat + o) 4
    bitsOf (f 4) 15 14 = 0 →
    ∃ t, exec (.reti u w) s = .next t ∧ (t.tile u).pc = BitVec.ofNat 32 (f 0) ∧ (t.tile u).status = BitVec.ofNat 32 (f 4 % 2 ^ 14) ∧
      (t.tile u).isp = BitVec.ofNat 32 ((s.tile u).isp.toNat + 128) ∧ (t.tile u).mode = (s.tile u).mode ∧
      (∀ k < 4, rfGet 0 (t.tile u).lc k = BitVec.ofNat 32 (f (0x10 + 4 * k)) ∧ rfGet 0 (t.tile u).a k = BitVec.ofNat 32 (f (0x48 + 4 * k))) ∧
      (∀ k, 4 ≤ k → rfGet 0 (t.tile u).a k = rfGet 0 (s.tile u).a k) ∧ (t.tile u).p = BitVec.ofNat 8 (f 0x58) ∧
      (t.tile u).vindex = BitVec.ofNat 32 (f 0x5C % 2 ^ 16) ∧ (t.tile u).tktSplit = BitVec.ofNat 32 (min 32 (f 0x60 % 2 ^ 6)) ∧ (t.tile u).v = (s.tile u).v ∧
      (t.tile u).tkt = (s.tile u).tkt ∧ t.mem = s.mem ∧ t.csr = s.csr ∧ s.SameUnits t u

/-! ## Rules stated whole -/

/-- The circular step: the access uses the register as it was read, and the register goes to cb + ((a − cb + m) mod cl), formed exactly with m
signed and reduced to 32 bits, in the buffer where it lies below 2^32; with cl 0 it goes to a + m (R105). -/
def Obligations.CircularStepWraps : Prop :=
  ∀ (x : Ctx) (sp wb : Nat), spMode sp = 3 →
    let i := BitVec.ofNat 4 (bitsOf sp 11 8)
    let a := (x.t.areg 0 i).toNat
    let m := toInt 32 (x.t.areg 1 (BitVec.ofNat 4 (bitsOf sp 7 4))).toNat
    let b := (x.t.areg 2 (BitVec.ofNat 4 (bitsOf sp 2 0))).toNat
    let l := (x.t.areg 3 (BitVec.ofNat 4 (bitsOf sp 2 0))).toNat
    (spAddr x sp wb).1 = a ∧ ∃ v : Word, (spAddr x sp wb).2 = [.areg 0 i v] ∧
      (l ≠ 0 → (v.toNat : Int) = ((b : Int) + ((a : Int) - b + m) % l) % 2 ^ 32) ∧
      (l ≠ 0 → b + l ≤ 2 ^ 32 → b ≤ v.toNat ∧ v.toNat < b + l) ∧ (l = 0 → (v.toNat : Int) = ((a : Int) + m) % 2 ^ 32)
end

