-- ==== Sys2Proof/Laws/Bits.lean ====
section
/-! SUPPORT. Fields of a word after a field has been written. -/

namespace Sys2Proof.Laws

open Sys2Proof Sys2Proof.Machine

theorem withBits_split (x hi lo v : Nat) (h : lo ≤ hi) :
    withBits x hi lo v = x / 2 ^ (hi + 1) * 2 ^ (hi + 1) + v % 2 ^ (hi + 1 - lo) * 2 ^ lo + x % 2 ^ lo := by
  unfold withBits bitsOf
  rw [Nat.shiftRight_eq_div_pow]
  have e : 2 ^ (hi + 1) = 2 ^ (hi + 1 - lo) * 2 ^ lo := by rw [← Nat.pow_add]; congr 1; omega
  have d : x / 2 ^ (hi + 1) = x / 2 ^ lo / 2 ^ (hi + 1 - lo) := by rw [e, Nat.mul_comm, Nat.div_div_eq_div_mul]
  have h1 := Nat.div_add_mod x (2 ^ lo)
  have h2 := Nat.div_add_mod (x / 2 ^ lo) (2 ^ (hi + 1 - lo))
  rw [d, e]
  generalize hq : x / 2 ^ lo / 2 ^ (hi + 1 - lo) = q at *
  generalize hr : x / 2 ^ lo % 2 ^ (hi + 1 - lo) = r at *
  generalize x / 2 ^ lo = y at *
  generalize hA : (2 : Nat) ^ (hi + 1 - lo) = A at *
  generalize hB : (2 : Nat) ^ lo = B at *
  have h3 : x = q * (A * B) + r * B + x % B := by
    rw [← h2] at h1
    rw [Nat.mul_add, Nat.mul_comm B (A * q), Nat.mul_comm B r, Nat.mul_comm A q, Nat.mul_assoc] at h1
    exact h1.symm
  omega

theorem fld_setFld_same (x : Word) (hi lo v : Nat) (h : lo ≤ hi) (h31 : hi < 32) :
    fld (setFld x hi lo v) hi lo = v % 2 ^ (hi + 1 - lo) := by
  unfold fld setFld
  rw [BitVec.toNat_ofNat]
  have hx := x.isLt
  rw [withBits_split _ _ _ _ h]
  unfold bitsOf
  rw [Nat.shiftRight_eq_div_pow]
  have e : 2 ^ (hi + 1) = 2 ^ (hi + 1 - lo) * 2 ^ lo := by rw [← Nat.pow_add]; congr 1; omega
  have e32 : (2 : Nat) ^ 32 = 2 ^ (hi + 1) * 2 ^ (31 - hi) := by rw [← Nat.pow_add]; congr 1; omega
  have p1 : 0 < 2 ^ lo := Nat.two_pow_pos lo
  have hm := Nat.mod_lt x.toNat p1
  have hv := Nat.mod_lt v (Nat.two_pow_pos (hi + 1 - lo))
  have hq : x.toNat / 2 ^ (hi + 1) < 2 ^ (31 - hi) := by
    rw [Nat.div_lt_iff_lt_mul (Nat.two_pow_pos _), Nat.mul_comm, ← e32]; exact hx
  generalize x.toNat / 2 ^ (hi + 1) = q at *
  generalize x.toNat % 2 ^ lo = m at *
  generalize v % 2 ^ (hi + 1 - lo) = w at *
  have hlow : w * 2 ^ lo + m < 2 ^ (hi + 1) := by
    rw [e]
    calc w * 2 ^ lo + m < w * 2 ^ lo + 2 ^ lo := by omega
      _ = (w + 1) * 2 ^ lo := (Nat.succ_mul w _).symm
      _ ≤ 2 ^ (hi + 1 - lo) * 2 ^ lo := Nat.mul_le_mul_right _ hv
  have hlt : q * 2 ^ (hi + 1) + w * 2 ^ lo + m < 2 ^ 32 := by
    rw [e32]
    calc q * 2 ^ (hi + 1) + w * 2 ^ lo + m < q * 2 ^ (hi + 1) + 2 ^ (hi + 1) := by omega
      _ = (q + 1) * 2 ^ (hi + 1) := (Nat.succ_mul q _).symm
      _ ≤ 2 ^ (31 - hi) * 2 ^ (hi + 1) := Nat.mul_le_mul_right _ hq
      _ = _ := Nat.mul_comm _ _
  rw [Nat.mod_eq_of_lt hlt, e]
  have : q * (2 ^ (hi + 1 - lo) * 2 ^ lo) + w * 2 ^ lo + m = (q * 2 ^ (hi + 1 - lo) + w) * 2 ^ lo + m := by
    rw [Nat.add_mul, Nat.mul_assoc]
  rw [this, Nat.add_comm, Nat.add_mul_div_right _ _ p1, Nat.div_eq_of_lt hm, Nat.zero_add, Nat.add_comm, Nat.add_mul_mod_self_right, Nat.mod_eq_of_lt hv]

end Sys2Proof.Laws
end

