-- ==== Sys2Proof/Laws/State.lean ====
section
/-! SUPPORT. What each basic update of State does to each field: one lemma per field per update, true by unfolding. -/

namespace Sys2Proof.Laws

open Sys2Proof.Machine

/-! ## setReg -/

@[simp] theorem setReg_sample (s : State) (a : Nat) (v : Word) : (s.setReg a v).sample = s.sample := rfl
@[simp] theorem setReg_bsize (s : State) (a : Nat) (v : Word) : (s.setReg a v).bsize = s.bsize := rfl
@[simp] theorem setReg_tiles (s : State) (a : Nat) (v : Word) : (s.setReg a v).tiles = s.tiles := rfl
@[simp] theorem setReg_mem (s : State) (a : Nat) (v : Word) : (s.setReg a v).mem = s.mem := rfl
@[simp] theorem setReg_ecc (s : State) (a : Nat) (v : Word) : (s.setReg a v).ecc = s.ecc := rfl
@[simp] theorem setReg_wback (s : State) (a : Nat) (v : Word) : (s.setReg a v).wback = s.wback := rfl
@[simp] theorem setReg_bmt (s : State) (a : Nat) (v : Word) : (s.setReg a v).bmt = s.bmt := rfl
@[simp] theorem setReg_merr (s : State) (a : Nat) (v : Word) : (s.setReg a v).merr = s.merr := rfl
@[simp] theorem setReg_csr (s : State) (a : Nat) (v : Word) : (s.setReg a v).csr = sset 0 s.csr a v := rfl
@[simp] theorem setReg_reports (s : State) (a : Nat) (v : Word) : (s.setReg a v).reports = s.reports := rfl
@[simp] theorem setReg_dev (s : State) (a : Nat) (v : Word) : (s.setReg a v).dev = s.dev := rfl
@[simp] theorem setReg_host (s : State) (a : Nat) (v : Word) : (s.setReg a v).host = s.host := rfl
@[simp] theorem setReg_ce (s : State) (a : Nat) (v : Word) : (s.setReg a v).ce = s.ce := rfl
@[simp] theorem setReg_aud (s : State) (a : Nat) (v : Word) : (s.setReg a v).aud = s.aud := rfl
@[simp] theorem setReg_net (s : State) (a : Nat) (v : Word) : (s.setReg a v).net = s.net := rfl
@[simp] theorem setReg_lk (s : State) (a : Nat) (v : Word) : (s.setReg a v).lk = s.lk := rfl
@[simp] theorem setReg_fab (s : State) (a : Nat) (v : Word) : (s.setReg a v).fab = s.fab := rfl
@[simp] theorem setReg_out (s : State) (a : Nat) (v : Word) : (s.setReg a v).out = s.out := rfl
@[simp] theorem setReg_freeCtr (s : State) (a : Nat) (v : Word) : (s.setReg a v).freeCtr = s.freeCtr := rfl
@[simp] theorem setReg_pending (s : State) (a : Nat) (v : Word) : (s.setReg a v).pending = s.pending := rfl

/-! ## modReg -/

@[simp] theorem modReg_sample (s : State) (a : Nat) (f : Word → Word) : (s.modReg a f).sample = s.sample := rfl
@[simp] theorem modReg_bsize (s : State) (a : Nat) (f : Word → Word) : (s.modReg a f).bsize = s.bsize := rfl
@[simp] theorem modReg_tiles (s : State) (a : Nat) (f : Word → Word) : (s.modReg a f).tiles = s.tiles := rfl
@[simp] theorem modReg_mem (s : State) (a : Nat) (f : Word → Word) : (s.modReg a f).mem = s.mem := rfl
@[simp] theorem modReg_ecc (s : State) (a : Nat) (f : Word → Word) : (s.modReg a f).ecc = s.ecc := rfl
@[simp] theorem modReg_wback (s : State) (a : Nat) (f : Word → Word) : (s.modReg a f).wback = s.wback := rfl
@[simp] theorem modReg_bmt (s : State) (a : Nat) (f : Word → Word) : (s.modReg a f).bmt = s.bmt := rfl
@[simp] theorem modReg_merr (s : State) (a : Nat) (f : Word → Word) : (s.modReg a f).merr = s.merr := rfl
@[simp] theorem modReg_csr (s : State) (a : Nat) (f : Word → Word) : (s.modReg a f).csr = sset 0 s.csr a (f (s.reg a)) := rfl
@[simp] theorem modReg_reports (s : State) (a : Nat) (f : Word → Word) : (s.modReg a f).reports = s.reports := rfl
@[simp] theorem modReg_dev (s : State) (a : Nat) (f : Word → Word) : (s.modReg a f).dev = s.dev := rfl
@[simp] theorem modReg_host (s : State) (a : Nat) (f : Word → Word) : (s.modReg a f).host = s.host := rfl
@[simp] theorem modReg_ce (s : State) (a : Nat) (f : Word → Word) : (s.modReg a f).ce = s.ce := rfl
@[simp] theorem modReg_aud (s : State) (a : Nat) (f : Word → Word) : (s.modReg a f).aud = s.aud := rfl
@[simp] theorem modReg_net (s : State) (a : Nat) (f : Word → Word) : (s.modReg a f).net = s.net := rfl
@[simp] theorem modReg_lk (s : State) (a : Nat) (f : Word → Word) : (s.modReg a f).lk = s.lk := rfl
@[simp] theorem modReg_fab (s : State) (a : Nat) (f : Word → Word) : (s.modReg a f).fab = s.fab := rfl
@[simp] theorem modReg_out (s : State) (a : Nat) (f : Word → Word) : (s.modReg a f).out = s.out := rfl
@[simp] theorem modReg_freeCtr (s : State) (a : Nat) (f : Word → Word) : (s.modReg a f).freeCtr = s.freeCtr := rfl
@[simp] theorem modReg_pending (s : State) (a : Nat) (f : Word → Word) : (s.modReg a f).pending = s.pending := rfl

/-! ## report -/

@[simp] theorem report_sample (s : State) (c u : Nat) (d : List Word) : (s.report c u d).sample = s.sample := rfl
@[simp] theorem report_bsize (s : State) (c u : Nat) (d : List Word) : (s.report c u d).bsize = s.bsize := rfl
@[simp] theorem report_tiles (s : State) (c u : Nat) (d : List Word) : (s.report c u d).tiles = s.tiles := rfl
@[simp] theorem report_mem (s : State) (c u : Nat) (d : List Word) : (s.report c u d).mem = s.mem := rfl
@[simp] theorem report_ecc (s : State) (c u : Nat) (d : List Word) : (s.report c u d).ecc = s.ecc := rfl
@[simp] theorem report_wback (s : State) (c u : Nat) (d : List Word) : (s.report c u d).wback = s.wback := rfl
@[simp] theorem report_bmt (s : State) (c u : Nat) (d : List Word) : (s.report c u d).bmt = s.bmt := rfl
@[simp] theorem report_merr (s : State) (c u : Nat) (d : List Word) : (s.report c u d).merr = s.merr := rfl
@[simp] theorem report_csr (s : State) (c u : Nat) (d : List Word) : (s.report c u d).csr = s.csr := rfl
@[simp] theorem report_dev (s : State) (c u : Nat) (d : List Word) : (s.report c u d).dev = s.dev := rfl
@[simp] theorem report_host (s : State) (c u : Nat) (d : List Word) : (s.report c u d).host = s.host := rfl
@[simp] theorem report_ce (s : State) (c u : Nat) (d : List Word) : (s.report c u d).ce = s.ce := rfl
@[simp] theorem report_aud (s : State) (c u : Nat) (d : List Word) : (s.report c u d).aud = s.aud := rfl
@[simp] theorem report_net (s : State) (c u : Nat) (d : List Word) : (s.report c u d).net = s.net := rfl
@[simp] theorem report_lk (s : State) (c u : Nat) (d : List Word) : (s.report c u d).lk = s.lk := rfl
@[simp] theorem report_fab (s : State) (c u : Nat) (d : List Word) : (s.report c u d).fab = s.fab := rfl
@[simp] theorem report_out (s : State) (c u : Nat) (d : List Word) : (s.report c u d).out = s.out := rfl
@[simp] theorem report_freeCtr (s : State) (c u : Nat) (d : List Word) : (s.report c u d).freeCtr = s.freeCtr := rfl
@[simp] theorem report_pending (s : State) (c u : Nat) (d : List Word) : (s.report c u d).pending = s.pending := rfl

/-! ## setTile -/

@[simp] theorem setTile_sample (s : State) (u : UnitIx) (t : Tile) : (s.setTile u t).sample = s.sample := rfl
@[simp] theorem setTile_bsize (s : State) (u : UnitIx) (t : Tile) : (s.setTile u t).bsize = s.bsize := rfl
@[simp] theorem setTile_tiles (s : State) (u : UnitIx) (t : Tile) : (s.setTile u t).tiles = s.tiles.set u t := rfl
@[simp] theorem setTile_mem (s : State) (u : UnitIx) (t : Tile) : (s.setTile u t).mem = s.mem := rfl
@[simp] theorem setTile_ecc (s : State) (u : UnitIx) (t : Tile) : (s.setTile u t).ecc = s.ecc := rfl
@[simp] theorem setTile_wback (s : State) (u : UnitIx) (t : Tile) : (s.setTile u t).wback = s.wback := rfl
@[simp] theorem setTile_bmt (s : State) (u : UnitIx) (t : Tile) : (s.setTile u t).bmt = s.bmt := rfl
@[simp] theorem setTile_merr (s : State) (u : UnitIx) (t : Tile) : (s.setTile u t).merr = s.merr := rfl
@[simp] theorem setTile_csr (s : State) (u : UnitIx) (t : Tile) : (s.setTile u t).csr = s.csr := rfl
@[simp] theorem setTile_reports (s : State) (u : UnitIx) (t : Tile) : (s.setTile u t).reports = s.reports := rfl
@[simp] theorem setTile_dev (s : State) (u : UnitIx) (t : Tile) : (s.setTile u t).dev = s.dev := rfl
@[simp] theorem setTile_host (s : State) (u : UnitIx) (t : Tile) : (s.setTile u t).host = s.host := rfl
@[simp] theorem setTile_ce (s : State) (u : UnitIx) (t : Tile) : (s.setTile u t).ce = s.ce := rfl
@[simp] theorem setTile_aud (s : State) (u : UnitIx) (t : Tile) : (s.setTile u t).aud = s.aud := rfl
@[simp] theorem setTile_net (s : State) (u : UnitIx) (t : Tile) : (s.setTile u t).net = s.net := rfl
@[simp] theorem setTile_lk (s : State) (u : UnitIx) (t : Tile) : (s.setTile u t).lk = s.lk := rfl
@[simp] theorem setTile_fab (s : State) (u : UnitIx) (t : Tile) : (s.setTile u t).fab = s.fab := rfl
@[simp] theorem setTile_out (s : State) (u : UnitIx) (t : Tile) : (s.setTile u t).out = s.out := rfl
@[simp] theorem setTile_freeCtr (s : State) (u : UnitIx) (t : Tile) : (s.setTile u t).freeCtr = s.freeCtr := rfl
@[simp] theorem setTile_pending (s : State) (u : UnitIx) (t : Tile) : (s.setTile u t).pending = s.pending := rfl

/-! ## modTile -/

@[simp] theorem modTile_sample (s : State) (u : UnitIx) (f : Tile → Tile) : (s.modTile u f).sample = s.sample := rfl
@[simp] theorem modTile_bsize (s : State) (u : UnitIx) (f : Tile → Tile) : (s.modTile u f).bsize = s.bsize := rfl
@[simp] theorem modTile_tiles (s : State) (u : UnitIx) (f : Tile → Tile) : (s.modTile u f).tiles = s.tiles.set u (f (s.tile u)) := rfl
@[simp] theorem modTile_mem (s : State) (u : UnitIx) (f : Tile → Tile) : (s.modTile u f).mem = s.mem := rfl
@[simp] theorem modTile_ecc (s : State) (u : UnitIx) (f : Tile → Tile) : (s.modTile u f).ecc = s.ecc := rfl
@[simp] theorem modTile_wback (s : State) (u : UnitIx) (f : Tile → Tile) : (s.modTile u f).wback = s.wback := rfl
@[simp] theorem modTile_bmt (s : State) (u : UnitIx) (f : Tile → Tile) : (s.modTile u f).bmt = s.bmt := rfl
@[simp] theorem modTile_merr (s : State) (u : UnitIx) (f : Tile → Tile) : (s.modTile u f).merr = s.merr := rfl
@[simp] theorem modTile_csr (s : State) (u : UnitIx) (f : Tile → Tile) : (s.modTile u f).csr = s.csr := rfl
@[simp] theorem modTile_reports (s : State) (u : UnitIx) (f : Tile → Tile) : (s.modTile u f).reports = s.reports := rfl
@[simp] theorem modTile_dev (s : State) (u : UnitIx) (f : Tile → Tile) : (s.modTile u f).dev = s.dev := rfl
@[simp] theorem modTile_host (s : State) (u : UnitIx) (f : Tile → Tile) : (s.modTile u f).host = s.host := rfl
@[simp] theorem modTile_ce (s : State) (u : UnitIx) (f : Tile → Tile) : (s.modTile u f).ce = s.ce := rfl
@[simp] theorem modTile_aud (s : State) (u : UnitIx) (f : Tile → Tile) : (s.modTile u f).aud = s.aud := rfl
@[simp] theorem modTile_net (s : State) (u : UnitIx) (f : Tile → Tile) : (s.modTile u f).net = s.net := rfl
@[simp] theorem modTile_lk (s : State) (u : UnitIx) (f : Tile → Tile) : (s.modTile u f).lk = s.lk := rfl
@[simp] theorem modTile_fab (s : State) (u : UnitIx) (f : Tile → Tile) : (s.modTile u f).fab = s.fab := rfl
@[simp] theorem modTile_out (s : State) (u : UnitIx) (f : Tile → Tile) : (s.modTile u f).out = s.out := rfl
@[simp] theorem modTile_freeCtr (s : State) (u : UnitIx) (f : Tile → Tile) : (s.modTile u f).freeCtr = s.freeCtr := rfl
@[simp] theorem modTile_pending (s : State) (u : UnitIx) (f : Tile → Tile) : (s.modTile u f).pending = s.pending := rfl

/-! ## modDev -/

@[simp] theorem modDev_sample (s : State) (f : Device → Device) : (s.modDev f).sample = s.sample := rfl
@[simp] theorem modDev_bsize (s : State) (f : Device → Device) : (s.modDev f).bsize = s.bsize := rfl
@[simp] theorem modDev_tiles (s : State) (f : Device → Device) : (s.modDev f).tiles = s.tiles := rfl
@[simp] theorem modDev_mem (s : State) (f : Device → Device) : (s.modDev f).mem = s.mem := rfl
@[simp] theorem modDev_ecc (s : State) (f : Device → Device) : (s.modDev f).ecc = s.ecc := rfl
@[simp] theorem modDev_wback (s : State) (f : Device → Device) : (s.modDev f).wback = s.wback := rfl
@[simp] theorem modDev_bmt (s : State) (f : Device → Device) : (s.modDev f).bmt = s.bmt := rfl
@[simp] theorem modDev_merr (s : State) (f : Device → Device) : (s.modDev f).merr = s.merr := rfl
@[simp] theorem modDev_csr (s : State) (f : Device → Device) : (s.modDev f).csr = s.csr := rfl
@[simp] theorem modDev_reports (s : State) (f : Device → Device) : (s.modDev f).reports = s.reports := rfl
@[simp] theorem modDev_dev (s : State) (f : Device → Device) : (s.modDev f).dev = f s.dev := rfl
@[simp] theorem modDev_host (s : State) (f : Device → Device) : (s.modDev f).host = s.host := rfl
@[simp] theorem modDev_ce (s : State) (f : Device → Device) : (s.modDev f).ce = s.ce := rfl
@[simp] theorem modDev_aud (s : State) (f : Device → Device) : (s.modDev f).aud = s.aud := rfl
@[simp] theorem modDev_net (s : State) (f : Device → Device) : (s.modDev f).net = s.net := rfl
@[simp] theorem modDev_lk (s : State) (f : Device → Device) : (s.modDev f).lk = s.lk := rfl
@[simp] theorem modDev_fab (s : State) (f : Device → Device) : (s.modDev f).fab = s.fab := rfl
@[simp] theorem modDev_out (s : State) (f : Device → Device) : (s.modDev f).out = s.out := rfl
@[simp] theorem modDev_freeCtr (s : State) (f : Device → Device) : (s.modDev f).freeCtr = s.freeCtr := rfl
@[simp] theorem modDev_pending (s : State) (f : Device → Device) : (s.modDev f).pending = s.pending := rfl

/-! ## modHost -/

@[simp] theorem modHost_sample (s : State) (f : HostState → HostState) : (s.modHost f).sample = s.sample := rfl
@[simp] theorem modHost_bsize (s : State) (f : HostState → HostState) : (s.modHost f).bsize = s.bsize := rfl
@[simp] theorem modHost_tiles (s : State) (f : HostState → HostState) : (s.modHost f).tiles = s.tiles := rfl
@[simp] theorem modHost_mem (s : State) (f : HostState → HostState) : (s.modHost f).mem = s.mem := rfl
@[simp] theorem modHost_ecc (s : State) (f : HostState → HostState) : (s.modHost f).ecc = s.ecc := rfl
@[simp] theorem modHost_wback (s : State) (f : HostState → HostState) : (s.modHost f).wback = s.wback := rfl
@[simp] theorem modHost_bmt (s : State) (f : HostState → HostState) : (s.modHost f).bmt = s.bmt := rfl
@[simp] theorem modHost_merr (s : State) (f : HostState → HostState) : (s.modHost f).merr = s.merr := rfl
@[simp] theorem modHost_csr (s : State) (f : HostState → HostState) : (s.modHost f).csr = s.csr := rfl
@[simp] theorem modHost_reports (s : State) (f : HostState → HostState) : (s.modHost f).reports = s.reports := rfl
@[simp] theorem modHost_dev (s : State) (f : HostState → HostState) : (s.modHost f).dev = s.dev := rfl
@[simp] theorem modHost_host (s : State) (f : HostState → HostState) : (s.modHost f).host = f s.host := rfl
@[simp] theorem modHost_ce (s : State) (f : HostState → HostState) : (s.modHost f).ce = s.ce := rfl
@[simp] theorem modHost_aud (s : State) (f : HostState → HostState) : (s.modHost f).aud = s.aud := rfl
@[simp] theorem modHost_net (s : State) (f : HostState → HostState) : (s.modHost f).net = s.net := rfl
@[simp] theorem modHost_lk (s : State) (f : HostState → HostState) : (s.modHost f).lk = s.lk := rfl
@[simp] theorem modHost_fab (s : State) (f : HostState → HostState) : (s.modHost f).fab = s.fab := rfl
@[simp] theorem modHost_out (s : State) (f : HostState → HostState) : (s.modHost f).out = s.out := rfl
@[simp] theorem modHost_freeCtr (s : State) (f : HostState → HostState) : (s.modHost f).freeCtr = s.freeCtr := rfl
@[simp] theorem modHost_pending (s : State) (f : HostState → HostState) : (s.modHost f).pending = s.pending := rfl

/-! ## emit -/

@[simp] theorem emit_sample (s : State) (o : Out) : (s.emit o).sample = s.sample := rfl
@[simp] theorem emit_bsize (s : State) (o : Out) : (s.emit o).bsize = s.bsize := rfl
@[simp] theorem emit_tiles (s : State) (o : Out) : (s.emit o).tiles = s.tiles := rfl
@[simp] theorem emit_mem (s : State) (o : Out) : (s.emit o).mem = s.mem := rfl
@[simp] theorem emit_ecc (s : State) (o : Out) : (s.emit o).ecc = s.ecc := rfl
@[simp] theorem emit_wback (s : State) (o : Out) : (s.emit o).wback = s.wback := rfl
@[simp] theorem emit_bmt (s : State) (o : Out) : (s.emit o).bmt = s.bmt := rfl
@[simp] theorem emit_merr (s : State) (o : Out) : (s.emit o).merr = s.merr := rfl
@[simp] theorem emit_csr (s : State) (o : Out) : (s.emit o).csr = s.csr := rfl
@[simp] theorem emit_reports (s : State) (o : Out) : (s.emit o).reports = s.reports := rfl
@[simp] theorem emit_dev (s : State) (o : Out) : (s.emit o).dev = s.dev := rfl
@[simp] theorem emit_host (s : State) (o : Out) : (s.emit o).host = s.host := rfl
@[simp] theorem emit_ce (s : State) (o : Out) : (s.emit o).ce = s.ce := rfl
@[simp] theorem emit_aud (s : State) (o : Out) : (s.emit o).aud = s.aud := rfl
@[simp] theorem emit_net (s : State) (o : Out) : (s.emit o).net = s.net := rfl
@[simp] theorem emit_lk (s : State) (o : Out) : (s.emit o).lk = s.lk := rfl
@[simp] theorem emit_fab (s : State) (o : Out) : (s.emit o).fab = s.fab := rfl
@[simp] theorem emit_out (s : State) (o : Out) : (s.emit o).out = o :: s.out := rfl
@[simp] theorem emit_freeCtr (s : State) (o : Out) : (s.emit o).freeCtr = s.freeCtr := rfl
@[simp] theorem emit_pending (s : State) (o : Out) : (s.emit o).pending = s.pending := rfl

/-! ## modEng -/

@[simp] theorem modEng_sample (s : State) (k : Fin 4) (f : CeState → CeState) : (s.modEng k f).sample = s.sample := rfl
@[simp] theorem modEng_bsize (s : State) (k : Fin 4) (f : CeState → CeState) : (s.modEng k f).bsize = s.bsize := rfl
@[simp] theorem modEng_tiles (s : State) (k : Fin 4) (f : CeState → CeState) : (s.modEng k f).tiles = s.tiles := rfl
@[simp] theorem modEng_mem (s : State) (k : Fin 4) (f : CeState → CeState) : (s.modEng k f).mem = s.mem := rfl
@[simp] theorem modEng_ecc (s : State) (k : Fin 4) (f : CeState → CeState) : (s.modEng k f).ecc = s.ecc := rfl
@[simp] theorem modEng_wback (s : State) (k : Fin 4) (f : CeState → CeState) : (s.modEng k f).wback = s.wback := rfl
@[simp] theorem modEng_bmt (s : State) (k : Fin 4) (f : CeState → CeState) : (s.modEng k f).bmt = s.bmt := rfl
@[simp] theorem modEng_merr (s : State) (k : Fin 4) (f : CeState → CeState) : (s.modEng k f).merr = s.merr := rfl
@[simp] theorem modEng_csr (s : State) (k : Fin 4) (f : CeState → CeState) : (s.modEng k f).csr = s.csr := rfl
@[simp] theorem modEng_reports (s : State) (k : Fin 4) (f : CeState → CeState) : (s.modEng k f).reports = s.reports := rfl
@[simp] theorem modEng_dev (s : State) (k : Fin 4) (f : CeState → CeState) : (s.modEng k f).dev = s.dev := rfl
@[simp] theorem modEng_host (s : State) (k : Fin 4) (f : CeState → CeState) : (s.modEng k f).host = s.host := rfl
@[simp] theorem modEng_ce (s : State) (k : Fin 4) (f : CeState → CeState) : (s.modEng k f).ce = s.ce.set k (f s.ce[k]) := rfl
@[simp] theorem modEng_aud (s : State) (k : Fin 4) (f : CeState → CeState) : (s.modEng k f).aud = s.aud := rfl
@[simp] theorem modEng_net (s : State) (k : Fin 4) (f : CeState → CeState) : (s.modEng k f).net = s.net := rfl
@[simp] theorem modEng_lk (s : State) (k : Fin 4) (f : CeState → CeState) : (s.modEng k f).lk = s.lk := rfl
@[simp] theorem modEng_fab (s : State) (k : Fin 4) (f : CeState → CeState) : (s.modEng k f).fab = s.fab := rfl
@[simp] theorem modEng_out (s : State) (k : Fin 4) (f : CeState → CeState) : (s.modEng k f).out = s.out := rfl
@[simp] theorem modEng_freeCtr (s : State) (k : Fin 4) (f : CeState → CeState) : (s.modEng k f).freeCtr = s.freeCtr := rfl
@[simp] theorem modEng_pending (s : State) (k : Fin 4) (f : CeState → CeState) : (s.modEng k f).pending = s.pending := rfl

/-! ## modAud -/

@[simp] theorem modAud_sample (s : State) (f : Audio → Audio) : (s.modAud f).sample = s.sample := rfl
@[simp] theorem modAud_bsize (s : State) (f : Audio → Audio) : (s.modAud f).bsize = s.bsize := rfl
@[simp] theorem modAud_tiles (s : State) (f : Audio → Audio) : (s.modAud f).tiles = s.tiles := rfl
@[simp] theorem modAud_mem (s : State) (f : Audio → Audio) : (s.modAud f).mem = s.mem := rfl
@[simp] theorem modAud_ecc (s : State) (f : Audio → Audio) : (s.modAud f).ecc = s.ecc := rfl
@[simp] theorem modAud_wback (s : State) (f : Audio → Audio) : (s.modAud f).wback = s.wback := rfl
@[simp] theorem modAud_bmt (s : State) (f : Audio → Audio) : (s.modAud f).bmt = s.bmt := rfl
@[simp] theorem modAud_merr (s : State) (f : Audio → Audio) : (s.modAud f).merr = s.merr := rfl
@[simp] theorem modAud_csr (s : State) (f : Audio → Audio) : (s.modAud f).csr = s.csr := rfl
@[simp] theorem modAud_reports (s : State) (f : Audio → Audio) : (s.modAud f).reports = s.reports := rfl
@[simp] theorem modAud_dev (s : State) (f : Audio → Audio) : (s.modAud f).dev = s.dev := rfl
@[simp] theorem modAud_host (s : State) (f : Audio → Audio) : (s.modAud f).host = s.host := rfl
@[simp] theorem modAud_ce (s : State) (f : Audio → Audio) : (s.modAud f).ce = s.ce := rfl
@[simp] theorem modAud_aud (s : State) (f : Audio → Audio) : (s.modAud f).aud = f s.aud := rfl
@[simp] theorem modAud_net (s : State) (f : Audio → Audio) : (s.modAud f).net = s.net := rfl
@[simp] theorem modAud_lk (s : State) (f : Audio → Audio) : (s.modAud f).lk = s.lk := rfl
@[simp] theorem modAud_fab (s : State) (f : Audio → Audio) : (s.modAud f).fab = s.fab := rfl
@[simp] theorem modAud_out (s : State) (f : Audio → Audio) : (s.modAud f).out = s.out := rfl
@[simp] theorem modAud_freeCtr (s : State) (f : Audio → Audio) : (s.modAud f).freeCtr = s.freeCtr := rfl
@[simp] theorem modAud_pending (s : State) (f : Audio → Audio) : (s.modAud f).pending = s.pending := rfl

/-! ## modNet -/

@[simp] theorem modNet_sample (s : State) (f : NetState → NetState) : (s.modNet f).sample = s.sample := rfl
@[simp] theorem modNet_bsize (s : State) (f : NetState → NetState) : (s.modNet f).bsize = s.bsize := rfl
@[simp] theorem modNet_tiles (s : State) (f : NetState → NetState) : (s.modNet f).tiles = s.tiles := rfl
@[simp] theorem modNet_mem (s : State) (f : NetState → NetState) : (s.modNet f).mem = s.mem := rfl
@[simp] theorem modNet_ecc (s : State) (f : NetState → NetState) : (s.modNet f).ecc = s.ecc := rfl
@[simp] theorem modNet_wback (s : State) (f : NetState → NetState) : (s.modNet f).wback = s.wback := rfl
@[simp] theorem modNet_bmt (s : State) (f : NetState → NetState) : (s.modNet f).bmt = s.bmt := rfl
@[simp] theorem modNet_merr (s : State) (f : NetState → NetState) : (s.modNet f).merr = s.merr := rfl
@[simp] theorem modNet_csr (s : State) (f : NetState → NetState) : (s.modNet f).csr = s.csr := rfl
@[simp] theorem modNet_reports (s : State) (f : NetState → NetState) : (s.modNet f).reports = s.reports := rfl
@[simp] theorem modNet_dev (s : State) (f : NetState → NetState) : (s.modNet f).dev = s.dev := rfl
@[simp] theorem modNet_host (s : State) (f : NetState → NetState) : (s.modNet f).host = s.host := rfl
@[simp] theorem modNet_ce (s : State) (f : NetState → NetState) : (s.modNet f).ce = s.ce := rfl
@[simp] theorem modNet_aud (s : State) (f : NetState → NetState) : (s.modNet f).aud = s.aud := rfl
@[simp] theorem modNet_net (s : State) (f : NetState → NetState) : (s.modNet f).net = f s.net := rfl
@[simp] theorem modNet_lk (s : State) (f : NetState → NetState) : (s.modNet f).lk = s.lk := rfl
@[simp] theorem modNet_fab (s : State) (f : NetState → NetState) : (s.modNet f).fab = s.fab := rfl
@[simp] theorem modNet_out (s : State) (f : NetState → NetState) : (s.modNet f).out = s.out := rfl
@[simp] theorem modNet_freeCtr (s : State) (f : NetState → NetState) : (s.modNet f).freeCtr = s.freeCtr := rfl
@[simp] theorem modNet_pending (s : State) (f : NetState → NetState) : (s.modNet f).pending = s.pending := rfl

/-! ## modLk -/

@[simp] theorem modLk_sample (s : State) (f : Lichen → Lichen) : (s.modLk f).sample = s.sample := rfl
@[simp] theorem modLk_bsize (s : State) (f : Lichen → Lichen) : (s.modLk f).bsize = s.bsize := rfl
@[simp] theorem modLk_tiles (s : State) (f : Lichen → Lichen) : (s.modLk f).tiles = s.tiles := rfl
@[simp] theorem modLk_mem (s : State) (f : Lichen → Lichen) : (s.modLk f).mem = s.mem := rfl
@[simp] theorem modLk_ecc (s : State) (f : Lichen → Lichen) : (s.modLk f).ecc = s.ecc := rfl
@[simp] theorem modLk_wback (s : State) (f : Lichen → Lichen) : (s.modLk f).wback = s.wback := rfl
@[simp] theorem modLk_bmt (s : State) (f : Lichen → Lichen) : (s.modLk f).bmt = s.bmt := rfl
@[simp] theorem modLk_merr (s : State) (f : Lichen → Lichen) : (s.modLk f).merr = s.merr := rfl
@[simp] theorem modLk_csr (s : State) (f : Lichen → Lichen) : (s.modLk f).csr = s.csr := rfl
@[simp] theorem modLk_reports (s : State) (f : Lichen → Lichen) : (s.modLk f).reports = s.reports := rfl
@[simp] theorem modLk_dev (s : State) (f : Lichen → Lichen) : (s.modLk f).dev = s.dev := rfl
@[simp] theorem modLk_host (s : State) (f : Lichen → Lichen) : (s.modLk f).host = s.host := rfl
@[simp] theorem modLk_ce (s : State) (f : Lichen → Lichen) : (s.modLk f).ce = s.ce := rfl
@[simp] theorem modLk_aud (s : State) (f : Lichen → Lichen) : (s.modLk f).aud = s.aud := rfl
@[simp] theorem modLk_net (s : State) (f : Lichen → Lichen) : (s.modLk f).net = s.net := rfl
@[simp] theorem modLk_lk (s : State) (f : Lichen → Lichen) : (s.modLk f).lk = f s.lk := rfl
@[simp] theorem modLk_fab (s : State) (f : Lichen → Lichen) : (s.modLk f).fab = s.fab := rfl
@[simp] theorem modLk_out (s : State) (f : Lichen → Lichen) : (s.modLk f).out = s.out := rfl
@[simp] theorem modLk_freeCtr (s : State) (f : Lichen → Lichen) : (s.modLk f).freeCtr = s.freeCtr := rfl
@[simp] theorem modLk_pending (s : State) (f : Lichen → Lichen) : (s.modLk f).pending = s.pending := rfl

/-! ## modBmt -/

@[simp] theorem modBmt_sample (s : State) (n : Nat) (f : BmtState → BmtState) : (s.modBmt n f).sample = s.sample := rfl
@[simp] theorem modBmt_bsize (s : State) (n : Nat) (f : BmtState → BmtState) : (s.modBmt n f).bsize = s.bsize := rfl
@[simp] theorem modBmt_tiles (s : State) (n : Nat) (f : BmtState → BmtState) : (s.modBmt n f).tiles = s.tiles := rfl
@[simp] theorem modBmt_mem (s : State) (n : Nat) (f : BmtState → BmtState) : (s.modBmt n f).mem = s.mem := rfl
@[simp] theorem modBmt_ecc (s : State) (n : Nat) (f : BmtState → BmtState) : (s.modBmt n f).ecc = s.ecc := rfl
@[simp] theorem modBmt_wback (s : State) (n : Nat) (f : BmtState → BmtState) : (s.modBmt n f).wback = s.wback := rfl
@[simp] theorem modBmt_bmt (s : State) (n : Nat) (f : BmtState → BmtState) : (s.modBmt n f).bmt = vmod s.bmt n f := rfl
@[simp] theorem modBmt_merr (s : State) (n : Nat) (f : BmtState → BmtState) : (s.modBmt n f).merr = s.merr := rfl
@[simp] theorem modBmt_csr (s : State) (n : Nat) (f : BmtState → BmtState) : (s.modBmt n f).csr = s.csr := rfl
@[simp] theorem modBmt_reports (s : State) (n : Nat) (f : BmtState → BmtState) : (s.modBmt n f).reports = s.reports := rfl
@[simp] theorem modBmt_dev (s : State) (n : Nat) (f : BmtState → BmtState) : (s.modBmt n f).dev = s.dev := rfl
@[simp] theorem modBmt_host (s : State) (n : Nat) (f : BmtState → BmtState) : (s.modBmt n f).host = s.host := rfl
@[simp] theorem modBmt_ce (s : State) (n : Nat) (f : BmtState → BmtState) : (s.modBmt n f).ce = s.ce := rfl
@[simp] theorem modBmt_aud (s : State) (n : Nat) (f : BmtState → BmtState) : (s.modBmt n f).aud = s.aud := rfl
@[simp] theorem modBmt_net (s : State) (n : Nat) (f : BmtState → BmtState) : (s.modBmt n f).net = s.net := rfl
@[simp] theorem modBmt_lk (s : State) (n : Nat) (f : BmtState → BmtState) : (s.modBmt n f).lk = s.lk := rfl
@[simp] theorem modBmt_fab (s : State) (n : Nat) (f : BmtState → BmtState) : (s.modBmt n f).fab = s.fab := rfl
@[simp] theorem modBmt_out (s : State) (n : Nat) (f : BmtState → BmtState) : (s.modBmt n f).out = s.out := rfl
@[simp] theorem modBmt_freeCtr (s : State) (n : Nat) (f : BmtState → BmtState) : (s.modBmt n f).freeCtr = s.freeCtr := rfl
@[simp] theorem modBmt_pending (s : State) (n : Nat) (f : BmtState → BmtState) : (s.modBmt n f).pending = s.pending := rfl

end Sys2Proof.Laws
end

