-- ==== Sys2Proof/Laws/Issue.lean ====
section
/-! SUPPORT. How a frond issues: what the end of a cycle keeps of a unit's front end, and what a whole frond of M, A, X and V operations
leaves on its way. -/

namespace Sys2Proof.Laws

open Sys2Proof.Machine

/-! ## Units -/

@[simp] theorem tile_setTile_same (s : State) (u : UnitIx) (t : Tile) : (s.setTile u t).tile u = t := by
  simp [State.tile, State.setTile]

@[simp] theorem tile_setTile_other (s : State) (u v : UnitIx) (t : Tile) (h : v ≠ u) : (s.setTile u t).tile v = s.tile v := by
  have : u.val ≠ v.val := fun e => h (Fin.ext e.symm)
  simp [State.tile, State.setTile, this]

@[simp] theorem tile_modTile_same (s : State) (u : UnitIx) (f : Tile → Tile) : (s.modTile u f).tile u = f (s.tile u) :=
  tile_setTile_same s u _

@[simp] theorem tile_modTile_other (s : State) (u v : UnitIx) (f : Tile → Tile) (h : v ≠ u) : (s.modTile u f).tile v = s.tile v :=
  tile_setTile_other s u v _ h

theorem tile_of_tiles {s t : State} (h : t.tiles = s.tiles) (v : UnitIx) : t.tile v = s.tile v := by
  simp [State.tile, h]

/-! ## Operations that leave every unit alone -/

theorem foldl_tiles {α : Type} (f : State → α → State) (hf : ∀ s a, (f s a).tiles = s.tiles) (l : List α) (s : State) :
    (l.foldl f s).tiles = s.tiles := by
  induction l generalizing s with
  | nil => rfl
  | cons a l ih => exact (ih (f s a)).trans (hf s a)

@[simp] theorem eccRecordAt_tiles (s : State) (a k : Nat) (m : EccMark) (q : Nat) : (s.eccRecordAt a k m q).tiles = s.tiles := by
  unfold State.eccRecordAt
  split
  · rfl
  · dsimp only
    split <;> rfl

@[simp] theorem eccRecord_tiles (s : State) (a : Nat) (m : EccMark) (q : Nat) : (s.eccRecord a m q).tiles = s.tiles :=
  eccRecordAt_tiles ..

@[simp] theorem reportCe_tiles (s : State) (a : Nat) : (s.reportCe a).tiles = s.tiles := by
  unfold State.reportCe
  split <;> rfl

@[simp] theorem eccRead_tiles (s : State) (a q : Nat) : (s.eccRead a q).tiles = s.tiles := by
  unfold State.eccRead
  split
  · rfl
  · simp
  · split <;> simp

@[simp] theorem eccReadRange_tiles (s : State) (a n q : Nat) : (s.eccReadRange a n q).tiles = s.tiles :=
  foldl_tiles _ (fun s w => eccRead_tiles s w q) _ _

@[simp] theorem setByte_tiles (s : State) (a : Nat) (b : Byte) : (s.setByte a b).tiles = s.tiles := by
  unfold State.setByte
  split <;> rfl

@[simp] theorem setBytes_tiles (s : State) (a : Nat) (bs : List Byte) : (s.setBytes a bs).tiles = s.tiles := by
  induction bs generalizing s a with
  | nil => rfl
  | cons b r ih => exact (ih (s.setByte a b) (a + 1)).trans (setByte_tiles s a b)

@[simp] theorem eccMerge_tiles (s : State) (w k : Nat) (full : Bool) (q : Nat) : (s.eccMerge w k full q).tiles = s.tiles := by
  unfold State.eccMerge
  split
  · rfl
  · split <;> simp [State.unmark]
  · split <;> rfl

@[simp] theorem eccWriteWord_tiles (s : State) (w a n q : Nat) : (s.eccWriteWord w a n q).tiles = s.tiles := by
  unfold State.eccWriteWord
  dsimp only
  split <;> simp

@[simp] theorem memWrite_tiles (s : State) (a : Nat) (bs : List Byte) (q : Nat) : (s.memWrite a bs q).tiles = s.tiles := by
  unfold State.memWrite
  rw [setBytes_tiles]
  exact foldl_tiles _ (fun s w => eccWriteWord_tiles s w a bs.length q) _ _

@[simp] theorem localWrite_tiles (s : State) (u : UnitIx) (a : Nat) (bs : List Byte) : (s.localWrite u a bs).tiles = s.tiles :=
  memWrite_tiles s _ bs 0

/-! ## What retirement keeps of the front end -/

/-- The front end of a unit: what retiring results leave alone. -/
structure FrontSame (x y : Tile) : Prop where
  pc     : y.pc = x.pc
  frond  : y.frond = x.frond
  pend   : y.pend = x.pend
  cycle  : y.cycle = x.cycle
  halted : y.halted = x.halted
  dbgCtl : y.dbgCtl = x.dbgCtl

theorem FrontSame.refl (x : Tile) : FrontSame x x := ⟨rfl, rfl, rfl, rfl, rfl, rfl⟩

theorem FrontSame.trans {x y z : Tile} (h : FrontSame x y) (g : FrontSame y z) : FrontSame x z :=
  ⟨g.pc.trans h.pc, g.frond.trans h.frond, g.pend.trans h.pend, g.cycle.trans h.cycle, g.halted.trans h.halted, g.dbgCtl.trans h.dbgCtl⟩

theorem setAreg_front (t : Tile) (c : BitVec 2) (i : BitVec 4) (v : Word) : FrontSame t (t.setAreg c i v) := by
  unfold Tile.setAreg
  split <;> exact ⟨rfl, rfl, rfl, rfl, rfl, rfl⟩

theorem writeSreg_front (t : Tile) (n : Nat) (v : Word) : FrontSame t (t.writeSreg n v) := by
  unfold Tile.writeSreg
  dsimp only
  split
  all_goals first
    | exact ⟨rfl, rfl, rfl, rfl, rfl, rfl⟩
    | (repeat' split) <;> exact ⟨rfl, rfl, rfl, rfl, rfl, rfl⟩

theorem dropRun_front (t : Tile) (k : TicketIx) : FrontSame t (t.dropRun k) := ⟨rfl, rfl, rfl, rfl, rfl, rfl⟩

theorem tdone_front (t : Tile) (k : TicketIx) (st : Byte) : FrontSame t (t.tdone k st) := by
  unfold Tile.tdone
  split <;> exact ⟨rfl, rfl, rfl, rfl, rfl, rfl⟩

theorem raiseTrap_front (t : Tile) (c : BitVec 5) (n : Nat) (pc : Word) (k : BitVec 3) : FrontSame t (t.raiseTrap c n pc k) := by
  unfold Tile.raiseTrap
  split <;> exact ⟨rfl, rfl, rfl, rfl, rfl, rfl⟩

theorem retireOne_front (u : UnitIx) (s : State) (e : Pend) : FrontSame (s.tile u) ((retireOne u s e).tile u) := by
  unfold retireOne
  split
  case h_1 => rw [tile_of_tiles (localWrite_tiles ..)]; exact .refl _
  case h_2 => simp only [tile_modTile_same]; exact ⟨rfl, rfl, rfl, rfl, rfl, rfl⟩
  case h_3 => simp only [tile_modTile_same]; exact setAreg_front ..
  case h_4 => simp only [tile_modTile_same]; exact ⟨rfl, rfl, rfl, rfl, rfl, rfl⟩
  case h_5 =>
    simp only [tile_modTile_same]
    split
    · exact ⟨rfl, rfl, rfl, rfl, rfl, rfl⟩
    · exact writeSreg_front ..
  case h_6 => simp only [tile_modTile_same]; exact ⟨rfl, rfl, rfl, rfl, rfl, rfl⟩
  case h_7 => simp only [tile_modTile_same]; exact ⟨rfl, rfl, rfl, rfl, rfl, rfl⟩
  case h_8 => simp only [tile_modTile_same]; exact ⟨rfl, rfl, rfl, rfl, rfl, rfl⟩
  case h_9 =>
    split
    · exact .refl _
    · rw [tile_of_tiles (foldl_tiles _ (fun (s : State) (r : Nat × List Byte) => localWrite_tiles s u r.1 r.2) _ _)]
      exact .refl _
  case h_10 => exact .refl _
  case h_11 => exact .refl _
  case h_12 => simp only [tile_modTile_same]; exact tdone_front ..

theorem retireFlag_front (u : UnitIx) (s : State) (w : Wr) : FrontSame (s.tile u) ((retireFlag u s w).tile u) := by
  unfold retireFlag
  split
  · simp only [tile_modTile_same]; exact ⟨rfl, rfl, rfl, rfl, rfl, rfl⟩
  · simp only [tile_modTile_same]
    split
    · exact ⟨rfl, rfl, rfl, rfl, rfl, rfl⟩
    · refine FrontSame.trans ?_ (raiseTrap_front ..)
      exact ⟨rfl, rfl, rfl, rfl, rfl, rfl⟩
  · exact .refl _

theorem foldl_front {α : Type} (u : UnitIx) (f : State → α → State) (hf : ∀ s a, FrontSame (s.tile u) ((f s a).tile u)) (l : List α)
    (s : State) : FrontSame (s.tile u) ((l.foldl f s).tile u) := by
  induction l generalizing s with
  | nil => exact .refl _
  | cons a l ih => exact (hf s a).trans (ih (f s a))

/-- The end of a cycle keeps the front end; of the results, those that retire later stay, in place of vector stores that take their data
now. -/
theorem endCycle_front (u : UnitIx) (s : State) :
    ((endCycle u s).tile u).pc = (s.tile u).pc ∧ ((endCycle u s).tile u).frond = (s.tile u).frond ∧
    ((endCycle u s).tile u).halted = (s.tile u).halted ∧ ((endCycle u s).tile u).dbgCtl = (s.tile u).dbgCtl ∧
    ((endCycle u s).tile u).cycle = (s.tile u).cycle + 1 ∧
    ∀ e ∈ (s.tile u).pend, (s.tile u).cycle < e.retire → (s.tile u).cycle ≤ e.issue → e ∈ ((endCycle u s).tile u).pend := by
  unfold endCycle
  extract_lets c due old own s1 s2 s3 s4 s5
  have h1 : (s1.tile u).pend = (s.tile u).pend.filter (fun e => ¬ e.retire ≤ c) := by
    simp only [s1, tile_modTile_same]
  have f1 : (s1.tile u).pc = (s.tile u).pc ∧ (s1.tile u).frond = (s.tile u).frond ∧ (s1.tile u).halted = (s.tile u).halted ∧
      (s1.tile u).dbgCtl = (s.tile u).dbgCtl ∧ (s1.tile u).cycle = (s.tile u).cycle := by
    simp only [s1, tile_modTile_same, and_self]
  have f2 : FrontSame (s1.tile u) (s2.tile u) := foldl_front u _ (fun s e => retireOne_front u s e) old s1
  have f4 : FrontSame (s3.tile u) (s4.tile u) := foldl_front u _ (fun s e => retireOne_front u s e) own s3
  have f5 : FrontSame (s4.tile u) (s5.tile u) := foldl_front u _ (fun s e => retireFlag_front u s e.w) due s4
  have f3 : (s3.tile u).pc = (s2.tile u).pc ∧ (s3.tile u).frond = (s2.tile u).frond ∧ (s3.tile u).halted = (s2.tile u).halted ∧
      (s3.tile u).dbgCtl = (s2.tile u).dbgCtl ∧ (s3.tile u).cycle = (s2.tile u).cycle := by
    simp only [s3]
    split <;> simp [captureVst]
  simp only [tile_modTile_same]
  refine ⟨?_, ?_, ?_, ?_, ?_, ?_⟩
  · rw [f5.pc, f4.pc, f3.1, f2.pc, f1.1]
  · rw [f5.frond, f4.frond, f3.2.1, f2.frond, f1.2.1]
  · rw [f5.halted, f4.halted, f3.2.2.1, f2.halted, f1.2.2.1]
  · rw [f5.dbgCtl, f4.dbgCtl, f3.2.2.2.1, f2.dbgCtl, f1.2.2.2.1]
  · rw [f5.cycle, f4.cycle, f3.2.2.2.2, f2.cycle, f1.2.2.2.2]
  · intro e he hr hi
    rw [f5.pend, f4.pend]
    have he2 : e ∈ (s2.tile u).pend := by
      rw [f2.pend, h1, List.mem_filter]
      exact ⟨he, by simpa [c] using hr⟩
    simp only [s3]
    split
    · exact he2
    · next hc =>
      simp only [tile_modTile_same, captureVst, List.mem_map]
      refine ⟨e, he2, ?_⟩
      split
      · next r a b hw =>
        rw [if_neg (by omega)]
      · rfl

theorem issueCycle_front (u : UnitIx) (s : State) :
    ((issueCycle u s).tile u).pc = (s.tile u).pc ∧ ((issueCycle u s).tile u).frond = (s.tile u).frond ∧
    ((issueCycle u s).tile u).halted = (s.tile u).halted ∧ ((issueCycle u s).tile u).dbgCtl = (s.tile u).dbgCtl ∧
    ((issueCycle u s).tile u).cycle = (s.tile u).cycle + 1 ∧
    ∀ e ∈ (s.tile u).pend, (s.tile u).cycle < e.retire → (s.tile u).cycle ≤ e.issue → e ∈ ((issueCycle u s).tile u).pend := by
  unfold issueCycle
  extract_lets before
  split
  · have h := endCycle_front u (s.modTile u fun t => { t with l0 := t.l0 + 1 })
    simp only [tile_modTile_same] at h ⊢
    exact h
  · exact endCycle_front u s

/-! ## A frond that issues -/

/-- Every operation row but MACRO_TRAP, whose word is decoded, runs as its word at the front end. -/
theorem exec_op {c : Instr} {o : OpInfo} {u : UnitIx} (ho : opInfo c = some o) (hu : opUnit c = some u) (hm : ∀ v x, c ≠ .macroTrap v x)
    (s : State) : exec c s = .next (issueWord u c o.w.stop s) := by
  cases c <;> first
    | (cases hu; done)
    | exact absurd rfl (hm _ _)
    | (cases ho; cases hu; rfl)

/-- An operation whose whole effect is its results on their way. -/
structure Quiet (o : OpOut) : Prop where
  act   : o.act = id
  after : o.after = id

theorem quiet_ite {c : Prop} [Decidable c] {a b : OpOut} (ha : Quiet a) (hb : Quiet b) : Quiet (if c then a else b) := by
  split
  · exact ha
  · exact hb

theorem mOut_quiet (c : Ctx) (w : OpWord) (k : Bool) (f : MForm) : Quiet (mOut c w k f) :=
  quiet_ite ⟨rfl, rfl⟩ ⟨rfl, rfl⟩
theorem funOut_quiet (c : Ctx) (w : OpWord) (a k d e i f g) : Quiet (funOut c w a k d e i f g) :=
  quiet_ite ⟨rfl, rfl⟩ ⟨rfl, rfl⟩
theorem aOut_quiet (c : Ctx) (w : OpWord) (a b d e f g h) : Quiet (aOut c w a b d e f g h) :=
  quiet_ite ⟨rfl, rfl⟩ ⟨rfl, rfl⟩
theorem vOut_quiet (c : Ctx) (w : OpWord) (a d e f) : Quiet (vOut c w a d e f) :=
  quiet_ite ⟨rfl, rfl⟩ (quiet_ite ⟨rfl, rfl⟩ ⟨rfl, rfl⟩)
theorem vCompare_quiet (c : Ctx) (w : OpWord) (a f) : Quiet (vCompare c w a f) :=
  quiet_ite ⟨rfl, rfl⟩ (quiet_ite ⟨rfl, rfl⟩ ⟨rfl, rfl⟩)

theorem extOut_quiet (c : Ctx) (w : OpWord) : Quiet (extOut c w) := ⟨rfl, rfl⟩
theorem fmovDOut_quiet (c : Ctx) (w : OpWord) : Quiet (fmovDOut c w) := quiet_ite ⟨rfl, rfl⟩ ⟨rfl, rfl⟩
theorem fmovSOut_quiet (c : Ctx) (w : OpWord) : Quiet (fmovSOut c w) := quiet_ite ⟨rfl, rfl⟩ ⟨rfl, rfl⟩
theorem sextOut_quiet (c : Ctx) (w : OpWord) : Quiet (sextOut c w) := mOut_quiet ..
theorem zextOut_quiet (c : Ctx) (w : OpWord) : Quiet (zextOut c w) := mOut_quiet ..
theorem movOut_quiet (c : Ctx) (w : OpWord) : Quiet (movOut c w) := mOut_quiet ..
theorem addOut_quiet (c : Ctx) (w : OpWord) : Quiet (addOut c w) := mOut_quiet ..
theorem subOut_quiet (c : Ctx) (w : OpWord) : Quiet (subOut c w) := mOut_quiet ..
theorem addsOut_quiet (c : Ctx) (w : OpWord) : Quiet (addsOut c w) := mOut_quiet ..
theorem subsOut_quiet (c : Ctx) (w : OpWord) : Quiet (subsOut c w) := mOut_quiet ..
theorem negOut_quiet (c : Ctx) (w : OpWord) : Quiet (negOut c w) := mOut_quiet ..
theorem abssOut_quiet (c : Ctx) (w : OpWord) : Quiet (abssOut c w) := mOut_quiet ..
theorem andOut_quiet (c : Ctx) (w : OpWord) : Quiet (andOut c w) := mOut_quiet ..
theorem orOut_quiet (c : Ctx) (w : OpWord) : Quiet (orOut c w) := mOut_quiet ..
theorem xorOut_quiet (c : Ctx) (w : OpWord) : Quiet (xorOut c w) := mOut_quiet ..
theorem andnOut_quiet (c : Ctx) (w : OpWord) : Quiet (andnOut c w) := mOut_quiet ..
theorem shlOut_quiet (c : Ctx) (w : OpWord) : Quiet (shlOut c w) := mOut_quiet ..
theorem shrOut_quiet (c : Ctx) (w : OpWord) : Quiet (shrOut c w) := mOut_quiet ..
theorem sarOut_quiet (c : Ctx) (w : OpWord) : Quiet (sarOut c w) := mOut_quiet ..
theorem shlsOut_quiet (c : Ctx) (w : OpWord) : Quiet (shlsOut c w) := mOut_quiet ..
theorem minOut_quiet (c : Ctx) (w : OpWord) : Quiet (minOut c w) := mOut_quiet ..
theorem maxOut_quiet (c : Ctx) (w : OpWord) : Quiet (maxOut c w) := mOut_quiet ..
theorem minuOut_quiet (c : Ctx) (w : OpWord) : Quiet (minuOut c w) := mOut_quiet ..
theorem maxuOut_quiet (c : Ctx) (w : OpWord) : Quiet (maxuOut c w) := mOut_quiet ..
theorem cmpOut_quiet (c : Ctx) (w : OpWord) : Quiet (cmpOut c w) := quiet_ite ⟨rfl, rfl⟩ ⟨rfl, rfl⟩
theorem plogOut_quiet (c : Ctx) (w : OpWord) : Quiet (plogOut c w) := quiet_ite ⟨rfl, rfl⟩ ⟨rfl, rfl⟩
theorem mulq15Out_quiet (c : Ctx) (w : OpWord) : Quiet (mulq15Out c w) := mOut_quiet ..
theorem macq15Out_quiet (c : Ctx) (w : OpWord) : Quiet (macq15Out c w) := mOut_quiet ..
theorem rndqOut_quiet (c : Ctx) (w : OpWord) : Quiet (rndqOut c w) := mOut_quiet ..
theorem faddOut_quiet (c : Ctx) (w : OpWord) : Quiet (faddOut c w) := mOut_quiet ..
theorem fsubOut_quiet (c : Ctx) (w : OpWord) : Quiet (fsubOut c w) := mOut_quiet ..
theorem fmulOut_quiet (c : Ctx) (w : OpWord) : Quiet (fmulOut c w) := mOut_quiet ..
theorem fmaOut_quiet (c : Ctx) (w : OpWord) : Quiet (fmaOut c w) := mOut_quiet ..
theorem fnmsOut_quiet (c : Ctx) (w : OpWord) : Quiet (fnmsOut c w) := mOut_quiet ..
theorem fcmpOut_quiet (c : Ctx) (w : OpWord) : Quiet (fcmpOut c w) := quiet_ite ⟨rfl, rfl⟩ ⟨rfl, rfl⟩
theorem fnegOut_quiet (c : Ctx) (w : OpWord) : Quiet (fnegOut c w) := funOut_quiet ..
theorem fabsOut_quiet (c : Ctx) (w : OpWord) : Quiet (fabsOut c w) := funOut_quiet ..
theorem fcvtDSOut_quiet (c : Ctx) (w : OpWord) : Quiet (fcvtDSOut c w) := funOut_quiet ..
theorem fcvtSDOut_quiet (c : Ctx) (w : OpWord) : Quiet (fcvtSDOut c w) := funOut_quiet ..
theorem fcvtHSOut_quiet (c : Ctx) (w : OpWord) : Quiet (fcvtHSOut c w) := funOut_quiet ..
theorem fcvtSHOut_quiet (c : Ctx) (w : OpWord) : Quiet (fcvtSHOut c w) := funOut_quiet ..
theorem fcvtI32SOut_quiet (c : Ctx) (w : OpWord) : Quiet (fcvtI32SOut c w) := funOut_quiet ..
theorem fcvtI32DOut_quiet (c : Ctx) (w : OpWord) : Quiet (fcvtI32DOut c w) := funOut_quiet ..
theorem fcvtI64DOut_quiet (c : Ctx) (w : OpWord) : Quiet (fcvtI64DOut c w) := funOut_quiet ..
theorem fcvtSI32Out_quiet (c : Ctx) (w : OpWord) : Quiet (fcvtSI32Out c w) := funOut_quiet ..
theorem fcvtDI32Out_quiet (c : Ctx) (w : OpWord) : Quiet (fcvtDI32Out c w) := funOut_quiet ..
theorem fcvtDI64Out_quiet (c : Ctx) (w : OpWord) : Quiet (fcvtDI64Out c w) := funOut_quiet ..
theorem fcvtQ31SOut_quiet (c : Ctx) (w : OpWord) : Quiet (fcvtQ31SOut c w) := funOut_quiet ..
theorem fcvtSQ31Out_quiet (c : Ctx) (w : OpWord) : Quiet (fcvtSQ31Out c w) := funOut_quiet ..
theorem amoviOut_quiet (c : Ctx) (w : OpWord) : Quiet (amoviOut c w) := aOut_quiet ..
theorem amovxOut_quiet (c : Ctx) (w : OpWord) : Quiet (amovxOut c w) := aOut_quiet ..
theorem amovOut_quiet (c : Ctx) (w : OpWord) : Quiet (amovOut c w) := aOut_quiet ..
theorem aaddiOut_quiet (c : Ctx) (w : OpWord) : Quiet (aaddiOut c w) := aOut_quiet ..
theorem aaddOut_quiet (c : Ctx) (w : OpWord) : Quiet (aaddOut c w) := aOut_quiet ..
theorem asubOut_quiet (c : Ctx) (w : OpWord) : Quiet (asubOut c w) := aOut_quiet ..
theorem ashliOut_quiet (c : Ctx) (w : OpWord) : Quiet (ashliOut c w) := aOut_quiet ..
theorem aaddxOut_quiet (c : Ctx) (w : OpWord) : Quiet (aaddxOut c w) := aOut_quiet ..
theorem agetOut_quiet (c : Ctx) (w : OpWord) : Quiet (agetOut c w) := aOut_quiet ..
theorem aputOut_quiet (c : Ctx) (w : OpWord) : Quiet (aputOut c w) := aOut_quiet ..
theorem setvlOut_quiet (c : Ctx) (w : OpWord) : Quiet (setvlOut c w) := quiet_ite ⟨rfl, rfl⟩ ⟨rfl, rfl⟩
theorem vmovOut_quiet (c : Ctx) (w : OpWord) : Quiet (vmovOut c w) := vOut_quiet ..
theorem vidOut_quiet (c : Ctx) (w : OpWord) : Quiet (vidOut c w) := vOut_quiet ..
theorem vaddOut_quiet (c : Ctx) (w : OpWord) : Quiet (vaddOut c w) := vOut_quiet ..
theorem vsubOut_quiet (c : Ctx) (w : OpWord) : Quiet (vsubOut c w) := vOut_quiet ..
theorem vaddsOut_quiet (c : Ctx) (w : OpWord) : Quiet (vaddsOut c w) := vOut_quiet ..
theorem vsubsOut_quiet (c : Ctx) (w : OpWord) : Quiet (vsubsOut c w) := vOut_quiet ..
theorem vandOut_quiet (c : Ctx) (w : OpWord) : Quiet (vandOut c w) := vOut_quiet ..
theorem vorOut_quiet (c : Ctx) (w : OpWord) : Quiet (vorOut c w) := vOut_quiet ..
theorem vxorOut_quiet (c : Ctx) (w : OpWord) : Quiet (vxorOut c w) := vOut_quiet ..
theorem vshlOut_quiet (c : Ctx) (w : OpWord) : Quiet (vshlOut c w) := vOut_quiet ..
theorem vshrOut_quiet (c : Ctx) (w : OpWord) : Quiet (vshrOut c w) := vOut_quiet ..
theorem vsarOut_quiet (c : Ctx) (w : OpWord) : Quiet (vsarOut c w) := vOut_quiet ..
theorem vminOut_quiet (c : Ctx) (w : OpWord) : Quiet (vminOut c w) := vOut_quiet ..
theorem vmaxOut_quiet (c : Ctx) (w : OpWord) : Quiet (vmaxOut c w) := vOut_quiet ..
theorem vmulq15Out_quiet (c : Ctx) (w : OpWord) : Quiet (vmulq15Out c w) := vOut_quiet ..
theorem vcmpOut_quiet (c : Ctx) (w : OpWord) : Quiet (vcmpOut c w) := vCompare_quiet ..
theorem vmergeOut_quiet (c : Ctx) (w : OpWord) : Quiet (vmergeOut c w) := vOut_quiet ..
theorem vfaddOut_quiet (c : Ctx) (w : OpWord) : Quiet (vfaddOut c w) := vOut_quiet ..
theorem vfsubOut_quiet (c : Ctx) (w : OpWord) : Quiet (vfsubOut c w) := vOut_quiet ..
theorem vfmulOut_quiet (c : Ctx) (w : OpWord) : Quiet (vfmulOut c w) := vOut_quiet ..
theorem vfmaOut_quiet (c : Ctx) (w : OpWord) : Quiet (vfmaOut c w) := vOut_quiet ..
theorem vfnmsOut_quiet (c : Ctx) (w : OpWord) : Quiet (vfnmsOut c w) := vOut_quiet ..
theorem vfminOut_quiet (c : Ctx) (w : OpWord) : Quiet (vfminOut c w) := vOut_quiet ..
theorem vfmaxOut_quiet (c : Ctx) (w : OpWord) : Quiet (vfmaxOut c w) := vOut_quiet ..
theorem vfcmpOut_quiet (c : Ctx) (w : OpWord) : Quiet (vfcmpOut c w) := vCompare_quiet ..
theorem vfcvtOut_quiet (c : Ctx) (w : OpWord) : Quiet (vfcvtOut c w) := by
  unfold vfcvtOut
  split
  · exact ⟨rfl, rfl⟩
  · exact vOut_quiet ..
theorem vldOut_quiet (c : Ctx) (w : OpWord) : Quiet (vldOut c w) := quiet_ite ⟨rfl, rfl⟩ ⟨rfl, rfl⟩
theorem vstOut_quiet (c : Ctx) (w : OpWord) : Quiet (vstOut c w) := quiet_ite ⟨rfl, rfl⟩ ⟨rfl, rfl⟩

theorem opInfo_front {c : Instr} {o : OpInfo} (ho : opInfo c = some o) (h : o.slot < 6) :
    branchKind c = none ∧ ∀ x, Quiet (o.out x) := by
  cases c
  case ext u w => cases ho; exact ⟨rfl, fun x => extOut_quiet x w⟩
  case fmovD u w => cases ho; exact ⟨rfl, fun x => fmovDOut_quiet x w⟩
  case fmovS u w => cases ho; exact ⟨rfl, fun x => fmovSOut_quiet x w⟩
  case sext u w => cases ho; exact ⟨rfl, fun x => sextOut_quiet x w⟩
  case zext u w => cases ho; exact ⟨rfl, fun x => zextOut_quiet x w⟩
  case mov u w => cases ho; exact ⟨rfl, fun x => movOut_quiet x w⟩
  case add u w => cases ho; exact ⟨rfl, fun x => addOut_quiet x w⟩
  case sub u w => cases ho; exact ⟨rfl, fun x => subOut_quiet x w⟩
  case adds u w => cases ho; exact ⟨rfl, fun x => addsOut_quiet x w⟩
  case subs u w => cases ho; exact ⟨rfl, fun x => subsOut_quiet x w⟩
  case neg u w => cases ho; exact ⟨rfl, fun x => negOut_quiet x w⟩
  case abss u w => cases ho; exact ⟨rfl, fun x => abssOut_quiet x w⟩
  case and u w => cases ho; exact ⟨rfl, fun x => andOut_quiet x w⟩
  case or u w => cases ho; exact ⟨rfl, fun x => orOut_quiet x w⟩
  case xor u w => cases ho; exact ⟨rfl, fun x => xorOut_quiet x w⟩
  case andn u w => cases ho; exact ⟨rfl, fun x => andnOut_quiet x w⟩
  case shl u w => cases ho; exact ⟨rfl, fun x => shlOut_quiet x w⟩
  case shr u w => cases ho; exact ⟨rfl, fun x => shrOut_quiet x w⟩
  case sar u w => cases ho; exact ⟨rfl, fun x => sarOut_quiet x w⟩
  case shls u w => cases ho; exact ⟨rfl, fun x => shlsOut_quiet x w⟩
  case min u w => cases ho; exact ⟨rfl, fun x => minOut_quiet x w⟩
  case max u w => cases ho; exact ⟨rfl, fun x => maxOut_quiet x w⟩
  case minu u w => cases ho; exact ⟨rfl, fun x => minuOut_quiet x w⟩
  case maxu u w => cases ho; exact ⟨rfl, fun x => maxuOut_quiet x w⟩
  case cmp u w => cases ho; exact ⟨rfl, fun x => cmpOut_quiet x w⟩
  case plog u w => cases ho; exact ⟨rfl, fun x => plogOut_quiet x w⟩
  case mulq15 u w => cases ho; exact ⟨rfl, fun x => mulq15Out_quiet x w⟩
  case macq15 u w => cases ho; exact ⟨rfl, fun x => macq15Out_quiet x w⟩
  case rndq u w => cases ho; exact ⟨rfl, fun x => rndqOut_quiet x w⟩
  case fadd u w => cases ho; exact ⟨rfl, fun x => faddOut_quiet x w⟩
  case fsub u w => cases ho; exact ⟨rfl, fun x => fsubOut_quiet x w⟩
  case fmul u w => cases ho; exact ⟨rfl, fun x => fmulOut_quiet x w⟩
  case fma u w => cases ho; exact ⟨rfl, fun x => fmaOut_quiet x w⟩
  case fnms u w => cases ho; exact ⟨rfl, fun x => fnmsOut_quiet x w⟩
  case fcmp u w => cases ho; exact ⟨rfl, fun x => fcmpOut_quiet x w⟩
  case fneg u w => cases ho; exact ⟨rfl, fun x => fnegOut_quiet x w⟩
  case fabs u w => cases ho; exact ⟨rfl, fun x => fabsOut_quiet x w⟩
  case fcvtDS u w => cases ho; exact ⟨rfl, fun x => fcvtDSOut_quiet x w⟩
  case fcvtSD u w => cases ho; exact ⟨rfl, fun x => fcvtSDOut_quiet x w⟩
  case fcvtHS u w => cases ho; exact ⟨rfl, fun x => fcvtHSOut_quiet x w⟩
  case fcvtSH u w => cases ho; exact ⟨rfl, fun x => fcvtSHOut_quiet x w⟩
  case fcvtI32S u w => cases ho; exact ⟨rfl, fun x => fcvtI32SOut_quiet x w⟩
  case fcvtI32D u w => cases ho; exact ⟨rfl, fun x => fcvtI32DOut_quiet x w⟩
  case fcvtI64D u w => cases ho; exact ⟨rfl, fun x => fcvtI64DOut_quiet x w⟩
  case fcvtSI32 u w => cases ho; exact ⟨rfl, fun x => fcvtSI32Out_quiet x w⟩
  case fcvtDI32 u w => cases ho; exact ⟨rfl, fun x => fcvtDI32Out_quiet x w⟩
  case fcvtDI64 u w => cases ho; exact ⟨rfl, fun x => fcvtDI64Out_quiet x w⟩
  case fcvtQ31S u w => cases ho; exact ⟨rfl, fun x => fcvtQ31SOut_quiet x w⟩
  case fcvtSQ31 u w => cases ho; exact ⟨rfl, fun x => fcvtSQ31Out_quiet x w⟩
  case amovi u w => cases ho; exact ⟨rfl, fun x => amoviOut_quiet x w⟩
  case amovx u w => cases ho; exact ⟨rfl, fun x => amovxOut_quiet x w⟩
  case amov u w => cases ho; exact ⟨rfl, fun x => amovOut_quiet x w⟩
  case aaddi u w => cases ho; exact ⟨rfl, fun x => aaddiOut_quiet x w⟩
  case aadd u w => cases ho; exact ⟨rfl, fun x => aaddOut_quiet x w⟩
  case asub u w => cases ho; exact ⟨rfl, fun x => asubOut_quiet x w⟩
  case ashli u w => cases ho; exact ⟨rfl, fun x => ashliOut_quiet x w⟩
  case aaddx u w => cases ho; exact ⟨rfl, fun x => aaddxOut_quiet x w⟩
  case aget u w => cases ho; exact ⟨rfl, fun x => agetOut_quiet x w⟩
  case aput u w => cases ho; exact ⟨rfl, fun x => aputOut_quiet x w⟩
  case setvl u w => cases ho; exact ⟨rfl, fun x => setvlOut_quiet x w⟩
  case vmov u w => cases ho; exact ⟨rfl, fun x => vmovOut_quiet x w⟩
  case vid u w => cases ho; exact ⟨rfl, fun x => vidOut_quiet x w⟩
  case vadd u w => cases ho; exact ⟨rfl, fun x => vaddOut_quiet x w⟩
  case vsub u w => cases ho; exact ⟨rfl, fun x => vsubOut_quiet x w⟩
  case vadds u w => cases ho; exact ⟨rfl, fun x => vaddsOut_quiet x w⟩
  case vsubs u w => cases ho; exact ⟨rfl, fun x => vsubsOut_quiet x w⟩
  case vand u w => cases ho; exact ⟨rfl, fun x => vandOut_quiet x w⟩
  case vor u w => cases ho; exact ⟨rfl, fun x => vorOut_quiet x w⟩
  case vxor u w => cases ho; exact ⟨rfl, fun x => vxorOut_quiet x w⟩
  case vshl u w => cases ho; exact ⟨rfl, fun x => vshlOut_quiet x w⟩
  case vshr u w => cases ho; exact ⟨rfl, fun x => vshrOut_quiet x w⟩
  case vsar u w => cases ho; exact ⟨rfl, fun x => vsarOut_quiet x w⟩
  case vmin u w => cases ho; exact ⟨rfl, fun x => vminOut_quiet x w⟩
  case vmax u w => cases ho; exact ⟨rfl, fun x => vmaxOut_quiet x w⟩
  case vmulq15 u w => cases ho; exact ⟨rfl, fun x => vmulq15Out_quiet x w⟩
  case vcmp u w => cases ho; exact ⟨rfl, fun x => vcmpOut_quiet x w⟩
  case vmerge u w => cases ho; exact ⟨rfl, fun x => vmergeOut_quiet x w⟩
  case vfadd u w => cases ho; exact ⟨rfl, fun x => vfaddOut_quiet x w⟩
  case vfsub u w => cases ho; exact ⟨rfl, fun x => vfsubOut_quiet x w⟩
  case vfmul u w => cases ho; exact ⟨rfl, fun x => vfmulOut_quiet x w⟩
  case vfma u w => cases ho; exact ⟨rfl, fun x => vfmaOut_quiet x w⟩
  case vfnms u w => cases ho; exact ⟨rfl, fun x => vfnmsOut_quiet x w⟩
  case vfmin u w => cases ho; exact ⟨rfl, fun x => vfminOut_quiet x w⟩
  case vfmax u w => cases ho; exact ⟨rfl, fun x => vfmaxOut_quiet x w⟩
  case vfcmp u w => cases ho; exact ⟨rfl, fun x => vfcmpOut_quiet x w⟩
  case vfcvt u w => cases ho; exact ⟨rfl, fun x => vfcvtOut_quiet x w⟩
  case vld u w => cases ho; exact ⟨rfl, fun x => vldOut_quiet x w⟩
  case vst u w => cases ho; exact ⟨rfl, fun x => vstOut_quiet x w⟩
  case macroTrap u x =>
    cases ho
    refine ⟨rfl, fun c => ?_⟩
    dsimp only [unassignedOut] at h ⊢
    rw [if_neg (by omega)]
    exact ⟨rfl, rfl⟩
  all_goals first
    | (cases ho; done)
    | (cases ho; exact absurd h (Nat.not_lt.2 (by dsimp only; omega)))

@[simp] theorem countUnbooked_same (s : State) (u : UnitIx) (v : Bool) :
    ((s.countUnbooked u v).tile u) = { s.tile u with vslice := ((s.countUnbooked u v).tile u).vslice } := by
  unfold State.countUnbooked
  split
  · simp only [tile_modTile_same]
    rw [tile_of_tiles (s := s) (t := s.bump Csr.govUnbooked) rfl]
  · rfl

@[simp] theorem fetchFrond_tiles (s : State) (u : UnitIx) (a : Nat) : (s.fetchFrond u a).tiles = s.tiles := by
  unfold State.fetchFrond
  split <;> simp

/-- Reading the frond leaves the unit as it was but for the fiddlehead buffer. -/
theorem fetched_same (s : State) (u : UnitIx) (ws : List Instr) : ∃ b, (s.fetched u ws).tile u = { s.tile u with buffer := b } := by
  unfold State.fetched
  extract_lets t s1
  have h : s1.tile u = s.tile u := by
    simp only [s1]
    split
    · rfl
    · exact tile_of_tiles (fetchFrond_tiles ..) u
  split
  · exact ⟨_, by rw [tile_modTile_same, h]⟩
  · exact ⟨_, h⟩

/-- DONE and NAP stand in the B slot: a frond without it holds none. -/
theorem no_stop_of_front {s : State} {u : UnitIx} {c : Instr} (hf : front s u c = true) : (frondWith s u c).any isStop = false := by
  rw [List.any_eq_false]
  intro w hw hs
  obtain ⟨i, hi, rfl⟩ := List.getElem_of_mem hw
  have h7 : ∃ o, opInfo (frondWith s u c)[i] = some o ∧ o.slot = 7 := by
    revert hs
    cases (frondWith s u c)[i] <;> intro hs <;> first | (cases hs; done) | exact ⟨_, rfl, rfl⟩
  obtain ⟨o, ho, h7⟩ := h7
  have hm : ({ cmd := (frondWith s u c)[i], info := o, pos := i, perf := o.w.performed (s.tile u)
               out := o.out { s := s, u := u, pc := (s.tile u).pc, len := 8 * (frondWith s u c).length, pos := i, ext := extOf (frondWith s u c) } } : FOp)
      ∈ frondOps s u (frondWith s u c) := by
    unfold frondOps
    simp only [List.mem_filterMap, Option.map_eq_some_iff]
    refine ⟨((frondWith s u c)[i], i), ?_, o, ho, rfl⟩
    rw [List.mem_zipIdx_iff_getElem?]
    simp [hi]
  have := List.all_eq_true.1 hf _ hm
  simp only [decide_eq_true_eq] at this
  omega

theorem loopTest_none (pc : Word) (ks : List (BitVec 2)) (t : Tile) (h : t.atLoopEnd = false) (hp : t.pc = pc) :
    loopTest pc ks t = (t, false) := by
  induction ks with
  | nil => rfl
  | cons k ks ih =>
    unfold loopTest
    dsimp only
    rw [if_neg, ih]
    intro hk
    have hk4 : k.toNat < 4 := k.isLt
    have : t.atLoopEnd = true := by
      unfold Tile.atLoopEnd
      rw [List.any_eq_true]
      refine ⟨rfGet Loop.reset t.loops k.toNat, ?_, by rw [hp]; exact hk⟩
      have e : rfGet Loop.reset t.loops k.toNat = t.loops[k.toNat] := by simp [rfGet, Vector.getD, hk4]
      rw [e]
      exact Vector.mem_toList_iff.2 (Vector.getElem_mem hk4)
    rw [h] at this
    exact absurd this (by decide)

/-- In straight-line code the frond that follows is the next one, and no empty frond follows. -/
theorem advance_straight (t : Tile) (n : Nat) (hb : t.br.delay = 0) (hr : t.rep.active = false) (hl : t.atLoopEnd = false) :
    (t.advance n).2 = 0 ∧ (t.advance n).1.pc = BitVec.ofNat 32 (t.pc.toNat + n) ∧ (t.advance n).1.frond = t.frond ∧
    (t.advance n).1.pend = t.pend ∧ (t.advance n).1.cycle = t.cycle ∧ (t.advance n).1.halted = t.halted ∧
    (t.advance n).1.dbgCtl = t.dbgCtl := by
  unfold Tile.advance
  rw [if_neg (by simp [hr])]
  extract_lets seq rs t0 fix b lt s1 t1
  have e : lt = (t0, false) := loopTest_none _ _ _ hl rfl
  have e1 : t1 = fix { t0 with pc := seq } := by
    have h2 : lt.2 = false := by rw [e]
    have h1 : s1 = t0 := by simp only [s1, e]
    simp only [t1, h2, h1, Bool.false_eq_true, if_false]
  have ef : ∀ x : Tile, (fix x).pc = x.pc ∧ (fix x).frond = x.frond ∧ (fix x).pend = x.pend ∧ (fix x).cycle = x.cycle ∧
      (fix x).halted = x.halted ∧ (fix x).dbgCtl = x.dbgCtl := by
    intro x
    simp only [fix]
    split <;> exact ⟨rfl, rfl, rfl, rfl, rfl, rfl⟩
  rw [if_neg (by omega), if_pos hb, e1]
  exact ⟨rfl, ef _⟩

theorem foldl_id {α β : Type} (f : β → α → β) (l : List α) (b : β) (h : ∀ a ∈ l, ∀ x, f x a = x) : l.foldl f b = b := by
  induction l generalizing b with
  | nil => rfl
  | cons a l ih =>
    rw [List.foldl_cons, h a (by simp), ih]
    intro x hx; exact h x (by simp [hx])

theorem frondOps_info {s : State} {u : UnitIx} {ws : List Instr} {f : FOp} (h : f ∈ frondOps s u ws) :
    opInfo f.cmd = some f.info ∧ ∃ x, f.out = f.info.out x := by
  unfold frondOps at h
  simp only [List.mem_filterMap, Option.map_eq_some_iff] at h
  obtain ⟨⟨c, i⟩, -, o, ho, rfl⟩ := h
  exact ⟨ho, _, rfl⟩

/-- The operation that ends a frond, as issue sees it, is one of the frond's. -/
theorem mem_frondOps_last {c : Instr} {o : OpInfo} (ho : opInfo c = some o) (s : State) (u : UnitIx) :
    ({ cmd := c, info := o, pos := (s.tile u).frond.length, perf := o.w.performed (s.tile u), out := o.out (lastCtx s u c) } : FOp) ∈
      frondOps s u (frondWith s u c) := by
  unfold frondOps
  simp only [List.mem_filterMap, Option.map_eq_some_iff]
  refine ⟨(c, (s.tile u).frond.length), ?_, o, ho, rfl⟩
  rw [List.mem_zipIdx_iff_getElem?]
  simp [frondWith]

/-- The operation that ends a frond that issues is legal. -/
theorem legal_of_issues {c : Instr} {o : OpInfo} {u : UnitIx} {s : State} (ho : opInfo c = some o) (hi : issues s u c o.w = true) :
    (o.out (lastCtx s u c)).illegal = false := by
  simp only [issues, Bool.and_eq_true, Bool.not_eq_true', Option.isNone_iff_eq_none] at hi
  obtain ⟨⟨-, hff⟩, -⟩ := hi
  unfold frondFault at hff
  dsimp only at hff
  split at hff
  · split at hff <;> cases hff
  · split at hff
    · cases hff
    · rename_i hnone
      have hlast := List.find?_eq_none.1 hnone _ (mem_frondOps_last ho s u)
      simp only [illegalAt, Bool.or_eq_true, not_or, Bool.not_eq_true] at hlast
      exact hlast.1.1.1.1.1.1.1

/-- A raw word whose slot is not the L slot never issues. -/
theorem not_raw_of_issues {c : Instr} {o : OpInfo} {u : UnitIx} {s : State} (ho : opInfo c = some o) (h6 : o.slot < 6)
    (hi : issues s u c o.w = true) : ∀ v x, c ≠ .macroTrap v x := by
  rintro v x rfl
  have hl := legal_of_issues ho hi
  cases ho
  dsimp only [unassignedOut] at hl h6
  rw [if_neg (by omega)] at hl
  cases hl

/-- A frond of M, A, X and V operations that issues in straight-line code: its results are on their way, the next frond follows, the
cycle has passed (R86, R87). -/
theorem issue_front {c : Instr} {o : OpInfo} {u : UnitIx} {s : State} (ho : opInfo c = some o) (hu : opUnit c = some u)
    (hi : issues s u c o.w = true) (hs : straight s u = true) (hf : front s u c = true) :
    ∃ t, exec c s = .next t ∧ moved s t u c ∧
      ∀ f ∈ frondOps s u (frondWith s u c), f.perf = true → ∀ k x, (k, x) ∈ f.out.wr → 2 ≤ k →
        ({ retire := (s.tile u).cycle + k - 1, issue := (s.tile u).cycle, slot := f.info.slot, w := x } : Pend) ∈ (t.tile u).pend := by
  have hm := not_raw_of_issues ho (by
    have := List.all_eq_true.1 hf _ (mem_frondOps_last ho s u)
    simpa using this) hi
  simp only [issues, Bool.and_eq_true, Bool.not_eq_true', Option.isNone_iff_eq_none, decide_eq_true_eq] at hi
  obtain ⟨⟨⟨⟨⟨⟨⟨⟨hfe, hst⟩, hrs⟩, htr⟩, hbf⟩, hin⟩, hpf⟩, hff⟩, hw⟩ := hi
  simp only [straight, Bool.and_eq_true, Bool.not_eq_true', decide_eq_true_eq] at hs
  obtain ⟨⟨⟨⟨hb, hr⟩, hl⟩, hh⟩, hd⟩ := hs
  have hw' : ((frondOps s u (frondWith s u c)).any fun o => o.perf && o.out.wait) = false := by
    rw [List.any_eq_false]
    intro x hx
    have := List.all_eq_true.1 hw x hx
    cases hp : x.perf <;> simp_all
  have hq : ∀ f ∈ frondOps s u (frondWith s u c), branchKind f.cmd = none ∧ Quiet f.out := by
    intro f hm
    obtain ⟨h1, x, h2⟩ := frondOps_info hm
    have h3 := List.all_eq_true.1 hf f hm
    obtain ⟨h4, h5⟩ := opInfo_front h1 (by simpa using h3)
    exact ⟨h4, h2 ▸ h5 x⟩
  refine ⟨commitFrond u (8 * (frondWith s u c).length) (frondOps s u (frondWith s u c)) s, ?_, ?_⟩
  · rw [exec_op ho hu hm, issueWord]
    dsimp only
    rw [if_neg (by simp [hfe]), if_pos (by
      rcases (by simpa using hst : o.w.stop = true ∨ 8 ≤ (frondWith s u c).length) with h | h
      · exact .inl h
      · exact .inr (.inl h))]
    change Host.Outcome.next (issueFrond u (frondWith s u c) s) = _
    rw [issueFrond]
    dsimp only
    rw [hbf, if_neg (by simp [hrs]), htr]
    simp only [Bool.false_and, Bool.false_eq_true, if_false]
    rw [hff]
    dsimp only
    rw [hin]
    dsimp only
    rw [hw', if_neg (by simp), if_neg (by simp [no_stop_of_front hf])]
  · generalize hops : frondOps s u (frondWith s u c) = ops at *
    unfold commitFrond
    extract_lets +onlyGivenNames t run s1 ps s2 adv s3 s4 s5 s6
    obtain ⟨b0, e0⟩ := fetched_same s u (ops.map (·.cmd))
    have e1 : ∃ b, s1.tile u = { s.tile u with vslice := b, buffer := b0 } := by
      refine ⟨(s1.tile u).vslice, ?_⟩
      have := countUnbooked_same ((run.flatMap (·.out.touch)).foldl (fun s r => s.eccReadRange (localBase u + r.1) r.2 0)
        (s.fetched u (ops.map (·.cmd)))) u (run.any fun o => decide (o.info.slot = 4) || decide (o.info.slot = 5))
      rw [tile_of_tiles (foldl_tiles _ (fun (s : State) (r : Nat × Nat) => eccReadRange_tiles s (localBase u + r.1) r.2 0) _ _), e0] at this
      exact this
    obtain ⟨b, e1⟩ := e1
    have e2 : s2.tile u = { (s1.tile u).traced with
        pend := (s1.tile u).pend ++ ps, frond := [], waiting := false, wakeDue := false } := by
      simp only [s2, tile_modTile_same]
    have tr : ∀ x : Tile, x.traced.br = x.br ∧ x.traced.rep = x.rep ∧ x.traced.loops = x.loops ∧ x.traced.pc = x.pc ∧
        x.traced.cycle = x.cycle ∧ x.traced.halted = x.halted ∧ x.traced.dbgCtl = x.dbgCtl := by
      intro x; unfold Tile.traced; split <;> exact ⟨rfl, rfl, rfl, rfl, rfl, rfl, rfl⟩
    obtain ⟨t1, t2, t3, t4, t5, t6, t7⟩ := tr (s1.tile u)
    have ha := advance_straight (s2.tile u) (8 * (frondWith s u c).length)
      (by rw [e2]; dsimp only; rw [t1, e1]; exact hb) (by rw [e2]; dsimp only; rw [t2, e1]; exact hr)
      (by rw [e2]; unfold Tile.atLoopEnd; dsimp only; rw [t3, t4, e1]; exact hl)
    obtain ⟨a0, apc, afr, apd, acy, aha, adb⟩ := ha
    have e4 : s4 = s3 := foldl_id _ _ _ (by
      intro f hm x
      rw [(hq f (List.mem_filter.1 hm).1).2.act]; rfl)
    have e5 : s5 = s4 := foldl_id _ _ _ (by
      intro f hm x
      rw [(hq f hm).1])
    have e6 : s6 = issueCycle u s3 := by
      simp only [s6, e5, e4]
      rw [show adv.2 = 0 from a0]; rfl
    have e7 : run.foldl (fun s o => o.out.after s) s6 = s6 := foldl_id _ _ _ (by
      intro f hm x
      rw [(hq f (List.mem_filter.1 hm).1).2.after]; rfl)
    rw [e7, e6]
    have h3 : s3.tile u = adv.1 := by simp only [s3, tile_setTile_same]
    obtain ⟨c1, c2, c3, c4, c5, c6⟩ := issueCycle_front u s3
    rw [h3] at c1 c2 c3 c4 c5 c6
    have hhalt : ((issueCycle u s3).tile u).halted = false := by
      rw [c3, show adv.1.halted = _ from aha, e2]; dsimp only; rw [t6, e1]; exact hh
    have hdbg : ((issueCycle u s3).tile u).dbgCtl = (s.tile u).dbgCtl := by
      rw [c4, show adv.1.dbgCtl = _ from adb, e2]; dsimp only; rw [t7, e1]
    have ef : afterFrond u (issueCycle u s3) = issueCycle u s3 := by
      unfold afterFrond
      dsimp only
      rw [if_neg (by simp [hhalt]), if_neg (by rw [hdbg, hd]; omega)]
    rw [ef]
    refine ⟨⟨?_, ?_, ?_⟩, ?_⟩
    · rw [c1, show adv.1.pc = _ from apc, e2]; dsimp only; rw [t4, e1]
    · rw [c2, show adv.1.frond = _ from afr, e2]
    · rw [c5, show adv.1.cycle = _ from acy, e2]; dsimp only; rw [t5, e1]
    · intro f hm hp k x hx hk
      have hcyc : adv.1.cycle = (s.tile u).cycle := by
        rw [show adv.1.cycle = _ from acy, e2]; dsimp only; rw [t5, e1]
      apply c6
      · rw [show adv.1.pend = _ from apd, e2]
        dsimp only
        refine List.mem_append.2 (.inr ?_)
        simp only [ps, List.mem_flatMap, List.mem_map]
        exact ⟨f, List.mem_filter.2 ⟨hm, hp⟩, ⟨k, x⟩, hx, rfl⟩
      · rw [hcyc]; dsimp only; omega
      · rw [hcyc] <;> exact Nat.le_refl _

theorem frondOps_pos {s : State} {u : UnitIx} {c : Instr} {o : OpInfo} (ho : opInfo c = some o) {f : FOp}
    (h : f ∈ frondOps s u (frondWith s u c)) : f.pos < (s.tile u).frond.length ∨ f.info = o := by
  unfold frondOps at h
  simp only [List.mem_filterMap, Option.map_eq_some_iff] at h
  obtain ⟨⟨c', i⟩, hm, o', ho', rfl⟩ := h
  rw [List.mem_zipIdx_iff_getElem?] at hm
  dsimp only at hm ⊢
  rcases Nat.lt_or_ge i (s.tile u).frond.length with hi | hi
  · exact .inl hi
  · right
    have hl : i < (frondWith s u c).length := by
      rcases Nat.lt_or_ge i (frondWith s u c).length with h | h
      · exact h
      · rw [List.getElem?_eq_none h] at hm; cases hm
    have : i = (s.tile u).frond.length := by simp [frondWith] at hl; omega
    subst this
    simp [frondWith] at hm
    subst hm
    rw [ho] at ho'
    exact (Option.some.inj ho').symm

/-- A frond that issues and ends in an M, A, X or V operation holds no other: its slots ascend (R75). -/
theorem front_of_issues {c : Instr} {o : OpInfo} {u : UnitIx} {s : State} (ho : opInfo c = some o) (h6 : o.slot < 6)
    (hi : issues s u c o.w = true) : front s u c = true := by
  simp only [issues, Bool.and_eq_true, Bool.not_eq_true', Option.isNone_iff_eq_none] at hi
  obtain ⟨⟨-, hff⟩, -⟩ := hi
  unfold frondFault at hff
  dsimp only at hff
  split at hff
  · split at hff <;> cases hff
  · split at hff
    · cases hff
    · rename_i hnone
      have hlast := List.find?_eq_none.1 hnone _ (mem_frondOps_last ho s u)
      unfold front
      rw [List.all_eq_true]
      intro f hf
      rcases frondOps_pos ho hf with hp | hp
      · simp only [illegalAt, Bool.or_eq_true, not_or, Bool.not_eq_true] at hlast
        have he := hlast.1.1.1.1.1.2
        rw [earlier, List.any_eq_false] at he
        have := he f hf
        simp only [Bool.and_eq_true, decide_eq_true_eq, not_and, Nat.not_le] at this
        have := this hp
        simp only [decide_eq_true_eq]; omega
      · simp [hp, h6]

/-- A frond that issues in straight-line code and ends in an M, A, X or V operation: it is over, and that operation's results are on their
way. -/
theorem issue_last {c : Instr} {o : OpInfo} {u : UnitIx} {s : State} (ho : opInfo c = some o) (hu : opUnit c = some u) (h6 : o.slot < 6)
    (hi : issues s u c o.w = true) (hs : straight s u = true) :
    ∃ t, exec c s = .next t ∧ moved s t u c ∧ ∀ k, 2 ≤ k → ∀ xs : List Wr, (∀ x ∈ xs, (k, x) ∈ (o.out (lastCtx s u c)).wr) →
      onTheirWay s t u o.slot k xs := by
  obtain ⟨t, h1, h2, h3⟩ := issue_front ho hu hi hs (front_of_issues ho h6 hi)
  refine ⟨t, h1, h2, fun k hk xs hx x hm => ?_⟩
  have hp : o.w.performed (s.tile u) = true := by
    simp only [issues, Bool.and_eq_true] at hi
    exact hi.1.1.2
  exact h3 _ (mem_frondOps_last ho s u) hp k x (hx x hm) hk

end Sys2Proof.Laws
end

