-- ==== Sys2Proof/Laws/Sparse.lean ====
section
/-! SUPPORT. The laws of sparse maps: a read after a write, and that a write keeps the canonical form. -/

namespace Sys2Proof.Laws

open Sys2Proof.Machine

theorem sget_below {α : Type} [DecidableEq α] (d : α) (l : List (Nat × α)) (b k : Nat) (h : swfFrom d b l = true) (hk : k < b) :
    sget d l k = d := by
  induction l generalizing b with
  | nil => rfl
  | cons e r ih =>
    obtain ⟨k', v⟩ := e
    simp only [swfFrom, Bool.and_eq_true, decide_eq_true_eq] at h
    have hne : k ≠ k' := by omega
    simp only [sget, if_neg hne]
    exact ih (k' + 1) h.2 (by omega)

theorem sget_scons_same {α : Type} [DecidableEq α] (d : α) (k : Nat) (v : α) (r : List (Nat × α)) (h : sget d r k = d) :
    sget d (scons d k v r) k = v := by
  by_cases hv : v = d
  · simp [scons, hv, h]
  · simp [scons, hv, sget]

theorem sget_scons_other {α : Type} [DecidableEq α] (d : α) (k j : Nat) (v : α) (r : List (Nat × α)) (h : j ≠ k) :
    sget d (scons d k v r) j = sget d r j := by
  by_cases hv : v = d <;> simp [scons, hv, sget, h]

/-- A write leaves every other key alone. -/
theorem sget_sset_other {α : Type} [DecidableEq α] (d : α) (l : List (Nat × α)) (k j : Nat) (v : α) (h : j ≠ k) :
    sget d (sset d l k v) j = sget d l j := by
  induction l with
  | nil => simp [sset, sget_scons_other d k j v [] h]
  | cons e r ih =>
    obtain ⟨k', v'⟩ := e
    simp only [sset]
    split
    · exact sget_scons_other d k j v _ h
    · split
      · next h2 => subst h2; rw [sget_scons_other d k j v r h]; simp [sget, h]
      · simp only [sget]; rw [ih]

/-- A read of the key just written gives the value written. -/
theorem sget_sset_same {α : Type} [DecidableEq α] (d : α) (l : List (Nat × α)) (b k : Nat) (v : α)
    (h : swfFrom d b l = true) : sget d (sset d l k v) k = v := by
  induction l generalizing b with
  | nil => exact sget_scons_same d k v [] rfl
  | cons e r ih =>
    obtain ⟨k', v'⟩ := e
    have hs := h
    simp only [swfFrom, Bool.and_eq_true, decide_eq_true_eq] at h
    simp only [sset]
    split
    · next h1 =>
      apply sget_scons_same
      simp only [sget, if_neg (show k ≠ k' by omega)]
      exact sget_below d r (k' + 1) k h.2 (by omega)
    · split
      · next h2 =>
        subst h2
        exact sget_scons_same d k v r (sget_below d r (k + 1) k h.2 (by omega))
      · next h1 h2 =>
        simp only [sget, if_neg h2]
        exact ih (k' + 1) h.2

theorem swfFrom_scons {α : Type} [DecidableEq α] (d : α) (b k : Nat) (v : α) (r : List (Nat × α)) (hb : b ≤ k)
    (hr : swfFrom d (k + 1) r = true) (hw : swfFrom d b r = true) : swfFrom d b (scons d k v r) = true := by
  by_cases hv : v = d
  · simp [scons, hv, hw]
  · simp [scons, hv, swfFrom, hb, hr]

theorem swfFrom_mono {α : Type} [DecidableEq α] (d : α) (b c : Nat) (l : List (Nat × α)) (h : c ≤ b)
    (hw : swfFrom d b l = true) : swfFrom d c l = true := by
  cases l with
  | nil => rfl
  | cons e r =>
    obtain ⟨k, v⟩ := e
    simp only [swfFrom, Bool.and_eq_true, decide_eq_true_eq] at hw ⊢
    exact ⟨⟨by omega, hw.1.2⟩, hw.2⟩

theorem swfFrom_sset {α : Type} [DecidableEq α] (d : α) (l : List (Nat × α)) (b k : Nat) (v : α)
    (hb : b ≤ k) (h : swfFrom d b l = true) : swfFrom d b (sset d l k v) = true := by
  induction l generalizing b with
  | nil => exact swfFrom_scons d b k v [] hb rfl rfl
  | cons e r ih =>
    obtain ⟨k', v'⟩ := e
    have hs := h
    simp only [swfFrom, Bool.and_eq_true, decide_eq_true_eq] at h
    simp only [sset]
    split
    · next h1 =>
      apply swfFrom_scons d b k v _ hb _ hs
      simp only [swfFrom, Bool.and_eq_true, decide_eq_true_eq]
      exact ⟨⟨by omega, h.1.2⟩, h.2⟩
    · split
      · next h2 =>
        subst h2
        exact swfFrom_scons d b k v r hb h.2 (swfFrom_mono d (k + 1) b r (by omega) h.2)
      · next h1 h2 =>
        simp only [swfFrom, Bool.and_eq_true, decide_eq_true_eq]
        exact ⟨⟨h.1.1, h.1.2⟩, ih (k' + 1) (by omega) h.2⟩

/-- Leaving entries out keeps the canonical form. -/
theorem swfFrom_filter {α : Type} [DecidableEq α] (d : α) (p : Nat × α → Bool) (l : List (Nat × α)) (b : Nat)
    (h : swfFrom d b l = true) : swfFrom d b (l.filter p) = true := by
  induction l generalizing b with
  | nil => rfl
  | cons e r ih =>
    obtain ⟨k, v⟩ := e
    simp only [swfFrom, Bool.and_eq_true, decide_eq_true_eq] at h
    rw [List.filter_cons]
    split
    · simp only [swfFrom, Bool.and_eq_true, decide_eq_true_eq]
      exact ⟨h.1, ih (k + 1) h.2⟩
    · exact ih b (swfFrom_mono d (k + 1) b r (by omega) h.2)

theorem swf_filter {α : Type} [DecidableEq α] (d : α) (p : Nat × α → Bool) (l : List (Nat × α)) (h : swf d l = true) :
    swf d (l.filter p) = true := swfFrom_filter d p l 0 h

/-- A write keeps the canonical form. -/
theorem swf_sset {α : Type} [DecidableEq α] (d : α) (l : List (Nat × α)) (k : Nat) (v : α) (h : swf d l = true) :
    swf d (sset d l k v) = true := swfFrom_sset d l 0 k v (Nat.zero_le k) h

/-- Writes one after another keep the canonical form. -/
theorem swf_foldl_sset {α β : Type} [DecidableEq α] (d : α) (f : β → Nat) (g : β → List (Nat × α) → α) (ks : List β) (l : List (Nat × α))
    (h : swf d l = true) : swf d (ks.foldl (fun m x => sset d m (f x) (g x m)) l) = true := by
  induction ks generalizing l with
  | nil => exact h
  | cons x ks ih => exact ih _ (swf_sset d l (f x) (g x l) h)

/-- A read of the key just written, in a canonical map. -/
theorem sget_sset_eq {α : Type} [DecidableEq α] (d : α) (l : List (Nat × α)) (k : Nat) (v : α) (h : swf d l = true) :
    sget d (sset d l k v) k = v := sget_sset_same d l 0 k v h

end Sys2Proof.Laws
end

