-- ==== Sys2Proof/Laws/Keeps.lean ====
section
/-! SUPPORT. What every operation of the block keeps: the queue, the canonical forms of memory and of the register file, what has been
handed outside, and the count of free values drawn.  One lemma per operation stands in the files of Laws/Keeps. -/

namespace Sys2Proof.Laws

open Sys2Proof.Machine

/-- From `b` on, `s` keeps what every operation keeps. -/
structure Keeps (b s : State) : Prop where
  pending : s.pending = b.pending
  canon   : b.Canonical → s.Canonical
  shadow  : b.OneShadow → s.OneShadow
  out     : b.out <:+ s.out
  free    : b.freeCtr ≤ s.freeCtr

theorem Keeps.refl (s : State) : Keeps s s := ⟨rfl, id, id, List.suffix_rfl, Nat.le_refl _⟩

theorem Keeps.trans {a b c : State} (h : Keeps a b) (g : Keeps b c) : Keeps a c :=
  ⟨g.pending.trans h.pending, fun x => g.canon (h.canon x), fun x => g.shadow (h.shadow x), h.out.trans g.out, Nat.le_trans h.free g.free⟩

/-- A change of other fields. -/
theorem Keeps.same {b s t : State} (h : Keeps b s) (hp : t.pending = s.pending) (hm : t.mem = s.mem) (hc : t.csr = s.csr)
    (hb : t.bmt = s.bmt) (ho : t.out = s.out) (hf : t.freeCtr = s.freeCtr) : Keeps b t :=
  ⟨hp.trans h.pending, fun x => by have := h.canon x; unfold State.Canonical at *; rw [hm, hc]; exact this,
    fun x => by have := h.shadow x; unfold State.OneShadow State.bmtOf at *; rw [hb]; exact this, ho ▸ h.out, hf ▸ h.free⟩

/-- A state written out with the kept fields of another. -/
theorem Keeps.mk_other {b s : State} {a1 a2 a3 a5 a6 a8 a10 a11 a12 a13 a14 a15 a16 a17} (h : Keeps b s) :
    Keeps b (State.mk a1 a2 a3 s.mem a5 a6 s.bmt a8 s.csr a10 a11 a12 a13 a14 a15 a16 a17 s.out s.freeCtr s.pending) :=
  h.same rfl rfl rfl rfl rfl rfl

/-- The same with another canonical register file. -/
theorem Keeps.mk_csr {b s : State} {a1 a2 a3 a5 a6 a8 a10 a11 a12 a13 a14 a15 a16 a17} {c : List (Nat × Word)} (h : Keeps b s)
    (hc : swf 0 c = true) :
    Keeps b (State.mk a1 a2 a3 s.mem a5 a6 s.bmt a8 c a10 a11 a12 a13 a14 a15 a16 a17 s.out s.freeCtr s.pending) :=
  ⟨h.pending, fun x => ⟨(h.canon x).1, hc⟩, h.shadow, h.out, h.free⟩

/-- The same with a free value drawn. -/
theorem Keeps.mk_free {b s : State} {a1 a2 a3 a5 a6 a8 a10 a11 a12 a13 a14 a15 a16 a17} (h : Keeps b s) :
    Keeps b (State.mk a1 a2 a3 s.mem a5 a6 s.bmt a8 s.csr a10 a11 a12 a13 a14 a15 a16 a17 s.out (s.freeCtr + 1) s.pending) :=
  ⟨h.pending, h.canon, h.shadow, h.out, Nat.le_succ_of_le h.free⟩

theorem ite_keeps {b x y : State} {c : Prop} [Decidable c] (hx : Keeps b x) (hy : Keeps b y) : Keeps b (if c then x else y) := by
  by_cases h : c
  · rw [if_pos h]; exact hx
  · rw [if_neg h]; exact hy

theorem ite_fst_keeps {α : Type} {b : State} {x y : State × α} {c : Prop} [Decidable c] (hx : Keeps b x.1) (hy : Keeps b y.1) :
    Keeps b (if c then x else y).1 := by
  by_cases h : c
  · rw [if_pos h]; exact hx
  · rw [if_neg h]; exact hy

/-- A register is written. -/
theorem Keeps.setReg {b s : State} {a : Nat} {v : Word} (h : Keeps b s) : Keeps b (s.setReg a v) :=
  ⟨h.pending, fun x => ⟨(h.canon x).1, swf_sset _ _ _ _ (h.canon x).2⟩, h.shadow, h.out, h.free⟩

/-- Memory changes and stays canonical. -/
theorem Keeps.setMem {b s : State} {m : List Host.Cell} (h : Keeps b s) (hm : swf 0 s.mem = true → swf 0 m = true) :
    Keeps b { s with mem := m } :=
  ⟨h.pending, fun x => ⟨hm (h.canon x).1, (h.canon x).2⟩, h.shadow, h.out, h.free⟩

theorem foldl_keeps {α : Type} {b s : State} {l : List α} {f : State → α → State} (hf : ∀ s a, Keeps b s → Keeps b (f s a))
    (h : Keeps b s) : Keeps b (l.foldl f s) := by
  induction l generalizing s with
  | nil => exact h
  | cons a l ih => exact ih (hf s a h)

/-- The same where the state goes along with other data. -/
theorem foldl_fst_keeps {α β : Type} {b : State} {l : List α} {f : State × β → α → State × β} {p : State × β}
    (hf : ∀ p a, Keeps b p.1 → Keeps b (f p a).1) (h : Keeps b p.1) : Keeps b (l.foldl f p).1 := by
  induction l generalizing p with
  | nil => exact h
  | cons a l ih => exact ih (hf p a h)

/-- An operation of a frond whose actions keep it. -/
structure OpKeeps (o : OpOut) : Prop where
  act   : ∀ b s : State, Keeps b s → Keeps b (o.act s)
  after : ∀ b s : State, Keeps b s → Keeps b (o.after s)

/-- An operation written out. -/
theorem OpKeeps.lit {i w f wr tc act tg aft} (h1 : ∀ b s : State, Keeps b s → Keeps b (act s))
    (h2 : ∀ b s : State, Keeps b s → Keeps b (aft s)) : OpKeeps (OpOut.mk i w f wr tc act tg aft) := ⟨h1, h2⟩

theorem op_ite_keeps {x y : OpOut} {c : Prop} [Decidable c] (hx : OpKeeps x) (hy : OpKeeps y) : OpKeeps (if c then x else y) := by
  by_cases h : c
  · rw [if_pos h]; exact hx
  · rw [if_neg h]; exact hy

theorem Keeps.by_id {b s : State} (h : Keeps b s) : Keeps b (id s) := h

end Sys2Proof.Laws
end

