-- ==== Sys2Proof/Laws/Keeps/Ops.lean ====
section
/-! SUPPORT. The operations of Machine/Ops.lean keep the queue, the canonical forms and what has been handed outside. -/

namespace Sys2Proof.Laws

open Sys2Proof.Machine

theorem State.setReg_keeps {b : State} {s} {x1 x2} (h : Keeps b s) : Keeps b (@State.setReg s x1 x2) := h.setReg

theorem State.modReg_keeps {b : State} {s} {x1 x2} (h : Keeps b s) : Keeps b (@State.modReg s x1 x2) := by
  unfold State.modReg
  repeat' with_reducible (first | assumption | apply State.setReg_keeps)

theorem State.setRegFld_keeps {b : State} {s} {x1 x2 x3 x4} (h : Keeps b s) : Keeps b (@State.setRegFld s x1 x2 x3 x4) := by
  unfold State.setRegFld
  repeat' with_reducible (first | assumption | apply State.modReg_keeps)

theorem State.orReg_keeps {b : State} {s} {x1 x2} (h : Keeps b s) : Keeps b (@State.orReg s x1 x2) := by
  unfold State.orReg
  repeat' with_reducible (first | assumption | apply State.modReg_keeps)

theorem State.bump_keeps {b : State} {s} {x1} (h : Keeps b s) : Keeps b (@State.bump s x1) := by
  unfold State.bump
  repeat' with_reducible (first | assumption | apply ite_keeps | apply State.modReg_keeps)

theorem State.report_keeps {b : State} {s} {x1 x2 x3} (h : Keeps b s) : Keeps b (@State.report s x1 x2 x3) := by
  unfold State.report
  repeat' (first | assumption | (with_reducible apply Keeps.mk_other))

theorem State.setTile_keeps {b : State} {s} {x1 x2} (h : Keeps b s) : Keeps b (@State.setTile s x1 x2) := by
  unfold State.setTile
  repeat' (first | assumption | (with_reducible apply Keeps.mk_other))

theorem State.modTile_keeps {b : State} {s} {x1 x2} (h : Keeps b s) : Keeps b (@State.modTile s x1 x2) := by
  unfold State.modTile
  repeat' with_reducible (first | assumption | apply State.setTile_keeps)

theorem State.setByte_keeps {b : State} {s} {x1 x2} (h : Keeps b s) : Keeps b (@State.setByte s x1 x2) := by
  unfold State.setByte
  split
  · exact h.setMem (swf_sset _ _ _ _ ·)
  · exact h.setMem fun x => swf_sset _ _ _ _ (swf_sset _ _ _ _ x)

theorem State.setBytes_keeps {b : State} {s} {x1 x2} (h : Keeps b s) : Keeps b (@State.setBytes s x1 x2) := by
  induction x2 generalizing s x1 with
  | nil => exact h
  | cons a l ih => exact ih (State.setByte_keeps h)

theorem State.store_keeps {b : State} {s} {x1 x2 x3} (h : Keeps b s) : Keeps b (@State.store s x1 x2 x3) := by
  unfold State.store
  repeat' with_reducible (first | assumption | apply State.setBytes_keeps)

theorem State.unmark_keeps {b : State} {s} {x1} (h : Keeps b s) : Keeps b (@State.unmark s x1) := by
  unfold State.unmark
  repeat' (first | assumption | dsimp only | (with_reducible apply Keeps.mk_other))

theorem State.eccRecordAt_keeps {b : State} {s} {x1 x2 x3 x4} (h : Keeps b s) : Keeps b (@State.eccRecordAt s x1 x2 x3 x4) := by
  unfold State.eccRecordAt
  repeat' (first | with_reducible (first | assumption | apply ite_keeps | apply State.bump_keeps | apply State.modReg_keeps | apply State.setReg_keeps) | (extract_lets +onlyGivenNames x; first | ((refine_lift have hx : Keeps b x := ?_; ?_); all_goals (first | (guard_hyp hx : Keeps b x; clear_value x) | subst x)) | clear_value x) | split | (with_reducible apply Keeps.mk_other) | (with_reducible apply Keeps.mk_free))

theorem State.eccRecord_keeps {b : State} {s} {x1 x2 x3} (h : Keeps b s) : Keeps b (@State.eccRecord s x1 x2 x3) := by
  unfold State.eccRecord
  repeat' with_reducible (first | assumption | apply State.eccRecordAt_keeps)

theorem State.reportCe_keeps {b : State} {s} {x1} (h : Keeps b s) : Keeps b (@State.reportCe s x1) := by
  unfold State.reportCe
  repeat' (first | with_reducible (first | assumption | apply State.report_keeps) | split)

theorem State.eccRead_keeps {b : State} {s} {x1 x2} (h : Keeps b s) : Keeps b (@State.eccRead s x1 x2) := by
  unfold State.eccRead
  repeat' (first | with_reducible (first | assumption | apply ite_keeps | apply State.reportCe_keeps | apply State.eccRecord_keeps | apply State.report_keeps) | (extract_lets +onlyGivenNames x; first | ((refine_lift have hx : Keeps b x := ?_; ?_); all_goals (first | (guard_hyp hx : Keeps b x; clear_value x) | subst x)) | clear_value x) | split | (with_reducible apply Keeps.mk_other))

theorem State.eccReadRange_keeps {b : State} {s} {x1 x2 x3} (h : Keeps b s) : Keeps b (@State.eccReadRange s x1 x2 x3) := by
  unfold State.eccReadRange
  repeat' (first | with_reducible (first | assumption | apply State.eccRead_keeps) | (refine foldl_keeps ?_ ?_) | (intro _ _ _))

theorem State.eccMerge_keeps {b : State} {s} {x1 x2 x3 x4} (h : Keeps b s) : Keeps b (@State.eccMerge s x1 x2 x3 x4) := by
  unfold State.eccMerge
  repeat' (first | with_reducible (first | assumption | apply ite_keeps | apply State.reportCe_keeps | apply State.eccRecordAt_keeps | apply State.unmark_keeps) | split)

theorem State.eccWriteWord_keeps {b : State} {s} {x1 x2 x3 x4} (h : Keeps b s) : Keeps b (@State.eccWriteWord s x1 x2 x3 x4) := by
  unfold State.eccWriteWord
  repeat' (first | with_reducible (first | assumption | apply State.eccMerge_keeps) | (extract_lets +onlyGivenNames x; first | ((refine_lift have hx : Keeps b x := ?_; ?_); all_goals (first | (guard_hyp hx : Keeps b x; clear_value x) | subst x)) | clear_value x) | split | (with_reducible apply Keeps.mk_other))

theorem State.memWrite_keeps {b : State} {s} {x1 x2 x3} (h : Keeps b s) : Keeps b (@State.memWrite s x1 x2 x3) := by
  unfold State.memWrite
  repeat' (first | with_reducible (first | assumption | apply State.eccWriteWord_keeps | apply State.setBytes_keeps) | (refine foldl_keeps ?_ ?_) | (intro _ _ _))

theorem State.localWrite_keeps {b : State} {s} {x1 x2 x3} (h : Keeps b s) : Keeps b (@State.localWrite s x1 x2 x3) := by
  unfold State.localWrite
  repeat' with_reducible (first | assumption | apply State.memWrite_keeps)

end Sys2Proof.Laws
end

