-- ==== Sys2Proof/Laws/Keeps/Front.lean ====
section
/-! SUPPORT. The operations of Machine/Front.lean keep the queue, the canonical forms and what has been handed outside. -/

namespace Sys2Proof.Laws

open Sys2Proof.Machine

theorem State.fetchFrond_keeps {b : State} {s} {x1 x2} (h : Keeps b s) : Keeps b (@State.fetchFrond s x1 x2) := by
  unfold State.fetchFrond
  repeat' (first | with_reducible (first | assumption | apply State.eccReadRange_keeps) | split)

theorem readAhead_keeps {b : State} {s} {x0 x1 x2 x3 x4} (h : Keeps b s) : Keeps b (@readAhead x0 x1 x2 x3 x4 s) := by
  induction x1 generalizing s x2 x3 x4 with
  | zero => exact h
  | succ n ih =>
    unfold readAhead
    refine ite_keeps h ?_
    extract_lets +onlyGivenNames s1 seq kind t s2
    have h1 : Keeps b s1 := State.fetchFrond_keeps h
    have h2 : Keeps b s2 := by
      have key : ∀ k : Option (Bool × Bool), Keeps b (match k with
          | some (c, r) => s1.modTile x0 fun t => t.fetchBranch x2 c r (BitVec.ofNat 32 (linkAt s x0 x3 (frondLen s x0 x3)))
          | none => s1) := fun k => by
        cases k
        · exact h1
        · exact State.modTile_keeps h1
      exact key kind
    clear_value s2
    split <;> exact ih h2

theorem State.discardFronds_keeps {b : State} {s} {x1 x2 x3 x4} (h : Keeps b s) : Keeps b (@State.discardFronds s x1 x2 x3 x4) := by
  unfold State.discardFronds
  repeat' with_reducible (first | assumption | apply ite_keeps | apply readAhead_keeps)

end Sys2Proof.Laws
end

