-- ==== Sys2Proof/Laws/Keeps/Pipeline.lean ====
section
/-! SUPPORT. The operations of Machine/Pipeline.lean keep the queue, the canonical forms and what has been handed outside. -/

namespace Sys2Proof.Laws

open Sys2Proof.Machine

theorem retireOne_keeps {b : State} {s} {x0 x2} (h : Keeps b s) : Keeps b (@retireOne x0 s x2) := by
  unfold retireOne
  repeat' (first | with_reducible (first | assumption | apply ite_keeps | apply State.localWrite_keeps | apply State.modTile_keeps) | split | (refine foldl_keeps ?_ ?_) | (refine foldl_fst_keeps ?_ ?_) | (intro _ _ _) | dsimp only | (with_reducible apply Keeps.mk_other))

theorem retireFlag_keeps {b : State} {s} {x0 x2} (h : Keeps b s) : Keeps b (@retireFlag x0 s x2) := by
  unfold retireFlag
  repeat' (first | with_reducible (first | assumption | apply ite_keeps | apply State.modTile_keeps) | (extract_lets +onlyGivenNames x; first | ((refine_lift have hx : Keeps b x := ?_; ?_); all_goals (first | (guard_hyp hx : Keeps b x; clear_value x) | subst x)) | clear_value x) | split | (with_reducible apply Keeps.mk_other))

theorem endCycle_keeps {b : State} {s} {x0} (h : Keeps b s) : Keeps b (@endCycle x0 s) := by
  unfold endCycle
  repeat' (first | with_reducible (first | assumption | apply ite_keeps | apply retireFlag_keeps | apply retireOne_keeps | apply State.modTile_keeps) | (extract_lets +onlyGivenNames x; first | ((refine_lift have hx : Keeps b x := ?_; ?_); all_goals (first | (guard_hyp hx : Keeps b x; clear_value x) | subst x)) | clear_value x) | (refine foldl_keeps ?_ ?_) | (intro _ _ _) | (with_reducible apply Keeps.mk_other))

theorem issueCycle_keeps {b : State} {s} {x0} (h : Keeps b s) : Keeps b (@issueCycle x0 s) := by
  unfold issueCycle
  repeat' (first | with_reducible (first | assumption | apply ite_keeps | apply endCycle_keeps | apply State.modTile_keeps) | (extract_lets +onlyGivenNames x; first | ((refine_lift have hx : Keeps b x := ?_; ?_); all_goals (first | (guard_hyp hx : Keeps b x; clear_value x) | subst x)) | clear_value x) | (with_reducible apply Keeps.mk_other))

theorem emptyCycles_keeps {b : State} {s} {x0 x1} (h : Keeps b s) : Keeps b (@emptyCycles x0 x1 s) := by
  induction x1 generalizing s with
  | zero => exact h
  | succ n ih => exact ih (issueCycle_keeps h)

theorem entryCycles_keeps {b : State} {s} {x0 x1} (h : Keeps b s) : Keeps b (@entryCycles x0 x1 s) := by
  induction x1 generalizing s with
  | zero => exact h
  | succ n ih => exact ih (endCycle_keeps h)

theorem drainPending_keeps {b : State} {s} {x0} (h : Keeps b s) : Keeps b (@drainPending x0 s) := by
  unfold drainPending
  repeat' (first | with_reducible (first | assumption | apply emptyCycles_keeps) | (refine foldl_keeps ?_ ?_) | (intro _ _ _))

theorem doubleFault_keeps {b : State} {s} {x0 x1} (h : Keeps b s) : Keeps b (@doubleFault x0 x1 s) := by
  unfold doubleFault
  repeat' (first | with_reducible (first | assumption | apply State.modTile_keeps | apply State.report_keeps) | (with_reducible apply Keeps.mk_other))

theorem State.dropFronds_keeps {b : State} {s} {x1 x2 x3} (h : Keeps b s) : Keeps b (@State.dropFronds s x1 x2 x3) := by
  unfold State.dropFronds
  repeat' with_reducible (first | assumption | apply ite_keeps | apply State.discardFronds_keeps)

theorem enter_keeps {b : State} {s} {x0 x1 x2} (h : Keeps b s) : Keeps b (@enter x0 x1 x2 s) := by
  unfold enter
  repeat' (first | with_reducible (first | assumption | apply ite_keeps | apply State.dropFronds_keeps | apply doubleFault_keeps | apply entryCycles_keeps | apply State.localWrite_keeps | apply State.eccReadRange_keeps | apply State.modTile_keeps) | (extract_lets +onlyGivenNames x; first | ((refine_lift have hx : Keeps b x := ?_; ?_); all_goals (first | (guard_hyp hx : Keeps b x; clear_value x) | subst x)) | clear_value x) | split | (with_reducible apply Keeps.mk_other))

theorem preciseFault_keeps {b : State} {s} {x0 x1 x2 x3 x4} (h : Keeps b s) : Keeps b (@preciseFault x0 x1 x2 x3 x4 s) := by
  unfold preciseFault
  repeat' (first | with_reducible (first | assumption | apply enter_keeps) | (with_reducible apply Keeps.mk_other))

theorem restoreFrame_keeps {b s : State} {x0 x1} (h : Keeps b s) : Keeps b (restoreFrame x0 x1 s) := by
  unfold restoreFrame
  with_reducible apply State.modTile_keeps
  exact h

theorem deliverTrap_keeps {b : State} {s} {x0} (h : Keeps b s) : Keeps b (@deliverTrap x0 s) := by
  unfold deliverTrap
  repeat' (first | with_reducible (first | assumption | apply enter_keeps) | (with_reducible apply Keeps.mk_other))

end Sys2Proof.Laws
end

