-- ==== Sys2Proof/Laws/Keeps/Operands.lean ====
section
/-! SUPPORT. The operations of Machine/Operands.lean keep the queue, the canonical forms and what has been handed outside. -/

namespace Sys2Proof.Laws

open Sys2Proof.Machine

theorem mOut_keeps {x0 x1 x2 x3} : OpKeeps (@mOut x0 x1 x2 x3) := by
  unfold mOut
  repeat' (first | with_reducible (first | assumption | apply ite_keeps | apply op_ite_keeps | apply Keeps.by_id) | (extract_lets +onlyGivenNames x; first | ((refine_lift have hx : Keeps b x := ?_; ?_); all_goals (first | (guard_hyp hx : Keeps b x; clear_value x) | subst x)) | ((refine_lift have hx : OpKeeps x := ?_; ?_); all_goals (first | (guard_hyp hx : OpKeeps x; clear_value x) | subst x)) | ((refine_lift have hx : Keeps b x.1 := ?_; ?_); all_goals (first | (guard_hyp hx : Keeps b x.1; clear_value x) | subst x)) | clear_value x) | split | (with_reducible apply OpKeeps.lit) | (intro _ _ _) | dsimp only | (with_reducible apply Keeps.mk_other))

end Sys2Proof.Laws
end

