-- ==== Sys2Proof/Laws/Keeps/IntOps.lean ====
section
/-! SUPPORT. The operations of Machine/IntOps.lean keep the queue, the canonical forms and what has been handed outside. -/

namespace Sys2Proof.Laws

open Sys2Proof.Machine

theorem sextOut_keeps {x0 x1} : OpKeeps (@sextOut x0 x1) := by
  unfold sextOut
  repeat' (first | with_reducible (first | assumption | apply Keeps.by_id | apply mOut_keeps) | (with_reducible apply OpKeeps.lit) | (intro _ _ _))

theorem zextOut_keeps {x0 x1} : OpKeeps (@zextOut x0 x1) := by
  unfold zextOut
  repeat' (first | with_reducible (first | assumption | apply Keeps.by_id | apply mOut_keeps) | (with_reducible apply OpKeeps.lit) | (intro _ _ _))

theorem movOut_keeps {x0 x1} : OpKeeps (@movOut x0 x1) := by
  unfold movOut
  repeat' (first | with_reducible (first | assumption | apply Keeps.by_id | apply mOut_keeps) | (with_reducible apply OpKeeps.lit) | (intro _ _ _))

theorem addOut_keeps {x0 x1} : OpKeeps (@addOut x0 x1) := by
  unfold addOut
  repeat' (first | with_reducible (first | assumption | apply Keeps.by_id | apply mOut_keeps) | (with_reducible apply OpKeeps.lit) | (intro _ _ _))

theorem subOut_keeps {x0 x1} : OpKeeps (@subOut x0 x1) := by
  unfold subOut
  repeat' (first | with_reducible (first | assumption | apply Keeps.by_id | apply mOut_keeps) | (with_reducible apply OpKeeps.lit) | (intro _ _ _))

theorem addsOut_keeps {x0 x1} : OpKeeps (@addsOut x0 x1) := by
  unfold addsOut
  repeat' (first | with_reducible (first | assumption | apply Keeps.by_id | apply mOut_keeps) | (with_reducible apply OpKeeps.lit) | (intro _ _ _))

theorem subsOut_keeps {x0 x1} : OpKeeps (@subsOut x0 x1) := by
  unfold subsOut
  repeat' (first | with_reducible (first | assumption | apply Keeps.by_id | apply mOut_keeps) | (with_reducible apply OpKeeps.lit) | (intro _ _ _))

theorem negOut_keeps {x0 x1} : OpKeeps (@negOut x0 x1) := by
  unfold negOut
  repeat' (first | with_reducible (first | assumption | apply Keeps.by_id | apply mOut_keeps) | (with_reducible apply OpKeeps.lit) | (intro _ _ _))

theorem abssOut_keeps {x0 x1} : OpKeeps (@abssOut x0 x1) := by
  unfold abssOut
  repeat' (first | with_reducible (first | assumption | apply Keeps.by_id | apply mOut_keeps) | (with_reducible apply OpKeeps.lit) | (intro _ _ _))

theorem andOut_keeps {x0 x1} : OpKeeps (@andOut x0 x1) := by
  unfold andOut
  repeat' (first | with_reducible (first | assumption | apply Keeps.by_id | apply mOut_keeps) | (with_reducible apply OpKeeps.lit) | (intro _ _ _))

theorem orOut_keeps {x0 x1} : OpKeeps (@orOut x0 x1) := by
  unfold orOut
  repeat' (first | with_reducible (first | assumption | apply Keeps.by_id | apply mOut_keeps) | (with_reducible apply OpKeeps.lit) | (intro _ _ _))

theorem xorOut_keeps {x0 x1} : OpKeeps (@xorOut x0 x1) := by
  unfold xorOut
  repeat' (first | with_reducible (first | assumption | apply Keeps.by_id | apply mOut_keeps) | (with_reducible apply OpKeeps.lit) | (intro _ _ _))

theorem andnOut_keeps {x0 x1} : OpKeeps (@andnOut x0 x1) := by
  unfold andnOut
  repeat' (first | with_reducible (first | assumption | apply Keeps.by_id | apply mOut_keeps) | (with_reducible apply OpKeeps.lit) | (intro _ _ _))

theorem shlOut_keeps {x0 x1} : OpKeeps (@shlOut x0 x1) := by
  unfold shlOut
  repeat' (first | with_reducible (first | assumption | apply Keeps.by_id | apply mOut_keeps) | (with_reducible apply OpKeeps.lit) | (intro _ _ _))

theorem shrOut_keeps {x0 x1} : OpKeeps (@shrOut x0 x1) := by
  unfold shrOut
  repeat' (first | with_reducible (first | assumption | apply Keeps.by_id | apply mOut_keeps) | (with_reducible apply OpKeeps.lit) | (intro _ _ _))

theorem sarOut_keeps {x0 x1} : OpKeeps (@sarOut x0 x1) := by
  unfold sarOut
  repeat' (first | with_reducible (first | assumption | apply Keeps.by_id | apply mOut_keeps) | (with_reducible apply OpKeeps.lit) | (intro _ _ _))

theorem shlsOut_keeps {x0 x1} : OpKeeps (@shlsOut x0 x1) := by
  unfold shlsOut
  repeat' (first | with_reducible (first | assumption | apply Keeps.by_id | apply mOut_keeps) | (with_reducible apply OpKeeps.lit) | (intro _ _ _))

theorem minOut_keeps {x0 x1} : OpKeeps (@minOut x0 x1) := by
  unfold minOut
  repeat' (first | with_reducible (first | assumption | apply Keeps.by_id | apply mOut_keeps) | (with_reducible apply OpKeeps.lit) | (intro _ _ _))

theorem maxOut_keeps {x0 x1} : OpKeeps (@maxOut x0 x1) := by
  unfold maxOut
  repeat' (first | with_reducible (first | assumption | apply Keeps.by_id | apply mOut_keeps) | (with_reducible apply OpKeeps.lit) | (intro _ _ _))

theorem minuOut_keeps {x0 x1} : OpKeeps (@minuOut x0 x1) := by
  unfold minuOut
  repeat' (first | with_reducible (first | assumption | apply Keeps.by_id | apply mOut_keeps) | (with_reducible apply OpKeeps.lit) | (intro _ _ _))

theorem maxuOut_keeps {x0 x1} : OpKeeps (@maxuOut x0 x1) := by
  unfold maxuOut
  repeat' (first | with_reducible (first | assumption | apply Keeps.by_id | apply mOut_keeps) | (with_reducible apply OpKeeps.lit) | (intro _ _ _))

theorem mulq15Out_keeps {x0 x1} : OpKeeps (@mulq15Out x0 x1) := by
  unfold mulq15Out
  repeat' (first | with_reducible (first | assumption | apply Keeps.by_id | apply mOut_keeps) | (with_reducible apply OpKeeps.lit) | (intro _ _ _))

theorem rndqOut_keeps {x0 x1} : OpKeeps (@rndqOut x0 x1) := by
  unfold rndqOut
  repeat' (first | with_reducible (first | assumption | apply Keeps.by_id | apply mOut_keeps) | (with_reducible apply OpKeeps.lit) | (intro _ _ _))

theorem macq15Out_keeps {x0 x1} : OpKeeps (@macq15Out x0 x1) := by
  unfold macq15Out
  repeat' (first | with_reducible (first | assumption | apply Keeps.by_id | apply mOut_keeps) | (with_reducible apply OpKeeps.lit) | (intro _ _ _) | dsimp only | (with_reducible apply Keeps.mk_other))

theorem cmpOut_keeps {x0 x1} : OpKeeps (@cmpOut x0 x1) := by
  unfold cmpOut
  repeat' (first | with_reducible (first | assumption | apply ite_keeps | apply op_ite_keeps | apply Keeps.by_id) | (extract_lets +onlyGivenNames x; first | ((refine_lift have hx : Keeps b x := ?_; ?_); all_goals (first | (guard_hyp hx : Keeps b x; clear_value x) | subst x)) | ((refine_lift have hx : OpKeeps x := ?_; ?_); all_goals (first | (guard_hyp hx : OpKeeps x; clear_value x) | subst x)) | clear_value x) | (with_reducible apply OpKeeps.lit) | (intro _ _ _) | (with_reducible apply Keeps.mk_other))

theorem plogOut_keeps {x0 x1} : OpKeeps (@plogOut x0 x1) := by
  unfold plogOut
  repeat' (first | with_reducible (first | assumption | apply ite_keeps | apply op_ite_keeps | apply Keeps.by_id) | (with_reducible apply OpKeeps.lit) | (intro _ _ _) | (with_reducible apply Keeps.mk_other))

theorem aOut_keeps {x0 x1 x2 x3 x4 x5 x6 x7 x8} : OpKeeps (@aOut x0 x1 x2 x3 x4 x5 x6 x7 x8) := by
  unfold aOut
  repeat' (first | with_reducible (first | assumption | apply ite_keeps | apply op_ite_keeps | apply Keeps.by_id) | (extract_lets +onlyGivenNames x; first | ((refine_lift have hx : Keeps b x := ?_; ?_); all_goals (first | (guard_hyp hx : Keeps b x; clear_value x) | subst x)) | ((refine_lift have hx : OpKeeps x := ?_; ?_); all_goals (first | (guard_hyp hx : OpKeeps x; clear_value x) | subst x)) | ((refine_lift have hx : Keeps b x.1 := ?_; ?_); all_goals (first | (guard_hyp hx : Keeps b x.1; clear_value x) | subst x)) | clear_value x) | (with_reducible apply OpKeeps.lit) | (intro _ _ _) | (with_reducible apply Keeps.mk_other))

theorem amoviOut_keeps {x0 x1} : OpKeeps (@amoviOut x0 x1) := by
  unfold amoviOut
  repeat' (first | with_reducible (first | assumption | apply Keeps.by_id | apply aOut_keeps) | (with_reducible apply OpKeeps.lit) | (intro _ _ _))

theorem amovxOut_keeps {x0 x1} : OpKeeps (@amovxOut x0 x1) := by
  unfold amovxOut
  repeat' (first | with_reducible (first | assumption | apply Keeps.by_id | apply aOut_keeps) | (with_reducible apply OpKeeps.lit) | (intro _ _ _))

theorem amovOut_keeps {x0 x1} : OpKeeps (@amovOut x0 x1) := by
  unfold amovOut
  repeat' (first | with_reducible (first | assumption | apply Keeps.by_id | apply aOut_keeps) | (with_reducible apply OpKeeps.lit) | (intro _ _ _))

theorem aaddiOut_keeps {x0 x1} : OpKeeps (@aaddiOut x0 x1) := by
  unfold aaddiOut
  repeat' (first | with_reducible (first | assumption | apply Keeps.by_id | apply aOut_keeps) | (with_reducible apply OpKeeps.lit) | (intro _ _ _))

theorem aaddOut_keeps {x0 x1} : OpKeeps (@aaddOut x0 x1) := by
  unfold aaddOut
  repeat' (first | with_reducible (first | assumption | apply Keeps.by_id | apply aOut_keeps) | (with_reducible apply OpKeeps.lit) | (intro _ _ _))

theorem asubOut_keeps {x0 x1} : OpKeeps (@asubOut x0 x1) := by
  unfold asubOut
  repeat' (first | with_reducible (first | assumption | apply Keeps.by_id | apply aOut_keeps) | (with_reducible apply OpKeeps.lit) | (intro _ _ _))

theorem ashliOut_keeps {x0 x1} : OpKeeps (@ashliOut x0 x1) := by
  unfold ashliOut
  repeat' (first | with_reducible (first | assumption | apply Keeps.by_id | apply aOut_keeps) | (with_reducible apply OpKeeps.lit) | (intro _ _ _))

theorem aaddxOut_keeps {x0 x1} : OpKeeps (@aaddxOut x0 x1) := by
  unfold aaddxOut
  repeat' (first | with_reducible (first | assumption | apply Keeps.by_id | apply aOut_keeps) | (with_reducible apply OpKeeps.lit) | (intro _ _ _))

theorem agetOut_keeps {x0 x1} : OpKeeps (@agetOut x0 x1) := by
  unfold agetOut
  repeat' (first | with_reducible (first | assumption | apply Keeps.by_id | apply aOut_keeps) | (with_reducible apply OpKeeps.lit) | (intro _ _ _))

theorem aputOut_keeps {x0 x1} : OpKeeps (@aputOut x0 x1) := by
  unfold aputOut
  repeat' (first | with_reducible (first | assumption | apply Keeps.by_id | apply aOut_keeps) | (with_reducible apply OpKeeps.lit) | (intro _ _ _))

theorem extOut_keeps {x0 x1} : OpKeeps (@extOut x0 x1) := by
  unfold extOut
  repeat' (first | with_reducible (first | assumption | apply Keeps.by_id) | (with_reducible apply OpKeeps.lit) | (intro _ _ _) | (with_reducible apply Keeps.mk_other))

theorem fmovDOut_keeps {x0 x1} : OpKeeps (@fmovDOut x0 x1) := by
  unfold fmovDOut
  repeat' (first | with_reducible (first | assumption | apply ite_keeps | apply op_ite_keeps | apply Keeps.by_id) | (with_reducible apply OpKeeps.lit) | (intro _ _ _) | (with_reducible apply Keeps.mk_other))

theorem fmovSOut_keeps {x0 x1} : OpKeeps (@fmovSOut x0 x1) := by
  unfold fmovSOut
  repeat' (first | with_reducible (first | assumption | apply ite_keeps | apply op_ite_keeps | apply Keeps.by_id) | (with_reducible apply OpKeeps.lit) | (intro _ _ _) | (with_reducible apply Keeps.mk_other))

theorem faddOut_keeps {x0 x1} : OpKeeps (@faddOut x0 x1) := by
  unfold faddOut
  repeat' (first | with_reducible (first | assumption | apply Keeps.by_id | apply mOut_keeps) | (with_reducible apply OpKeeps.lit) | (intro _ _ _))

theorem fsubOut_keeps {x0 x1} : OpKeeps (@fsubOut x0 x1) := by
  unfold fsubOut
  repeat' (first | with_reducible (first | assumption | apply Keeps.by_id | apply mOut_keeps) | (with_reducible apply OpKeeps.lit) | (intro _ _ _))

theorem fmulOut_keeps {x0 x1} : OpKeeps (@fmulOut x0 x1) := by
  unfold fmulOut
  repeat' (first | with_reducible (first | assumption | apply Keeps.by_id | apply mOut_keeps) | (with_reducible apply OpKeeps.lit) | (intro _ _ _))

theorem fmaOut_keeps {x0 x1} : OpKeeps (@fmaOut x0 x1) := by
  unfold fmaOut
  repeat' (first | with_reducible (first | assumption | apply Keeps.by_id | apply mOut_keeps) | (with_reducible apply OpKeeps.lit) | (intro _ _ _))

theorem fnmsOut_keeps {x0 x1} : OpKeeps (@fnmsOut x0 x1) := by
  unfold fnmsOut
  repeat' (first | with_reducible (first | assumption | apply Keeps.by_id | apply mOut_keeps) | (with_reducible apply OpKeeps.lit) | (intro _ _ _))

theorem fcmpOut_keeps {x0 x1} : OpKeeps (@fcmpOut x0 x1) := by
  unfold fcmpOut
  repeat' (first | with_reducible (first | assumption | apply ite_keeps | apply op_ite_keeps | apply Keeps.by_id) | (extract_lets +onlyGivenNames x; first | ((refine_lift have hx : Keeps b x := ?_; ?_); all_goals (first | (guard_hyp hx : Keeps b x; clear_value x) | subst x)) | ((refine_lift have hx : OpKeeps x := ?_; ?_); all_goals (first | (guard_hyp hx : OpKeeps x; clear_value x) | subst x)) | ((refine_lift have hx : Keeps b x.1 := ?_; ?_); all_goals (first | (guard_hyp hx : Keeps b x.1; clear_value x) | subst x)) | clear_value x) | (with_reducible apply OpKeeps.lit) | (intro _ _ _) | dsimp only | (with_reducible apply Keeps.mk_other))

theorem funOut_keeps {x0 x1 x2 x3 x4 x5 x6 x7 x8} : OpKeeps (@funOut x0 x1 x2 x3 x4 x5 x6 x7 x8) := by
  unfold funOut
  repeat' (first | with_reducible (first | assumption | apply ite_keeps | apply op_ite_keeps | apply Keeps.by_id) | (extract_lets +onlyGivenNames x; first | ((refine_lift have hx : Keeps b x := ?_; ?_); all_goals (first | (guard_hyp hx : Keeps b x; clear_value x) | subst x)) | ((refine_lift have hx : OpKeeps x := ?_; ?_); all_goals (first | (guard_hyp hx : OpKeeps x; clear_value x) | subst x)) | ((refine_lift have hx : Keeps b x.1 := ?_; ?_); all_goals (first | (guard_hyp hx : Keeps b x.1; clear_value x) | subst x)) | clear_value x) | (with_reducible apply OpKeeps.lit) | (intro _ _ _) | dsimp only | (with_reducible apply Keeps.mk_other))

theorem fnegOut_keeps {x0 x1} : OpKeeps (@fnegOut x0 x1) := by
  unfold fnegOut
  repeat' (first | with_reducible (first | assumption | apply Keeps.by_id | apply funOut_keeps) | (with_reducible apply OpKeeps.lit) | (intro _ _ _))

theorem fabsOut_keeps {x0 x1} : OpKeeps (@fabsOut x0 x1) := by
  unfold fabsOut
  repeat' (first | with_reducible (first | assumption | apply Keeps.by_id | apply funOut_keeps) | (with_reducible apply OpKeeps.lit) | (intro _ _ _))

theorem fcvtDSOut_keeps {x0 x1} : OpKeeps (@fcvtDSOut x0 x1) := by
  unfold fcvtDSOut
  repeat' (first | with_reducible (first | assumption | apply Keeps.by_id | apply funOut_keeps) | (with_reducible apply OpKeeps.lit) | (intro _ _ _))

theorem fcvtSDOut_keeps {x0 x1} : OpKeeps (@fcvtSDOut x0 x1) := by
  unfold fcvtSDOut
  repeat' (first | with_reducible (first | assumption | apply Keeps.by_id | apply funOut_keeps) | (with_reducible apply OpKeeps.lit) | (intro _ _ _))

theorem fcvtHSOut_keeps {x0 x1} : OpKeeps (@fcvtHSOut x0 x1) := by
  unfold fcvtHSOut
  repeat' (first | with_reducible (first | assumption | apply Keeps.by_id | apply funOut_keeps) | (with_reducible apply OpKeeps.lit) | (intro _ _ _))

theorem fcvtSHOut_keeps {x0 x1} : OpKeeps (@fcvtSHOut x0 x1) := by
  unfold fcvtSHOut
  repeat' (first | with_reducible (first | assumption | apply Keeps.by_id | apply funOut_keeps) | (with_reducible apply OpKeeps.lit) | (intro _ _ _))

theorem fcvtI32SOut_keeps {x0 x1} : OpKeeps (@fcvtI32SOut x0 x1) := by
  unfold fcvtI32SOut
  repeat' (first | with_reducible (first | assumption | apply Keeps.by_id | apply funOut_keeps) | (with_reducible apply OpKeeps.lit) | (intro _ _ _))

theorem fcvtI32DOut_keeps {x0 x1} : OpKeeps (@fcvtI32DOut x0 x1) := by
  unfold fcvtI32DOut
  repeat' (first | with_reducible (first | assumption | apply Keeps.by_id | apply funOut_keeps) | (with_reducible apply OpKeeps.lit) | (intro _ _ _))

theorem fcvtI64DOut_keeps {x0 x1} : OpKeeps (@fcvtI64DOut x0 x1) := by
  unfold fcvtI64DOut
  repeat' (first | with_reducible (first | assumption | apply Keeps.by_id | apply funOut_keeps) | (with_reducible apply OpKeeps.lit) | (intro _ _ _))

theorem fcvtSI32Out_keeps {x0 x1} : OpKeeps (@fcvtSI32Out x0 x1) := by
  unfold fcvtSI32Out
  repeat' (first | with_reducible (first | assumption | apply Keeps.by_id | apply funOut_keeps) | (with_reducible apply OpKeeps.lit) | (intro _ _ _))

theorem fcvtDI32Out_keeps {x0 x1} : OpKeeps (@fcvtDI32Out x0 x1) := by
  unfold fcvtDI32Out
  repeat' (first | with_reducible (first | assumption | apply Keeps.by_id | apply funOut_keeps) | (with_reducible apply OpKeeps.lit) | (intro _ _ _))

theorem fcvtDI64Out_keeps {x0 x1} : OpKeeps (@fcvtDI64Out x0 x1) := by
  unfold fcvtDI64Out
  repeat' (first | with_reducible (first | assumption | apply Keeps.by_id | apply funOut_keeps) | (with_reducible apply OpKeeps.lit) | (intro _ _ _))

theorem fcvtQ31SOut_keeps {x0 x1} : OpKeeps (@fcvtQ31SOut x0 x1) := by
  unfold fcvtQ31SOut
  repeat' (first | with_reducible (first | assumption | apply ite_keeps | apply op_ite_keeps | apply Keeps.by_id | apply funOut_keeps) | (with_reducible apply OpKeeps.lit) | (intro _ _ _) | dsimp only)

theorem fcvtSQ31Out_keeps {x0 x1} : OpKeeps (@fcvtSQ31Out x0 x1) := by
  unfold fcvtSQ31Out
  repeat' (first | with_reducible (first | assumption | apply Keeps.by_id | apply funOut_keeps) | (with_reducible apply OpKeeps.lit) | (intro _ _ _))

end Sys2Proof.Laws
end

