-- ==== Sys2Proof/Laws/Keeps/VecOps.lean ====
section
/-! SUPPORT. The operations of Machine/VecOps.lean keep the queue, the canonical forms and what has been handed outside. -/

namespace Sys2Proof.Laws

open Sys2Proof.Machine

theorem vOut_keeps {x0 x1 x2 x3 x4 x5} : OpKeeps (@vOut x0 x1 x2 x3 x4 x5) := by
  unfold vOut
  repeat' (first | with_reducible (first | assumption | apply ite_keeps | apply op_ite_keeps | apply Keeps.by_id) | (extract_lets +onlyGivenNames x; first | ((refine_lift have hx : Keeps b x := ?_; ?_); all_goals (first | (guard_hyp hx : Keeps b x; clear_value x) | subst x)) | ((refine_lift have hx : OpKeeps x := ?_; ?_); all_goals (first | (guard_hyp hx : OpKeeps x; clear_value x) | subst x)) | ((refine_lift have hx : Keeps b x.1 := ?_; ?_); all_goals (first | (guard_hyp hx : Keeps b x.1; clear_value x) | subst x)) | clear_value x) | (with_reducible apply OpKeeps.lit) | (intro _ _ _) | (with_reducible apply Keeps.mk_other))

theorem vInt2_keeps {x0 x1 x2} : OpKeeps (@vInt2 x0 x1 x2) := by
  unfold vInt2
  repeat' (first | with_reducible (first | assumption | apply Keeps.by_id | apply vOut_keeps) | (with_reducible apply OpKeeps.lit) | (intro _ _ _) | dsimp only)

theorem setvlOut_keeps {x0 x1} : OpKeeps (@setvlOut x0 x1) := by
  unfold setvlOut
  repeat' (first | with_reducible (first | assumption | apply ite_keeps | apply op_ite_keeps | apply Keeps.by_id) | (extract_lets +onlyGivenNames x; first | ((refine_lift have hx : Keeps b x := ?_; ?_); all_goals (first | (guard_hyp hx : Keeps b x; clear_value x) | subst x)) | ((refine_lift have hx : OpKeeps x := ?_; ?_); all_goals (first | (guard_hyp hx : OpKeeps x; clear_value x) | subst x)) | clear_value x) | split | (with_reducible apply OpKeeps.lit) | (intro _ _ _) | (with_reducible apply Keeps.mk_other))

theorem vmovOut_keeps {x0 x1} : OpKeeps (@vmovOut x0 x1) := by
  unfold vmovOut
  repeat' (first | with_reducible (first | assumption | apply Keeps.by_id | apply vOut_keeps) | (with_reducible apply OpKeeps.lit) | (intro _ _ _))

theorem vidOut_keeps {x0 x1} : OpKeeps (@vidOut x0 x1) := by
  unfold vidOut
  repeat' (first | with_reducible (first | assumption | apply Keeps.by_id | apply vOut_keeps) | (with_reducible apply OpKeeps.lit) | (intro _ _ _))

theorem vaddOut_keeps {x0 x1} : OpKeeps (@vaddOut x0 x1) := by
  unfold vaddOut
  repeat' (first | with_reducible (first | assumption | apply Keeps.by_id | apply vInt2_keeps) | (with_reducible apply OpKeeps.lit) | (intro _ _ _))

theorem vsubOut_keeps {x0 x1} : OpKeeps (@vsubOut x0 x1) := by
  unfold vsubOut
  repeat' (first | with_reducible (first | assumption | apply Keeps.by_id | apply vInt2_keeps) | (with_reducible apply OpKeeps.lit) | (intro _ _ _))

theorem vaddsOut_keeps {x0 x1} : OpKeeps (@vaddsOut x0 x1) := by
  unfold vaddsOut
  repeat' (first | with_reducible (first | assumption | apply Keeps.by_id | apply vInt2_keeps) | (with_reducible apply OpKeeps.lit) | (intro _ _ _))

theorem vsubsOut_keeps {x0 x1} : OpKeeps (@vsubsOut x0 x1) := by
  unfold vsubsOut
  repeat' (first | with_reducible (first | assumption | apply Keeps.by_id | apply vInt2_keeps) | (with_reducible apply OpKeeps.lit) | (intro _ _ _))

theorem vandOut_keeps {x0 x1} : OpKeeps (@vandOut x0 x1) := by
  unfold vandOut
  repeat' (first | with_reducible (first | assumption | apply Keeps.by_id | apply vInt2_keeps) | (with_reducible apply OpKeeps.lit) | (intro _ _ _))

theorem vorOut_keeps {x0 x1} : OpKeeps (@vorOut x0 x1) := by
  unfold vorOut
  repeat' (first | with_reducible (first | assumption | apply Keeps.by_id | apply vInt2_keeps) | (with_reducible apply OpKeeps.lit) | (intro _ _ _))

theorem vxorOut_keeps {x0 x1} : OpKeeps (@vxorOut x0 x1) := by
  unfold vxorOut
  repeat' (first | with_reducible (first | assumption | apply Keeps.by_id | apply vInt2_keeps) | (with_reducible apply OpKeeps.lit) | (intro _ _ _))

theorem vshlOut_keeps {x0 x1} : OpKeeps (@vshlOut x0 x1) := by
  unfold vshlOut
  repeat' (first | with_reducible (first | assumption | apply Keeps.by_id | apply vInt2_keeps) | (with_reducible apply OpKeeps.lit) | (intro _ _ _))

theorem vshrOut_keeps {x0 x1} : OpKeeps (@vshrOut x0 x1) := by
  unfold vshrOut
  repeat' (first | with_reducible (first | assumption | apply Keeps.by_id | apply vInt2_keeps) | (with_reducible apply OpKeeps.lit) | (intro _ _ _))

theorem vsarOut_keeps {x0 x1} : OpKeeps (@vsarOut x0 x1) := by
  unfold vsarOut
  repeat' (first | with_reducible (first | assumption | apply Keeps.by_id | apply vInt2_keeps) | (with_reducible apply OpKeeps.lit) | (intro _ _ _))

theorem vminOut_keeps {x0 x1} : OpKeeps (@vminOut x0 x1) := by
  unfold vminOut
  repeat' (first | with_reducible (first | assumption | apply Keeps.by_id | apply vInt2_keeps) | (with_reducible apply OpKeeps.lit) | (intro _ _ _))

theorem vmaxOut_keeps {x0 x1} : OpKeeps (@vmaxOut x0 x1) := by
  unfold vmaxOut
  repeat' (first | with_reducible (first | assumption | apply Keeps.by_id | apply vInt2_keeps) | (with_reducible apply OpKeeps.lit) | (intro _ _ _))

theorem vmulq15Out_keeps {x0 x1} : OpKeeps (@vmulq15Out x0 x1) := by
  unfold vmulq15Out
  repeat' (first | with_reducible (first | assumption | apply Keeps.by_id | apply vOut_keeps) | (with_reducible apply OpKeeps.lit) | (intro _ _ _) | dsimp only)

theorem vmergeOut_keeps {x0 x1} : OpKeeps (@vmergeOut x0 x1) := by
  unfold vmergeOut
  repeat' (first | with_reducible (first | assumption | apply ite_keeps | apply op_ite_keeps | apply Keeps.by_id | apply vOut_keeps) | (with_reducible apply OpKeeps.lit) | (intro _ _ _))

theorem vCompare_keeps {x0 x1 x2 x3} : OpKeeps (@vCompare x0 x1 x2 x3) := by
  unfold vCompare
  repeat' (first | with_reducible (first | assumption | apply ite_keeps | apply op_ite_keeps | apply Keeps.by_id) | (extract_lets +onlyGivenNames x; first | ((refine_lift have hx : Keeps b x := ?_; ?_); all_goals (first | (guard_hyp hx : Keeps b x; clear_value x) | subst x)) | ((refine_lift have hx : OpKeeps x := ?_; ?_); all_goals (first | (guard_hyp hx : OpKeeps x; clear_value x) | subst x)) | ((refine_lift have hx : Keeps b x.1 := ?_; ?_); all_goals (first | (guard_hyp hx : Keeps b x.1; clear_value x) | subst x)) | clear_value x) | (with_reducible apply OpKeeps.lit) | (refine foldl_keeps ?_ ?_) | (refine foldl_fst_keeps ?_ ?_) | (intro _ _ _) | dsimp only | (with_reducible apply Keeps.mk_other))

theorem vcmpOut_keeps {x0 x1} : OpKeeps (@vcmpOut x0 x1) := by
  unfold vcmpOut
  repeat' (first | with_reducible (first | assumption | apply Keeps.by_id | apply vCompare_keeps) | (with_reducible apply OpKeeps.lit) | (intro _ _ _))

theorem vFp2_keeps {x0 x1 x2 x3} : OpKeeps (@vFp2 x0 x1 x2 x3) := by
  unfold vFp2
  repeat' (first | with_reducible (first | assumption | apply Keeps.by_id | apply vOut_keeps) | (with_reducible apply OpKeeps.lit) | (intro _ _ _))

theorem vfaddOut_keeps {x0 x1} : OpKeeps (@vfaddOut x0 x1) := by
  unfold vfaddOut
  repeat' (first | with_reducible (first | assumption | apply Keeps.by_id | apply vFp2_keeps) | (with_reducible apply OpKeeps.lit) | (intro _ _ _))

theorem vfsubOut_keeps {x0 x1} : OpKeeps (@vfsubOut x0 x1) := by
  unfold vfsubOut
  repeat' (first | with_reducible (first | assumption | apply Keeps.by_id | apply vFp2_keeps) | (with_reducible apply OpKeeps.lit) | (intro _ _ _))

theorem vfmulOut_keeps {x0 x1} : OpKeeps (@vfmulOut x0 x1) := by
  unfold vfmulOut
  repeat' (first | with_reducible (first | assumption | apply Keeps.by_id | apply vFp2_keeps) | (with_reducible apply OpKeeps.lit) | (intro _ _ _))

theorem vfmaOut_keeps {x0 x1} : OpKeeps (@vfmaOut x0 x1) := by
  unfold vfmaOut
  repeat' (first | with_reducible (first | assumption | apply Keeps.by_id | apply vFp2_keeps) | (with_reducible apply OpKeeps.lit) | (intro _ _ _))

theorem vfnmsOut_keeps {x0 x1} : OpKeeps (@vfnmsOut x0 x1) := by
  unfold vfnmsOut
  repeat' (first | with_reducible (first | assumption | apply Keeps.by_id | apply vFp2_keeps) | (with_reducible apply OpKeeps.lit) | (intro _ _ _))

theorem vfminOut_keeps {x0 x1} : OpKeeps (@vfminOut x0 x1) := by
  unfold vfminOut
  repeat' (first | with_reducible (first | assumption | apply Keeps.by_id | apply vFp2_keeps) | (with_reducible apply OpKeeps.lit) | (intro _ _ _))

theorem vfmaxOut_keeps {x0 x1} : OpKeeps (@vfmaxOut x0 x1) := by
  unfold vfmaxOut
  repeat' (first | with_reducible (first | assumption | apply Keeps.by_id | apply vFp2_keeps) | (with_reducible apply OpKeeps.lit) | (intro _ _ _))

theorem vfcmpOut_keeps {x0 x1} : OpKeeps (@vfcmpOut x0 x1) := by
  unfold vfcmpOut
  repeat' (first | with_reducible (first | assumption | apply Keeps.by_id | apply vCompare_keeps) | (with_reducible apply OpKeeps.lit) | (intro _ _ _))

theorem vfcvtOut_keeps {x0 x1} : OpKeeps (@vfcvtOut x0 x1) := by
  unfold vfcvtOut
  repeat' (first | with_reducible (first | assumption | apply Keeps.by_id | apply vOut_keeps | apply (vOut_keeps).act | apply (vOut_keeps).after) | split | (with_reducible apply OpKeeps.lit) | (intro _ _ _) | (with_reducible apply Keeps.mk_other))

theorem vldOut_keeps {x0 x1} : OpKeeps (@vldOut x0 x1) := by
  unfold vldOut
  repeat' (first | with_reducible (first | assumption | apply ite_keeps | apply op_ite_keeps | apply Keeps.by_id) | (extract_lets +onlyGivenNames x; first | ((refine_lift have hx : Keeps b x := ?_; ?_); all_goals (first | (guard_hyp hx : Keeps b x; clear_value x) | subst x)) | ((refine_lift have hx : OpKeeps x := ?_; ?_); all_goals (first | (guard_hyp hx : OpKeeps x; clear_value x) | subst x)) | clear_value x) | (with_reducible apply OpKeeps.lit) | (intro _ _ _) | (with_reducible apply Keeps.mk_other))

theorem vstOut_keeps {x0 x1} : OpKeeps (@vstOut x0 x1) := by
  unfold vstOut
  repeat' (first | with_reducible (first | assumption | apply ite_keeps | apply op_ite_keeps | apply Keeps.by_id) | (extract_lets +onlyGivenNames x; first | ((refine_lift have hx : Keeps b x := ?_; ?_); all_goals (first | (guard_hyp hx : Keeps b x; clear_value x) | subst x)) | ((refine_lift have hx : OpKeeps x := ?_; ?_); all_goals (first | (guard_hyp hx : OpKeeps x; clear_value x) | subst x)) | clear_value x) | (with_reducible apply OpKeeps.lit) | (refine foldl_keeps ?_ ?_) | (intro _ _ _) | (with_reducible apply Keeps.mk_other))

end Sys2Proof.Laws
end

