-- ==== Sys2Proof/Laws/Keeps/Ucode.lean ====
section
/-! SUPPORT. The operations of Machine/Ucode.lean keep the queue, the canonical forms and what has been handed outside. -/

namespace Sys2Proof.Laws

open Sys2Proof.Machine

theorem State.keepDescs_keeps {b : State} {s} {x1 x2 x3} (h : Keeps b s) : Keeps b (@State.keepDescs s x1 x2 x3) := by
  unfold State.keepDescs
  repeat' (first | with_reducible (first | assumption | apply State.eccReadRange_keeps | apply State.modTile_keeps) | split | (with_reducible apply Keeps.mk_other))

theorem State.setUpOn_keeps {b : State} {s} {x1 x2} (h : Keeps b s) : Keeps b (@State.setUpOn s x1 x2) := by
  unfold State.setUpOn
  repeat' (first | with_reducible (first | assumption | apply ite_keeps | apply State.keepDescs_keeps | apply State.eccReadRange_keeps | apply State.modTile_keeps) | (extract_lets +onlyGivenNames x; first | ((refine_lift have hx : Keeps b x := ?_; ?_); all_goals (first | (guard_hyp hx : Keeps b x; clear_value x) | subst x)) | clear_value x) | split | (with_reducible apply Keeps.mk_other))

theorem State.setUp_keeps {b : State} {s} {x1} (h : Keeps b s) : Keeps b (@State.setUp s x1) := by
  unfold State.setUp
  repeat' with_reducible (first | assumption | apply State.setUpOn_keeps)

end Sys2Proof.Laws
end

