-- ==== Sys2Proof/Laws/Keeps/LongOps.lean ====
section
/-! SUPPORT. The operations of Machine/LongOps.lean keep the queue, the canonical forms and what has been handed outside. -/

namespace Sys2Proof.Laws

open Sys2Proof.Machine

theorem takeTicket_keeps {b : State} {s} {x0 x1 x2 x3} (h : Keeps b s) : Keeps b (@takeTicket x0 x1 x2 x3 s) := by
  unfold takeTicket
  repeat' (first | with_reducible (first | assumption | apply State.modTile_keeps) | split)

theorem routineAct_keeps {b : State} {s} {x0 x1 x2} (h : Keeps b s) : Keeps b (@routineAct x0 x1 x2 s) := by
  unfold routineAct
  repeat' with_reducible (first | assumption | apply takeTicket_keeps | apply State.setUp_keeps)

theorem farAct_keeps {b : State} {s} {x0 x1 x2 x3} (h : Keeps b s) : Keeps b (@farAct x0 x1 x2 x3 s) := by
  unfold farAct
  repeat' (first | with_reducible (first | assumption | apply takeTicket_keeps) | (with_reducible apply Keeps.mk_other))

theorem trapEntry_keeps {b : State} {s} {x0 x1 x2 x3} (h : Keeps b s) : Keeps b (@trapEntry x0 x1 x2 x3 s) := by
  unfold trapEntry
  repeat' (first | with_reducible (first | assumption | apply enter_keeps | apply State.localWrite_keeps) | (extract_lets +onlyGivenNames x; first | ((refine_lift have hx : Keeps b x := ?_; ?_); all_goals (first | (guard_hyp hx : Keeps b x; clear_value x) | subst x)) | clear_value x) | (with_reducible apply Keeps.mk_other))

theorem macroTrap_keeps {x0 x1 x2 x3} : OpKeeps (@macroTrap x0 x1 x2 x3) := by
  unfold macroTrap
  repeat' (first | with_reducible (first | assumption | apply ite_keeps | apply op_ite_keeps | apply Keeps.by_id | apply trapEntry_keeps | apply takeTicket_keeps) | (extract_lets +onlyGivenNames x; first | ((refine_lift have hx : Keeps b x := ?_; ?_); all_goals (first | (guard_hyp hx : Keeps b x; clear_value x) | subst x)) | ((refine_lift have hx : OpKeeps x := ?_; ?_); all_goals (first | (guard_hyp hx : OpKeeps x; clear_value x) | subst x)) | clear_value x) | (with_reducible apply OpKeeps.lit) | (intro _ _ _) | (with_reducible apply Keeps.mk_other))

theorem spareOut_keeps {x0 x1 x2 x3} : OpKeeps (@spareOut x0 x1 x2 x3) := by
  unfold spareOut
  repeat' (first | with_reducible (first | assumption | apply ite_keeps | apply op_ite_keeps | apply Keeps.by_id | apply routineAct_keeps) | (extract_lets +onlyGivenNames x; first | ((refine_lift have hx : Keeps b x := ?_; ?_); all_goals (first | (guard_hyp hx : Keeps b x; clear_value x) | subst x)) | ((refine_lift have hx : OpKeeps x := ?_; ?_); all_goals (first | (guard_hyp hx : OpKeeps x; clear_value x) | subst x)) | clear_value x) | (with_reducible apply OpKeeps.lit) | (intro _ _ _) | (with_reducible apply Keeps.mk_other))

theorem withOverride_keeps {x0 x1 x2 o} (h : OpKeeps o) : OpKeeps (withOverride x0 x1 x2 o) := by
  unfold withOverride
  split
  · exact h
  · exact op_ite_keeps macroTrap_keeps spareOut_keeps

theorem macroTrapOut_keeps {x0 x1 x2} : OpKeeps (@macroTrapOut x0 x1 x2) := by
  unfold macroTrapOut
  repeat' (first | with_reducible (first | assumption | apply Keeps.by_id | apply withOverride_keeps | apply (withOverride_keeps).act | apply (withOverride_keeps).after) | (with_reducible apply OpKeeps.lit) | (intro _ _ _) | (with_reducible apply Keeps.mk_other))

theorem unassignedOut_keeps {x0 x1} : OpKeeps (@unassignedOut x0 x1) := by
  unfold unassignedOut
  repeat' (first | with_reducible (first | assumption | apply ite_keeps | apply op_ite_keeps | apply Keeps.by_id | apply macroTrapOut_keeps) | (with_reducible apply OpKeeps.lit) | (intro _ _ _) | (with_reducible apply Keeps.mk_other))

theorem joinOut_keeps {x0 x1} : OpKeeps (@joinOut x0 x1) := by
  unfold joinOut
  repeat' (first | with_reducible (first | assumption | apply ite_keeps | apply op_ite_keeps | apply Keeps.by_id | apply withOverride_keeps | apply (withOverride_keeps).act | apply (withOverride_keeps).after | apply State.modTile_keeps) | (extract_lets +onlyGivenNames x; first | ((refine_lift have hx : Keeps b x := ?_; ?_); all_goals (first | (guard_hyp hx : Keeps b x; clear_value x) | subst x)) | ((refine_lift have hx : OpKeeps x := ?_; ?_); all_goals (first | (guard_hyp hx : OpKeeps x; clear_value x) | subst x)) | clear_value x) | split | (with_reducible apply OpKeeps.lit) | (intro _ _ _) | (with_reducible apply Keeps.mk_other))

theorem joinanyOut_keeps {x0 x1} : OpKeeps (@joinanyOut x0 x1) := by
  unfold joinanyOut
  repeat' (first | with_reducible (first | assumption | apply ite_keeps | apply op_ite_keeps | apply Keeps.by_id | apply withOverride_keeps | apply (withOverride_keeps).act | apply (withOverride_keeps).after | apply State.modTile_keeps) | (extract_lets +onlyGivenNames x; first | ((refine_lift have hx : Keeps b x := ?_; ?_); all_goals (first | (guard_hyp hx : Keeps b x; clear_value x) | subst x)) | ((refine_lift have hx : OpKeeps x := ?_; ?_); all_goals (first | (guard_hyp hx : OpKeeps x; clear_value x) | subst x)) | clear_value x) | split | (with_reducible apply OpKeeps.lit) | (intro _ _ _) | (with_reducible apply Keeps.mk_other))

theorem retryOut_keeps {x0 x1} : OpKeeps (@retryOut x0 x1) := by
  unfold retryOut
  repeat' (first | with_reducible (first | assumption | apply ite_keeps | apply op_ite_keeps | apply Keeps.by_id | apply withOverride_keeps | apply (withOverride_keeps).act | apply (withOverride_keeps).after | apply trapEntry_keeps | apply State.setUp_keeps | apply State.modTile_keeps) | (extract_lets +onlyGivenNames x; first | ((refine_lift have hx : Keeps b x := ?_; ?_); all_goals (first | (guard_hyp hx : Keeps b x; clear_value x) | subst x)) | ((refine_lift have hx : OpKeeps x := ?_; ?_); all_goals (first | (guard_hyp hx : OpKeeps x; clear_value x) | subst x)) | clear_value x) | split | (with_reducible apply OpKeeps.lit) | (intro _ _ _) | (with_reducible apply Keeps.mk_other))

theorem trelOut_keeps {x0 x1} : OpKeeps (@trelOut x0 x1) := by
  unfold trelOut
  repeat' (first | with_reducible (first | assumption | apply ite_keeps | apply op_ite_keeps | apply Keeps.by_id | apply withOverride_keeps | apply (withOverride_keeps).act | apply (withOverride_keeps).after | apply State.modTile_keeps) | (extract_lets +onlyGivenNames x; first | ((refine_lift have hx : Keeps b x := ?_; ?_); all_goals (first | (guard_hyp hx : Keeps b x; clear_value x) | subst x)) | ((refine_lift have hx : OpKeeps x := ?_; ?_); all_goals (first | (guard_hyp hx : OpKeeps x; clear_value x) | subst x)) | clear_value x) | (with_reducible apply OpKeeps.lit) | (intro _ _ _) | (with_reducible apply Keeps.mk_other))

theorem tdoneOut_keeps {x0 x1} : OpKeeps (@tdoneOut x0 x1) := by
  unfold tdoneOut
  repeat' (first | with_reducible (first | assumption | apply ite_keeps | apply op_ite_keeps | apply Keeps.by_id | apply withOverride_keeps | apply (withOverride_keeps).act | apply (withOverride_keeps).after) | (extract_lets +onlyGivenNames x; first | ((refine_lift have hx : Keeps b x := ?_; ?_); all_goals (first | (guard_hyp hx : Keeps b x; clear_value x) | subst x)) | ((refine_lift have hx : OpKeeps x := ?_; ?_); all_goals (first | (guard_hyp hx : OpKeeps x; clear_value x) | subst x)) | clear_value x) | (with_reducible apply OpKeeps.lit) | (intro _ _ _) | (with_reducible apply Keeps.mk_other))

theorem farOut_keeps {x0 x1 x2 x3} : OpKeeps (@farOut x0 x1 x2 x3) := by
  unfold farOut
  repeat' (first | with_reducible (first | assumption | apply ite_keeps | apply op_ite_keeps | apply Keeps.by_id | apply farAct_keeps) | (extract_lets +onlyGivenNames x; first | ((refine_lift have hx : Keeps b x := ?_; ?_); all_goals (first | (guard_hyp hx : Keeps b x; clear_value x) | subst x)) | ((refine_lift have hx : OpKeeps x := ?_; ?_); all_goals (first | (guard_hyp hx : OpKeeps x; clear_value x) | subst x)) | ((refine_lift have hx : Keeps b x.1 := ?_; ?_); all_goals (first | (guard_hyp hx : Keeps b x.1; clear_value x) | subst x)) | clear_value x) | (with_reducible apply OpKeeps.lit) | (intro _ _ _) | dsimp only | (with_reducible apply Keeps.mk_other))

theorem fldOut_keeps {x0 x1} : OpKeeps (@fldOut x0 x1) := by
  unfold fldOut
  repeat' (first | with_reducible (first | assumption | apply Keeps.by_id | apply farOut_keeps | apply (farOut_keeps).act | apply (farOut_keeps).after | apply withOverride_keeps | apply (withOverride_keeps).act | apply (withOverride_keeps).after) | (with_reducible apply OpKeeps.lit) | (intro _ _ _))

theorem fstOut_keeps {x0 x1} : OpKeeps (@fstOut x0 x1) := by
  unfold fstOut
  repeat' (first | with_reducible (first | assumption | apply Keeps.by_id | apply farOut_keeps | apply (farOut_keeps).act | apply (farOut_keeps).after | apply withOverride_keeps | apply (withOverride_keeps).act | apply (withOverride_keeps).after) | (with_reducible apply OpKeeps.lit) | (intro _ _ _))

theorem sporeOut_keeps {x0 x1} : OpKeeps (@sporeOut x0 x1) := by
  unfold sporeOut
  repeat' (first | with_reducible (first | assumption | apply ite_keeps | apply op_ite_keeps | apply Keeps.by_id | apply withOverride_keeps | apply (withOverride_keeps).act | apply (withOverride_keeps).after | apply farAct_keeps | apply State.modTile_keeps) | (extract_lets +onlyGivenNames x; first | ((refine_lift have hx : Keeps b x := ?_; ?_); all_goals (first | (guard_hyp hx : Keeps b x; clear_value x) | subst x)) | ((refine_lift have hx : OpKeeps x := ?_; ?_); all_goals (first | (guard_hyp hx : OpKeeps x; clear_value x) | subst x)) | ((refine_lift have hx : Keeps b x.1 := ?_; ?_); all_goals (first | (guard_hyp hx : Keeps b x.1; clear_value x) | subst x)) | clear_value x) | (with_reducible apply OpKeeps.lit) | (intro _ _ _) | dsimp only | (with_reducible apply Keeps.mk_other))

theorem semOut_keeps {x0 x1 x2 x3} : OpKeeps (@semOut x0 x1 x2 x3) := by
  unfold semOut
  repeat' (first | with_reducible (first | assumption | apply ite_keeps | apply op_ite_keeps | apply Keeps.by_id | apply withOverride_keeps | apply (withOverride_keeps).act | apply (withOverride_keeps).after | apply farAct_keeps) | (extract_lets +onlyGivenNames x; first | ((refine_lift have hx : Keeps b x := ?_; ?_); all_goals (first | (guard_hyp hx : Keeps b x; clear_value x) | subst x)) | ((refine_lift have hx : OpKeeps x := ?_; ?_); all_goals (first | (guard_hyp hx : OpKeeps x; clear_value x) | subst x)) | clear_value x) | (with_reducible apply OpKeeps.lit) | (intro _ _ _) | (with_reducible apply Keeps.mk_other))

theorem semacqOut_keeps {x0 x1} : OpKeeps (@semacqOut x0 x1) := by
  unfold semacqOut
  repeat' (first | with_reducible (first | assumption | apply Keeps.by_id | apply semOut_keeps) | (with_reducible apply OpKeeps.lit) | (intro _ _ _))

theorem semrelOut_keeps {x0 x1} : OpKeeps (@semrelOut x0 x1) := by
  unfold semrelOut
  repeat' (first | with_reducible (first | assumption | apply Keeps.by_id | apply semOut_keeps) | (with_reducible apply OpKeeps.lit) | (intro _ _ _))

theorem cesubOut_keeps {x0 x1} : OpKeeps (@cesubOut x0 x1) := by
  unfold cesubOut
  repeat' (first | with_reducible (first | assumption | apply ite_keeps | apply op_ite_keeps | apply Keeps.by_id | apply withOverride_keeps | apply (withOverride_keeps).act | apply (withOverride_keeps).after | apply farAct_keeps) | (extract_lets +onlyGivenNames x; first | ((refine_lift have hx : Keeps b x := ?_; ?_); all_goals (first | (guard_hyp hx : Keeps b x; clear_value x) | subst x)) | ((refine_lift have hx : OpKeeps x := ?_; ?_); all_goals (first | (guard_hyp hx : OpKeeps x; clear_value x) | subst x)) | clear_value x) | (with_reducible apply OpKeeps.lit) | (intro _ _ _) | (with_reducible apply Keeps.mk_other))

theorem valueRoutine_keeps {x0 x1 x2 x3 x4 x5 x6 x7} : OpKeeps (@valueRoutine x0 x1 x2 x3 x4 x5 x6 x7) := by
  unfold valueRoutine
  repeat' (first | with_reducible (first | assumption | apply ite_keeps | apply op_ite_keeps | apply Keeps.by_id | apply withOverride_keeps | apply (withOverride_keeps).act | apply (withOverride_keeps).after | apply routineAct_keeps) | (extract_lets +onlyGivenNames x; first | ((refine_lift have hx : Keeps b x := ?_; ?_); all_goals (first | (guard_hyp hx : Keeps b x; clear_value x) | subst x)) | ((refine_lift have hx : OpKeeps x := ?_; ?_); all_goals (first | (guard_hyp hx : OpKeeps x; clear_value x) | subst x)) | clear_value x) | (with_reducible apply OpKeeps.lit) | (intro _ _ _) | (with_reducible apply Keeps.mk_other))

theorem mulS32Out_keeps {x0 x1} : OpKeeps (@mulS32Out x0 x1) := by
  unfold mulS32Out
  repeat' (first | with_reducible (first | assumption | apply Keeps.by_id | apply valueRoutine_keeps) | (with_reducible apply OpKeeps.lit) | (intro _ _ _))

theorem mulU32Out_keeps {x0 x1} : OpKeeps (@mulU32Out x0 x1) := by
  unfold mulU32Out
  repeat' (first | with_reducible (first | assumption | apply Keeps.by_id | apply valueRoutine_keeps) | (with_reducible apply OpKeeps.lit) | (intro _ _ _))

theorem mull64Out_keeps {x0 x1} : OpKeeps (@mull64Out x0 x1) := by
  unfold mull64Out
  repeat' (first | with_reducible (first | assumption | apply Keeps.by_id | apply valueRoutine_keeps) | (with_reducible apply OpKeeps.lit) | (intro _ _ _))

theorem mulhS64Out_keeps {x0 x1} : OpKeeps (@mulhS64Out x0 x1) := by
  unfold mulhS64Out
  repeat' (first | with_reducible (first | assumption | apply Keeps.by_id | apply valueRoutine_keeps) | (with_reducible apply OpKeeps.lit) | (intro _ _ _))

theorem mulhU64Out_keeps {x0 x1} : OpKeeps (@mulhU64Out x0 x1) := by
  unfold mulhU64Out
  repeat' (first | with_reducible (first | assumption | apply Keeps.by_id | apply valueRoutine_keeps) | (with_reducible apply OpKeeps.lit) | (intro _ _ _))

theorem mulq31Out_keeps {x0 x1} : OpKeeps (@mulq31Out x0 x1) := by
  unfold mulq31Out
  repeat' (first | with_reducible (first | assumption | apply Keeps.by_id | apply valueRoutine_keeps) | (with_reducible apply OpKeeps.lit) | (intro _ _ _))

theorem divS32Out_keeps {x0 x1} : OpKeeps (@divS32Out x0 x1) := by
  unfold divS32Out
  repeat' (first | with_reducible (first | assumption | apply Keeps.by_id | apply valueRoutine_keeps) | (with_reducible apply OpKeeps.lit) | (intro _ _ _))

theorem divU32Out_keeps {x0 x1} : OpKeeps (@divU32Out x0 x1) := by
  unfold divU32Out
  repeat' (first | with_reducible (first | assumption | apply Keeps.by_id | apply valueRoutine_keeps) | (with_reducible apply OpKeeps.lit) | (intro _ _ _))

theorem divS64Out_keeps {x0 x1} : OpKeeps (@divS64Out x0 x1) := by
  unfold divS64Out
  repeat' (first | with_reducible (first | assumption | apply Keeps.by_id | apply valueRoutine_keeps) | (with_reducible apply OpKeeps.lit) | (intro _ _ _))

theorem divU64Out_keeps {x0 x1} : OpKeeps (@divU64Out x0 x1) := by
  unfold divU64Out
  repeat' (first | with_reducible (first | assumption | apply Keeps.by_id | apply valueRoutine_keeps) | (with_reducible apply OpKeeps.lit) | (intro _ _ _))

theorem fdivSOut_keeps {x0 x1} : OpKeeps (@fdivSOut x0 x1) := by
  unfold fdivSOut
  repeat' (first | with_reducible (first | assumption | apply Keeps.by_id | apply valueRoutine_keeps) | (with_reducible apply OpKeeps.lit) | (intro _ _ _))

theorem fdivDOut_keeps {x0 x1} : OpKeeps (@fdivDOut x0 x1) := by
  unfold fdivDOut
  repeat' (first | with_reducible (first | assumption | apply Keeps.by_id | apply valueRoutine_keeps) | (with_reducible apply OpKeeps.lit) | (intro _ _ _))

theorem fsqrtSOut_keeps {x0 x1} : OpKeeps (@fsqrtSOut x0 x1) := by
  unfold fsqrtSOut
  repeat' (first | with_reducible (first | assumption | apply Keeps.by_id | apply valueRoutine_keeps) | (with_reducible apply OpKeeps.lit) | (intro _ _ _))

theorem fsqrtDOut_keeps {x0 x1} : OpKeeps (@fsqrtDOut x0 x1) := by
  unfold fsqrtDOut
  repeat' (first | with_reducible (first | assumption | apply Keeps.by_id | apply valueRoutine_keeps) | (with_reducible apply OpKeeps.lit) | (intro _ _ _))

theorem blockRoutine_keeps {x0 x1 x2 x3 x4 x5} : OpKeeps (@blockRoutine x0 x1 x2 x3 x4 x5) := by
  unfold blockRoutine
  repeat' (first | with_reducible (first | assumption | apply ite_keeps | apply op_ite_keeps | apply Keeps.by_id | apply withOverride_keeps | apply (withOverride_keeps).act | apply (withOverride_keeps).after | apply routineAct_keeps) | (extract_lets +onlyGivenNames x; first | ((refine_lift have hx : Keeps b x := ?_; ?_); all_goals (first | (guard_hyp hx : Keeps b x; clear_value x) | subst x)) | ((refine_lift have hx : OpKeeps x := ?_; ?_); all_goals (first | (guard_hyp hx : OpKeeps x; clear_value x) | subst x)) | ((refine_lift have hx : Keeps b x.1 := ?_; ?_); all_goals (first | (guard_hyp hx : Keeps b x.1; clear_value x) | subst x)) | clear_value x) | (with_reducible apply OpKeeps.lit) | (intro _ _ _) | dsimp only | (with_reducible apply Keeps.mk_other))

theorem biqOut_keeps {x0 x1} : OpKeeps (@biqOut x0 x1) := by
  unfold biqOut
  repeat' (first | with_reducible (first | assumption | apply Keeps.by_id | apply blockRoutine_keeps) | (with_reducible apply OpKeeps.lit) | (intro _ _ _))

theorem fft4Out_keeps {x0 x1} : OpKeeps (@fft4Out x0 x1) := by
  unfold fft4Out
  repeat' (first | with_reducible (first | assumption | apply Keeps.by_id | apply blockRoutine_keeps) | (with_reducible apply OpKeeps.lit) | (intro _ _ _))

theorem cmacOut_keeps {x0 x1} : OpKeeps (@cmacOut x0 x1) := by
  unfold cmacOut
  repeat' (first | with_reducible (first | assumption | apply Keeps.by_id | apply blockRoutine_keeps) | (with_reducible apply OpKeeps.lit) | (intro _ _ _))

theorem nlmsOut_keeps {x0 x1} : OpKeeps (@nlmsOut x0 x1) := by
  unfold nlmsOut
  repeat' (first | with_reducible (first | assumption | apply Keeps.by_id | apply blockRoutine_keeps) | (with_reducible apply OpKeeps.lit) | (intro _ _ _))

theorem bmovOut_keeps {x0 x1} : OpKeeps (@bmovOut x0 x1) := by
  unfold bmovOut
  repeat' (first | with_reducible (first | assumption | apply Keeps.by_id | apply blockRoutine_keeps) | (with_reducible apply OpKeeps.lit) | (intro _ _ _))

theorem peakOut_keeps {x0 x1} : OpKeeps (@peakOut x0 x1) := by
  unfold peakOut
  repeat' (first | with_reducible (first | assumption | apply Keeps.by_id | apply blockRoutine_keeps) | (with_reducible apply OpKeeps.lit) | (intro _ _ _))

theorem rmsOut_keeps {x0 x1} : OpKeeps (@rmsOut x0 x1) := by
  unfold rmsOut
  repeat' (first | with_reducible (first | assumption | apply Keeps.by_id | apply blockRoutine_keeps) | (with_reducible apply OpKeeps.lit) | (intro _ _ _))

theorem gatherOutOf_keeps {x0 x1 x2} : OpKeeps (@gatherOutOf x0 x1 x2) := by
  unfold gatherOutOf
  repeat' (first | with_reducible (first | assumption | apply ite_keeps | apply op_ite_keeps | apply Keeps.by_id | apply withOverride_keeps | apply (withOverride_keeps).act | apply (withOverride_keeps).after | apply routineAct_keeps) | (extract_lets +onlyGivenNames x; first | ((refine_lift have hx : Keeps b x := ?_; ?_); all_goals (first | (guard_hyp hx : Keeps b x; clear_value x) | subst x)) | ((refine_lift have hx : OpKeeps x := ?_; ?_); all_goals (first | (guard_hyp hx : OpKeeps x; clear_value x) | subst x)) | clear_value x) | (with_reducible apply OpKeeps.lit) | (refine foldl_keeps ?_ ?_) | (intro _ _ _) | (with_reducible apply Keeps.mk_other))

theorem gatherOut_keeps {x0 x1} : OpKeeps (@gatherOut x0 x1) := by
  unfold gatherOut
  repeat' (first | with_reducible (first | assumption | apply Keeps.by_id | apply gatherOutOf_keeps) | (with_reducible apply OpKeeps.lit) | (intro _ _ _))

theorem scatterOut_keeps {x0 x1} : OpKeeps (@scatterOut x0 x1) := by
  unfold scatterOut
  repeat' (first | with_reducible (first | assumption | apply Keeps.by_id | apply gatherOutOf_keeps) | (with_reducible apply OpKeeps.lit) | (intro _ _ _))

end Sys2Proof.Laws
end

