-- ==== Sys2Proof/Laws/Keeps/Common.lean ====
section
/-! SUPPORT. The operations of Machine/Common.lean keep the queue, the canonical forms and what has been handed outside. -/

namespace Sys2Proof.Laws

open Sys2Proof.Machine

theorem State.modDev_keeps {b : State} {s} {x1} (h : Keeps b s) : Keeps b (@State.modDev s x1) := by
  unfold State.modDev
  repeat' (first | assumption | (with_reducible apply Keeps.mk_other))

theorem State.modSched_keeps {b : State} {s} {x1} (h : Keeps b s) : Keeps b (@State.modSched s x1) := by
  unfold State.modSched
  repeat' (first | with_reducible (first | assumption | apply State.modDev_keeps) | (with_reducible apply Keeps.mk_other))

theorem State.modSafety_keeps {b : State} {s} {x1} (h : Keeps b s) : Keeps b (@State.modSafety s x1) := by
  unfold State.modSafety
  repeat' (first | with_reducible (first | assumption | apply State.modDev_keeps) | (with_reducible apply Keeps.mk_other))

theorem State.modPower_keeps {b : State} {s} {x1} (h : Keeps b s) : Keeps b (@State.modPower s x1) := by
  unfold State.modPower
  repeat' (first | with_reducible (first | assumption | apply State.modDev_keeps) | (with_reducible apply Keeps.mk_other))

theorem State.modAge_keeps {b : State} {s} {x1} (h : Keeps b s) : Keeps b (@State.modAge s x1) := by
  unfold State.modAge
  repeat' (first | with_reducible (first | assumption | apply State.modDev_keeps) | (with_reducible apply Keeps.mk_other))

theorem State.modImages_keeps {b : State} {s} {x1} (h : Keeps b s) : Keeps b (@State.modImages s x1) := by
  unfold State.modImages
  repeat' (first | with_reducible (first | assumption | apply State.modDev_keeps) | (with_reducible apply Keeps.mk_other))

theorem State.modSec_keeps {b : State} {s} {x1} (h : Keeps b s) : Keeps b (@State.modSec s x1) := by
  unfold State.modSec
  repeat' (first | with_reducible (first | assumption | apply State.modDev_keeps) | (with_reducible apply Keeps.mk_other))

theorem State.modHost_keeps {b : State} {s} {x1} (h : Keeps b s) : Keeps b (@State.modHost s x1) := by
  unfold State.modHost
  repeat' (first | assumption | (with_reducible apply Keeps.mk_other))

theorem State.emit_keeps {b : State} {s} {x1} (h : Keeps b s) : Keeps b (@State.emit s x1) := ⟨h.pending, h.canon, h.shadow, h.out.trans (List.suffix_cons _ _), h.free⟩

theorem State.setPhase_keeps {b : State} {s} {x1} (h : Keeps b s) : Keeps b (@State.setPhase s x1) := by
  unfold State.setPhase
  repeat' with_reducible (first | assumption | apply State.setRegFld_keeps)

theorem State.devEvent_keeps {b : State} {s} {x1} (h : Keeps b s) : Keeps b (@State.devEvent s x1) := by
  unfold State.devEvent
  repeat' (first | with_reducible (first | assumption | apply ite_keeps) | (with_reducible apply Keeps.mk_other))

theorem State.orRegEvent_keeps {b : State} {s} {x1 x2 x3} (h : Keeps b s) : Keeps b (@State.orRegEvent s x1 x2 x3) := by
  unfold State.orRegEvent
  repeat' (first | with_reducible (first | assumption | apply ite_keeps | apply State.devEvent_keeps | apply State.orReg_keeps) | (extract_lets +onlyGivenNames x; first | ((refine_lift have hx : Keeps b x := ?_; ?_); all_goals (first | (guard_hyp hx : Keeps b x; clear_value x) | subst x)) | clear_value x))

theorem State.mramCount_keeps {b : State} {s} {x1} (h : Keeps b s) : Keeps b (@State.mramCount s x1) := by
  unfold State.mramCount
  repeat' with_reducible (first | assumption | apply State.modReg_keeps)

theorem State.mramPut_keeps {b : State} {s} {x1 x2} (h : Keeps b s) : Keeps b (@State.mramPut s x1 x2) := by
  unfold State.mramPut
  repeat' (first | with_reducible (first | assumption | apply ite_keeps | apply State.mramCount_keeps | apply State.setBytes_keeps) | (extract_lets +onlyGivenNames x; first | ((refine_lift have hx : Keeps b x := ?_; ?_); all_goals (first | (guard_hyp hx : Keeps b x; clear_value x) | subst x)) | ((refine_lift have hx : Keeps b x.1 := ?_; ?_); all_goals (first | (guard_hyp hx : Keeps b x.1; clear_value x) | subst x)) | clear_value x) | dsimp only | (with_reducible apply Keeps.mk_other))

theorem State.cwRead_keeps {b : State} {s} {x1} (h : Keeps b s) : Keeps b (@State.cwRead s x1) := by
  unfold State.cwRead
  repeat' (first | with_reducible (first | assumption | apply ite_keeps | apply State.report_keeps | apply State.bump_keeps | apply State.setRegFld_keeps | apply State.setReg_keeps) | (extract_lets +onlyGivenNames x; first | ((refine_lift have hx : Keeps b x := ?_; ?_); all_goals (first | (guard_hyp hx : Keeps b x; clear_value x) | subst x)) | clear_value x) | split | (with_reducible apply Keeps.mk_other))

theorem State.fwReadIf_keeps {b : State} {s} {x1} (h : Keeps b s) : Keeps b (@State.fwReadIf s x1) := by
  unfold State.fwReadIf
  repeat' (first | with_reducible (first | assumption | apply State.cwRead_keeps) | (refine foldl_keeps ?_ ?_) | (refine foldl_fst_keeps ?_ ?_) | (intro _ _ _) | dsimp only)

theorem State.fwRead_keeps {b : State} {s} {x1 x2} (h : Keeps b s) : Keeps b (@State.fwRead s x1 x2) := by
  unfold State.fwRead
  repeat' with_reducible (first | assumption | apply State.fwReadIf_keeps)

theorem State.writeEvent_keeps {b : State} {s} {x1} (h : Keeps b s) : Keeps b (@State.writeEvent s x1) := by
  unfold State.writeEvent
  repeat' (first | with_reducible (first | assumption | apply State.mramPut_keeps | apply State.modSafety_keeps) | (extract_lets +onlyGivenNames x; first | ((refine_lift have hx : Keeps b x := ?_; ?_); all_goals (first | (guard_hyp hx : Keeps b x; clear_value x) | subst x)) | clear_value x) | (with_reducible apply Keeps.mk_other))

theorem State.logEvent_keeps {b : State} {s} {x1 x2 x3 x4 x5} (h : Keeps b s) : Keeps b (@State.logEvent s x1 x2 x3 x4 x5) := by
  unfold State.logEvent
  repeat' (first | with_reducible (first | assumption | apply State.modSafety_keeps) | (with_reducible apply Keeps.mk_other))

theorem State.setDtc_keeps {b : State} {s} {x1 x2} (h : Keeps b s) : Keeps b (@State.setDtc s x1 x2) := by
  unfold State.setDtc
  repeat' (first | with_reducible (first | assumption | apply ite_keeps | apply State.mramCount_keeps | apply State.modSafety_keeps) | split | (with_reducible apply Keeps.mk_other))

theorem State.endOpCycle_keeps {b : State} {s} (h : Keeps b s) : Keeps b (@State.endOpCycle s) := by
  unfold State.endOpCycle
  repeat' (first | with_reducible (first | assumption | apply ite_keeps | apply State.modSafety_keeps) | (with_reducible apply Keeps.mk_other))

theorem State.pushRec_keeps {b : State} {s} {x1 x2} (h : Keeps b s) : Keeps b (@State.pushRec s x1 x2) := by
  unfold State.pushRec
  repeat' (first | with_reducible (first | assumption | apply ite_keeps | apply State.modHost_keeps | apply State.bump_keeps) | (extract_lets +onlyGivenNames x; first | ((refine_lift have hx : Keeps b x := ?_; ?_); all_goals (first | (guard_hyp hx : Keeps b x; clear_value x) | subst x)) | clear_value x) | (with_reducible apply Keeps.mk_other))

theorem State.notice_keeps {b : State} {s} {x1 x2 x3} (h : Keeps b s) : Keeps b (@State.notice s x1 x2 x3) := by
  unfold State.notice
  repeat' with_reducible (first | assumption | apply State.pushRec_keeps)

theorem State.setCond_keeps {b : State} {s} {x1 x2} (h : Keeps b s) : Keeps b (@State.setCond s x1 x2) := by
  unfold State.setCond
  repeat' (first | with_reducible (first | assumption | apply ite_keeps | apply State.logEvent_keeps | apply State.modSafety_keeps | apply State.setRegFld_keeps) | (extract_lets +onlyGivenNames x; first | ((refine_lift have hx : Keeps b x := ?_; ?_); all_goals (first | (guard_hyp hx : Keeps b x; clear_value x) | subst x)) | clear_value x) | (with_reducible apply Keeps.mk_other))

end Sys2Proof.Laws
end

