-- ==== Sys2Proof/Laws/Keeps/Plans.lean ====
section
/-! SUPPORT. The operations of Machine/Plans.lean keep the queue, the canonical forms and what has been handed outside. -/

namespace Sys2Proof.Laws

open Sys2Proof.Machine

theorem State.putSection_keeps {b : State} {s} {x1} (h : Keeps b s) : Keeps b (@State.putSection s x1) := by
  unfold State.putSection
  repeat' (first | with_reducible (first | assumption | apply State.memWrite_keeps) | split)

theorem State.putVariant_keeps {b : State} {s} {x1 x2} (h : Keeps b s) : Keeps b (@State.putVariant s x1 x2) := by
  unfold State.putVariant
  repeat' (first | with_reducible (first | assumption | apply State.putSection_keeps) | (refine foldl_keeps ?_ ?_) | (intro _ _ _))

theorem State.putNew_keeps {b : State} {s} {x1 x2 x3} (h : Keeps b s) : Keeps b (@State.putNew s x1 x2 x3) := by
  unfold State.putNew
  repeat' (first | with_reducible (first | assumption | apply State.putSection_keeps) | (refine foldl_keeps ?_ ?_) | (intro _ _ _))

theorem State.decideStep_keeps {b : State} {s} (h : Keeps b s) : Keeps b (@State.decideStep s) := by
  unfold State.decideStep
  repeat' (first | with_reducible (first | assumption | apply ite_keeps | apply State.modPower_keeps | apply State.setRegFld_keeps) | (extract_lets +onlyGivenNames x; first | ((refine_lift have hx : Keeps b x := ?_; ?_); all_goals (first | (guard_hyp hx : Keeps b x; clear_value x) | subst x)) | clear_value x) | (with_reducible apply Keeps.mk_other))

theorem State.showTiers_keeps {b : State} {s} (h : Keeps b s) : Keeps b (@State.showTiers s) := by
  unfold State.showTiers
  repeat' (first | with_reducible (first | assumption | apply ite_keeps | apply State.devEvent_keeps | apply State.setRegFld_keeps | apply State.setReg_keeps) | (extract_lets +onlyGivenNames x; first | ((refine_lift have hx : Keeps b x := ?_; ?_); all_goals (first | (guard_hyp hx : Keeps b x; clear_value x) | subst x)) | clear_value x))

theorem State.setRole_keeps {b : State} {s} {x1 x2 x3 x4 x5} (h : Keeps b s) : Keeps b (@State.setRole s x1 x2 x3 x4 x5) := by
  unfold State.setRole
  repeat' with_reducible (first | assumption | apply State.memWrite_keeps)

theorem State.putRoles_keeps {b : State} {s} {x1} (h : Keeps b s) : Keeps b (@State.putRoles s x1) := by
  unfold State.putRoles
  repeat' (first | with_reducible (first | assumption | apply ite_keeps | apply State.setRole_keeps) | (extract_lets +onlyGivenNames x; first | ((refine_lift have hx : Keeps b x := ?_; ?_); all_goals (first | (guard_hyp hx : Keeps b x; clear_value x) | subst x)) | clear_value x) | split | (refine foldl_keeps ?_ ?_) | (intro _ _ _))

theorem State.putSpore_keeps {b : State} {s} {x1 x2} (h : Keeps b s) : Keeps b (@State.putSpore s x1 x2) := by
  unfold State.putSpore
  repeat' (first | with_reducible (first | assumption | apply ite_keeps | apply State.memWrite_keeps | apply State.modTile_keeps) | (extract_lets +onlyGivenNames x; first | ((refine_lift have hx : Keeps b x := ?_; ?_); all_goals (first | (guard_hyp hx : Keeps b x; clear_value x) | subst x)) | clear_value x) | (with_reducible apply Keeps.mk_other))

theorem State.moveIn_keeps {b : State} {s} {x1 x2} (h : Keeps b s) : Keeps b (@State.moveIn s x1 x2) := by
  unfold State.moveIn
  repeat' (first | with_reducible (first | assumption | apply ite_keeps | apply State.putSpore_keeps) | dsimp only | (with_reducible apply Keeps.mk_other))

theorem State.drainSpill_keeps {b : State} {s} {x1} (h : Keeps b s) : Keeps b (@State.drainSpill s x1) := by
  unfold State.drainSpill
  repeat' (first | with_reducible (first | assumption | apply ite_keeps | apply State.putSpore_keeps) | (refine foldl_keeps ?_ ?_) | (refine foldl_fst_keeps ?_ ?_) | (intro _ _ _) | dsimp only | (with_reducible apply Keeps.mk_other))

theorem State.keepSpores_keeps {b : State} {s} {x1 x2} (h : Keeps b s) : Keeps b (@State.keepSpores s x1 x2) := by
  unfold State.keepSpores
  repeat' (first | with_reducible (first | assumption | apply State.memWrite_keeps | apply State.modTile_keeps) | (extract_lets +onlyGivenNames x; first | ((refine_lift have hx : Keeps b x := ?_; ?_); all_goals (first | (guard_hyp hx : Keeps b x; clear_value x) | subst x)) | ((refine_lift have hx : Keeps b x.1 := ?_; ?_); all_goals (first | (guard_hyp hx : Keeps b x.1; clear_value x) | subst x)) | clear_value x) | (refine foldl_keeps ?_ ?_) | (refine foldl_fst_keeps ?_ ?_) | (intro _ _ _) | dsimp only | (with_reducible apply Keeps.mk_other))

theorem State.rewriteRoles_keeps {b : State} {s} {x1} (h : Keeps b s) : Keeps b (@State.rewriteRoles s x1) := by
  unfold State.rewriteRoles
  repeat' (first | with_reducible (first | assumption | apply State.keepSpores_keeps | apply State.drainSpill_keeps | apply State.moveIn_keeps | apply State.putRoles_keeps) | (extract_lets +onlyGivenNames x; first | ((refine_lift have hx : Keeps b x := ?_; ?_); all_goals (first | (guard_hyp hx : Keeps b x; clear_value x) | subst x)) | ((refine_lift have hx : Keeps b x.1 := ?_; ?_); all_goals (first | (guard_hyp hx : Keeps b x.1; clear_value x) | subst x)) | clear_value x) | (refine foldl_keeps ?_ ?_) | (refine foldl_fst_keeps ?_ ?_) | (intro _ _ _) | dsimp only | (with_reducible apply Keeps.mk_other))

theorem State.putSems_keeps {b : State} {s} {x1} (h : Keeps b s) : Keeps b (@State.putSems s x1) := by
  unfold State.putSems
  repeat' (first | with_reducible (first | assumption | apply State.memWrite_keeps) | (extract_lets +onlyGivenNames x; first | ((refine_lift have hx : Keeps b x := ?_; ?_); all_goals (first | (guard_hyp hx : Keeps b x; clear_value x) | subst x)) | ((refine_lift have hx : Keeps b x.1 := ?_; ?_); all_goals (first | (guard_hyp hx : Keeps b x.1; clear_value x) | subst x)) | clear_value x) | split | (refine foldl_keeps ?_ ?_) | (refine foldl_fst_keeps ?_ ?_) | (intro _ _ _) | dsimp only)

theorem State.loadRoutes_keeps {b : State} {s} (h : Keeps b s) : Keeps b (@State.loadRoutes s) := by
  unfold State.loadRoutes
  repeat' (first | with_reducible (first | assumption | apply State.modTile_keeps) | (refine foldl_keeps ?_ ?_) | (intro _ _ _) | (with_reducible apply Keeps.mk_other))

theorem State.putFast_keeps {b : State} {s} {x1 x2 x3} (h : Keeps b s) : Keeps b (@State.putFast s x1 x2 x3) := by
  unfold State.putFast
  repeat' (first | with_reducible (first | assumption | apply ite_keeps | apply State.modSched_keeps | apply State.modTile_keeps) | (extract_lets +onlyGivenNames x; first | ((refine_lift have hx : Keeps b x := ?_; ?_); all_goals (first | (guard_hyp hx : Keeps b x; clear_value x) | subst x)) | clear_value x) | split | (refine foldl_keeps ?_ ?_) | (intro _ _ _) | (with_reducible apply Keeps.mk_other))

theorem State.powerFor_keeps {b : State} {s} {x1} (h : Keeps b s) : Keeps b (@State.powerFor s x1) := by
  unfold State.powerFor
  repeat' (first | with_reducible (first | assumption | apply ite_keeps | apply State.modTile_keeps) | (refine foldl_keeps ?_ ?_) | (intro _ _ _))

theorem State.setDark_keeps {b : State} {s} {x1} (h : Keeps b s) : Keeps b (@State.setDark s x1) := by
  unfold State.setDark
  repeat' (first | with_reducible (first | assumption | apply ite_keeps | apply State.modTile_keeps) | (refine foldl_keeps ?_ ?_) | (intro _ _ _))

theorem State.putSafetyTable_keeps {b : State} {s} {x1 x2} (h : Keeps b s) : Keeps b (@State.putSafetyTable s x1 x2) := by
  unfold State.putSafetyTable
  repeat' (first | with_reducible (first | assumption | apply State.setReg_keeps) | (extract_lets +onlyGivenNames x; first | ((refine_lift have hx : Keeps b x := ?_; ?_); all_goals (first | (guard_hyp hx : Keeps b x; clear_value x) | subst x)) | clear_value x) | split | (refine foldl_keeps ?_ ?_) | (intro _ _ _))

end Sys2Proof.Laws
end

