-- ==== Sys2Proof/Laws/Keeps/Banks.lean ====
section
/-! SUPPORT. The operations of Machine/Banks.lean keep the queue, the canonical forms and what has been handed outside. -/

namespace Sys2Proof.Laws

open Sys2Proof.Machine

theorem State.modNet_keeps {b : State} {s} {x1} (h : Keeps b s) : Keeps b (@State.modNet s x1) := by
  unfold State.modNet
  repeat' (first | assumption | (with_reducible apply Keeps.mk_other))

theorem State.forwardOut_keeps {b : State} {s} {x1 x2} (h : Keeps b s) : Keeps b (@State.forwardOut s x1 x2) := by
  unfold State.forwardOut
  repeat' with_reducible (first | assumption | apply ite_keeps | apply State.emit_keeps)

theorem State.putSlot_keeps {b : State} {s} {x1 x2} (h : Keeps b s) : Keeps b (@State.putSlot s x1 x2) := by
  unfold State.putSlot
  repeat' (first | with_reducible (first | assumption | apply State.modNet_keeps) | (with_reducible apply Keeps.mk_other))

theorem State.setSlot_keeps {b : State} {s} {x1 x2} (h : Keeps b s) : Keeps b (@State.setSlot s x1 x2) := by
  unfold State.setSlot
  repeat' (first | with_reducible (first | assumption | apply ite_keeps | apply State.putSlot_keeps | apply State.forwardOut_keeps | apply State.modNet_keeps) | (extract_lets +onlyGivenNames x; first | ((refine_lift have hx : Keeps b x := ?_; ?_); all_goals (first | (guard_hyp hx : Keeps b x; clear_value x) | subst x)) | ((refine_lift have hx : Keeps b x.1 := ?_; ?_); all_goals (first | (guard_hyp hx : Keeps b x.1; clear_value x) | subst x)) | clear_value x) | dsimp only | (with_reducible apply Keeps.mk_other))

theorem State.slotByte_keeps {b : State} {s} {x1 x2} (h : Keeps b s) : Keeps b (@State.slotByte s x1 x2) := by
  unfold State.slotByte
  repeat' (first | with_reducible (first | assumption | apply State.setSlot_keeps) | (extract_lets +onlyGivenNames x; first | ((refine_lift have hx : Keeps b x := ?_; ?_); all_goals (first | (guard_hyp hx : Keeps b x; clear_value x) | subst x)) | clear_value x))

theorem State.slotStore_keeps {b : State} {s} {x1 x2} (h : Keeps b s) : Keeps b (@State.slotStore s x1 x2) := by
  induction x2 generalizing s x1 with
  | nil => exact h
  | cons a l ih => exact ih (State.slotByte_keeps h)

theorem State.modFab_keeps {b : State} {s} {x1} (h : Keeps b s) : Keeps b (@State.modFab s x1) := by
  unfold State.modFab
  repeat' (first | assumption | (with_reducible apply Keeps.mk_other))

theorem State.modFar_keeps {b : State} {s} {x1 x2 x3} (h : Keeps b s) : Keeps b (@State.modFar s x1 x2 x3) := by
  unfold State.modFar
  repeat' (first | with_reducible (first | assumption | apply ite_keeps | apply State.modTile_keeps) | (with_reducible apply Keeps.mk_other))

theorem State.farDone_keeps {b : State} {s} {x1 x2 x3 x4} (h : Keeps b s) : Keeps b (@State.farDone s x1 x2 x3 x4) := by
  unfold State.farDone
  repeat' (first | with_reducible (first | assumption | apply State.modFar_keeps) | (with_reducible apply Keeps.mk_other))

theorem State.bankGet_keeps {b : State} {s} {x1 x2 x3} (h : Keeps b s) : Keeps b (@State.bankGet s x1 x2 x3).1 := by
  unfold State.bankGet
  repeat' (first | with_reducible (first | assumption | apply ite_keeps | apply ite_fst_keeps | apply State.eccReadRange_keeps) | (extract_lets +onlyGivenNames x; first | ((refine_lift have hx : Keeps b x := ?_; ?_); all_goals (first | (guard_hyp hx : Keeps b x; clear_value x) | subst x)) | ((refine_lift have hx : Keeps b x.1 := ?_; ?_); all_goals (first | (guard_hyp hx : Keeps b x.1; clear_value x) | subst x)) | clear_value x) | dsimp only)

theorem State.bankPut_keeps {b : State} {s} {x1 x2 x3} (h : Keeps b s) : Keeps b (@State.bankPut s x1 x2 x3).1 := by
  unfold State.bankPut
  repeat' (first | with_reducible (first | assumption | apply ite_keeps | apply ite_fst_keeps | apply State.slotStore_keeps | apply State.memWrite_keeps) | dsimp only)

theorem State.rowServe_keeps {b : State} {s} {x1} (h : Keeps b s) : Keeps b (@State.rowServe s x1) := by
  unfold State.rowServe
  repeat' (first | with_reducible (first | assumption | apply ite_keeps | apply State.bankPut_keeps | apply State.bankGet_keeps | apply State.farDone_keeps | apply State.emit_keeps) | (extract_lets +onlyGivenNames x; first | ((refine_lift have hx : Keeps b x := ?_; ?_); all_goals (first | (guard_hyp hx : Keeps b x; clear_value x) | subst x)) | ((refine_lift have hx : Keeps b x.1 := ?_; ?_); all_goals (first | (guard_hyp hx : Keeps b x.1; clear_value x) | subst x)) | clear_value x) | split | dsimp only)

theorem State.rowNext_keeps {b : State} {s} {x1 x2} (h : Keeps b s) : Keeps b (@State.rowNext s x1 x2) := by
  unfold State.rowNext
  repeat' (first | with_reducible (first | assumption | apply State.rowServe_keeps | apply State.modFab_keeps) | split | (with_reducible apply Keeps.mk_other))

theorem State.rowDrain_keeps {b : State} {s} {x1 x2 x3} (h : Keeps b s) : Keeps b (@State.rowDrain s x1 x2 x3) := by
  induction x3 generalizing s with
  | zero => exact h
  | succ n ih => exact ih (State.rowNext_keeps h)

theorem State.rowsAhead_keeps {b : State} {s} {x1} (h : Keeps b s) : Keeps b (@State.rowsAhead s x1) := by
  unfold State.rowsAhead
  repeat' (first | with_reducible (first | assumption | apply ite_keeps | apply State.rowDrain_keeps) | split)

theorem State.bankRead_keeps {b : State} {s} {x1 x2 x3} (h : Keeps b s) : Keeps b (@State.bankRead s x1 x2 x3).1 := by
  unfold State.bankRead
  exact State.bankGet_keeps (ite_keeps h (foldl_keeps (fun s x hs => State.rowsAhead_keeps hs) h))

theorem State.rowWrite_keeps {b : State} {s} {x1 x2 x3} (h : Keeps b s) : Keeps b (@State.rowWrite s x1 x2 x3).1 := by
  unfold State.rowWrite
  repeat' (first | with_reducible (first | assumption | apply ite_keeps | apply ite_fst_keeps | apply State.rowsAhead_keeps | apply State.bankPut_keeps | apply State.modFab_keeps) | split | dsimp only | (with_reducible apply Keeps.mk_other))

theorem State.bankWrite_keeps {b : State} {s} {x1 x2 x3} (h : Keeps b s) : Keeps b (@State.bankWrite s x1 x2 x3).1 := by
  unfold State.bankWrite
  refine ite_fst_keeps (State.bankPut_keeps h) (foldl_fst_keeps (fun p x hp => ?_) h)
  split
  · exact State.rowWrite_keeps hp
  · exact hp

theorem State.rowArrive_keeps {b : State} {s} {x1} (h : Keeps b s) : Keeps b (@State.rowArrive s x1) := by
  unfold State.rowArrive
  repeat' (first | with_reducible (first | assumption | apply ite_keeps | apply State.modFab_keeps) | split | (with_reducible apply Keeps.mk_other))

theorem State.rowTransfer_keeps {b : State} {s} {x1 x2 x3 x4} (h : Keeps b s) : Keeps b (@State.rowTransfer s x1 x2 x3 x4) := by
  unfold State.rowTransfer
  repeat' (first | with_reducible (first | assumption | apply ite_keeps | apply State.rowArrive_keeps | apply State.rowNext_keeps | apply State.bump_keeps | apply State.modReg_keeps) | (extract_lets +onlyGivenNames x; first | ((refine_lift have hx : Keeps b x := ?_; ?_); all_goals (first | (guard_hyp hx : Keeps b x; clear_value x) | subst x)) | clear_value x) | split)

theorem State.rowWithdraw_keeps {b : State} {s} {x1 x2 x3 x4 x5} (h : Keeps b s) : Keeps b (@State.rowWithdraw s x1 x2 x3 x4 x5) := by
  unfold State.rowWithdraw
  repeat' (first | with_reducible (first | assumption | apply ite_keeps | apply State.rowArrive_keeps | apply State.modFab_keeps | apply State.bump_keeps) | (extract_lets +onlyGivenNames x; first | ((refine_lift have hx : Keeps b x := ?_; ?_); all_goals (first | (guard_hyp hx : Keeps b x; clear_value x) | subst x)) | clear_value x) | split | (with_reducible apply Keeps.mk_other))

end Sys2Proof.Laws
end

