-- ==== Sys2Proof/Laws/Keeps/CtlOps.lean ====
section
/-! SUPPORT. The operations of Machine/CtlOps.lean keep the queue, the canonical forms and what has been handed outside. -/

namespace Sys2Proof.Laws

open Sys2Proof.Machine

theorem branchOut_keeps {x0 x1 x2 x3 x4} : OpKeeps (@branchOut x0 x1 x2 x3 x4) := by
  unfold branchOut
  repeat' (first | with_reducible (first | assumption | apply ite_keeps | apply op_ite_keeps | apply Keeps.by_id) | (with_reducible apply OpKeeps.lit) | (intro _ _ _) | (with_reducible apply Keeps.mk_other))

theorem brOut_keeps {x0 x1} : OpKeeps (@brOut x0 x1) := by
  unfold brOut
  repeat' (first | with_reducible (first | assumption | apply Keeps.by_id | apply branchOut_keeps) | (with_reducible apply OpKeeps.lit) | (intro _ _ _))

theorem brxOut_keeps {x0 x1} : OpKeeps (@brxOut x0 x1) := by
  unfold brxOut
  repeat' (first | with_reducible (first | assumption | apply Keeps.by_id | apply branchOut_keeps) | (with_reducible apply OpKeeps.lit) | (intro _ _ _))

theorem braOut_keeps {x0 x1} : OpKeeps (@braOut x0 x1) := by
  unfold braOut
  repeat' (first | with_reducible (first | assumption | apply Keeps.by_id | apply branchOut_keeps) | (with_reducible apply OpKeeps.lit) | (intro _ _ _))

theorem callOut_keeps {x0 x1} : OpKeeps (@callOut x0 x1) := by
  unfold callOut
  repeat' (first | with_reducible (first | assumption | apply Keeps.by_id | apply branchOut_keeps) | (with_reducible apply OpKeeps.lit) | (intro _ _ _))

theorem callaOut_keeps {x0 x1} : OpKeeps (@callaOut x0 x1) := by
  unfold callaOut
  repeat' (first | with_reducible (first | assumption | apply Keeps.by_id | apply branchOut_keeps) | (with_reducible apply OpKeeps.lit) | (intro _ _ _))

theorem retOut_keeps {x0 x1} : OpKeeps (@retOut x0 x1) := by
  unfold retOut
  repeat' (first | with_reducible (first | assumption | apply Keeps.by_id | apply branchOut_keeps) | (with_reducible apply OpKeeps.lit) | (intro _ _ _))

theorem loopOut_keeps {x0 x1} : OpKeeps (@loopOut x0 x1) := by
  unfold loopOut
  repeat' (first | with_reducible (first | assumption | apply ite_keeps | apply op_ite_keeps | apply Keeps.by_id | apply State.discardFronds_keeps | apply State.modTile_keeps) | (extract_lets +onlyGivenNames x; first | ((refine_lift have hx : Keeps b x := ?_; ?_); all_goals (first | (guard_hyp hx : Keeps b x; clear_value x) | subst x)) | ((refine_lift have hx : OpKeeps x := ?_; ?_); all_goals (first | (guard_hyp hx : OpKeeps x; clear_value x) | subst x)) | clear_value x) | split | (with_reducible apply OpKeeps.lit) | (intro _ _ _) | (with_reducible apply Keeps.mk_other))

theorem repOut_keeps {x0 x1} : OpKeeps (@repOut x0 x1) := by
  unfold repOut
  repeat' (first | with_reducible (first | assumption | apply ite_keeps | apply op_ite_keeps | apply Keeps.by_id | apply State.modTile_keeps) | (extract_lets +onlyGivenNames x; first | ((refine_lift have hx : Keeps b x := ?_; ?_); all_goals (first | (guard_hyp hx : Keeps b x; clear_value x) | subst x)) | ((refine_lift have hx : OpKeeps x := ?_; ?_); all_goals (first | (guard_hyp hx : OpKeeps x; clear_value x) | subst x)) | clear_value x) | (with_reducible apply OpKeeps.lit) | (intro _ _ _) | (with_reducible apply Keeps.mk_other))

theorem doneOut_keeps {x0 x1} : OpKeeps (@doneOut x0 x1) := by
  unfold doneOut
  repeat' (first | with_reducible (first | assumption | apply ite_keeps | apply op_ite_keeps | apply Keeps.by_id | apply drainPending_keeps | apply State.modTile_keeps) | (with_reducible apply OpKeeps.lit) | (intro _ _ _) | (with_reducible apply Keeps.mk_other))

theorem napOut_keeps {x0 x1} : OpKeeps (@napOut x0 x1) := by
  unfold napOut
  repeat' (first | with_reducible (first | assumption | apply ite_keeps | apply op_ite_keeps | apply Keeps.by_id | apply drainPending_keeps | apply State.modTile_keeps) | (with_reducible apply OpKeeps.lit) | (intro _ _ _) | (with_reducible apply Keeps.mk_other))

theorem fbarOut_keeps {x0 x1} : OpKeeps (@fbarOut x0 x1) := by
  unfold fbarOut
  repeat' (first | with_reducible (first | assumption | apply ite_keeps | apply op_ite_keeps | apply Keeps.by_id | apply deliverTrap_keeps | apply emptyCycles_keeps | apply State.modTile_keeps) | (extract_lets +onlyGivenNames x; first | ((refine_lift have hx : Keeps b x := ?_; ?_); all_goals (first | (guard_hyp hx : Keeps b x; clear_value x) | subst x)) | ((refine_lift have hx : OpKeeps x := ?_; ?_); all_goals (first | (guard_hyp hx : OpKeeps x; clear_value x) | subst x)) | clear_value x) | (with_reducible apply OpKeeps.lit) | (intro _ _ _) | (with_reducible apply Keeps.mk_other))

theorem ifenceOut_keeps {x0 x1} : OpKeeps (@ifenceOut x0 x1) := by
  unfold ifenceOut
  repeat' (first | with_reducible (first | assumption | apply ite_keeps | apply op_ite_keeps | apply Keeps.by_id | apply emptyCycles_keeps | apply State.discardFronds_keeps | apply State.modTile_keeps) | (with_reducible apply OpKeeps.lit) | (intro _ _ _) | (with_reducible apply Keeps.mk_other))

theorem pflushOut_keeps {x0 x1} : OpKeeps (@pflushOut x0 x1) := by
  unfold pflushOut
  repeat' (first | with_reducible (first | assumption | apply ite_keeps | apply op_ite_keeps | apply Keeps.by_id | apply State.modTile_keeps) | (with_reducible apply OpKeeps.lit) | (intro _ _ _) | (with_reducible apply Keeps.mk_other))

theorem pbarOut_keeps {x0 x1} : OpKeeps (@pbarOut x0 x1) := by
  unfold pbarOut
  repeat' (first | with_reducible (first | assumption | apply ite_keeps | apply op_ite_keeps | apply Keeps.by_id | apply emptyCycles_keeps | apply State.discardFronds_keeps) | (with_reducible apply OpKeeps.lit) | (intro _ _ _) | (with_reducible apply Keeps.mk_other))

theorem nopOut_keeps {x0 x1} : OpKeeps (@nopOut x0 x1) := by
  unfold nopOut
  repeat' (first | with_reducible (first | assumption | apply Keeps.by_id) | (with_reducible apply OpKeeps.lit) | (intro _ _ _) | (with_reducible apply Keeps.mk_other))

theorem mfsrOut_keeps {x0 x1} : OpKeeps (@mfsrOut x0 x1) := by
  unfold mfsrOut
  repeat' (first | with_reducible (first | assumption | apply ite_keeps | apply op_ite_keeps | apply Keeps.by_id) | split | (with_reducible apply OpKeeps.lit) | (intro _ _ _) | (with_reducible apply Keeps.mk_other))

theorem mtsrOut_keeps {x0 x1} : OpKeeps (@mtsrOut x0 x1) := by
  unfold mtsrOut
  repeat' (first | with_reducible (first | assumption | apply ite_keeps | apply op_ite_keeps | apply Keeps.by_id) | (extract_lets +onlyGivenNames x; first | ((refine_lift have hx : Keeps b x := ?_; ?_); all_goals (first | (guard_hyp hx : Keeps b x; clear_value x) | subst x)) | ((refine_lift have hx : OpKeeps x := ?_; ?_); all_goals (first | (guard_hyp hx : OpKeeps x; clear_value x) | subst x)) | clear_value x) | split | (with_reducible apply OpKeeps.lit) | (intro _ _ _) | (with_reducible apply Keeps.mk_other))

theorem retiAfter_keeps {b : State} {s} {x0} (h : Keeps b s) : Keeps b (@retiAfter x0 s) := by
  unfold retiAfter
  repeat' (first | with_reducible (first | assumption | apply ite_keeps | apply restoreFrame_keeps | apply entryCycles_keeps | apply State.eccReadRange_keeps | apply State.modTile_keeps) | (extract_lets +onlyGivenNames x; first | ((refine_lift have hx : Keeps b x := ?_; ?_); all_goals (first | (guard_hyp hx : Keeps b x; clear_value x) | subst x)) | clear_value x) | split | (with_reducible apply Keeps.mk_other))

theorem retiOut_keeps {x0 x1} : OpKeeps (@retiOut x0 x1) := by
  unfold retiOut
  repeat' (first | with_reducible (first | assumption | apply ite_keeps | apply op_ite_keeps | apply Keeps.by_id | apply retiAfter_keeps | apply State.discardFronds_keeps) | (with_reducible apply OpKeeps.lit) | (intro _ _ _) | (with_reducible apply Keeps.mk_other))

end Sys2Proof.Laws
end

