-- ==== Sys2Proof/Laws/Keeps/OpTable.lean ====
section
/-! SUPPORT. The operations of Machine/OpTable.lean keep the queue, the canonical forms and what has been handed outside. -/

namespace Sys2Proof.Laws

open Sys2Proof.Machine

theorem opInfo_keeps {c : Instr} {o : OpInfo} {x : Ctx} (h : opInfo c = some o) : OpKeeps (o.out x) := by
  cases c <;> cases h
  case ext => exact @extOut_keeps x _
  case fmovD => exact @fmovDOut_keeps x _
  case fmovS => exact @fmovSOut_keeps x _
  case sext => exact @sextOut_keeps x _
  case zext => exact @zextOut_keeps x _
  case mov => exact @movOut_keeps x _
  case add => exact @addOut_keeps x _
  case sub => exact @subOut_keeps x _
  case adds => exact @addsOut_keeps x _
  case subs => exact @subsOut_keeps x _
  case neg => exact @negOut_keeps x _
  case abss => exact @abssOut_keeps x _
  case and => exact @andOut_keeps x _
  case or => exact @orOut_keeps x _
  case xor => exact @xorOut_keeps x _
  case andn => exact @andnOut_keeps x _
  case shl => exact @shlOut_keeps x _
  case shr => exact @shrOut_keeps x _
  case sar => exact @sarOut_keeps x _
  case shls => exact @shlsOut_keeps x _
  case min => exact @minOut_keeps x _
  case max => exact @maxOut_keeps x _
  case minu => exact @minuOut_keeps x _
  case maxu => exact @maxuOut_keeps x _
  case cmp => exact @cmpOut_keeps x _
  case plog => exact @plogOut_keeps x _
  case mulq15 => exact @mulq15Out_keeps x _
  case macq15 => exact @macq15Out_keeps x _
  case rndq => exact @rndqOut_keeps x _
  case fadd => exact @faddOut_keeps x _
  case fsub => exact @fsubOut_keeps x _
  case fmul => exact @fmulOut_keeps x _
  case fma => exact @fmaOut_keeps x _
  case fnms => exact @fnmsOut_keeps x _
  case fcmp => exact @fcmpOut_keeps x _
  case fneg => exact @fnegOut_keeps x _
  case fabs => exact @fabsOut_keeps x _
  case fcvtDS => exact @fcvtDSOut_keeps x _
  case fcvtSD => exact @fcvtSDOut_keeps x _
  case fcvtHS => exact @fcvtHSOut_keeps x _
  case fcvtSH => exact @fcvtSHOut_keeps x _
  case fcvtI32S => exact @fcvtI32SOut_keeps x _
  case fcvtI32D => exact @fcvtI32DOut_keeps x _
  case fcvtI64D => exact @fcvtI64DOut_keeps x _
  case fcvtSI32 => exact @fcvtSI32Out_keeps x _
  case fcvtDI32 => exact @fcvtDI32Out_keeps x _
  case fcvtDI64 => exact @fcvtDI64Out_keeps x _
  case fcvtQ31S => exact @fcvtQ31SOut_keeps x _
  case fcvtSQ31 => exact @fcvtSQ31Out_keeps x _
  case amovi => exact @amoviOut_keeps x _
  case amovx => exact @amovxOut_keeps x _
  case amov => exact @amovOut_keeps x _
  case aaddi => exact @aaddiOut_keeps x _
  case aadd => exact @aaddOut_keeps x _
  case asub => exact @asubOut_keeps x _
  case ashli => exact @ashliOut_keeps x _
  case aaddx => exact @aaddxOut_keeps x _
  case aget => exact @agetOut_keeps x _
  case aput => exact @aputOut_keeps x _
  case setvl => exact @setvlOut_keeps x _
  case vmov => exact @vmovOut_keeps x _
  case vid => exact @vidOut_keeps x _
  case vadd => exact @vaddOut_keeps x _
  case vsub => exact @vsubOut_keeps x _
  case vadds => exact @vaddsOut_keeps x _
  case vsubs => exact @vsubsOut_keeps x _
  case vand => exact @vandOut_keeps x _
  case vor => exact @vorOut_keeps x _
  case vxor => exact @vxorOut_keeps x _
  case vshl => exact @vshlOut_keeps x _
  case vshr => exact @vshrOut_keeps x _
  case vsar => exact @vsarOut_keeps x _
  case vmin => exact @vminOut_keeps x _
  case vmax => exact @vmaxOut_keeps x _
  case vmulq15 => exact @vmulq15Out_keeps x _
  case vcmp => exact @vcmpOut_keeps x _
  case vmerge => exact @vmergeOut_keeps x _
  case vfadd => exact @vfaddOut_keeps x _
  case vfsub => exact @vfsubOut_keeps x _
  case vfmul => exact @vfmulOut_keeps x _
  case vfma => exact @vfmaOut_keeps x _
  case vfnms => exact @vfnmsOut_keeps x _
  case vfmin => exact @vfminOut_keeps x _
  case vfmax => exact @vfmaxOut_keeps x _
  case vfcmp => exact @vfcmpOut_keeps x _
  case vfcvt => exact @vfcvtOut_keeps x _
  case vld => exact @vldOut_keeps x _
  case vst => exact @vstOut_keeps x _
  case join => exact @joinOut_keeps x _
  case joinany => exact @joinanyOut_keeps x _
  case retry => exact @retryOut_keeps x _
  case trel => exact @trelOut_keeps x _
  case tdone => exact @tdoneOut_keeps x _
  case macroTrap => exact @unassignedOut_keeps x _
  case fld => exact @fldOut_keeps x _
  case fst => exact @fstOut_keeps x _
  case spore => exact @sporeOut_keeps x _
  case semacq => exact @semacqOut_keeps x _
  case semrel => exact @semrelOut_keeps x _
  case cesub => exact @cesubOut_keeps x _
  case mulS32 => exact @mulS32Out_keeps x _
  case mulU32 => exact @mulU32Out_keeps x _
  case mull64 => exact @mull64Out_keeps x _
  case mulhS64 => exact @mulhS64Out_keeps x _
  case mulhU64 => exact @mulhU64Out_keeps x _
  case mulq31 => exact @mulq31Out_keeps x _
  case divS32 => exact @divS32Out_keeps x _
  case divU32 => exact @divU32Out_keeps x _
  case divS64 => exact @divS64Out_keeps x _
  case divU64 => exact @divU64Out_keeps x _
  case fdivS => exact @fdivSOut_keeps x _
  case fdivD => exact @fdivDOut_keeps x _
  case fsqrtS => exact @fsqrtSOut_keeps x _
  case fsqrtD => exact @fsqrtDOut_keeps x _
  case biq => exact @biqOut_keeps x _
  case fft4 => exact @fft4Out_keeps x _
  case cmac => exact @cmacOut_keeps x _
  case nlms => exact @nlmsOut_keeps x _
  case gather => exact @gatherOut_keeps x _
  case scatter => exact @scatterOut_keeps x _
  case bmov => exact @bmovOut_keeps x _
  case peak => exact @peakOut_keeps x _
  case rms => exact @rmsOut_keeps x _
  case nop => exact @nopOut_keeps x _
  case br => exact @brOut_keeps x _
  case brx => exact @brxOut_keeps x _
  case bra => exact @braOut_keeps x _
  case call => exact @callOut_keeps x _
  case calla => exact @callaOut_keeps x _
  case ret => exact @retOut_keeps x _
  case loop => exact @loopOut_keeps x _
  case rep => exact @repOut_keeps x _
  case done => exact @doneOut_keeps x _
  case nap => exact @napOut_keeps x _
  case fbar => exact @fbarOut_keeps x _
  case ifence => exact @ifenceOut_keeps x _
  case pflush => exact @pflushOut_keeps x _
  case pbar => exact @pbarOut_keeps x _
  case mfsr => exact @mfsrOut_keeps x _
  case mtsr => exact @mtsrOut_keeps x _
  case reti => exact @retiOut_keeps x _

end Sys2Proof.Laws
end

