-- ==== Sys2Proof/Laws/Keeps/Issue.lean ====
section
/-! SUPPORT. The operations of Machine/Issue.lean keep the queue, the canonical forms and what has been handed outside. -/

namespace Sys2Proof.Laws

open Sys2Proof.Machine

theorem State.branchAt_keeps {b : State} {s} {x1 x2 x3 x4 x5 x6} (h : Keeps b s) : Keeps b (@State.branchAt s x1 x2 x3 x4 x5 x6) := by
  unfold State.branchAt
  repeat' (first | with_reducible (first | assumption | apply ite_keeps | apply State.discardFronds_keeps | apply State.modTile_keeps) | (extract_lets +onlyGivenNames x; first | ((refine_lift have hx : Keeps b x := ?_; ?_); all_goals (first | (guard_hyp hx : Keeps b x; clear_value x) | subst x)) | clear_value x) | split)

theorem haltTile_keeps {b : State} {s} {x0} (h : Keeps b s) : Keeps b (@haltTile x0 s) := by
  unfold haltTile
  repeat' (first | with_reducible (first | assumption | apply entryCycles_keeps | apply State.modTile_keeps) | (with_reducible apply Keeps.mk_other))

theorem afterFrond_keeps {b : State} {s} {x0} (h : Keeps b s) : Keeps b (@afterFrond x0 s) := by
  unfold afterFrond
  repeat' (first | with_reducible (first | assumption | apply ite_keeps | apply haltTile_keeps | apply entryCycles_keeps | apply State.modTile_keeps) | (extract_lets +onlyGivenNames x; first | ((refine_lift have hx : Keeps b x := ?_; ?_); all_goals (first | (guard_hyp hx : Keeps b x; clear_value x) | subst x)) | clear_value x) | (with_reducible apply Keeps.mk_other))

theorem State.countUnbooked_keeps {b : State} {s} {x1 x2} (h : Keeps b s) : Keeps b (@State.countUnbooked s x1 x2) := by
  unfold State.countUnbooked
  repeat' (first | with_reducible (first | assumption | apply ite_keeps | apply State.modTile_keeps | apply State.bump_keeps) | (with_reducible apply Keeps.mk_other))

theorem State.fetched_keeps {b : State} {s} {x1 x2} (h : Keeps b s) : Keeps b (@State.fetched s x1 x2) := by
  unfold State.fetched
  repeat' (first | with_reducible (first | assumption | apply ite_keeps | apply State.fetchFrond_keeps | apply State.modTile_keeps) | (extract_lets +onlyGivenNames x; first | ((refine_lift have hx : Keeps b x := ?_; ?_); all_goals (first | (guard_hyp hx : Keeps b x; clear_value x) | subst x)) | ((refine_lift have hx : Keeps b x.1 := ?_; ?_); all_goals (first | (guard_hyp hx : Keeps b x.1; clear_value x) | subst x)) | clear_value x) | dsimp only | (with_reducible apply Keeps.mk_other))

theorem foldl_mem_keeps {α : Type} {b : State} {l : List α} {f : State → α → State} (hf : ∀ a ∈ l, ∀ s, Keeps b s → Keeps b (f s a)) :
    ∀ {s : State}, Keeps b s → Keeps b (l.foldl f s) := by
  induction l with
  | nil => exact fun h => h
  | cons a l ih =>
    intro s h
    exact ih (fun x hx => hf x (List.mem_cons_of_mem _ hx)) (hf a (List.mem_cons_self ..) s h)

/-- Every operation of a frond keeps it. -/
theorem frondOps_keeps {s : State} {u : UnitIx} {ws : List Instr} : ∀ o ∈ frondOps s u ws, OpKeeps o.out := by
  intro o ho
  simp only [frondOps, List.mem_filterMap] at ho
  obtain ⟨⟨c, i⟩, -, hc⟩ := ho
  revert hc
  cases hi : opInfo c with
  | none => intro h; cases h
  | some info => intro h; cases h; exact opInfo_keeps hi

theorem commitFrond_keeps {b s : State} {u : UnitIx} {n : Nat} {ops : List FOp} (ho : ∀ o ∈ ops, OpKeeps o.out) (h : Keeps b s) :
    Keeps b (commitFrond u n ops s) := by
  have hr : ∀ o ∈ ops.filter (·.perf), OpKeeps o.out := fun o hm => ho o (List.mem_filter.mp hm).1
  unfold commitFrond
  with_reducible apply afterFrond_keeps
  refine foldl_mem_keeps (fun o hm s hs => (hr o hm).after b s hs) ?_
  with_reducible apply emptyCycles_keeps
  with_reducible apply issueCycle_keeps
  refine foldl_keeps (fun s o hs => ?_) (foldl_mem_keeps (fun o hm s hs => (hr o hm).act b s hs) ?_)
  · split
    · exact State.branchAt_keeps hs
    · exact hs
  · with_reducible apply State.setTile_keeps
    with_reducible apply State.modTile_keeps
    with_reducible apply State.countUnbooked_keeps
    exact foldl_keeps (fun s r hs => State.eccReadRange_keeps hs) (State.fetched_keeps h)

theorem raiseFrond_keeps {b : State} {s} {x0 x1 x2} (h : Keeps b s) : Keeps b (@raiseFrond x0 x1 x2 s) := by
  unfold raiseFrond
  repeat' (first | with_reducible (first | assumption | apply ite_keeps | apply preciseFault_keeps | apply State.eccReadRange_keeps) | (extract_lets +onlyGivenNames x; first | ((refine_lift have hx : Keeps b x := ?_; ?_); all_goals (first | (guard_hyp hx : Keeps b x; clear_value x) | subst x)) | clear_value x))

theorem issueFrond_keeps {b : State} {s} {x0 x1} (h : Keeps b s) : Keeps b (@issueFrond x0 x1 s) := by
  unfold issueFrond
  repeat' (first | with_reducible (first | assumption | apply ite_keeps | apply issueCycle_keeps | apply State.modTile_keeps | apply deliverTrap_keeps | apply afterFrond_keeps | apply raiseFrond_keeps | apply enter_keeps | apply commitFrond_keeps frondOps_keeps) | split)

theorem issueWord_keeps {b : State} {s} {x0 x1 x2} (h : Keeps b s) : Keeps b (@issueWord x0 x1 x2 s) := by
  unfold issueWord
  repeat' (first | with_reducible (first | assumption | apply ite_keeps | apply issueFrond_keeps | apply State.modTile_keeps) | (extract_lets +onlyGivenNames x; first | ((refine_lift have hx : Keeps b x := ?_; ?_); all_goals (first | (guard_hyp hx : Keeps b x; clear_value x) | subst x)) | clear_value x) | (with_reducible apply Keeps.mk_other))

theorem resumeJoin_keeps {b : State} {s} {x0} (h : Keeps b s) : Keeps b (@resumeJoin x0 s) := by
  unfold resumeJoin
  repeat' (first | with_reducible (first | assumption | apply ite_keeps | apply issueFrond_keeps) | (extract_lets +onlyGivenNames x; first | ((refine_lift have hx : Keeps b x := ?_; ?_); all_goals (first | (guard_hyp hx : Keeps b x; clear_value x) | subst x)) | clear_value x))

end Sys2Proof.Laws
end

