-- ==== Sys2Proof/Laws/Keeps/Ce.lean ====
section
/-! SUPPORT. The operations of Machine/Ce.lean keep the queue, the canonical forms and what has been handed outside. -/

namespace Sys2Proof.Laws

open Sys2Proof.Machine

theorem State.modEng_keeps {b : State} {s} {x1 x2} (h : Keeps b s) : Keeps b (@State.modEng s x1 x2) := by
  unfold State.modEng
  repeat' (first | assumption | (with_reducible apply Keeps.mk_other))

theorem State.ceQueue_keeps {b : State} {s} {x1} (h : Keeps b s) : Keeps b (@State.ceQueue s x1) := by
  unfold State.ceQueue
  repeat' (first | with_reducible (first | assumption | apply ite_keeps | apply State.modEng_keeps | apply State.modTile_keeps) | (extract_lets +onlyGivenNames x; first | ((refine_lift have hx : Keeps b x := ?_; ?_); all_goals (first | (guard_hyp hx : Keeps b x; clear_value x) | subst x)) | clear_value x) | split | (with_reducible apply Keeps.mk_other))

theorem State.ceEnd_keeps {b : State} {s} {x1 x2 x3 x4} (h : Keeps b s) : Keeps b (@State.ceEnd s x1 x2 x3 x4) := by
  unfold State.ceEnd
  repeat' with_reducible (first | assumption | apply resumeJoin_keeps | apply State.modTile_keeps)

theorem State.ceFail_keeps {b : State} {s} {x1 x2 x3 x4} (h : Keeps b s) : Keeps b (@State.ceFail s x1 x2 x3 x4) := by
  unfold State.ceFail
  repeat' (first | with_reducible (first | assumption | apply ite_keeps | apply State.ceEnd_keeps | apply State.devEvent_keeps | apply State.report_keeps | apply State.bump_keeps | apply State.orReg_keeps | apply State.modReg_keeps | apply State.setReg_keeps) | (extract_lets +onlyGivenNames x; first | ((refine_lift have hx : Keeps b x := ?_; ?_); all_goals (first | (guard_hyp hx : Keeps b x; clear_value x) | subst x)) | clear_value x))

theorem State.ceFailRun_keeps {b : State} {s} {x1 x2 x3 x4} (h : Keeps b s) : Keeps b (@State.ceFailRun s x1 x2 x3 x4) := by
  unfold State.ceFailRun
  repeat' (first | with_reducible (first | assumption | apply State.ceFail_keeps | apply State.modEng_keeps | apply State.orReg_keeps) | (with_reducible apply Keeps.mk_other))

theorem State.ceFlush_keeps {b : State} {s} {x1} (h : Keeps b s) : Keeps b (@State.ceFlush s x1) := by
  unfold State.ceFlush
  repeat' (first | with_reducible (first | assumption | apply State.ceFail_keeps | apply State.modEng_keeps) | (refine foldl_keeps ?_ ?_) | (intro _ _ _) | (with_reducible apply Keeps.mk_other))

theorem State.ceTake_keeps {b : State} {s} {x1} (h : Keeps b s) : Keeps b (@State.ceTake s x1) := by
  unfold State.ceTake
  repeat' (first | with_reducible (first | assumption | apply ite_keeps | apply State.ceFail_keeps | apply State.modEng_keeps) | (extract_lets +onlyGivenNames x; first | ((refine_lift have hx : Keeps b x := ?_; ?_); all_goals (first | (guard_hyp hx : Keeps b x; clear_value x) | subst x)) | clear_value x) | split | (with_reducible apply Keeps.mk_other))

theorem State.ceInput_keeps {b : State} {s} {x1 x2 x3 x4 x5 x6} (h : Keeps b s) : Keeps b (@State.ceInput s x1 x2 x3 x4 x5 x6).1 := by
  unfold State.ceInput
  repeat' (first | with_reducible (first | assumption | apply ite_keeps | apply ite_fst_keeps | apply State.memWrite_keeps) | (extract_lets +onlyGivenNames x; first | ((refine_lift have hx : Keeps b x := ?_; ?_); all_goals (first | (guard_hyp hx : Keeps b x; clear_value x) | subst x)) | ((refine_lift have hx : Keeps b x.1 := ?_; ?_); all_goals (first | (guard_hyp hx : Keeps b x.1; clear_value x) | subst x)) | clear_value x) | (refine foldl_fst_keeps ?_ ?_) | (intro _ _ _) | dsimp only)

theorem State.ceLatch_keeps {b : State} {s} {x1 x2} (h : Keeps b s) : Keeps b (@State.ceLatch s x1 x2) := by
  unfold State.ceLatch
  repeat' (first | with_reducible (first | assumption | apply ite_keeps | apply State.modEng_keeps) | (extract_lets +onlyGivenNames x; first | ((refine_lift have hx : Keeps b x := ?_; ?_); all_goals (first | (guard_hyp hx : Keeps b x; clear_value x) | subst x)) | ((refine_lift have hx : Keeps b x.1 := ?_; ?_); all_goals (first | (guard_hyp hx : Keeps b x.1; clear_value x) | subst x)) | clear_value x) | split | dsimp only | (with_reducible apply Keeps.mk_other))

theorem State.ceReads_keeps {b : State} {s} {x1 x2} (h : Keeps b s) : Keeps b (@State.ceReads s x1 x2) := by
  unfold State.ceReads
  repeat' (first | with_reducible (first | assumption | apply State.eccReadRange_keeps) | (refine foldl_keeps ?_ ?_) | (refine foldl_fst_keeps ?_ ?_) | (intro _ _ _) | dsimp only)

theorem State.ceAdvance_keeps {b : State} {s} {x1 x2 x3} (h : Keeps b s) : Keeps b (@State.ceAdvance s x1 x2 x3) := by
  unfold State.ceAdvance
  repeat' (first | with_reducible (first | assumption | apply ite_keeps | apply State.ceReads_keeps | apply State.ceLatch_keeps | apply State.ceInput_keeps | apply State.ceFailRun_keeps | apply State.ceEnd_keeps | apply State.modEng_keeps | apply State.bankWrite_keeps | apply State.memWrite_keeps | apply State.bump_keeps | apply State.orReg_keeps | apply State.modReg_keeps) | (extract_lets +onlyGivenNames x; first | ((refine_lift have hx : Keeps b x := ?_; ?_); all_goals (first | (guard_hyp hx : Keeps b x; clear_value x) | subst x)) | ((refine_lift have hx : Keeps b x.1 := ?_; ?_); all_goals (first | (guard_hyp hx : Keeps b x.1; clear_value x) | subst x)) | clear_value x) | split | (refine foldl_keeps ?_ ?_) | (refine foldl_fst_keeps ?_ ?_) | (intro _ _ _) | dsimp only | (with_reducible apply Keeps.mk_other))

theorem State.ceCtl_keeps {b : State} {s} {x1 x2} (h : Keeps b s) : Keeps b (@State.ceCtl s x1 x2) := by
  unfold State.ceCtl
  repeat' (first | with_reducible (first | assumption | apply ite_keeps | apply State.ceFlush_keeps | apply State.setReg_keeps) | (extract_lets +onlyGivenNames x; first | ((refine_lift have hx : Keeps b x := ?_; ?_); all_goals (first | (guard_hyp hx : Keeps b x; clear_value x) | subst x)) | clear_value x))

theorem State.ceKeep_keeps {b : State} {s} {x1 x2 x3 x4} (h : Keeps b s) : Keeps b (@State.ceKeep s x1 x2 x3 x4) := by
  unfold State.ceKeep
  repeat' with_reducible (first | assumption | apply State.memWrite_keeps)

theorem State.ceLoad_keeps {b : State} {s} {x1 x2} (h : Keeps b s) : Keeps b (@State.ceLoad s x1 x2) := by
  unfold State.ceLoad
  repeat' (first | with_reducible (first | assumption | apply ite_keeps | apply State.ceKeep_keeps | apply State.ceCtl_keeps) | (extract_lets +onlyGivenNames x; first | ((refine_lift have hx : Keeps b x := ?_; ?_); all_goals (first | (guard_hyp hx : Keeps b x; clear_value x) | subst x)) | clear_value x) | (refine foldl_keeps ?_ ?_) | (intro _ _ _))

theorem State.ceNewPlan_keeps {b : State} {s} (h : Keeps b s) : Keeps b (@State.ceNewPlan s) := by
  unfold State.ceNewPlan
  repeat' (first | assumption | (with_reducible apply Keeps.mk_other))

theorem State.ceSwitch_keeps {b : State} {s} {x1} (h : Keeps b s) : Keeps b (@State.ceSwitch s x1) := by
  unfold State.ceSwitch
  repeat' (first | with_reducible (first | assumption | apply State.ceKeep_keeps) | (extract_lets +onlyGivenNames x; first | ((refine_lift have hx : Keeps b x := ?_; ?_); all_goals (first | (guard_hyp hx : Keeps b x; clear_value x) | subst x)) | clear_value x) | (refine foldl_keeps ?_ ?_) | (intro _ _ _) | (with_reducible apply Keeps.mk_other))

theorem State.ceTick_keeps {b : State} {s} {x1} (h : Keeps b s) : Keeps b (@State.ceTick s x1) := by
  unfold State.ceTick
  repeat' (first | assumption | split | (with_reducible apply Keeps.mk_other))

end Sys2Proof.Laws
end

