-- ==== Sys2Proof/Laws/Keeps/AudioCore.lean ====
section
/-! SUPPORT. The operations of Machine/AudioCore.lean keep the queue, the canonical forms and what has been handed outside. -/

namespace Sys2Proof.Laws

open Sys2Proof.Machine

theorem State.modAud_keeps {b : State} {s} {x1} (h : Keeps b s) : Keeps b (@State.modAud s x1) := by
  unfold State.modAud
  repeat' (first | assumption | (with_reducible apply Keeps.mk_other))

theorem State.modPort_keeps {b : State} {s} {x1 x2} (h : Keeps b s) : Keeps b (@State.modPort s x1 x2) := by
  unfold State.modPort
  repeat' (first | with_reducible (first | assumption | apply State.modAud_keeps) | (with_reducible apply Keeps.mk_other))

theorem State.tdmStat_keeps {b : State} {s} {x1 x2} (h : Keeps b s) : Keeps b (@State.tdmStat s x1 x2) := by
  unfold State.tdmStat
  repeat' with_reducible (first | assumption | apply State.orRegEvent_keeps)

theorem State.tdmSlip_keeps {b : State} {s} {x1} (h : Keeps b s) : Keeps b (@State.tdmSlip s x1) := by
  unfold State.tdmSlip
  repeat' with_reducible (first | assumption | apply State.tdmStat_keeps | apply State.bump_keeps)

theorem State.tdmSync_keeps {b : State} {s} {x1 x2} (h : Keeps b s) : Keeps b (@State.tdmSync s x1 x2) := by
  unfold State.tdmSync
  repeat' (first | with_reducible (first | assumption | apply ite_keeps | apply State.tdmStat_keeps | apply State.setReg_keeps) | (extract_lets +onlyGivenNames x; first | ((refine_lift have hx : Keeps b x := ?_; ?_); all_goals (first | (guard_hyp hx : Keeps b x; clear_value x) | subst x)) | clear_value x))

theorem State.tdmIn_keeps {b : State} {s} {x1 x2 x3} (h : Keeps b s) : Keeps b (@State.tdmIn s x1 x2 x3) := by
  unfold State.tdmIn
  repeat' (first | with_reducible (first | assumption | apply ite_keeps | apply State.tdmSync_keeps | apply State.tdmSlip_keeps | apply State.modPort_keeps | apply State.modAud_keeps) | (extract_lets +onlyGivenNames x; first | ((refine_lift have hx : Keeps b x := ?_; ?_); all_goals (first | (guard_hyp hx : Keeps b x; clear_value x) | subst x)) | clear_value x) | (with_reducible apply Keeps.mk_other))

theorem State.tdmNoClk_keeps {b : State} {s} {x1} (h : Keeps b s) : Keeps b (@State.tdmNoClk s x1) := by
  unfold State.tdmNoClk
  repeat' (first | with_reducible (first | assumption | apply ite_keeps | apply State.tdmStat_keeps) | (extract_lets +onlyGivenNames x; first | ((refine_lift have hx : Keeps b x := ?_; ?_); all_goals (first | (guard_hyp hx : Keeps b x; clear_value x) | subst x)) | clear_value x))

theorem State.tdmClkBack_keeps {b : State} {s} {x1 x2} (h : Keeps b s) : Keeps b (@State.tdmClkBack s x1 x2) := by
  unfold State.tdmClkBack
  repeat' (first | with_reducible (first | assumption | apply ite_keeps | apply State.modPort_keeps | apply State.modReg_keeps | apply State.setReg_keeps) | (with_reducible apply Keeps.mk_other))

theorem State.tdmRestart_keeps {b : State} {s} {x1} (h : Keeps b s) : Keeps b (@State.tdmRestart s x1) := by
  unfold State.tdmRestart
  repeat' (first | with_reducible (first | assumption | apply State.modPort_keeps) | (with_reducible apply Keeps.mk_other))

theorem State.tdmOut_keeps {b : State} {s} {x1} (h : Keeps b s) : Keeps b (@State.tdmOut s x1) := by
  unfold State.tdmOut
  repeat' (first | with_reducible (first | assumption | apply ite_keeps | apply State.tdmSlip_keeps | apply State.tdmStat_keeps | apply State.modPort_keeps | apply State.emit_keeps | apply State.modReg_keeps) | (extract_lets +onlyGivenNames x; first | ((refine_lift have hx : Keeps b x := ?_; ?_); all_goals (first | (guard_hyp hx : Keeps b x; clear_value x) | subst x)) | ((refine_lift have hx : Keeps b x.1 := ?_; ?_); all_goals (first | (guard_hyp hx : Keeps b x.1; clear_value x) | subst x)) | clear_value x) | dsimp only | (with_reducible apply Keeps.mk_other))

theorem State.pdmSample_keeps {b : State} {s} {x1 x2} (h : Keeps b s) : Keeps b (@State.pdmSample s x1 x2) := by
  unfold State.pdmSample
  repeat' (first | with_reducible (first | assumption | apply ite_keeps | apply State.modAud_keeps) | (extract_lets +onlyGivenNames x; first | ((refine_lift have hx : Keeps b x := ?_; ?_); all_goals (first | (guard_hyp hx : Keeps b x; clear_value x) | subst x)) | clear_value x) | (with_reducible apply Keeps.mk_other))

theorem State.pdmFilled_keeps {b : State} {s} {x1} (h : Keeps b s) : Keeps b (@State.pdmFilled s x1) := by
  unfold State.pdmFilled
  repeat' (first | with_reducible (first | assumption | apply ite_keeps | apply State.modAud_keeps | apply State.setRegFld_keeps) | split | (with_reducible apply Keeps.mk_other))

theorem State.pdmStuck_keeps {b : State} {s} {x1} (h : Keeps b s) : Keeps b (@State.pdmStuck s x1) := by
  unfold State.pdmStuck
  repeat' (first | with_reducible (first | assumption | apply ite_keeps | apply State.modAud_keeps | apply State.devEvent_keeps | apply State.orReg_keeps) | (extract_lets +onlyGivenNames x; first | ((refine_lift have hx : Keeps b x := ?_; ?_); all_goals (first | (guard_hyp hx : Keeps b x; clear_value x) | subst x)) | clear_value x) | (with_reducible apply Keeps.mk_other))

theorem State.pdmFree_keeps {b : State} {s} {x1} (h : Keeps b s) : Keeps b (@State.pdmFree s x1) := by
  unfold State.pdmFree
  repeat' (first | with_reducible (first | assumption | apply ite_keeps | apply State.modAud_keeps | apply State.setRegFld_keeps) | (extract_lets +onlyGivenNames x; first | ((refine_lift have hx : Keeps b x := ?_; ?_); all_goals (first | (guard_hyp hx : Keeps b x; clear_value x) | subst x)) | clear_value x) | split | (with_reducible apply Keeps.mk_other))

theorem State.strmSet_keeps {b : State} {s} {x1 x2} (h : Keeps b s) : Keeps b (@State.strmSet s x1 x2) := by
  unfold State.strmSet
  repeat' (first | with_reducible (first | assumption | apply ite_keeps | apply State.modAud_keeps | apply State.orReg_keeps) | (with_reducible apply Keeps.mk_other))

theorem State.avtpInstant_keeps {b : State} {s} {x0 x1 x2 x4} (h : Keeps b s.1) : Keeps b (@State.avtpInstant x0 x1 x2 s x4).1 := by
  unfold State.avtpInstant
  repeat' (first | with_reducible (first | assumption | apply ite_keeps | apply ite_fst_keeps | apply State.strmSet_keeps | apply State.modAud_keeps) | (extract_lets +onlyGivenNames x; first | ((refine_lift have hx : Keeps b x := ?_; ?_); all_goals (first | (guard_hyp hx : Keeps b x; clear_value x) | subst x)) | ((refine_lift have hx : Keeps b x.1 := ?_; ?_); all_goals (first | (guard_hyp hx : Keeps b x.1; clear_value x) | subst x)) | clear_value x) | dsimp only | (with_reducible apply Keeps.mk_other))

theorem State.avtpIn_keeps {b : State} {s} {x1} (h : Keeps b s) : Keeps b (@State.avtpIn s x1) := by
  unfold State.avtpIn
  repeat' (first | with_reducible (first | assumption | apply ite_keeps | apply State.avtpInstant_keeps | apply State.strmSet_keeps | apply State.modAud_keeps | apply State.bump_keeps | apply State.modReg_keeps) | (extract_lets +onlyGivenNames x; first | ((refine_lift have hx : Keeps b x := ?_; ?_); all_goals (first | (guard_hyp hx : Keeps b x; clear_value x) | subst x)) | ((refine_lift have hx : Keeps b x.1 := ?_; ?_); all_goals (first | (guard_hyp hx : Keeps b x.1; clear_value x) | subst x)) | clear_value x) | split | (refine foldl_keeps ?_ ?_) | (refine foldl_fst_keeps ?_ ?_) | (intro _ _ _) | dsimp only | (with_reducible apply Keeps.mk_other))

theorem State.avtpTick_keeps {b : State} {s} {x1} (h : Keeps b s) : Keeps b (@State.avtpTick s x1) := by
  unfold State.avtpTick
  repeat' (first | with_reducible (first | assumption | apply ite_keeps | apply State.strmSet_keeps | apply State.modAud_keeps | apply State.forwardOut_keeps) | (extract_lets +onlyGivenNames x; first | ((refine_lift have hx : Keeps b x := ?_; ?_); all_goals (first | (guard_hyp hx : Keeps b x; clear_value x) | subst x)) | ((refine_lift have hx : Keeps b x.1 := ?_; ?_); all_goals (first | (guard_hyp hx : Keeps b x.1; clear_value x) | subst x)) | clear_value x) | split | dsimp only | (with_reducible apply Keeps.mk_other))

theorem State.crfOut_keeps {b : State} {s} {x1 x2} (h : Keeps b s) : Keeps b (@State.crfOut s x1 x2) := by
  unfold State.crfOut
  repeat' (first | with_reducible (first | assumption | apply ite_keeps | apply State.modAud_keeps | apply State.bump_keeps | apply State.modReg_keeps) | (extract_lets +onlyGivenNames x; first | ((refine_lift have hx : Keeps b x := ?_; ?_); all_goals (first | (guard_hyp hx : Keeps b x; clear_value x) | subst x)) | clear_value x) | (with_reducible apply Keeps.mk_other))

theorem State.avtpOut_keeps {b : State} {s} {x1} (h : Keeps b s) : Keeps b (@State.avtpOut s x1) := by
  unfold State.avtpOut
  repeat' (first | with_reducible (first | assumption | apply ite_keeps | apply State.crfOut_keeps | apply State.modAud_keeps | apply State.bump_keeps | apply State.orReg_keeps | apply State.modReg_keeps) | (extract_lets +onlyGivenNames x; first | ((refine_lift have hx : Keeps b x := ?_; ?_); all_goals (first | (guard_hyp hx : Keeps b x; clear_value x) | subst x)) | ((refine_lift have hx : Keeps b x.1 := ?_; ?_); all_goals (first | (guard_hyp hx : Keeps b x.1; clear_value x) | subst x)) | clear_value x) | split | dsimp only | (with_reducible apply Keeps.mk_other))

theorem State.crfIn_keeps {b : State} {s} {x1 x2 x3} (h : Keeps b s) : Keeps b (@State.crfIn s x1 x2 x3) := by
  unfold State.crfIn
  repeat' (first | with_reducible (first | assumption | apply ite_keeps | apply State.bump_keeps | apply State.setReg_keeps) | (extract_lets +onlyGivenNames x; first | ((refine_lift have hx : Keeps b x := ?_; ?_); all_goals (first | (guard_hyp hx : Keeps b x; clear_value x) | subst x)) | clear_value x))

theorem State.runCount_keeps {b : State} {s} {x1 x2} (h : Keeps b s) : Keeps b (@State.runCount s x1 x2) := by
  unfold State.runCount
  repeat' (first | with_reducible (first | assumption | apply ite_keeps | apply State.modAud_keeps) | (with_reducible apply Keeps.mk_other))

theorem State.audioTick_keeps {b : State} {s} (h : Keeps b s) : Keeps b (@State.audioTick s) := by
  unfold State.audioTick
  repeat' (first | with_reducible (first | assumption | apply ite_keeps | apply State.tdmSlip_keeps | apply State.modPort_keeps | apply State.modAud_keeps) | (extract_lets +onlyGivenNames x; first | ((refine_lift have hx : Keeps b x := ?_; ?_); all_goals (first | (guard_hyp hx : Keeps b x; clear_value x) | subst x)) | ((refine_lift have hx : Keeps b x.1 := ?_; ?_); all_goals (first | (guard_hyp hx : Keeps b x.1; clear_value x) | subst x)) | clear_value x) | split | (refine foldl_keeps ?_ ?_) | (refine foldl_fst_keeps ?_ ?_) | (intro _ _ _) | dsimp only | (with_reducible apply Keeps.mk_other))

theorem State.zeroOut_keeps {b : State} {s} (h : Keeps b s) : Keeps b (@State.zeroOut s) := by
  unfold State.zeroOut
  repeat' (first | with_reducible (first | assumption | apply State.modAud_keeps) | split | (with_reducible apply Keeps.mk_other))

theorem State.badInputs_keeps {b : State} {s} {x1} (h : Keeps b s) : Keeps b (@State.badInputs s x1) := by
  unfold State.badInputs
  repeat' (first | with_reducible (first | assumption | apply State.modAud_keeps) | (with_reducible apply Keeps.mk_other))

theorem State.chanBack_keeps {b : State} {s} {x1} (h : Keeps b s) : Keeps b (@State.chanBack s x1) := by
  unfold State.chanBack
  repeat' (first | with_reducible (first | assumption | apply ite_keeps | apply State.badInputs_keeps | apply State.modAud_keeps | apply State.modReg_keeps) | split | (with_reducible apply Keeps.mk_other))

theorem State.serve_keeps {b : State} {s} {x1} (h : Keeps b s) : Keeps b (@State.serve s x1) := by
  unfold State.serve
  repeat' (first | with_reducible (first | assumption | apply ite_keeps | apply State.chanBack_keeps | apply State.modAud_keeps | apply State.bump_keeps | apply State.orReg_keeps) | (extract_lets +onlyGivenNames x; first | ((refine_lift have hx : Keeps b x := ?_; ?_); all_goals (first | (guard_hyp hx : Keeps b x; clear_value x) | subst x)) | clear_value x) | (with_reducible apply Keeps.mk_other))

theorem State.trigger_keeps {b : State} {s} {x1} (h : Keeps b s) : Keeps b (@State.trigger s x1) := by
  unfold State.trigger
  repeat' (first | with_reducible (first | assumption | apply ite_keeps | apply State.serve_keeps) | (refine foldl_keeps ?_ ?_) | (intro _ _ _))

theorem State.audioDtcs_keeps {b : State} {s} (h : Keeps b s) : Keeps b (@State.audioDtcs s) := by
  unfold State.audioDtcs
  repeat' (first | with_reducible (first | assumption | apply ite_keeps | apply State.runCount_keeps | apply State.modAud_keeps | apply State.setDtc_keeps) | (extract_lets +onlyGivenNames x; first | ((refine_lift have hx : Keeps b x := ?_; ?_); all_goals (first | (guard_hyp hx : Keeps b x; clear_value x) | subst x)) | ((refine_lift have hx : Keeps b x.1 := ?_; ?_); all_goals (first | (guard_hyp hx : Keeps b x.1; clear_value x) | subst x)) | ((refine_lift have hx : State → _ := x; ?_); clear hx; subst x) | clear_value x) | split | (refine foldl_keeps ?_ ?_) | (refine foldl_fst_keeps ?_ ?_) | (intro _ _ _) | dsimp only | (with_reducible apply Keeps.mk_other))

theorem State.audioBlock_keeps {b : State} {s} (h : Keeps b s) : Keeps b (@State.audioBlock s) := by
  unfold State.audioBlock
  repeat' (first | with_reducible (first | assumption | apply State.audioDtcs_keeps | apply State.trigger_keeps | apply State.modAud_keeps) | (with_reducible apply Keeps.mk_other))

theorem State.pdmStart_keeps {b s0 s : State} (h : Keeps b s) : Keeps b (s0.pdmStart s) := by
  unfold State.pdmStart
  exact foldl_keeps (fun s c hs => ite_keeps (State.modAud_keeps (State.orReg_keeps hs)) hs) h

theorem State.putPorts_keeps {b : State} {s} {x1} (h : Keeps b s) : Keeps b (@State.putPorts s x1) := by
  unfold State.putPorts
  repeat' (first | with_reducible (first | assumption | apply ite_keeps | apply State.pdmStart_keeps | apply State.modPort_keeps | apply State.modAud_keeps | apply State.setRegFld_keeps | apply State.setReg_keeps) | (extract_lets +onlyGivenNames x; first | ((refine_lift have hx : Keeps b x := ?_; ?_); all_goals (first | (guard_hyp hx : Keeps b x; clear_value x) | subst x)) | ((refine_lift have hx : Keeps b x.1 := ?_; ?_); all_goals (first | (guard_hyp hx : Keeps b x.1; clear_value x) | subst x)) | clear_value x) | split | (refine foldl_keeps ?_ ?_) | (refine foldl_fst_keeps ?_ ?_) | (intro _ _ _) | dsimp only | (with_reducible apply Keeps.mk_other))

theorem State.flInput_keeps {b : State} {s} {x1} (h : Keeps b s) : Keeps b (@State.flInput s x1) := by
  unfold State.flInput
  repeat' (first | with_reducible (first | assumption | apply State.memWrite_keeps | apply State.modTile_keeps) | (extract_lets +onlyGivenNames x; first | ((refine_lift have hx : Keeps b x := ?_; ?_); all_goals (first | (guard_hyp hx : Keeps b x; clear_value x) | subst x)) | clear_value x) | split | (with_reducible apply Keeps.mk_other))

theorem State.flTake_keeps {b : State} {s} {x1} (h : Keeps b s) : Keeps b (@State.flTake s x1) := by
  unfold State.flTake
  repeat' (first | with_reducible (first | assumption | apply ite_keeps | apply State.modAud_keeps | apply State.eccReadRange_keeps) | (extract_lets +onlyGivenNames x; first | ((refine_lift have hx : Keeps b x := ?_; ?_); all_goals (first | (guard_hyp hx : Keeps b x; clear_value x) | subst x)) | ((refine_lift have hx : Keeps b x.1 := ?_; ?_); all_goals (first | (guard_hyp hx : Keeps b x.1; clear_value x) | subst x)) | clear_value x) | split | dsimp only | (with_reducible apply Keeps.mk_other))

end Sys2Proof.Laws
end

