-- ==== Sys2Proof/Laws/Keeps/PairCore.lean ====
section
/-! SUPPORT. The operations of Machine/PairCore.lean keep the queue, the canonical forms and what has been handed outside. -/

namespace Sys2Proof.Laws

open Sys2Proof.Machine

theorem State.modLk_keeps {b : State} {s} {x1} (h : Keeps b s) : Keeps b (@State.modLk s x1) := by
  unfold State.modLk
  repeat' (first | assumption | (with_reducible apply Keeps.mk_other))

theorem State.setPst_keeps {b : State} {s} {x1} (h : Keeps b s) : Keeps b (@State.setPst s x1) := by
  unfold State.setPst
  repeat' with_reducible (first | assumption | apply ite_keeps | apply State.devEvent_keeps | apply State.setRegFld_keeps)

theorem State.evtBlk_keeps {b : State} {s} (h : Keeps b s) : Keeps b (@State.evtBlk s) := by
  unfold State.evtBlk
  repeat' with_reducible (first | assumption | apply State.setReg_keeps)

theorem State.dropOf_keeps {b : State} {s} {x1} (h : Keeps b s) : Keeps b (@State.dropOf s x1) := by
  unfold State.dropOf
  repeat' (first | with_reducible (first | assumption | apply State.modLk_keeps) | (with_reducible apply Keeps.mk_other))

theorem State.leavePair_keeps {b : State} {s} {x1} (h : Keeps b s) : Keeps b (@State.leavePair s x1) := by
  unfold State.leavePair
  repeat' (first | with_reducible (first | assumption | apply State.dropOf_keeps | apply State.evtBlk_keeps | apply State.setPst_keeps | apply State.modLk_keeps | apply State.emit_keeps) | (extract_lets +onlyGivenNames x; first | ((refine_lift have hx : Keeps b x := ?_; ?_); all_goals (first | (guard_hyp hx : Keeps b x; clear_value x) | subst x)) | clear_value x) | (with_reducible apply Keeps.mk_other))

end Sys2Proof.Laws
end

