-- ==== Sys2Proof/Laws/Keeps/Hub.lean ====
section
/-! SUPPORT. The operations of Machine/Hub.lean keep the queue, the canonical forms and what has been handed outside. -/

namespace Sys2Proof.Laws

open Sys2Proof.Machine

theorem State.fenceTile_keeps {b : State} {s} {x1} (h : Keeps b s) : Keeps b (@State.fenceTile s x1) := by
  unfold State.fenceTile
  repeat' (first | with_reducible (first | assumption | apply ite_keeps | apply State.setCond_keeps | apply State.modTile_keeps | apply State.orReg_keeps | apply State.setRegFld_keeps) | (extract_lets +onlyGivenNames x; first | ((refine_lift have hx : Keeps b x := ?_; ?_); all_goals (first | (guard_hyp hx : Keeps b x; clear_value x) | subst x)) | clear_value x) | (with_reducible apply Keeps.mk_other))

theorem State.fenceCe_keeps {b : State} {s} {x1} (h : Keeps b s) : Keeps b (@State.fenceCe s x1) := by
  unfold State.fenceCe
  repeat' with_reducible (first | assumption | apply State.ceFlush_keeps | apply State.orReg_keeps | apply State.setRegFld_keeps)

theorem State.liftFences_keeps {b : State} {s} (h : Keeps b s) : Keeps b (@State.liftFences s) := by
  unfold State.liftFences
  repeat' (first | with_reducible (first | assumption | apply State.setRegFld_keeps | apply State.setReg_keeps) | (extract_lets +onlyGivenNames x; first | ((refine_lift have hx : Keeps b x := ?_; ?_); all_goals (first | (guard_hyp hx : Keeps b x; clear_value x) | subst x)) | clear_value x) | (refine foldl_keeps ?_ ?_) | (intro _ _ _) | (with_reducible apply Keeps.mk_other))

theorem State.invalidate_keeps {b : State} {s} {x1 x2} (h : Keeps b s) : Keeps b (@State.invalidate s x1 x2) := by
  unfold State.invalidate
  repeat' (first | with_reducible (first | assumption | apply ite_keeps | apply State.modSafety_keeps) | (with_reducible apply Keeps.mk_other))

theorem State.setSafe_keeps {b : State} {s} {x1} (h : Keeps b s) : Keeps b (@State.setSafe s x1) := by
  unfold State.setSafe
  repeat' with_reducible (first | assumption | apply ite_keeps | apply State.devEvent_keeps | apply State.setRegFld_keeps)

theorem State.dropRestart_keeps {b : State} {s} (h : Keeps b s) : Keeps b (@State.dropRestart s) := by
  unfold State.dropRestart
  repeat' (first | with_reducible (first | assumption | apply ite_keeps | apply State.modSched_keeps) | (extract_lets +onlyGivenNames x; first | ((refine_lift have hx : Keeps b x := ?_; ?_); all_goals (first | (guard_hyp hx : Keeps b x; clear_value x) | subst x)) | clear_value x) | (with_reducible apply Keeps.mk_other))

theorem State.enterSafe_keeps {b : State} {s} (h : Keeps b s) : Keeps b (@State.enterSafe s) := by
  unfold State.enterSafe
  repeat' (first | with_reducible (first | assumption | apply ite_keeps | apply State.dropRestart_keeps | apply State.setSafe_keeps | apply State.notice_keeps | apply State.setDtc_keeps | apply State.logEvent_keeps | apply State.modSafety_keeps | apply State.setReg_keeps) | (extract_lets +onlyGivenNames x; first | ((refine_lift have hx : Keeps b x := ?_; ?_); all_goals (first | (guard_hyp hx : Keeps b x; clear_value x) | subst x)) | clear_value x) | (with_reducible apply Keeps.mk_other))

theorem State.leaveSafe_keeps {b : State} {s} {x1} (h : Keeps b s) : Keeps b (@State.leaveSafe s x1) := by
  unfold State.leaveSafe
  repeat' (first | with_reducible (first | assumption | apply ite_keeps | apply State.setSafe_keeps | apply State.liftFences_keeps | apply State.logEvent_keeps | apply State.modSafety_keeps) | (extract_lets +onlyGivenNames x; first | ((refine_lift have hx : Keeps b x := ?_; ?_); all_goals (first | (guard_hyp hx : Keeps b x; clear_value x) | subst x)) | clear_value x) | (with_reducible apply Keeps.mk_other))

theorem State.safeTick_keeps {b : State} {s} (h : Keeps b s) : Keeps b (@State.safeTick s) := by
  unfold State.safeTick
  repeat' (first | with_reducible (first | assumption | apply ite_keeps | apply State.setSafe_keeps | apply State.setRegFld_keeps) | (extract_lets +onlyGivenNames x; first | ((refine_lift have hx : Keeps b x := ?_; ?_); all_goals (first | (guard_hyp hx : Keeps b x; clear_value x) | subst x)) | clear_value x))

theorem State.recordReport_keeps {b : State} {s} {x1} (h : Keeps b s) : Keeps b (@State.recordReport s x1) := by
  unfold State.recordReport
  repeat' (first | with_reducible (first | assumption | apply ite_keeps | apply State.setDtc_keeps | apply State.logEvent_keeps | apply State.modSafety_keeps) | (extract_lets +onlyGivenNames x; first | ((refine_lift have hx : Keeps b x := ?_; ?_); all_goals (first | (guard_hyp hx : Keeps b x; clear_value x) | subst x)) | ((refine_lift have hx : Keeps b x.1 := ?_; ?_); all_goals (first | (guard_hyp hx : Keeps b x.1; clear_value x) | subst x)) | clear_value x) | dsimp only | (with_reducible apply Keeps.mk_other))

theorem State.scRestart_keeps {b : State} {s} (h : Keeps b s) : Keeps b (@State.scRestart s) := by
  unfold State.scRestart
  repeat' (first | with_reducible (first | assumption | apply State.modTile_keeps) | (with_reducible apply Keeps.mk_other))

theorem State.fenceTier_keeps {b : State} {s} {x1} (h : Keeps b s) : Keeps b (@State.fenceTier s x1) := by
  unfold State.fenceTier
  repeat' (first | with_reducible (first | assumption | apply ite_keeps | apply State.fenceTile_keeps) | (refine foldl_keeps ?_ ?_) | (intro _ _ _))

theorem State.respond_keeps {b : State} {s} {x1} (h : Keeps b s) : Keeps b (@State.respond s x1) := by
  unfold State.respond
  repeat' (first | with_reducible (first | assumption | apply ite_keeps | apply State.fenceTier_keeps | apply State.scRestart_keeps | apply State.fenceCe_keeps | apply State.fenceTile_keeps | apply State.ceFlush_keeps | apply State.ceFailRun_keeps | apply State.setCond_keeps | apply State.modSafety_keeps | apply State.bump_keeps | apply State.orReg_keeps | apply State.setRegFld_keeps) | (extract_lets +onlyGivenNames x; first | ((refine_lift have hx : Keeps b x := ?_; ?_); all_goals (first | (guard_hyp hx : Keeps b x; clear_value x) | subst x)) | clear_value x) | split | (with_reducible apply Keeps.mk_other))

theorem State.selfFault_keeps {b : State} {s} {x1 x2} (h : Keeps b s) : Keeps b (@State.selfFault s x1 x2) := by
  unfold State.selfFault
  repeat' with_reducible (first | assumption | apply ite_keeps | apply State.enterSafe_keeps | apply State.leavePair_keeps)

theorem State.lastReport_keeps {b : State} {s} {x1} (h : Keeps b s) : Keeps b (@State.lastReport s x1) := by
  unfold State.lastReport
  repeat' with_reducible (first | assumption | apply State.setReg_keeps)

theorem State.hubTake_keeps {b : State} {s} {x1} (h : Keeps b s) : Keeps b (@State.hubTake s x1) := by
  unfold State.hubTake
  repeat' (first | with_reducible (first | assumption | apply ite_keeps | apply State.lastReport_keeps | apply State.selfFault_keeps | apply State.respond_keeps | apply State.recordReport_keeps | apply State.invalidate_keeps | apply State.orRegEvent_keeps | apply State.modSafety_keeps | apply State.bump_keeps) | (extract_lets +onlyGivenNames x; first | ((refine_lift have hx : Keeps b x := ?_; ?_); all_goals (first | (guard_hyp hx : Keeps b x; clear_value x) | subst x)) | clear_value x) | split | (with_reducible apply Keeps.mk_other))

theorem State.readAreas_keeps {b : State} {s} (h : Keeps b s) : Keeps b (@State.readAreas s) := by
  unfold State.readAreas
  repeat' (first | with_reducible (first | assumption | apply State.eccReadRange_keeps) | (extract_lets +onlyGivenNames x; first | ((refine_lift have hx : Keeps b x := ?_; ?_); all_goals (first | (guard_hyp hx : Keeps b x; clear_value x) | subst x)) | ((refine_lift have hx : Keeps b x.1 := ?_; ?_); all_goals (first | (guard_hyp hx : Keeps b x.1; clear_value x) | subst x)) | clear_value x) | split | (refine foldl_keeps ?_ ?_) | (refine foldl_fst_keeps ?_ ?_) | (intro _ _ _) | dsimp only)

theorem State.takeArea_keeps {b : State} {s} {x1 x2 x3} (h : Keeps b s) : Keeps b (@State.takeArea s x1 x2 x3) := by
  unfold State.takeArea
  repeat' (first | with_reducible (first | assumption | apply ite_keeps | apply State.modAud_keeps) | (extract_lets +onlyGivenNames x; first | ((refine_lift have hx : Keeps b x := ?_; ?_); all_goals (first | (guard_hyp hx : Keeps b x; clear_value x) | subst x)) | ((refine_lift have hx : Keeps b x.1 := ?_; ?_); all_goals (first | (guard_hyp hx : Keeps b x.1; clear_value x) | subst x)) | clear_value x) | (refine foldl_keeps ?_ ?_) | (refine foldl_fst_keeps ?_ ?_) | (intro _ _ _) | dsimp only | (with_reducible apply Keeps.mk_other))

theorem State.reseed_keeps {b : State} {s} {x1} (h : Keeps b s) : Keeps b (@State.reseed s x1) := by
  unfold State.reseed
  repeat' (first | with_reducible (first | assumption | apply State.memWrite_keeps | apply State.eccReadRange_keeps | apply State.bump_keeps) | (extract_lets +onlyGivenNames x; first | ((refine_lift have hx : Keeps b x := ?_; ?_); all_goals (first | (guard_hyp hx : Keeps b x; clear_value x) | subst x)) | ((refine_lift have hx : Keeps b x.1 := ?_; ?_); all_goals (first | (guard_hyp hx : Keeps b x.1; clear_value x) | subst x)) | ((refine_lift have hx : State → _ := x; ?_); clear hx; subst x) | clear_value x) | dsimp only)

theorem State.verdictOn_keeps {b : State} {s} {x1 x2} (h : Keeps b s) : Keeps b (@State.verdictOn s x1 x2) := by
  unfold State.verdictOn
  repeat' (first | with_reducible (first | assumption | apply ite_keeps | apply State.reseed_keeps | apply State.takeArea_keeps | apply State.lastReport_keeps | apply State.selfFault_keeps | apply State.fenceTile_keeps | apply State.setDtc_keeps | apply State.logEvent_keeps | apply State.orRegEvent_keeps | apply State.modSafety_keeps | apply State.bump_keeps | apply State.modReg_keeps | apply State.setReg_keeps) | (extract_lets +onlyGivenNames x; first | ((refine_lift have hx : Keeps b x := ?_; ?_); all_goals (first | (guard_hyp hx : Keeps b x; clear_value x) | subst x)) | ((refine_lift have hx : Keeps b x.1 := ?_; ?_); all_goals (first | (guard_hyp hx : Keeps b x.1; clear_value x) | subst x)) | ((refine_lift have hx : State → _ := x; ?_); clear hx; subst x) | clear_value x) | dsimp only | (with_reducible apply Keeps.mk_other))

theorem State.verdict_keeps {b : State} {s} (h : Keeps b s) : Keeps b (@State.verdict s) := by
  unfold State.verdict
  repeat' (first | with_reducible (first | assumption | apply State.verdictOn_keeps | apply State.modSafety_keeps | apply State.modReg_keeps) | (extract_lets +onlyGivenNames x; first | ((refine_lift have hx : Keeps b x := ?_; ?_); all_goals (first | (guard_hyp hx : Keeps b x; clear_value x) | subst x)) | ((refine_lift have hx : Keeps b x.1 := ?_; ?_); all_goals (first | (guard_hyp hx : Keeps b x.1; clear_value x) | subst x)) | clear_value x) | split | (refine foldl_keeps ?_ ?_) | (refine foldl_fst_keeps ?_ ?_) | (intro _ _ _) | dsimp only | (with_reducible apply Keeps.mk_other))

end Sys2Proof.Laws
end

