-- ==== Sys2Proof/Laws/Keeps/Reset.lean ====
section
/-! SUPPORT. The operations of Machine/Reset.lean keep the queue, the canonical forms and what has been handed outside. -/

namespace Sys2Proof.Laws

open Sys2Proof.Machine

theorem swf_resetCsr : swf 0 resetCsr = true := by decide

theorem State.swf_resetRegs (s : State) : swf 0 s.resetRegs = true := by
  unfold State.resetRegs
  extract_lets r1 r2
  have h1 : swf 0 r1 = true := swf_foldl_sset 0 (fun a : Nat => a) (fun a _ => s.reg a) keptRegs resetCsr swf_resetCsr
  have h2 : swf 0 r2 = true :=
    swf_foldl_sset 0 Csr.ageOf (fun n _ => s.reg (Csr.ageOf n) &&& 0x00FF0000) (upFrom 0 16) r1 h1
  exact swf_sset 0 r2 Csr.lcStat (s.reg Csr.lcStat &&& 0x17) h2

theorem oneShadow_reset {s : State} (h : s.bmt = State.reset.bmt) : s.OneShadow := by
  intro n
  unfold State.bmtOf
  rw [h]
  by_cases hn : n < 23 <;> simp [State.reset, Vector.getD, hn]

/-- A state written out with the background tests at reset. -/
theorem Keeps.mk_reset {b s : State} {a1 a2 a3 a5 a6 a8 a10 a11 a12 a13 a14 a15 a16 a17} {c : List (Nat × Word)} (h : Keeps b s)
    (hc : swf 0 c = true) :
    Keeps b (State.mk a1 a2 a3 s.mem a5 a6 State.reset.bmt a8 c a10 a11 a12 a13 a14 a15 a16 a17 s.out s.freeCtr s.pending) :=
  ⟨h.pending, fun x => ⟨(h.canon x).1, hc⟩, fun _ => oneShadow_reset rfl, h.out, h.free⟩

theorem State.deviceReset_keeps {b s : State} {x1 x2} (h : Keeps b s) : Keeps b (s.deviceReset x1 x2) := by
  unfold State.deviceReset
  have g := State.endOpCycle_keeps h
  exact Keeps.mk_reset g (swf_sset 0 _ _ _ (State.swf_resetRegs _))

end Sys2Proof.Laws
end

