-- ==== Sys2Proof/Laws/Keeps/Power.lean ====
section
/-! SUPPORT. The operations of Machine/Power.lean keep the queue, the canonical forms and what has been handed outside. -/

namespace Sys2Proof.Laws

open Sys2Proof.Machine

theorem State.setBudget_keeps {b : State} {s} (h : Keeps b s) : Keeps b (@State.setBudget s) := by
  unfold State.setBudget
  repeat' (first | with_reducible (first | assumption | apply ite_keeps | apply State.showTiers_keeps | apply State.modPower_keeps | apply State.setRegFld_keeps | apply State.setReg_keeps) | (extract_lets +onlyGivenNames x; first | ((refine_lift have hx : Keeps b x := ?_; ?_); all_goals (first | (guard_hyp hx : Keeps b x; clear_value x) | subst x)) | clear_value x) | (with_reducible apply Keeps.mk_other))

theorem State.showLeave_keeps {b : State} {s} (h : Keeps b s) : Keeps b (@State.showLeave s) := by
  unfold State.showLeave
  repeat' (first | with_reducible (first | assumption | apply State.setReg_keeps) | (extract_lets +onlyGivenNames x; first | ((refine_lift have hx : Keeps b x := ?_; ?_); all_goals (first | (guard_hyp hx : Keeps b x; clear_value x) | subst x)) | clear_value x) | (refine foldl_keeps ?_ ?_) | (intro _ _ _))

theorem State.setBallast_keeps {b : State} {s} {x1} (h : Keeps b s) : Keeps b (@State.setBallast s x1) := by
  unfold State.setBallast
  repeat' with_reducible (first | assumption | apply State.setRegFld_keeps | apply State.setReg_keeps)

theorem State.leaveAsk_keeps {b : State} {s} {x1} (h : Keeps b s) : Keeps b (@State.leaveAsk s x1) := by
  unfold State.leaveAsk
  repeat' (first | with_reducible (first | assumption | apply ite_keeps | apply State.setBallast_keeps | apply State.showLeave_keeps | apply State.modPower_keeps) | (extract_lets +onlyGivenNames x; first | ((refine_lift have hx : Keeps b x := ?_; ?_); all_goals (first | (guard_hyp hx : Keeps b x; clear_value x) | subst x)) | clear_value x) | (with_reducible apply Keeps.mk_other))

theorem State.leaveGive_keeps {b : State} {s} {x1} (h : Keeps b s) : Keeps b (@State.leaveGive s x1) := by
  unfold State.leaveGive
  repeat' (first | with_reducible (first | assumption | apply ite_keeps | apply State.setBallast_keeps | apply State.showLeave_keeps | apply State.modPower_keeps) | (extract_lets +onlyGivenNames x; first | ((refine_lift have hx : Keeps b x := ?_; ?_); all_goals (first | (guard_hyp hx : Keeps b x; clear_value x) | subst x)) | clear_value x) | split | (with_reducible apply Keeps.mk_other))

theorem State.leaveEnd_keeps {b : State} {s} {x1} (h : Keeps b s) : Keeps b (@State.leaveEnd s x1) := by
  unfold State.leaveEnd
  repeat' (first | with_reducible (first | assumption | apply ite_keeps | apply State.setBallast_keeps | apply State.showLeave_keeps | apply State.modPower_keeps) | split | (with_reducible apply Keeps.mk_other))

theorem State.leaveCut_keeps {b : State} {s} {x1} (h : Keeps b s) : Keeps b (@State.leaveCut s x1) := by
  unfold State.leaveCut
  repeat' (first | with_reducible (first | assumption | apply ite_keeps | apply State.setBallast_keeps | apply State.showLeave_keeps | apply State.modPower_keeps | apply State.bump_keeps) | split | (with_reducible apply Keeps.mk_other))

theorem State.ballastTick_keeps {b : State} {s} (h : Keeps b s) : Keeps b (@State.ballastTick s) := by
  unfold State.ballastTick
  repeat' (first | with_reducible (first | assumption | apply State.setBallast_keeps) | (refine foldl_keeps ?_ ?_) | (intro _ _ _))

theorem State.vidStep_keeps {b : State} {s} (h : Keeps b s) : Keeps b (@State.vidStep s) := by
  unfold State.vidStep
  repeat' (first | with_reducible (first | assumption | apply ite_keeps | apply State.emit_keeps | apply State.modPower_keeps | apply State.setRegFld_keeps) | (extract_lets +onlyGivenNames x; first | ((refine_lift have hx : Keeps b x := ?_; ?_); all_goals (first | (guard_hyp hx : Keeps b x; clear_value x) | subst x)) | clear_value x) | split | (with_reducible apply Keeps.mk_other))

theorem State.vidFall_keeps {b : State} {s} (h : Keeps b s) : Keeps b (@State.vidFall s) := by
  unfold State.vidFall
  repeat' with_reducible (first | assumption | apply ite_keeps | apply State.setRegFld_keeps)

theorem State.setSupply_keeps {b : State} {s} {x1} (h : Keeps b s) : Keeps b (@State.setSupply s x1) := by
  unfold State.setSupply
  repeat' (first | with_reducible (first | assumption | apply ite_keeps | apply State.setBudget_keeps | apply State.setDtc_keeps | apply State.logEvent_keeps | apply State.devEvent_keeps | apply State.modSafety_keeps | apply State.bump_keeps | apply State.orReg_keeps | apply State.setRegFld_keeps) | (extract_lets +onlyGivenNames x; first | ((refine_lift have hx : Keeps b x := ?_; ?_); all_goals (first | (guard_hyp hx : Keeps b x; clear_value x) | subst x)) | clear_value x) | split | (with_reducible apply Keeps.mk_other))

theorem State.battSample_keeps {b : State} {s} {x1} (h : Keeps b s) : Keeps b (@State.battSample s x1) := by
  unfold State.battSample
  repeat' (first | with_reducible (first | assumption | apply ite_keeps | apply State.setSupply_keeps | apply State.modPower_keeps | apply State.modReg_keeps | apply State.setReg_keeps) | (extract_lets +onlyGivenNames x; first | ((refine_lift have hx : Keeps b x := ?_; ?_); all_goals (first | (guard_hyp hx : Keeps b x; clear_value x) | subst x)) | clear_value x) | split | (with_reducible apply Keeps.mk_other))

theorem State.deepHold_keeps {b : State} {s} (h : Keeps b s) : Keeps b (@State.deepHold s) := by
  unfold State.deepHold
  repeat' (first | with_reducible (first | assumption | apply ite_keeps | apply State.setRegFld_keeps) | split | (with_reducible apply Keeps.mk_other))

theorem State.deepRelease_keeps {b : State} {s} (h : Keeps b s) : Keeps b (@State.deepRelease s) := by
  unfold State.deepRelease
  repeat' (first | with_reducible (first | assumption | apply ite_keeps | apply State.modSafety_keeps | apply State.setRegFld_keeps) | (extract_lets +onlyGivenNames x; first | ((refine_lift have hx : Keeps b x := ?_; ?_); all_goals (first | (guard_hyp hx : Keeps b x; clear_value x) | subst x)) | clear_value x) | (with_reducible apply Keeps.mk_other))

theorem State.pmicWarn_keeps {b : State} {s} (h : Keeps b s) : Keeps b (@State.pmicWarn s) := by
  unfold State.pmicWarn
  repeat' (first | with_reducible (first | assumption | apply State.setBudget_keeps | apply State.logEvent_keeps | apply State.devEvent_keeps | apply State.modPower_keeps | apply State.bump_keeps | apply State.orReg_keeps | apply State.setRegFld_keeps) | (extract_lets +onlyGivenNames x; first | ((refine_lift have hx : Keeps b x := ?_; ?_); all_goals (first | (guard_hyp hx : Keeps b x; clear_value x) | subst x)) | clear_value x) | (with_reducible apply Keeps.mk_other))

theorem State.pmicWarnFall_keeps {b : State} {s} (h : Keeps b s) : Keeps b (@State.pmicWarnFall s) := by
  unfold State.pmicWarnFall
  repeat' (first | with_reducible (first | assumption | apply ite_keeps | apply State.modPower_keeps | apply State.setRegFld_keeps) | (with_reducible apply Keeps.mk_other))

theorem State.pmicWarnEnd_keeps {b : State} {s} (h : Keeps b s) : Keeps b (@State.pmicWarnEnd s) := by
  unfold State.pmicWarnEnd
  repeat' (first | with_reducible (first | assumption | apply ite_keeps | apply State.setBudget_keeps | apply State.modPower_keeps | apply State.setRegFld_keeps) | split | (with_reducible apply Keeps.mk_other))

theorem State.pwrGoodFall_keeps {b : State} {s} (h : Keeps b s) : Keeps b (@State.pwrGoodFall s) := by
  unfold State.pwrGoodFall
  repeat' (first | with_reducible (first | assumption | apply ite_keeps | apply State.deviceReset_keeps | apply State.modPower_keeps | apply State.setReg_keeps) | (extract_lets +onlyGivenNames x; first | ((refine_lift have hx : Keeps b x := ?_; ?_); all_goals (first | (guard_hyp hx : Keeps b x; clear_value x) | subst x)) | clear_value x) | (with_reducible apply Keeps.mk_other))

theorem State.railSample_keeps {b : State} {s} {x1 x2} (h : Keeps b s) : Keeps b (@State.railSample s x1 x2) := by
  unfold State.railSample
  repeat' (first | with_reducible (first | assumption | apply ite_keeps | apply State.deviceReset_keeps | apply State.setCond_keeps | apply State.report_keeps | apply State.orReg_keeps | apply State.setRegFld_keeps | apply State.setReg_keeps) | (extract_lets +onlyGivenNames x; first | ((refine_lift have hx : Keeps b x := ?_; ?_); all_goals (first | (guard_hyp hx : Keeps b x; clear_value x) | subst x)) | ((refine_lift have hx : Keeps b x.1 := ?_; ?_); all_goals (first | (guard_hyp hx : Keeps b x.1; clear_value x) | subst x)) | clear_value x) | dsimp only)

theorem State.clockSample_keeps {b : State} {s} {x1 x2} (h : Keeps b s) : Keeps b (@State.clockSample s x1 x2) := by
  unfold State.clockSample
  repeat' (first | with_reducible (first | assumption | apply ite_keeps | apply State.report_keeps | apply State.orReg_keeps | apply State.setRegFld_keeps | apply State.setReg_keeps) | (extract_lets +onlyGivenNames x; first | ((refine_lift have hx : Keeps b x := ?_; ?_); all_goals (first | (guard_hyp hx : Keeps b x; clear_value x) | subst x)) | clear_value x))

theorem State.pllRelock_keeps {b : State} {s} {x1} (h : Keeps b s) : Keeps b (@State.pllRelock s x1) := by
  unfold State.pllRelock
  repeat' with_reducible (first | assumption | apply State.setRegFld_keeps)

theorem State.setCap_keeps {b : State} {s} {x1} (h : Keeps b s) : Keeps b (@State.setCap s x1) := by
  unfold State.setCap
  repeat' (first | with_reducible (first | assumption | apply ite_keeps | apply State.setBudget_keeps | apply State.setDtc_keeps | apply State.logEvent_keeps | apply State.devEvent_keeps | apply State.modPower_keeps | apply State.bump_keeps | apply State.setRegFld_keeps) | (extract_lets +onlyGivenNames x; first | ((refine_lift have hx : Keeps b x := ?_; ?_); all_goals (first | (guard_hyp hx : Keeps b x; clear_value x) | subst x)) | clear_value x) | (with_reducible apply Keeps.mk_other))

theorem State.tempSample_keeps {b : State} {s} {x1} (h : Keeps b s) : Keeps b (@State.tempSample s x1) := by
  unfold State.tempSample
  repeat' (first | with_reducible (first | assumption | apply ite_keeps | apply State.setCap_keeps | apply State.deviceReset_keeps | apply State.setCond_keeps | apply State.modAge_keeps | apply State.report_keeps | apply State.orReg_keeps | apply State.setRegFld_keeps | apply State.modReg_keeps | apply State.setReg_keeps) | (extract_lets +onlyGivenNames x; first | ((refine_lift have hx : Keeps b x := ?_; ?_); all_goals (first | (guard_hyp hx : Keeps b x; clear_value x) | subst x)) | clear_value x) | split | (refine foldl_keeps ?_ ?_) | (intro _ _ _) | (with_reducible apply Keeps.mk_other))

theorem State.capEnd_keeps {b : State} {s} (h : Keeps b s) : Keeps b (@State.capEnd s) := by
  unfold State.capEnd
  repeat' with_reducible (first | assumption | apply ite_keeps | apply State.setCap_keeps)

theorem State.aonSteer_keeps {b : State} {s} (h : Keeps b s) : Keeps b (@State.aonSteer s) := by
  unfold State.aonSteer
  repeat' (first | with_reducible (first | assumption | apply ite_keeps | apply State.setReg_keeps) | (extract_lets +onlyGivenNames x; first | ((refine_lift have hx : Keeps b x := ?_; ?_); all_goals (first | (guard_hyp hx : Keeps b x; clear_value x) | subst x)) | clear_value x))

theorem State.aonLoss_keeps {b : State} {s} (h : Keeps b s) : Keeps b (@State.aonLoss s) := by
  unfold State.aonLoss
  repeat' with_reducible (first | assumption | apply ite_keeps | apply State.logEvent_keeps | apply State.setRegFld_keeps)

theorem State.aonReturn_keeps {b : State} {s} (h : Keeps b s) : Keeps b (@State.aonReturn s) := by
  unfold State.aonReturn
  repeat' with_reducible (first | assumption | apply ite_keeps | apply State.logEvent_keeps | apply State.setRegFld_keeps)

theorem State.budgetHeld_keeps {b : State} {s} (h : Keeps b s) : Keeps b (@State.budgetHeld s) := by
  unfold State.budgetHeld
  repeat' (first | with_reducible (first | assumption | apply ite_keeps | apply State.modPower_keeps) | (with_reducible apply Keeps.mk_other))

end Sys2Proof.Laws
end

