-- ==== Sys2Proof/Laws/Keeps/Age.lean ====
section
/-! SUPPORT. The operations of Machine/Age.lean keep the queue, the canonical forms and what has been handed outside. -/

namespace Sys2Proof.Laws

open Sys2Proof.Machine

theorem State.ageEvent_keeps {b : State} {s} {x1 x2 x3 x4} (h : Keeps b s) : Keeps b (@State.ageEvent s x1 x2 x3 x4) := by
  unfold State.ageEvent
  repeat' (first | with_reducible (first | assumption | apply ite_keeps | apply State.logEvent_keeps) | (extract_lets +onlyGivenNames x; first | ((refine_lift have hx : Keeps b x := ?_; ?_); all_goals (first | (guard_hyp hx : Keeps b x; clear_value x) | subst x)) | clear_value x))

theorem State.resumeCounts_keeps {b : State} {s} (h : Keeps b s) : Keeps b (@State.resumeCounts s) := by
  unfold State.resumeCounts
  repeat' (first | with_reducible (first | assumption | apply ite_keeps | apply State.fwRead_keeps | apply State.modAge_keeps | apply State.setReg_keeps) | (extract_lets +onlyGivenNames x; first | ((refine_lift have hx : Keeps b x := ?_; ?_); all_goals (first | (guard_hyp hx : Keeps b x; clear_value x) | subst x)) | ((refine_lift have hx : Keeps b x.1 := ?_; ?_); all_goals (first | (guard_hyp hx : Keeps b x.1; clear_value x) | subst x)) | clear_value x) | split | dsimp only | (with_reducible apply Keeps.mk_other))

theorem State.marginRecord_keeps {b : State} {s} {x1} (h : Keeps b s) : Keeps b (@State.marginRecord s x1) := by
  unfold State.marginRecord
  repeat' (first | with_reducible (first | assumption | apply State.mramPut_keeps | apply State.modAge_keeps | apply State.setReg_keeps) | (extract_lets +onlyGivenNames x; first | ((refine_lift have hx : Keeps b x := ?_; ?_); all_goals (first | (guard_hyp hx : Keeps b x; clear_value x) | subst x)) | clear_value x) | (refine foldl_keeps ?_ ?_) | (intro _ _ _) | (with_reducible apply Keeps.mk_other))

theorem State.exhaust_keeps {b : State} {s} (h : Keeps b s) : Keeps b (@State.exhaust s) := by
  unfold State.exhaust
  repeat' (first | with_reducible (first | assumption | apply ite_keeps | apply State.ageEvent_keeps | apply State.lastReport_keeps | apply State.selfFault_keeps | apply State.invalidate_keeps | apply State.fenceTile_keeps | apply State.setDtc_keeps | apply State.modSafety_keeps | apply State.orReg_keeps) | (extract_lets +onlyGivenNames x; first | ((refine_lift have hx : Keeps b x := ?_; ?_); all_goals (first | (guard_hyp hx : Keeps b x; clear_value x) | subst x)) | clear_value x) | (refine foldl_keeps ?_ ?_) | (intro _ _ _) | (with_reducible apply Keeps.mk_other))

theorem State.ageSettle_keeps {b : State} {s} (h : Keeps b s) : Keeps b (@State.ageSettle s) := by
  unfold State.ageSettle
  repeat' (first | with_reducible (first | assumption | apply ite_keeps | apply State.setCond_keeps | apply State.modAge_keeps | apply State.setRegFld_keeps) | (extract_lets +onlyGivenNames x; first | ((refine_lift have hx : Keeps b x := ?_; ?_); all_goals (first | (guard_hyp hx : Keeps b x; clear_value x) | subst x)) | clear_value x) | split | (with_reducible apply Keeps.mk_other))

theorem State.outstand_keeps {b : State} {s} (h : Keeps b s) : Keeps b (@State.outstand s) := by
  unfold State.outstand
  repeat' with_reducible (first | assumption | apply State.setCond_keeps | apply State.setRegFld_keeps)

theorem State.startReplan_keeps {b : State} {s} {x1} (h : Keeps b s) : Keeps b (@State.startReplan s x1) := by
  unfold State.startReplan
  repeat' (first | with_reducible (first | assumption | apply State.modAge_keeps | apply State.setRegFld_keeps) | split | (with_reducible apply Keeps.mk_other))

theorem State.replanTrigger_keeps {b : State} {s} {x1} (h : Keeps b s) : Keeps b (@State.replanTrigger s x1) := by
  unfold State.replanTrigger
  repeat' (first | with_reducible (first | assumption | apply ite_keeps | apply State.startReplan_keeps | apply State.modAge_keeps) | split | (with_reducible apply Keeps.mk_other))

theorem State.replanTile_keeps {b : State} {s} {x1 x2 x3} (h : Keeps b s) : Keeps b (@State.replanTile s x1 x2 x3) := by
  unfold State.replanTile
  repeat' (first | with_reducible (first | assumption | apply State.modAge_keeps | apply State.setRegFld_keeps | apply State.modReg_keeps | apply State.setReg_keeps) | (extract_lets +onlyGivenNames x; first | ((refine_lift have hx : Keeps b x := ?_; ?_); all_goals (first | (guard_hyp hx : Keeps b x; clear_value x) | subst x)) | ((refine_lift have hx : Keeps b x.1 := ?_; ?_); all_goals (first | (guard_hyp hx : Keeps b x.1; clear_value x) | subst x)) | clear_value x) | dsimp only | (with_reducible apply Keeps.mk_other))

theorem State.replanDone_keeps {b : State} {s} {x1} (h : Keeps b s) : Keeps b (@State.replanDone s x1) := by
  unfold State.replanDone
  repeat' (first | with_reducible (first | assumption | apply ite_keeps | apply State.replanTile_keeps | apply State.ageSettle_keeps | apply State.exhaust_keeps | apply State.marginRecord_keeps | apply State.ageEvent_keeps | apply State.showTiers_keeps | apply State.decideStep_keeps | apply State.setDtc_keeps | apply State.modAge_keeps | apply State.bump_keeps | apply State.orReg_keeps | apply State.setRegFld_keeps | apply State.setReg_keeps) | (extract_lets +onlyGivenNames x; first | ((refine_lift have hx : Keeps b x := ?_; ?_); all_goals (first | (guard_hyp hx : Keeps b x; clear_value x) | subst x)) | ((refine_lift have hx : Keeps b x.1 := ?_; ?_); all_goals (first | (guard_hyp hx : Keeps b x.1; clear_value x) | subst x)) | clear_value x) | split | (refine foldl_keeps ?_ ?_) | (refine foldl_fst_keeps ?_ ?_) | (intro _ _ _) | dsimp only | (with_reducible apply Keeps.mk_other))

theorem State.alarm_keeps {b : State} {s} {x1 x2} (h : Keeps b s) : Keeps b (@State.alarm s x1 x2) := by
  unfold State.alarm
  repeat' (first | with_reducible (first | assumption | apply State.outstand_keeps | apply State.ageEvent_keeps | apply State.modAge_keeps | apply State.bump_keeps | apply State.orReg_keeps) | (with_reducible apply Keeps.mk_other))

theorem State.replica_keeps {b : State} {s} {x1 x2 x3} (h : Keeps b s) : Keeps b (@State.replica s x1 x2 x3) := by
  unfold State.replica
  repeat' (first | with_reducible (first | assumption | apply ite_keeps | apply State.alarm_keeps | apply State.modAge_keeps | apply State.modReg_keeps) | (extract_lets +onlyGivenNames x; first | ((refine_lift have hx : Keeps b x := ?_; ?_); all_goals (first | (guard_hyp hx : Keeps b x; clear_value x) | subst x)) | clear_value x) | (with_reducible apply Keeps.mk_other))

theorem State.isdFlag_keeps {b : State} {s} {x1} (h : Keeps b s) : Keeps b (@State.isdFlag s x1) := by
  unfold State.isdFlag
  repeat' (first | with_reducible (first | assumption | apply ite_keeps | apply State.alarm_keeps | apply State.modAge_keeps | apply State.bump_keeps) | (extract_lets +onlyGivenNames x; first | ((refine_lift have hx : Keeps b x := ?_; ?_); all_goals (first | (guard_hyp hx : Keeps b x; clear_value x) | subst x)) | clear_value x) | (with_reducible apply Keeps.mk_other))

theorem State.backoff_keeps {b : State} {s} (h : Keeps b s) : Keeps b (@State.backoff s) := by
  unfold State.backoff
  repeat' (first | with_reducible (first | assumption | apply ite_keeps | apply State.showTiers_keeps | apply State.devEvent_keeps | apply State.modAge_keeps | apply State.bump_keeps | apply State.orReg_keeps | apply State.setRegFld_keeps) | (extract_lets +onlyGivenNames x; first | ((refine_lift have hx : Keeps b x := ?_; ?_); all_goals (first | (guard_hyp hx : Keeps b x; clear_value x) | subst x)) | clear_value x) | split | (with_reducible apply Keeps.mk_other))

theorem State.sramMargin_keeps {b : State} {s} {x1 x2} (h : Keeps b s) : Keeps b (@State.sramMargin s x1 x2) := by
  unfold State.sramMargin
  repeat' (first | with_reducible (first | assumption | apply ite_keeps | apply State.logEvent_keeps | apply State.modSafety_keeps | apply State.orReg_keeps | apply State.modReg_keeps) | (extract_lets +onlyGivenNames x; first | ((refine_lift have hx : Keeps b x := ?_; ?_); all_goals (first | (guard_hyp hx : Keeps b x; clear_value x) | subst x)) | clear_value x) | (with_reducible apply Keeps.mk_other))

theorem State.bandChange_keeps {b : State} {s} (h : Keeps b s) : Keeps b (@State.bandChange s) := by
  unfold State.bandChange
  repeat' (first | with_reducible (first | assumption | apply ite_keeps | apply State.ageSettle_keeps | apply State.exhaust_keeps | apply State.showTiers_keeps | apply State.decideStep_keeps | apply State.devEvent_keeps | apply State.modAge_keeps | apply State.setRegFld_keeps) | (extract_lets +onlyGivenNames x; first | ((refine_lift have hx : Keeps b x := ?_; ?_); all_goals (first | (guard_hyp hx : Keeps b x; clear_value x) | subst x)) | clear_value x) | (with_reducible apply Keeps.mk_other))

theorem State.excursion_keeps {b : State} {s} (h : Keeps b s) : Keeps b (@State.excursion s) := by
  unfold State.excursion
  repeat' (first | with_reducible (first | assumption | apply ite_keeps | apply State.outstand_keeps | apply State.ageEvent_keeps | apply State.modAge_keeps | apply State.orReg_keeps | apply State.setRegFld_keeps) | (with_reducible apply Keeps.mk_other))

theorem State.minute_keeps {b : State} {s} (h : Keeps b s) : Keeps b (@State.minute s) := by
  unfold State.minute
  repeat' (first | with_reducible (first | assumption | apply ite_keeps | apply State.bump_keeps | apply State.setReg_keeps) | (extract_lets +onlyGivenNames x; first | ((refine_lift have hx : Keeps b x := ?_; ?_); all_goals (first | (guard_hyp hx : Keeps b x; clear_value x) | subst x)) | clear_value x))

end Sys2Proof.Laws
end

