-- ==== Sys2Proof/Laws/Keeps/HostCore.lean ====
section
/-! SUPPORT. The operations of Machine/HostCore.lean keep the queue, the canonical forms and what has been handed outside. -/

namespace Sys2Proof.Laws

open Sys2Proof.Machine

theorem State.ringAdd_keeps {b : State} {s} {x1 x2} (h : Keeps b s) : Keeps b (@State.ringAdd s x1 x2) := by
  unfold State.ringAdd
  repeat' (first | with_reducible (first | assumption | apply ite_keeps | apply State.modHost_keeps | apply State.modReg_keeps) | (with_reducible apply Keeps.mk_other))

theorem State.ringFail_keeps {b : State} {s} {x1 x2} (h : Keeps b s) : Keeps b (@State.ringFail s x1 x2) := by
  unfold State.ringFail
  repeat' (first | with_reducible (first | assumption | apply ite_keeps | apply State.notice_keeps | apply State.orReg_keeps | apply State.setRegFld_keeps) | (extract_lets +onlyGivenNames x; first | ((refine_lift have hx : Keeps b x := ?_; ?_); all_goals (first | (guard_hyp hx : Keeps b x; clear_value x) | subst x)) | clear_value x))

theorem State.cmdDone_keeps {b : State} {s} {x1 x2 x3 x4} (h : Keeps b s) : Keeps b (@State.cmdDone s x1 x2 x3 x4) := by
  unfold State.cmdDone
  repeat' (first | with_reducible (first | assumption | apply ite_keeps | apply State.pushRec_keeps) | (with_reducible apply Keeps.mk_other))

theorem State.cmdTake_keeps {b : State} {s} {x1} (h : Keeps b s) : Keeps b (@State.cmdTake s x1).1 := by
  unfold State.cmdTake
  repeat' (first | with_reducible (first | assumption | apply State.ringAdd_keeps | apply State.modHost_keeps | apply State.modReg_keeps) | (extract_lets +onlyGivenNames x; first | ((refine_lift have hx : Keeps b x := ?_; ?_); all_goals (first | (guard_hyp hx : Keeps b x; clear_value x) | subst x)) | ((refine_lift have hx : Keeps b x.1 := ?_; ?_); all_goals (first | (guard_hyp hx : Keeps b x.1; clear_value x) | subst x)) | clear_value x) | dsimp only | (with_reducible apply Keeps.mk_other))

theorem State.cmdRefuse_keeps {b : State} {s} {x1 x2} (h : Keeps b s) : Keeps b (@State.cmdRefuse s x1 x2) := by
  unfold State.cmdRefuse
  repeat' (first | with_reducible (first | assumption | apply State.cmdTake_keeps | apply State.cmdDone_keeps) | (extract_lets +onlyGivenNames x; first | ((refine_lift have hx : Keeps b x := ?_; ?_); all_goals (first | (guard_hyp hx : Keeps b x; clear_value x) | subst x)) | ((refine_lift have hx : Keeps b x.1 := ?_; ?_); all_goals (first | (guard_hyp hx : Keeps b x.1; clear_value x) | subst x)) | clear_value x) | dsimp only)

theorem State.modStream_keeps {b : State} {s} {x1 x2} (h : Keeps b s) : Keeps b (@State.modStream s x1 x2) := by
  unfold State.modStream
  repeat' (first | with_reducible (first | assumption | apply ite_keeps | apply State.modHost_keeps) | (with_reducible apply Keeps.mk_other))

theorem State.descDone_keeps {b : State} {s} {x1 x2 x3 x4} (h : Keeps b s) : Keeps b (@State.descDone s x1 x2 x3 x4) := by
  unfold State.descDone
  repeat' (first | with_reducible (first | assumption | apply ite_keeps | apply State.modStream_keeps | apply State.ringAdd_keeps | apply State.pushRec_keeps) | (extract_lets +onlyGivenNames x; first | ((refine_lift have hx : Keeps b x := ?_; ?_); all_goals (first | (guard_hyp hx : Keeps b x; clear_value x) | subst x)) | clear_value x) | (with_reducible apply Keeps.mk_other))

theorem State.h2dDone_keeps {b : State} {s} {x1 x2} (h : Keeps b s) : Keeps b (@State.h2dDone s x1 x2) := by
  unfold State.h2dDone
  repeat' with_reducible (first | assumption | apply ite_keeps | apply State.descDone_keeps)

theorem State.h2dArea_keeps {b : State} {s} {x1 x2} (h : Keeps b s) : Keeps b (@State.h2dArea s x1 x2) := by
  unfold State.h2dArea
  repeat' (first | with_reducible (first | assumption | apply ite_keeps | apply State.h2dDone_keeps | apply State.modStream_keeps | apply State.forwardOut_keeps | apply State.notice_keeps | apply State.memWrite_keeps | apply State.bump_keeps) | (extract_lets +onlyGivenNames x; first | ((refine_lift have hx : Keeps b x := ?_; ?_); all_goals (first | (guard_hyp hx : Keeps b x; clear_value x) | subst x)) | ((refine_lift have hx : Keeps b x.1 := ?_; ?_); all_goals (first | (guard_hyp hx : Keeps b x.1; clear_value x) | subst x)) | ((refine_lift have hx : State → _ := x; ?_); clear hx; subst x) | clear_value x) | split | (refine foldl_keeps ?_ ?_) | (refine foldl_fst_keeps ?_ ?_) | (intro _ _ _) | dsimp only | (with_reducible apply Keeps.mk_other))

theorem State.h2dWrite_keeps {b : State} {s} {x1 x2} (h : Keeps b s) : Keeps b (@State.h2dWrite s x1 x2) := by
  unfold State.h2dWrite
  repeat' (first | with_reducible (first | assumption | apply State.h2dArea_keeps) | (refine foldl_keeps ?_ ?_) | (intro _ _ _))

theorem State.descAdd_keeps {b : State} {s} {x1 x2} (h : Keeps b s) : Keeps b (@State.descAdd s x1 x2) := by
  unfold State.descAdd
  repeat' (first | with_reducible (first | assumption | apply ite_keeps | apply State.h2dDone_keeps | apply State.descDone_keeps | apply State.modStream_keeps) | (extract_lets +onlyGivenNames x; first | ((refine_lift have hx : Keeps b x := ?_; ?_); all_goals (first | (guard_hyp hx : Keeps b x; clear_value x) | subst x)) | clear_value x) | (with_reducible apply Keeps.mk_other))

theorem State.h2dFetch_keeps {b : State} {s} {x1 x2} (h : Keeps b s) : Keeps b (@State.h2dFetch s x1 x2) := by
  unfold State.h2dFetch
  repeat' (first | with_reducible (first | assumption | apply ite_keeps | apply State.descDone_keeps | apply State.modStream_keeps | apply State.emit_keeps | apply State.orReg_keeps) | (extract_lets +onlyGivenNames x; first | ((refine_lift have hx : Keeps b x := ?_; ?_); all_goals (first | (guard_hyp hx : Keeps b x; clear_value x) | subst x)) | clear_value x) | split | (with_reducible apply Keeps.mk_other))

theorem State.d2hDone_keeps {b : State} {s} {x1 x2} (h : Keeps b s) : Keeps b (@State.d2hDone s x1 x2) := by
  unfold State.d2hDone
  repeat' with_reducible (first | assumption | apply ite_keeps | apply State.descDone_keeps)

theorem State.d2hStage_keeps {b : State} {s} {x1} (h : Keeps b s) : Keeps b (@State.d2hStage s x1) := by
  unfold State.d2hStage
  repeat' (first | with_reducible (first | assumption | apply ite_keeps | apply State.modStream_keeps | apply State.notice_keeps | apply State.eccReadRange_keeps | apply State.bump_keeps) | (extract_lets +onlyGivenNames x; first | ((refine_lift have hx : Keeps b x := ?_; ?_); all_goals (first | (guard_hyp hx : Keeps b x; clear_value x) | subst x)) | clear_value x) | (refine foldl_keeps ?_ ?_) | (intro _ _ _) | (with_reducible apply Keeps.mk_other))

theorem State.closeEnd_keeps {b : State} {s} {x1} (h : Keeps b s) : Keeps b (@State.closeEnd s x1) := by
  unfold State.closeEnd
  repeat' (first | with_reducible (first | assumption | apply ite_keeps | apply State.d2hDone_keeps | apply State.descDone_keeps | apply State.modHost_keeps | apply State.setRegFld_keeps) | (extract_lets +onlyGivenNames x; first | ((refine_lift have hx : Keeps b x := ?_; ?_); all_goals (first | (guard_hyp hx : Keeps b x; clear_value x) | subst x)) | clear_value x) | (refine foldl_keeps ?_ ?_) | (intro _ _ _) | (with_reducible apply Keeps.mk_other))

theorem State.closeDue_keeps {b : State} {s} {x1} (h : Keeps b s) : Keeps b (@State.closeDue s x1) := by
  unfold State.closeDue
  repeat' (first | with_reducible (first | assumption | apply ite_keeps | apply State.closeEnd_keeps) | (extract_lets +onlyGivenNames x; first | ((refine_lift have hx : Keeps b x := ?_; ?_); all_goals (first | (guard_hyp hx : Keeps b x; clear_value x) | subst x)) | clear_value x) | split)

theorem State.d2hWrite_keeps {b : State} {s} {x1} (h : Keeps b s) : Keeps b (@State.d2hWrite s x1) := by
  unfold State.d2hWrite
  repeat' (first | with_reducible (first | assumption | apply ite_keeps | apply State.closeDue_keeps | apply State.d2hDone_keeps | apply State.modStream_keeps | apply State.emit_keeps) | (extract_lets +onlyGivenNames x; first | ((refine_lift have hx : Keeps b x := ?_; ?_); all_goals (first | (guard_hyp hx : Keeps b x; clear_value x) | subst x)) | clear_value x) | split | (with_reducible apply Keeps.mk_other))

end Sys2Proof.Laws
end

