-- ==== Sys2Proof/Laws/Keeps/NetCore.lean ====
section
/-! SUPPORT. The operations of Machine/NetCore.lean keep the queue, the canonical forms and what has been handed outside. -/

namespace Sys2Proof.Laws

open Sys2Proof.Machine

theorem State.publishSlots_keeps {b s : State} (h : Keeps b s) : Keeps b s.publishSlots := by
  unfold State.publishSlots
  with_reducible apply State.modNet_keeps
  rw [List.foldr_eq_foldl_reverse]
  refine foldl_keeps (fun s e hs => State.putSlot_keeps hs) (foldl_keeps (fun s e hs => ite_keeps hs ?_) h)
  have h1 := State.putSlot_keeps (x1 := e.1) (x2 := { e.2 with changed := false }) (State.memWrite_keeps (x1 := slotAddr e.1) (x2 := e.2.bytes s.blk) (x3 := 2) hs)
  exact ite_keeps (State.devEvent_keeps h1) h1

theorem State.publishSupply_keeps {b : State} {s} (h : Keeps b s) : Keeps b (@State.publishSupply s) := by
  unfold State.publishSupply
  repeat' (first | with_reducible (first | assumption | apply ite_keeps | apply State.setSlot_keeps | apply State.modPower_keeps) | (extract_lets +onlyGivenNames x; first | ((refine_lift have hx : Keeps b x := ?_; ?_); all_goals (first | (guard_hyp hx : Keeps b x; clear_value x) | subst x)) | ((refine_lift have hx : Keeps b x.1 := ?_; ?_); all_goals (first | (guard_hyp hx : Keeps b x.1; clear_value x) | subst x)) | clear_value x) | split | (with_reducible apply Keeps.mk_other))

theorem State.evalMotion_keeps {b : State} {s} (h : Keeps b s) : Keeps b (@State.evalMotion s) := by
  unfold State.evalMotion
  repeat' (first | with_reducible (first | assumption | apply ite_keeps | apply State.modNet_keeps) | (extract_lets +onlyGivenNames x; first | ((refine_lift have hx : Keeps b x := ?_; ?_); all_goals (first | (guard_hyp hx : Keeps b x; clear_value x) | subst x)) | ((refine_lift have hx : Keeps b x.1 := ?_; ?_); all_goals (first | (guard_hyp hx : Keeps b x.1; clear_value x) | subst x)) | clear_value x) | dsimp only | (with_reducible apply Keeps.mk_other))

theorem State.canErr_keeps {b : State} {s} {x1 x2} (h : Keeps b s) : Keeps b (@State.canErr s x1 x2) := by
  unfold State.canErr
  repeat' with_reducible (first | assumption | apply State.orRegEvent_keeps)

theorem State.sigRx_keeps {b : State} {s} {x1 x2 x3 x4} (h : Keeps b s) : Keeps b (@State.sigRx s x1 x2 x3 x4) := by
  unfold State.sigRx
  repeat' (first | with_reducible (first | assumption | apply ite_keeps | apply State.canErr_keeps | apply State.setSlot_keeps | apply State.modNet_keeps | apply State.bump_keeps) | (extract_lets +onlyGivenNames x; first | ((refine_lift have hx : Keeps b x := ?_; ?_); all_goals (first | (guard_hyp hx : Keeps b x; clear_value x) | subst x)) | ((refine_lift have hx : Keeps b x.1 := ?_; ?_); all_goals (first | (guard_hyp hx : Keeps b x.1; clear_value x) | subst x)) | clear_value x) | split | dsimp only | (with_reducible apply Keeps.mk_other))

theorem State.canRx_keeps {b : State} {s} {x1 x2 x3} (h : Keeps b s) : Keeps b (@State.canRx s x1 x2 x3) := by
  unfold State.canRx
  repeat' (first | with_reducible (first | assumption | apply ite_keeps | apply State.sigRx_keeps | apply State.modPower_keeps | apply State.bump_keeps) | (extract_lets +onlyGivenNames x; first | ((refine_lift have hx : Keeps b x := ?_; ?_); all_goals (first | (guard_hyp hx : Keeps b x; clear_value x) | subst x)) | ((refine_lift have hx : Keeps b x.1 := ?_; ?_); all_goals (first | (guard_hyp hx : Keeps b x.1; clear_value x) | subst x)) | clear_value x) | split | (refine foldl_keeps ?_ ?_) | (refine foldl_fst_keeps ?_ ?_) | (intro _ _ _) | dsimp only | (with_reducible apply Keeps.mk_other))

theorem State.sigTimeout_keeps {b : State} {s} {x1} (h : Keeps b s) : Keeps b (@State.sigTimeout s x1) := by
  unfold State.sigTimeout
  repeat' (first | with_reducible (first | assumption | apply ite_keeps | apply State.canErr_keeps | apply State.setSlot_keeps | apply State.modNet_keeps | apply State.setDtc_keeps) | (extract_lets +onlyGivenNames x; first | ((refine_lift have hx : Keeps b x := ?_; ?_); all_goals (first | (guard_hyp hx : Keeps b x; clear_value x) | subst x)) | clear_value x) | split | (with_reducible apply Keeps.mk_other))

theorem State.busOff_keeps {b : State} {s} {x1} (h : Keeps b s) : Keeps b (@State.busOff s x1) := by
  unfold State.busOff
  repeat' with_reducible (first | assumption | apply ite_keeps | apply State.canErr_keeps | apply State.setDtc_keeps | apply State.bump_keeps | apply State.setReg_keeps)

theorem State.busBack_keeps {b : State} {s} {x1} (h : Keeps b s) : Keeps b (@State.busBack s x1) := by
  unfold State.busBack
  repeat' with_reducible (first | assumption | apply ite_keeps | apply State.setReg_keeps)

theorem State.canCounts_keeps {b : State} {s} {x1 x2 x3} (h : Keeps b s) : Keeps b (@State.canCounts s x1 x2 x3) := by
  unfold State.canCounts
  repeat' (first | with_reducible (first | assumption | apply ite_keeps | apply State.canErr_keeps | apply State.setRegFld_keeps | apply State.setReg_keeps) | (extract_lets +onlyGivenNames x; first | ((refine_lift have hx : Keeps b x := ?_; ?_); all_goals (first | (guard_hyp hx : Keeps b x; clear_value x) | subst x)) | clear_value x))

theorem State.ethErr_keeps {b : State} {s} {x1 x2} (h : Keeps b s) : Keeps b (@State.ethErr s x1 x2) := by
  unfold State.ethErr
  repeat' with_reducible (first | assumption | apply State.orRegEvent_keeps)

theorem State.ethRx_keeps {b : State} {s} {x1 x2} (h : Keeps b s) : Keeps b (@State.ethRx s x1 x2) := by
  unfold State.ethRx
  repeat' (first | with_reducible (first | assumption | apply ite_keeps | apply State.ethErr_keeps | apply State.bump_keeps) | (extract_lets +onlyGivenNames x; first | ((refine_lift have hx : Keeps b x := ?_; ?_); all_goals (first | (guard_hyp hx : Keeps b x; clear_value x) | subst x)) | ((refine_lift have hx : State → _ := x; ?_); clear hx; subst x) | clear_value x) | split)

theorem State.ethTx_keeps {b : State} {s} {x1 x2 x3} (h : Keeps b s) : Keeps b (@State.ethTx s x1 x2 x3) := by
  unfold State.ethTx
  repeat' (first | with_reducible (first | assumption | apply ite_keeps | apply State.modNet_keeps | apply State.emit_keeps | apply State.bump_keeps) | (extract_lets +onlyGivenNames x; first | ((refine_lift have hx : Keeps b x := ?_; ?_); all_goals (first | (guard_hyp hx : Keeps b x; clear_value x) | subst x)) | clear_value x) | split | (refine foldl_keeps ?_ ?_) | (intro _ _ _) | (with_reducible apply Keeps.mk_other))

theorem State.gateChange_keeps {b : State} {s} {x1 x2} (h : Keeps b s) : Keeps b (@State.gateChange s x1 x2) := by
  unfold State.gateChange
  repeat' (first | with_reducible (first | assumption | apply ite_keeps | apply State.modNet_keeps | apply State.setReg_keeps) | (extract_lets +onlyGivenNames x; first | ((refine_lift have hx : Keeps b x := ?_; ?_); all_goals (first | (guard_hyp hx : Keeps b x; clear_value x) | subst x)) | clear_value x) | split | (with_reducible apply Keeps.mk_other))

theorem State.putShaping_keeps {b : State} {s} {x1} (h : Keeps b s) : Keeps b (@State.putShaping s x1) := by
  unfold State.putShaping
  repeat' (first | with_reducible (first | assumption | apply ite_keeps | apply State.modNet_keeps | apply State.setReg_keeps) | (refine foldl_keeps ?_ ?_) | (intro _ _ _) | (with_reducible apply Keeps.mk_other))

theorem State.ethLink_keeps {b : State} {s} {x1 x2 x3} (h : Keeps b s) : Keeps b (@State.ethLink s x1 x2 x3) := by
  unfold State.ethLink
  repeat' with_reducible (first | assumption | apply ite_keeps | apply State.setReg_keeps)

theorem State.modPtp_keeps {b : State} {s} {x1 x2} (h : Keeps b s) : Keeps b (@State.modPtp s x1 x2) := by
  unfold State.modPtp
  repeat' (first | with_reducible (first | assumption | apply State.modNet_keeps) | (with_reducible apply Keeps.mk_other))

theorem State.ptpLose_keeps {b : State} {s} {x1} (h : Keeps b s) : Keeps b (@State.ptpLose s x1) := by
  unfold State.ptpLose
  repeat' (first | with_reducible (first | assumption | apply ite_keeps | apply State.modPtp_keeps | apply State.ethErr_keeps | apply State.setRegFld_keeps) | (with_reducible apply Keeps.mk_other))

theorem State.ptpSync_keeps {b : State} {s} {x1 x2} (h : Keeps b s) : Keeps b (@State.ptpSync s x1 x2) := by
  unfold State.ptpSync
  repeat' (first | with_reducible (first | assumption | apply ite_keeps | apply State.ptpLose_keeps | apply State.modPtp_keeps | apply State.bump_keeps | apply State.setRegFld_keeps | apply State.setReg_keeps) | (extract_lets +onlyGivenNames x; first | ((refine_lift have hx : Keeps b x := ?_; ?_); all_goals (first | (guard_hyp hx : Keeps b x; clear_value x) | subst x)) | clear_value x) | (with_reducible apply Keeps.mk_other))

theorem State.ptpInterval_keeps {b : State} {s} {x1} (h : Keeps b s) : Keeps b (@State.ptpInterval s x1) := by
  unfold State.ptpInterval
  repeat' (first | with_reducible (first | assumption | apply ite_keeps | apply State.ptpLose_keeps | apply State.modPtp_keeps | apply State.bump_keeps | apply State.setRegFld_keeps) | (extract_lets +onlyGivenNames x; first | ((refine_lift have hx : Keeps b x := ?_; ?_); all_goals (first | (guard_hyp hx : Keeps b x; clear_value x) | subst x)) | clear_value x) | (with_reducible apply Keeps.mk_other))

theorem State.ptpSend_keeps {b : State} {s} {x1 x2} (h : Keeps b s) : Keeps b (@State.ptpSend s x1 x2) := by
  unfold State.ptpSend
  repeat' (first | with_reducible (first | assumption | apply ite_keeps | apply State.modNet_keeps | apply State.bump_keeps) | (extract_lets +onlyGivenNames x; first | ((refine_lift have hx : Keeps b x := ?_; ?_); all_goals (first | (guard_hyp hx : Keeps b x; clear_value x) | subst x)) | clear_value x) | (with_reducible apply Keeps.mk_other))

theorem State.ptpDelay_keeps {b : State} {s} {x1 x2} (h : Keeps b s) : Keeps b (@State.ptpDelay s x1 x2) := by
  unfold State.ptpDelay
  repeat' (first | with_reducible (first | assumption | apply State.bump_keeps | apply State.setRegFld_keeps | apply State.setReg_keeps) | split)

theorem State.ptpLatch_keeps {b : State} {s} {x1} (h : Keeps b s) : Keeps b (@State.ptpLatch s x1) := by
  unfold State.ptpLatch
  repeat' (first | with_reducible (first | assumption | apply State.setReg_keeps) | (refine foldl_keeps ?_ ?_) | (intro _ _ _))

theorem State.ptpDtc_keeps {b : State} {s} (h : Keeps b s) : Keeps b (@State.ptpDtc s) := by
  unfold State.ptpDtc
  repeat' (first | with_reducible (first | assumption | apply ite_keeps | apply State.setDtc_keeps) | split | (with_reducible apply Keeps.mk_other))

end Sys2Proof.Laws
end

