-- ==== Sys2Proof/Laws/Keeps/LinkCore.lean ====
section
/-! SUPPORT. The operations of Machine/LinkCore.lean keep the queue, the canonical forms and what has been handed outside. -/

namespace Sys2Proof.Laws

open Sys2Proof.Machine

theorem State.reqsFail_keeps {b : State} {s} (h : Keeps b s) : Keeps b (@State.reqsFail s) := by
  unfold State.reqsFail
  repeat' (first | with_reducible (first | assumption | apply State.modLk_keeps | apply State.emit_keeps | apply State.modTile_keeps | apply State.orReg_keeps) | (extract_lets +onlyGivenNames x; first | ((refine_lift have hx : Keeps b x := ?_; ?_); all_goals (first | (guard_hyp hx : Keeps b x; clear_value x) | subst x)) | clear_value x) | split | (refine foldl_keeps ?_ ?_) | (intro _ _ _) | (with_reducible apply Keeps.mk_other))

theorem State.putLanes_keeps {b : State} {s} {x1} (h : Keeps b s) : Keeps b (@State.putLanes s x1) := by
  unfold State.putLanes
  repeat' (first | with_reducible (first | assumption | apply ite_keeps | apply State.setRegFld_keeps | apply State.setReg_keeps) | (refine foldl_keeps ?_ ?_) | (intro _ _ _))

theorem State.laneTrained_keeps {b : State} {s} (h : Keeps b s) : Keeps b (@State.laneTrained s) := by
  unfold State.laneTrained
  repeat' (first | with_reducible (first | assumption | apply ite_keeps | apply State.setReg_keeps) | (refine foldl_keeps ?_ ?_) | (intro _ _ _))

theorem State.setLst_keeps {b : State} {s} {x1} (h : Keeps b s) : Keeps b (@State.setLst s x1) := by
  unfold State.setLst
  repeat' (first | with_reducible (first | assumption | apply ite_keeps | apply State.putLanes_keeps | apply State.reqsFail_keeps | apply State.setRegFld_keeps) | (extract_lets +onlyGivenNames x; first | ((refine_lift have hx : Keeps b x := ?_; ?_); all_goals (first | (guard_hyp hx : Keeps b x; clear_value x) | subst x)) | clear_value x))

theorem State.lkErrs_keeps {b : State} {s} {x1} (h : Keeps b s) : Keeps b (@State.lkErrs s x1) := by
  unfold State.lkErrs
  repeat' with_reducible (first | assumption | apply State.orRegEvent_keeps)

theorem State.setAllOwn_keeps {b : State} {s} {x1} (h : Keeps b s) : Keeps b (@State.setAllOwn s x1) := by
  unfold State.setAllOwn
  repeat' with_reducible (first | assumption | apply State.setRegFld_keeps)

theorem State.pairStart_keeps {b : State} {s} (h : Keeps b s) : Keeps b (@State.pairStart s) := by
  unfold State.pairStart
  repeat' (first | with_reducible (first | assumption | apply ite_keeps | apply State.setAllOwn_keeps | apply State.setLst_keeps | apply State.setPst_keeps | apply State.setRegFld_keeps) | (extract_lets +onlyGivenNames x; first | ((refine_lift have hx : Keeps b x := ?_; ?_); all_goals (first | (guard_hyp hx : Keeps b x; clear_value x) | subst x)) | clear_value x))

theorem State.putPair_keeps {b : State} {s} {x1} (h : Keeps b s) : Keeps b (@State.putPair s x1) := by
  unfold State.putPair
  repeat' (first | with_reducible (first | assumption | apply ite_keeps | apply State.setAllOwn_keeps | apply State.setPst_keeps | apply State.setRegFld_keeps) | (extract_lets +onlyGivenNames x; first | ((refine_lift have hx : Keeps b x := ?_; ?_); all_goals (first | (guard_hyp hx : Keeps b x; clear_value x) | subst x)) | clear_value x))

end Sys2Proof.Laws
end

