-- ==== Sys2Proof/Laws/Keeps/SysCmds.lean ====
section
/-! SUPPORT. The operations of Machine/SysCmds.lean keep the queue, the canonical forms and what has been handed outside. -/

namespace Sys2Proof.Laws

open Sys2Proof.Machine

theorem State.whenUp_keeps {b s : State} {f : State → State} (hf : ∀ s, Keeps b s → Keeps b (f s)) (h : Keeps b s) :
    Keeps b (s.whenUp f) := ite_keeps (hf s h) h

theorem State.resetDue_keeps {b : State} {s} (h : Keeps b s) : Keeps b (@State.resetDue s) := by
  unfold State.resetDue
  repeat' (first | with_reducible (first | assumption | apply ite_keeps | apply State.deviceReset_keeps) | split)

theorem State.flushEvent_keeps {b : State} {s} (h : Keeps b s) : Keeps b (@State.flushEvent s) := by
  unfold State.flushEvent
  repeat' (first | with_reducible (first | assumption | apply ite_keeps | apply State.writeEvent_keeps | apply State.modSafety_keeps) | split | (with_reducible apply Keeps.mk_other))

end Sys2Proof.Laws
end

