-- ==== Sys2Proof/Laws/Keeps/Verify.lean ====
section
/-! SUPPORT. The operations of Machine/Verify.lean keep the queue, the canonical forms and what has been handed outside. -/

namespace Sys2Proof.Laws

open Sys2Proof.Machine

theorem State.keyRead_keeps {b : State} {s} {x1} (h : Keeps b s) : Keeps b (@State.keyRead s x1) := by
  unfold State.keyRead
  repeat' with_reducible (first | assumption | apply State.fwRead_keeps)

theorem State.planKeyRead_keeps {b : State} {s} (h : Keeps b s) : Keeps b (@State.planKeyRead s) := by
  unfold State.planKeyRead
  repeat' (first | with_reducible (first | assumption | apply State.keyRead_keeps) | split)

end Sys2Proof.Laws
end

