-- ==== Sys2Proof/Laws/Keeps/Timing.lean ====
section
/-! SUPPORT. The operations of Machine/Timing.lean keep the queue, the canonical forms and what has been handed outside. -/

namespace Sys2Proof.Laws

open Sys2Proof.Machine

theorem State.putSome_keeps {b : State} {s} {x1 x2 x3 x4} (h : Keeps b s) : Keeps b (@State.putSome s x1 x2 x3 x4) := by
  unfold State.putSome
  repeat' (first | with_reducible (first | assumption | apply State.putSection_keeps) | split | (refine foldl_keeps ?_ ?_) | (intro _ _ _))

theorem State.underPlan_keeps {b : State} {s} {x1} (h : Keeps b s) : Keeps b (@State.underPlan s x1) := by
  unfold State.underPlan
  repeat' (first | with_reducible (first | assumption | apply State.modSched_keeps) | (with_reducible apply Keeps.mk_other))

theorem State.putTiers_keeps {b : State} {s} {x1} (h : Keeps b s) : Keeps b (@State.putTiers s x1) := by
  unfold State.putTiers
  repeat' (first | with_reducible (first | assumption | apply ite_keeps | apply State.modTile_keeps) | (extract_lets +onlyGivenNames x; first | ((refine_lift have hx : Keeps b x := ?_; ?_); all_goals (first | (guard_hyp hx : Keeps b x; clear_value x) | subst x)) | clear_value x) | (refine foldl_keeps ?_ ?_) | (intro _ _ _) | (with_reducible apply Keeps.mk_other))

theorem State.replaceStop_keeps {b : State} {s} (h : Keeps b s) : Keeps b (@State.replaceStop s) := by
  unfold State.replaceStop
  repeat' (first | with_reducible (first | assumption | apply ite_keeps | apply State.modSafety_keeps | apply State.modSched_keeps) | (extract_lets +onlyGivenNames x; first | ((refine_lift have hx : Keeps b x := ?_; ?_); all_goals (first | (guard_hyp hx : Keeps b x; clear_value x) | subst x)) | clear_value x) | split | (with_reducible apply Keeps.mk_other))

theorem State.progStart_keeps {b : State} {s} (h : Keeps b s) : Keeps b (@State.progStart s) := by
  unfold State.progStart
  repeat' (first | with_reducible (first | assumption | apply ite_keeps | apply State.modSafety_keeps) | (extract_lets +onlyGivenNames x; first | ((refine_lift have hx : Keeps b x := ?_; ?_); all_goals (first | (guard_hyp hx : Keeps b x; clear_value x) | subst x)) | clear_value x) | (with_reducible apply Keeps.mk_other))

theorem State.tileTicks_keeps {b : State} {s} (h : Keeps b s) : Keeps b (@State.tileTicks s) := by
  unfold State.tileTicks
  repeat' (first | with_reducible (first | assumption | apply ite_keeps) | (extract_lets +onlyGivenNames x; first | ((refine_lift have hx : Keeps b x := ?_; ?_); all_goals (first | (guard_hyp hx : Keeps b x; clear_value x) | subst x)) | clear_value x) | (with_reducible apply Keeps.mk_other))

theorem State.mirrorOut_keeps {b : State} {s} (h : Keeps b s) : Keeps b (@State.mirrorOut s) := by
  unfold State.mirrorOut
  repeat' (first | with_reducible (first | assumption | apply ite_keeps | apply State.emit_keeps) | split | (refine foldl_keeps ?_ ?_) | (refine foldl_fst_keeps ?_ ?_) | (intro _ _ _) | dsimp only)

theorem State.mirrorDrained_keeps {b : State} {s} (h : Keeps b s) : Keeps b (@State.mirrorDrained s) := by
  unfold State.mirrorDrained
  repeat' (first | with_reducible (first | assumption | apply ite_keeps | apply State.emit_keeps) | (refine foldl_keeps ?_ ?_) | (refine foldl_fst_keeps ?_ ?_) | (intro _ _ _) | dsimp only)

theorem State.blockTick_keeps {b : State} {s} (h : Keeps b s) : Keeps b (@State.blockTick s) := by
  unfold State.blockTick
  repeat' (first | with_reducible (first | assumption | apply ite_keeps | apply State.mirrorDrained_keeps | apply State.tileTicks_keeps | apply State.progStart_keeps | apply State.replaceStop_keeps | apply State.ageSettle_keeps | apply State.deepHold_keeps | apply State.vidFall_keeps | apply State.ptpLatch_keeps | apply State.evalMotion_keeps | apply State.publishSupply_keeps | apply State.publishSlots_keeps | apply State.audioBlock_keeps | apply State.ceTick_keeps | apply State.modSafety_keeps | apply State.modSched_keeps | apply State.report_keeps) | (extract_lets +onlyGivenNames x; first | ((refine_lift have hx : Keeps b x := ?_; ?_); all_goals (first | (guard_hyp hx : Keeps b x; clear_value x) | subst x)) | clear_value x) | (with_reducible apply Keeps.mk_other))

theorem State.lkTick_keeps {b : State} {s} (h : Keeps b s) : Keeps b (@State.lkTick s) := by
  unfold State.lkTick
  repeat' (first | with_reducible (first | assumption | apply ite_keeps | apply State.emit_keeps) | (extract_lets +onlyGivenNames x; first | ((refine_lift have hx : Keeps b x := ?_; ?_); all_goals (first | (guard_hyp hx : Keeps b x; clear_value x) | subst x)) | clear_value x) | (with_reducible apply Keeps.mk_other))

theorem State.fastTicks_keeps {b : State} {s} (h : Keeps b s) : Keeps b (@State.fastTicks s) := by
  unfold State.fastTicks
  repeat' (first | with_reducible (first | assumption | apply ite_keeps) | (with_reducible apply Keeps.mk_other))

theorem State.flFirst_keeps {b : State} {s} (h : Keeps b s) : Keeps b (@State.flFirst s) := by
  unfold State.flFirst
  repeat' (first | with_reducible (first | assumption | apply ite_keeps | apply State.modSched_keeps) | (with_reducible apply Keeps.mk_other))

theorem State.sampleTick_keeps {b : State} {s} {x1} (h : Keeps b s) : Keeps b (@State.sampleTick s x1) := by
  unfold State.sampleTick
  repeat' (first | with_reducible (first | assumption | apply ite_keeps | apply State.flFirst_keeps | apply State.fastTicks_keeps | apply State.lkTick_keeps | apply State.blockTick_keeps | apply State.resetDue_keeps | apply State.aonSteer_keeps | apply State.ballastTick_keeps | apply State.safeTick_keeps | apply State.ptpDtc_keeps | apply State.trigger_keeps | apply State.audioTick_keeps | apply State.modPower_keeps | apply State.modSafety_keeps | apply State.modSched_keeps) | (extract_lets +onlyGivenNames x; first | ((refine_lift have hx : Keeps b x := ?_; ?_); all_goals (first | (guard_hyp hx : Keeps b x; clear_value x) | subst x)) | clear_value x) | (with_reducible apply Keeps.mk_other))

theorem State.overruns_keeps {b : State} {s} (h : Keeps b s) : Keeps b (@State.overruns s) := by
  unfold State.overruns
  repeat' (first | with_reducible (first | assumption | apply ite_keeps | apply State.report_keeps | apply State.modReg_keeps) | (extract_lets +onlyGivenNames x; first | ((refine_lift have hx : Keeps b x := ?_; ?_); all_goals (first | (guard_hyp hx : Keeps b x; clear_value x) | subst x)) | clear_value x) | (refine foldl_keeps ?_ ?_) | (intro _ _ _))

theorem State.drainStart_keeps {b : State} {s} (h : Keeps b s) : Keeps b (@State.drainStart s) := by
  unfold State.drainStart
  repeat' (first | with_reducible (first | assumption | apply ite_keeps | apply State.overruns_keeps | apply State.mirrorOut_keeps | apply State.readAreas_keeps | apply State.d2hStage_keeps | apply State.trigger_keeps | apply State.zeroOut_keeps | apply State.modSched_keeps) | (with_reducible apply Keeps.mk_other))

theorem State.putParam_keeps {b : State} {s} {x1 x2 x3} (h : Keeps b s) : Keeps b (@State.putParam s x1 x2 x3) := by
  unfold State.putParam
  repeat' (first | with_reducible (first | assumption | apply ite_keeps | apply State.modSched_keeps | apply State.memWrite_keeps) | (extract_lets +onlyGivenNames x; first | ((refine_lift have hx : Keeps b x := ?_; ?_); all_goals (first | (guard_hyp hx : Keeps b x; clear_value x) | subst x)) | clear_value x) | split | (with_reducible apply Keeps.mk_other))

theorem State.putParams_keeps {b : State} {s} {x1} (h : Keeps b s) : Keeps b (@State.putParams s x1) := by
  unfold State.putParams
  repeat' (first | with_reducible (first | assumption | apply ite_keeps | apply State.putParam_keeps) | split | (refine foldl_keeps ?_ ?_) | (intro _ _ _))

theorem State.handover_keeps {b : State} {s} {x1} (h : Keeps b s) : Keeps b (@State.handover s x1) := by
  unfold State.handover
  repeat' (first | with_reducible (first | assumption | apply State.memWrite_keeps | apply State.eccReadRange_keeps) | (extract_lets +onlyGivenNames x; first | ((refine_lift have hx : Keeps b x := ?_; ?_); all_goals (first | (guard_hyp hx : Keeps b x; clear_value x) | subst x)) | ((refine_lift have hx : Keeps b x.1 := ?_; ?_); all_goals (first | (guard_hyp hx : Keeps b x.1; clear_value x) | subst x)) | clear_value x) | dsimp only)

theorem State.windowStart_keeps {b : State} {s} (h : Keeps b s) : Keeps b (@State.windowStart s) := by
  unfold State.windowStart
  repeat' (first | with_reducible (first | assumption | apply ite_keeps | apply State.handover_keeps | apply State.putParams_keeps | apply State.underPlan_keeps | apply State.putSome_keeps | apply State.h2dWrite_keeps | apply State.modSched_keeps) | (extract_lets +onlyGivenNames x; first | ((refine_lift have hx : Keeps b x := ?_; ?_); all_goals (first | (guard_hyp hx : Keeps b x; clear_value x) | subst x)) | ((refine_lift have hx : Keeps b x.1 := ?_; ?_); all_goals (first | (guard_hyp hx : Keeps b x.1; clear_value x) | subst x)) | clear_value x) | split | (refine foldl_keeps ?_ ?_) | (refine foldl_fst_keeps ?_ ?_) | (intro _ _ _) | dsimp only | (with_reducible apply Keeps.mk_other))

theorem State.windowRoles_keeps {b : State} {s} (h : Keeps b s) : Keeps b (@State.windowRoles s) := by
  unfold State.windowRoles
  repeat' (first | with_reducible (first | assumption | apply ite_keeps | apply State.rewriteRoles_keeps | apply State.modSched_keeps) | (extract_lets +onlyGivenNames x; first | ((refine_lift have hx : Keeps b x := ?_; ?_); all_goals (first | (guard_hyp hx : Keeps b x; clear_value x) | subst x)) | clear_value x) | split | (with_reducible apply Keeps.mk_other))

theorem State.ceRepend_keeps {b : State} {s} (h : Keeps b s) : Keeps b (@State.ceRepend s) := by
  unfold State.ceRepend
  repeat' (first | with_reducible (first | assumption | apply ite_keeps) | split | (refine foldl_keeps ?_ ?_) | (intro _ _ _) | (with_reducible apply Keeps.mk_other))

theorem State.putConds_keeps {b : State} {s} {x1} (h : Keeps b s) : Keeps b (@State.putConds s x1) := by
  unfold State.putConds
  repeat' with_reducible (first | assumption | apply State.setCond_keeps)

theorem State.enforce_keeps {b : State} {s} {x1 x2 x3} (h : Keeps b s) : Keeps b (@State.enforce s x1 x2 x3) := by
  unfold State.enforce
  repeat' (first | with_reducible (first | assumption | apply ite_keeps | apply State.putConds_keeps | apply State.ceRepend_keeps | apply State.liftFences_keeps | apply State.putPair_keeps | apply State.putShaping_keeps | apply State.putPorts_keeps | apply State.ceNewPlan_keeps | apply State.ceLoad_keeps | apply State.putSafetyTable_keeps | apply State.modHost_keeps | apply State.modSched_keeps) | (extract_lets +onlyGivenNames x; first | ((refine_lift have hx : Keeps b x := ?_; ?_); all_goals (first | (guard_hyp hx : Keeps b x; clear_value x) | subst x)) | ((refine_lift have hx : Keeps b x.1 := ?_; ?_); all_goals (first | (guard_hyp hx : Keeps b x.1; clear_value x) | subst x)) | clear_value x) | dsimp only | (with_reducible apply Keeps.mk_other))

theorem State.windowCommit_keeps {b : State} {s} (h : Keeps b s) : Keeps b (@State.windowCommit s) := by
  unfold State.windowCommit
  repeat' (first | with_reducible (first | assumption | apply ite_keeps | apply State.enforce_keeps | apply State.putTiers_keeps | apply State.putSome_keeps | apply State.exhaust_keeps | apply State.leaveSafe_keeps | apply State.ceSwitch_keeps | apply State.setDark_keeps | apply State.putFast_keeps | apply State.loadRoutes_keeps | apply State.putSems_keeps | apply State.showTiers_keeps | apply State.decideStep_keeps | apply State.modSched_keeps | apply State.setReg_keeps) | (extract_lets +onlyGivenNames x; first | ((refine_lift have hx : Keeps b x := ?_; ?_); all_goals (first | (guard_hyp hx : Keeps b x; clear_value x) | subst x)) | clear_value x) | split | (with_reducible apply Keeps.mk_other))

theorem State.tileWake_keeps {b : State} {s} {x1} (h : Keeps b s) : Keeps b (@State.tileWake s x1) := by
  unfold State.tileWake
  repeat' (first | with_reducible (first | assumption | apply ite_keeps | apply State.modSched_keeps | apply State.modTile_keeps) | (extract_lets +onlyGivenNames x; first | ((refine_lift have hx : Keeps b x := ?_; ?_); all_goals (first | (guard_hyp hx : Keeps b x; clear_value x) | subst x)) | clear_value x) | split | (with_reducible apply Keeps.mk_other))

theorem State.heldWake_keeps {b : State} {s} {x1} (h : Keeps b s) : Keeps b (@State.heldWake s x1) := by
  unfold State.heldWake
  repeat' (first | with_reducible (first | assumption | apply ite_keeps | apply State.modTile_keeps) | (extract_lets +onlyGivenNames x; first | ((refine_lift have hx : Keeps b x := ?_; ?_); all_goals (first | (guard_hyp hx : Keeps b x; clear_value x) | subst x)) | clear_value x) | split | (with_reducible apply Keeps.mk_other))

theorem State.napWake_keeps {b : State} {s} {x1} (h : Keeps b s) : Keeps b (@State.napWake s x1) := by
  unfold State.napWake
  repeat' (first | with_reducible (first | assumption | apply ite_keeps | apply State.modSched_keeps | apply State.modTile_keeps) | (extract_lets +onlyGivenNames x; first | ((refine_lift have hx : Keeps b x := ?_; ?_); all_goals (first | (guard_hyp hx : Keeps b x; clear_value x) | subst x)) | clear_value x) | (with_reducible apply Keeps.mk_other))

theorem State.tilePower_keeps {b : State} {s} {x1} (h : Keeps b s) : Keeps b (@State.tilePower s x1) := by
  unfold State.tilePower
  repeat' (first | with_reducible (first | assumption | apply ite_keeps | apply State.modTile_keeps) | (extract_lets +onlyGivenNames x; first | ((refine_lift have hx : Keeps b x := ?_; ?_); all_goals (first | (guard_hyp hx : Keeps b x; clear_value x) | subst x)) | clear_value x) | split | (with_reducible apply Keeps.mk_other))

theorem State.wakeFail_keeps {b : State} {s} {x1} (h : Keeps b s) : Keeps b (@State.wakeFail s x1) := by
  unfold State.wakeFail
  repeat' (first | with_reducible (first | assumption | apply ite_keeps | apply State.modTile_keeps | apply State.report_keeps) | (extract_lets +onlyGivenNames x; first | ((refine_lift have hx : Keeps b x := ?_; ?_); all_goals (first | (guard_hyp hx : Keeps b x; clear_value x) | subst x)) | clear_value x) | (with_reducible apply Keeps.mk_other))

theorem State.flDeadline_keeps {b : State} {s} {x1} (h : Keeps b s) : Keeps b (@State.flDeadline s x1) := by
  unfold State.flDeadline
  repeat' (first | with_reducible (first | assumption | apply ite_keeps | apply State.modTile_keeps | apply State.report_keeps) | (extract_lets +onlyGivenNames x; first | ((refine_lift have hx : Keeps b x := ?_; ?_); all_goals (first | (guard_hyp hx : Keeps b x; clear_value x) | subst x)) | clear_value x) | (with_reducible apply Keeps.mk_other))

end Sys2Proof.Laws
end

