-- ==== Sys2Proof/Laws/Keeps/Lichen.lean ====
section
/-! SUPPORT. The operations of Machine/Lichen.lean keep the queue, the canonical forms and what has been handed outside. -/

namespace Sys2Proof.Laws

open Sys2Proof.Machine

theorem State.dropSeen_keeps {b : State} {s} {x1} (h : Keeps b s) : Keeps b (@State.dropSeen s x1) := by
  unfold State.dropSeen
  repeat' (first | with_reducible (first | assumption | apply ite_keeps | apply State.dropOf_keeps | apply State.evtBlk_keeps | apply State.modLk_keeps | apply State.bump_keeps) | (extract_lets +onlyGivenNames x; first | ((refine_lift have hx : Keeps b x := ?_; ?_); all_goals (first | (guard_hyp hx : Keeps b x; clear_value x) | subst x)) | clear_value x) | (with_reducible apply Keeps.mk_other))

theorem State.ownMove_keeps {b : State} {s} (h : Keeps b s) : Keeps b (@State.ownMove s) := by
  unfold State.ownMove
  repeat' (first | with_reducible (first | assumption | apply ite_keeps | apply State.enterSafe_keeps | apply State.setAllOwn_keeps | apply State.setPst_keeps | apply State.modLk_keeps | apply State.modAud_keeps | apply State.setRegFld_keeps) | (extract_lets +onlyGivenNames x; first | ((refine_lift have hx : Keeps b x := ?_; ?_); all_goals (first | (guard_hyp hx : Keeps b x; clear_value x) | subst x)) | clear_value x) | split | (refine foldl_keeps ?_ ?_) | (intro _ _ _) | (with_reducible apply Keeps.mk_other))

theorem State.droppedReset_keeps {b : State} {s} (h : Keeps b s) : Keeps b (@State.droppedReset s) := by
  unfold State.droppedReset
  repeat' (first | with_reducible (first | assumption | apply ite_keeps | apply State.deviceReset_keeps) | split)

theorem State.survivorSwitch_keeps {b : State} {s} (h : Keeps b s) : Keeps b (@State.survivorSwitch s) := by
  unfold State.survivorSwitch
  repeat' (first | with_reducible (first | assumption | apply ite_keeps | apply State.modLk_keeps | apply State.modSched_keeps) | split | dsimp only | (with_reducible apply Keeps.mk_other))

theorem State.peerSilent_keeps {b : State} {s} (h : Keeps b s) : Keeps b (@State.peerSilent s) := by
  unfold State.peerSilent
  repeat' with_reducible (first | assumption | apply ite_keeps | apply State.dropSeen_keeps | apply State.enterSafe_keeps)

theorem State.waitTimeout_keeps {b : State} {s} (h : Keeps b s) : Keeps b (@State.waitTimeout s) := by
  unfold State.waitTimeout
  repeat' with_reducible (first | assumption | apply ite_keeps | apply State.setPst_keeps)

theorem State.sideband_keeps {b : State} {s} {x1 x2} (h : Keeps b s) : Keeps b (@State.sideband s x1 x2) := by
  unfold State.sideband
  repeat' (first | with_reducible (first | assumption | apply ite_keeps | apply State.dropSeen_keeps | apply State.lkErrs_keeps | apply State.modLk_keeps | apply State.setRegFld_keeps | apply State.setReg_keeps) | split | (with_reducible apply Keeps.mk_other))

theorem State.trainDone_keeps {b : State} {s} {x1} (h : Keeps b s) : Keeps b (@State.trainDone s x1) := by
  unfold State.trainDone
  repeat' with_reducible (first | assumption | apply ite_keeps | apply State.setLst_keeps | apply State.laneTrained_keeps)

theorem State.align_keeps {b : State} {s} {x1 x2} (h : Keeps b s) : Keeps b (@State.align s x1 x2) := by
  unfold State.align
  repeat' (first | with_reducible (first | assumption | apply ite_keeps | apply State.lkErrs_keeps | apply State.setLst_keeps | apply State.setPst_keeps | apply State.modLk_keeps | apply State.setDtc_keeps) | (with_reducible apply Keeps.mk_other))

theorem State.retrain_keeps {b : State} {s} (h : Keeps b s) : Keeps b (@State.retrain s) := by
  unfold State.retrain
  repeat' (first | with_reducible (first | assumption | apply ite_keeps | apply State.lkErrs_keeps | apply State.setLst_keeps | apply State.setPst_keeps | apply State.modLk_keeps | apply State.setDtc_keeps | apply State.bump_keeps) | (extract_lets +onlyGivenNames x; first | ((refine_lift have hx : Keeps b x := ?_; ?_); all_goals (first | (guard_hyp hx : Keeps b x; clear_value x) | subst x)) | clear_value x) | (with_reducible apply Keeps.mk_other))

theorem State.replay_keeps {b : State} {s} (h : Keeps b s) : Keeps b (@State.replay s) := by
  unfold State.replay
  repeat' (first | with_reducible (first | assumption | apply State.modLk_keeps | apply State.bump_keeps) | (with_reducible apply Keeps.mk_other))

theorem State.codeword_keeps {b : State} {s} {x1 x2 x3 x4 x5 x6} (h : Keeps b s) : Keeps b (@State.codeword s x1 x2 x3 x4 x5 x6) := by
  unfold State.codeword
  repeat' (first | with_reducible (first | assumption | apply ite_keeps | apply State.replay_keeps | apply State.lkErrs_keeps | apply State.modLk_keeps | apply State.bump_keeps | apply State.modReg_keeps) | (extract_lets +onlyGivenNames x; first | ((refine_lift have hx : Keeps b x := ?_; ?_); all_goals (first | (guard_hyp hx : Keeps b x; clear_value x) | subst x)) | ((refine_lift have hx : Keeps b x.1 := ?_; ?_); all_goals (first | (guard_hyp hx : Keeps b x.1; clear_value x) | subst x)) | clear_value x) | (refine foldl_keeps ?_ ?_) | (refine foldl_fst_keeps ?_ ?_) | (intro _ _ _) | dsimp only | (with_reducible apply Keeps.mk_other))

theorem State.flitState_keeps {b : State} {s} {x1} (h : Keeps b s) : Keeps b (@State.flitState s x1) := by
  unfold State.flitState
  repeat' (first | with_reducible (first | assumption | apply ite_keeps | apply State.dropSeen_keeps | apply State.setAllOwn_keeps | apply State.lkErrs_keeps | apply State.setPst_keeps | apply State.modLk_keeps | apply State.setRegFld_keeps | apply State.setReg_keeps) | (extract_lets +onlyGivenNames x; first | ((refine_lift have hx : Keeps b x := ?_; ?_); all_goals (first | (guard_hyp hx : Keeps b x; clear_value x) | subst x)) | clear_value x) | (with_reducible apply Keeps.mk_other))

theorem State.flitRecord_keeps {b : State} {s} {x1 x2 x3} (h : Keeps b s) : Keeps b (@State.flitRecord s x1 x2 x3) := by
  unfold State.flitRecord
  repeat' (first | with_reducible (first | assumption | apply ite_keeps | apply State.modLk_keeps) | (extract_lets +onlyGivenNames x; first | ((refine_lift have hx : Keeps b x := ?_; ?_); all_goals (first | (guard_hyp hx : Keeps b x; clear_value x) | subst x)) | clear_value x) | (with_reducible apply Keeps.mk_other))

theorem State.verdictPoint_keeps {b : State} {s} {x1} (h : Keeps b s) : Keeps b (@State.verdictPoint s x1) := by
  unfold State.verdictPoint
  repeat' (first | with_reducible (first | assumption | apply ite_keeps | apply State.enterSafe_keeps | apply State.setAllOwn_keeps | apply State.lkErrs_keeps | apply State.evtBlk_keeps | apply State.setPst_keeps | apply State.modLk_keeps | apply State.setDtc_keeps | apply State.logEvent_keeps | apply State.emit_keeps | apply State.bump_keeps | apply State.setReg_keeps) | (extract_lets +onlyGivenNames x; first | ((refine_lift have hx : Keeps b x := ?_; ?_); all_goals (first | (guard_hyp hx : Keeps b x; clear_value x) | subst x)) | clear_value x) | split | (with_reducible apply Keeps.mk_other))

theorem State.showJournal_keeps {b : State} {s} (h : Keeps b s) : Keeps b (@State.showJournal s) := by
  unfold State.showJournal
  repeat' (first | with_reducible (first | assumption | apply State.setReg_keeps) | (refine foldl_keeps ?_ ?_) | (intro _ _ _))

theorem State.flitMirror_keeps {b : State} {s} {x1} (h : Keeps b s) : Keeps b (@State.flitMirror s x1) := by
  unfold State.flitMirror
  repeat' (first | with_reducible (first | assumption | apply ite_keeps | apply State.showJournal_keeps | apply State.modLk_keeps) | (with_reducible apply Keeps.mk_other))

theorem State.flitCommit_keeps {b : State} {s} {x1} (h : Keeps b s) : Keeps b (@State.flitCommit s x1) := by
  unfold State.flitCommit
  repeat' (first | with_reducible (first | assumption | apply ite_keeps | apply State.showJournal_keeps | apply State.modLk_keeps | apply State.setReg_keeps) | (with_reducible apply Keeps.mk_other))

theorem State.journalApply_keeps {b : State} {s} (h : Keeps b s) : Keeps b (@State.journalApply s) := by
  unfold State.journalApply
  repeat' (first | with_reducible (first | assumption | apply ite_keeps | apply State.showJournal_keeps | apply State.modLk_keeps | apply State.memWrite_keeps) | (extract_lets +onlyGivenNames x; first | ((refine_lift have hx : Keeps b x := ?_; ?_); all_goals (first | (guard_hyp hx : Keeps b x; clear_value x) | subst x)) | clear_value x) | split | (refine foldl_keeps ?_ ?_) | (intro _ _ _) | (with_reducible apply Keeps.mk_other))

theorem State.resyncPut_keeps {b : State} {s} {x1 x2} (h : Keeps b s) : Keeps b (@State.resyncPut s x1 x2) := by
  unfold State.resyncPut
  repeat' with_reducible (first | assumption | apply ite_keeps | apply State.memWrite_keeps)

theorem State.flitBulk_keeps {b : State} {s} {x1 x2} (h : Keeps b s) : Keeps b (@State.flitBulk s x1 x2) := by
  unfold State.flitBulk
  repeat' with_reducible (first | assumption | apply ite_keeps | apply State.resyncPut_keeps | apply State.modReg_keeps)

theorem State.flitDelta_keeps {b : State} {s} {x1 x2} (h : Keeps b s) : Keeps b (@State.flitDelta s x1 x2) := by
  unfold State.flitDelta
  repeat' with_reducible (first | assumption | apply ite_keeps | apply State.resyncPut_keeps)

theorem State.resyncOut_keeps {b : State} {s} {x1} (h : Keeps b s) : Keeps b (@State.resyncOut s x1) := by
  unfold State.resyncOut
  repeat' (first | with_reducible (first | assumption | apply ite_keeps | apply State.emit_keeps | apply State.setReg_keeps) | (extract_lets +onlyGivenNames x; first | ((refine_lift have hx : Keeps b x := ?_; ?_); all_goals (first | (guard_hyp hx : Keeps b x; clear_value x) | subst x)) | ((refine_lift have hx : Keeps b x.1 := ?_; ?_); all_goals (first | (guard_hyp hx : Keeps b x.1; clear_value x) | subst x)) | ((refine_lift have hx : State → _ := x; ?_); clear hx; subst x) | clear_value x) | split | (refine foldl_keeps ?_ ?_) | (refine foldl_fst_keeps ?_ ?_) | (intro _ _ _) | dsimp only)

theorem State.resyncPhase_keeps {b : State} {s} (h : Keeps b s) : Keeps b (@State.resyncPhase s) := by
  unfold State.resyncPhase
  repeat' (first | with_reducible (first | assumption | apply ite_keeps | apply State.resyncOut_keeps | apply State.modLk_keeps | apply State.setRegFld_keeps) | split | (with_reducible apply Keeps.mk_other))

theorem State.resyncJoin_keeps {b : State} {s} (h : Keeps b s) : Keeps b (@State.resyncJoin s) := by
  unfold State.resyncJoin
  repeat' (first | with_reducible (first | assumption | apply ite_keeps | apply State.resyncOut_keeps | apply State.setRegFld_keeps) | (extract_lets +onlyGivenNames x; first | ((refine_lift have hx : Keeps b x := ?_; ?_); all_goals (first | (guard_hyp hx : Keeps b x; clear_value x) | subst x)) | clear_value x) | split | (with_reducible apply Keeps.mk_other))

end Sys2Proof.Laws
end

