-- ==== Sys2Proof/Laws/Keeps/Boot.lean ====
section
/-! SUPPORT. The operations of Machine/Boot.lean keep the queue, the canonical forms and what has been handed outside. -/

namespace Sys2Proof.Laws

open Sys2Proof.Machine

theorem State.start_keeps {b : State} {s} {x1} (h : Keeps b s) : Keeps b (@State.start s x1) := by
  unfold State.start
  repeat' (first | with_reducible (first | assumption | apply ite_keeps | apply State.setPst_keeps | apply State.setPhase_keeps | apply State.modPower_keeps | apply State.modDev_keeps | apply State.setRegFld_keeps | apply State.setReg_keeps) | (extract_lets +onlyGivenNames x; first | ((refine_lift have hx : Keeps b x := ?_; ?_); all_goals (first | (guard_hyp hx : Keeps b x; clear_value x) | subst x)) | clear_value x) | (with_reducible apply Keeps.mk_other))

theorem State.aonLost_keeps {b : State} {s} (h : Keeps b s) : Keeps b (@State.aonLost s) := by
  unfold State.aonLost
  repeat' (first | with_reducible (first | assumption | apply State.modAge_keeps | apply State.setRegFld_keeps | apply State.setReg_keeps) | (extract_lets +onlyGivenNames x; first | ((refine_lift have hx : Keeps b x := ?_; ?_); all_goals (first | (guard_hyp hx : Keeps b x; clear_value x) | subst x)) | clear_value x) | (refine foldl_keeps ?_ ?_) | (intro _ _ _) | (with_reducible apply Keeps.mk_other))

theorem State.timeZero_keeps {b : State} {s} {x1 x2} (h : Keeps b s) : Keeps b (@State.timeZero s x1 x2) := by
  unfold State.timeZero
  repeat' with_reducible (first | assumption | apply ite_keeps | apply State.aonLost_keeps | apply State.start_keeps)

theorem State.resetRelease_keeps {b : State} {s} {x1} (h : Keeps b s) : Keeps b (@State.resetRelease s x1) := by
  unfold State.resetRelease
  repeat' with_reducible (first | assumption | apply ite_keeps | apply State.start_keeps)

theorem State.holdRelease_keeps {b : State} {s} {x1 x2} (h : Keeps b s) : Keeps b (@State.holdRelease s x1 x2) := by
  unfold State.holdRelease
  repeat' (first | with_reducible (first | assumption | apply ite_keeps | apply State.start_keeps | apply State.modDev_keeps) | (with_reducible apply Keeps.mk_other))

theorem State.romStart_keeps {b : State} {s} (h : Keeps b s) : Keeps b (@State.romStart s) := by
  unfold State.romStart
  repeat' with_reducible (first | assumption | apply ite_keeps | apply State.leaveAsk_keeps | apply State.setPhase_keeps | apply State.orReg_keeps)

theorem State.wipe_keeps {b : State} {s} (h : Keeps b s) : Keeps b (@State.wipe s) := by
  unfold State.wipe
  refine ite_keeps h ?_
  with_reducible apply State.setPhase_keeps
  refine foldl_keeps (fun s n hs => State.setReg_keeps hs) ?_
  exact ⟨h.pending, fun x => ⟨swf_filter _ _ _ (h.canon x).1, (h.canon x).2⟩, fun _ => oneShadow_reset rfl, h.out, h.free⟩

theorem State.setPart_keeps {b : State} {s} {x1 x2 x3} (h : Keeps b s) : Keeps b (@State.setPart s x1 x2 x3) := by
  unfold State.setPart
  repeat' with_reducible (first | assumption | apply State.setRegFld_keeps)

theorem State.logStart_keeps {b : State} {s} (h : Keeps b s) : Keeps b (@State.logStart s) := by
  unfold State.logStart
  repeat' (first | with_reducible (first | assumption | apply ite_keeps | apply State.fwRead_keeps | apply State.modSafety_keeps) | (extract_lets +onlyGivenNames x; first | ((refine_lift have hx : Keeps b x := ?_; ?_); all_goals (first | (guard_hyp hx : Keeps b x; clear_value x) | subst x)) | ((refine_lift have hx : Keeps b x.1 := ?_; ?_); all_goals (first | (guard_hyp hx : Keeps b x.1; clear_value x) | subst x)) | clear_value x) | (refine foldl_keeps ?_ ?_) | (refine foldl_fst_keeps ?_ ?_) | (intro _ _ _) | dsimp only | (with_reducible apply Keeps.mk_other))

theorem State.fwVerify_keeps {b : State} {s} (h : Keeps b s) : Keeps b (@State.fwVerify s) := by
  unfold State.fwVerify
  repeat' (first | with_reducible (first | assumption | apply ite_keeps | apply State.logStart_keeps | apply State.setPart_keeps | apply State.resumeCounts_keeps | apply State.scRestart_keeps | apply State.logEvent_keeps | apply State.fwRead_keeps | apply State.setPhase_keeps | apply State.setRegFld_keeps | apply State.setReg_keeps) | (extract_lets +onlyGivenNames x; first | ((refine_lift have hx : Keeps b x := ?_; ?_); all_goals (first | (guard_hyp hx : Keeps b x; clear_value x) | subst x)) | clear_value x) | split)

theorem State.patchLoad_keeps {b : State} {s} (h : Keeps b s) : Keeps b (@State.patchLoad s) := by
  unfold State.patchLoad
  repeat' (first | with_reducible (first | assumption | apply ite_keeps | apply State.setPart_keeps | apply State.setDtc_keeps | apply State.logEvent_keeps | apply State.fwRead_keeps | apply State.setPhase_keeps | apply State.setReg_keeps) | (extract_lets +onlyGivenNames x; first | ((refine_lift have hx : Keeps b x := ?_; ?_); all_goals (first | (guard_hyp hx : Keeps b x; clear_value x) | subst x)) | ((refine_lift have hx : State → _ := x; ?_); clear hx; subst x) | clear_value x) | split | (with_reducible apply Keeps.mk_other))

theorem State.putCan_keeps {b : State} {s} {x1} (h : Keeps b s) : Keeps b (@State.putCan s x1) := by
  unfold State.putCan
  repeat' (first | with_reducible (first | assumption | apply ite_keeps | apply State.setReg_keeps) | (extract_lets +onlyGivenNames x; first | ((refine_lift have hx : Keeps b x := ?_; ?_); all_goals (first | (guard_hyp hx : Keeps b x; clear_value x) | subst x)) | ((refine_lift have hx : Keeps b x.1 := ?_; ?_); all_goals (first | (guard_hyp hx : Keeps b x.1; clear_value x) | subst x)) | clear_value x) | (refine foldl_keeps ?_ ?_) | (refine foldl_fst_keeps ?_ ?_) | (intro _ _ _) | dsimp only)

theorem State.putEth_keeps {b : State} {s} {x1} (h : Keeps b s) : Keeps b (@State.putEth s x1) := by
  unfold State.putEth
  repeat' (first | with_reducible (first | assumption | apply ite_keeps | apply State.orReg_keeps | apply State.setReg_keeps) | (extract_lets +onlyGivenNames x; first | ((refine_lift have hx : Keeps b x := ?_; ?_); all_goals (first | (guard_hyp hx : Keeps b x; clear_value x) | subst x)) | ((refine_lift have hx : Keeps b x.1 := ?_; ?_); all_goals (first | (guard_hyp hx : Keeps b x.1; clear_value x) | subst x)) | clear_value x) | (refine foldl_keeps ?_ ?_) | (refine foldl_fst_keeps ?_ ?_) | (intro _ _ _) | dsimp only)

theorem State.calRead_keeps {b : State} {s} (h : Keeps b s) : Keeps b (@State.calRead s) := by
  unfold State.calRead
  repeat' with_reducible (first | assumption | apply State.planKeyRead_keeps | apply State.fwRead_keeps)

theorem State.calApply_keeps {b : State} {s} (h : Keeps b s) : Keeps b (@State.calApply s) := by
  unfold State.calApply
  repeat' (first | with_reducible (first | assumption | apply ite_keeps | apply State.calRead_keeps | apply State.putEth_keeps | apply State.putCan_keeps | apply State.setPart_keeps | apply State.pairStart_keeps | apply State.modNet_keeps | apply State.logEvent_keeps | apply State.setPhase_keeps | apply State.orReg_keeps | apply State.setRegFld_keeps | apply State.setReg_keeps) | (extract_lets +onlyGivenNames x; first | ((refine_lift have hx : Keeps b x := ?_; ?_); all_goals (first | (guard_hyp hx : Keeps b x; clear_value x) | subst x)) | ((refine_lift have hx : Keeps b x.1 := ?_; ?_); all_goals (first | (guard_hyp hx : Keeps b x.1; clear_value x) | subst x)) | clear_value x) | split | (refine foldl_keeps ?_ ?_) | (refine foldl_fst_keeps ?_ ?_) | (intro _ _ _) | dsimp only | (with_reducible apply Keeps.mk_other))

theorem State.planRefused_keeps {b : State} {s} {x1} (h : Keeps b s) : Keeps b (@State.planRefused s x1) := by
  unfold State.planRefused
  repeat' with_reducible (first | assumption | apply State.setPart_keeps | apply State.setDtc_keeps | apply State.logEvent_keeps | apply State.setRegFld_keeps | apply State.setReg_keeps)

theorem State.storedRead_keeps {b : State} {s} (h : Keeps b s) : Keeps b (@State.storedRead s) := by
  unfold State.storedRead
  repeat' with_reducible (first | assumption | apply State.planKeyRead_keeps | apply State.fwRead_keeps)

theorem State.planVerify_keeps {b : State} {s} (h : Keeps b s) : Keeps b (@State.planVerify s) := by
  unfold State.planVerify
  repeat' (first | with_reducible (first | assumption | apply ite_keeps | apply State.storedRead_keeps | apply State.planRefused_keeps | apply State.setPart_keeps | apply State.setPhase_keeps | apply State.modSched_keeps | apply State.setRegFld_keeps | apply State.setReg_keeps) | (extract_lets +onlyGivenNames x; first | ((refine_lift have hx : Keeps b x := ?_; ?_); all_goals (first | (guard_hyp hx : Keeps b x; clear_value x) | subst x)) | clear_value x) | split | (with_reducible apply Keeps.mk_other))

theorem State.holdTiles_keeps {b : State} {s} {x1} (h : Keeps b s) : Keeps b (@State.holdTiles s x1) := by
  unfold State.holdTiles
  repeat' (first | with_reducible (first | assumption | apply ite_keeps) | (with_reducible apply Keeps.mk_other))

theorem State.putPlan_keeps {b : State} {s} {x1 x2} (h : Keeps b s) : Keeps b (@State.putPlan s x1 x2) := by
  unfold State.putPlan
  repeat' (first | with_reducible (first | assumption | apply State.putConds_keeps | apply State.putPair_keeps | apply State.putShaping_keeps | apply State.putPorts_keeps | apply State.putSafetyTable_keeps | apply State.loadRoutes_keeps | apply State.putSems_keeps | apply State.rewriteRoles_keeps | apply State.setReg_keeps) | (extract_lets +onlyGivenNames x; first | ((refine_lift have hx : Keeps b x := ?_; ?_); all_goals (first | (guard_hyp hx : Keeps b x; clear_value x) | subst x)) | clear_value x))

theorem State.putTiles_keeps {b : State} {s} {x1} (h : Keeps b s) : Keeps b (@State.putTiles s x1) := by
  unfold State.putTiles
  repeat' (first | with_reducible (first | assumption | apply State.putTiers_keeps) | (with_reducible apply Keeps.mk_other))

theorem State.safetyStart_keeps {b : State} {s} (h : Keeps b s) : Keeps b (@State.safetyStart s) := by
  unfold State.safetyStart
  repeat' (first | with_reducible (first | assumption | apply ite_keeps | apply State.putTiles_keeps | apply State.putPlan_keeps | apply State.holdTiles_keeps | apply State.underPlan_keeps | apply State.putSome_keeps | apply State.showTiers_keeps | apply State.decideStep_keeps | apply State.setPhase_keeps | apply State.modSched_keeps | apply State.setReg_keeps) | (extract_lets +onlyGivenNames x; first | ((refine_lift have hx : Keeps b x := ?_; ?_); all_goals (first | (guard_hyp hx : Keeps b x; clear_value x) | subst x)) | clear_value x) | split | (with_reducible apply Keeps.mk_other))

theorem State.fullStart_keeps {b : State} {s} (h : Keeps b s) : Keeps b (@State.fullStart s) := by
  unfold State.fullStart
  repeat' (first | with_reducible (first | assumption | apply ite_keeps | apply State.putTiles_keeps | apply State.holdTiles_keeps | apply State.putConds_keeps | apply State.putSome_keeps | apply State.exhaust_keeps | apply State.leaveSafe_keeps | apply State.ceNewPlan_keeps | apply State.ceLoad_keeps | apply State.putFast_keeps | apply State.setPhase_keeps | apply State.modSafety_keeps | apply State.modSched_keeps | apply State.setReg_keeps) | (extract_lets +onlyGivenNames x; first | ((refine_lift have hx : Keeps b x := ?_; ?_); all_goals (first | (guard_hyp hx : Keeps b x; clear_value x) | subst x)) | clear_value x) | split | (with_reducible apply Keeps.mk_other))

theorem State.svnRaise_keeps {b : State} {s} (h : Keeps b s) : Keeps b (@State.svnRaise s) := by
  unfold State.svnRaise
  repeat' (first | with_reducible (first | assumption | apply ite_keeps | apply State.modReg_keeps) | (extract_lets +onlyGivenNames x; first | ((refine_lift have hx : Keeps b x := ?_; ?_); all_goals (first | (guard_hyp hx : Keeps b x; clear_value x) | subst x)) | clear_value x))

theorem State.firstBlock_keeps {b : State} {s} {x1} (h : Keeps b s) : Keeps b (@State.firstBlock s x1) := by
  unfold State.firstBlock
  repeat' with_reducible (first | assumption | apply ite_keeps | apply State.fastTicks_keeps | apply State.blockTick_keeps | apply State.tileTicks_keeps | apply State.trigger_keeps | apply State.ceTick_keeps)

theorem State.resumePlan_keeps {b : State} {s} (h : Keeps b s) : Keeps b (@State.resumePlan s) := by
  unfold State.resumePlan
  repeat' (first | with_reducible (first | assumption | apply ite_keeps | apply State.holdTiles_keeps | apply State.modSafety_keeps) | split | (with_reducible apply Keeps.mk_other))

theorem State.replaceStart_keeps {b : State} {s} (h : Keeps b s) : Keeps b (@State.replaceStart s) := by
  unfold State.replaceStart
  repeat' (first | with_reducible (first | assumption | apply ite_keeps | apply State.firstBlock_keeps | apply State.putTiles_keeps | apply State.putPlan_keeps | apply State.holdTiles_keeps | apply State.underPlan_keeps | apply State.putSome_keeps | apply State.exhaust_keeps | apply State.leaveSafe_keeps | apply State.liftFences_keeps | apply State.cmdDone_keeps | apply State.ceNewPlan_keeps | apply State.ceLoad_keeps | apply State.setDark_keeps | apply State.putFast_keeps | apply State.showTiers_keeps | apply State.decideStep_keeps | apply State.setPhase_keeps | apply State.modHost_keeps | apply State.modSafety_keeps | apply State.modSched_keeps) | (extract_lets +onlyGivenNames x; first | ((refine_lift have hx : Keeps b x := ?_; ?_); all_goals (first | (guard_hyp hx : Keeps b x; clear_value x) | subst x)) | clear_value x) | split | (with_reducible apply Keeps.mk_other))

theorem State.warmRestart_keeps {b : State} {s} (h : Keeps b s) : Keeps b (@State.warmRestart s) := by
  unfold State.warmRestart
  repeat' (first | with_reducible (first | assumption | apply ite_keeps | apply State.planRefused_keeps | apply State.deviceReset_keeps | apply State.liftFences_keeps | apply State.modSched_keeps | apply State.orReg_keeps) | (extract_lets +onlyGivenNames x; first | ((refine_lift have hx : Keeps b x := ?_; ?_); all_goals (first | (guard_hyp hx : Keeps b x; clear_value x) | subst x)) | clear_value x) | split | (with_reducible apply Keeps.mk_other))

theorem State.autoRestart_keeps {b : State} {s} (h : Keeps b s) : Keeps b (@State.autoRestart s) := by
  unfold State.autoRestart
  repeat' (first | with_reducible (first | assumption | apply ite_keeps | apply State.notice_keeps | apply State.modSafety_keeps | apply State.modSched_keeps | apply State.bump_keeps) | split | (with_reducible apply Keeps.mk_other))

theorem State.takeReport_keeps {b : State} {s} {x1} (h : Keeps b s) : Keeps b (@State.takeReport s x1) := by
  unfold State.takeReport
  repeat' (first | with_reducible (first | assumption | apply State.resetDue_keeps | apply State.hubTake_keeps) | (with_reducible apply Keeps.mk_other))

theorem State.standbyIn_keeps {b : State} {s} (h : Keeps b s) : Keeps b (@State.standbyIn s) := by
  unfold State.standbyIn
  repeat' (first | with_reducible (first | assumption | apply ite_keeps | apply State.marginRecord_keeps | apply State.emit_keeps | apply State.modPower_keeps | apply State.modSafety_keeps | apply State.orReg_keeps) | (extract_lets +onlyGivenNames x; first | ((refine_lift have hx : Keeps b x := ?_; ?_); all_goals (first | (guard_hyp hx : Keeps b x; clear_value x) | subst x)) | clear_value x) | (with_reducible apply Keeps.mk_other))

theorem State.standbyOut_keeps {b : State} {s} (h : Keeps b s) : Keeps b (@State.standbyOut s) := by
  unfold State.standbyOut
  repeat' (first | with_reducible (first | assumption | apply ite_keeps | apply State.modPower_keeps | apply State.modSafety_keeps | apply State.setRegFld_keeps) | (with_reducible apply Keeps.mk_other))

theorem State.standbyWake_keeps {b : State} {s} {x1} (h : Keeps b s) : Keeps b (@State.standbyWake s x1) := by
  unfold State.standbyWake
  repeat' with_reducible (first | assumption | apply ite_keeps | apply State.emit_keeps | apply State.setReg_keeps)

end Sys2Proof.Laws
end

