-- ==== Sys2Proof/Laws/Keeps/Services.lean ====
section
/-! SUPPORT. The operations of Machine/Services.lean keep the queue, the canonical forms and what has been handed outside. -/

namespace Sys2Proof.Laws

open Sys2Proof.Machine

theorem State.partWritten_keeps {b : State} {s} {x1} (h : Keeps b s) : Keeps b (@State.partWritten s x1) := by
  unfold State.partWritten
  repeat' with_reducible (first | assumption | apply State.setRegFld_keeps | apply State.modReg_keeps)

theorem State.imageSet_keeps {b : State} {s} {x1 x2} (h : Keeps b s) : Keeps b (@State.imageSet s x1 x2) := by
  unfold State.imageSet
  repeat' (first | with_reducible (first | assumption | apply ite_keeps | apply State.modImages_keeps) | (extract_lets +onlyGivenNames x; first | ((refine_lift have hx : Keeps b x := ?_; ?_); all_goals (first | (guard_hyp hx : Keeps b x; clear_value x) | subst x)) | clear_value x) | split | (with_reducible apply Keeps.mk_other))

theorem State.imageBusy_keeps {b : State} {s} (h : Keeps b s) : Keeps b (@State.imageBusy s) := by
  unfold State.imageBusy
  repeat' with_reducible (first | assumption | apply State.setRegFld_keeps)

theorem State.imageBegin_keeps {b : State} {s} (h : Keeps b s) : Keeps b (@State.imageBegin s) := by
  unfold State.imageBegin
  repeat' (first | with_reducible (first | assumption | apply State.imageBusy_keeps | apply State.imageSet_keeps | apply State.mramPut_keeps | apply State.setRegFld_keeps) | (extract_lets +onlyGivenNames x; first | ((refine_lift have hx : Keeps b x := ?_; ?_); all_goals (first | (guard_hyp hx : Keeps b x; clear_value x) | subst x)) | clear_value x) | split | (with_reducible apply Keeps.mk_other))

theorem State.imagePut_keeps {b : State} {s} {x1 x2 x3} (h : Keeps b s) : Keeps b (@State.imagePut s x1 x2 x3) := by
  unfold State.imagePut
  repeat' (first | with_reducible (first | assumption | apply ite_keeps | apply State.imageBegin_keeps) | (extract_lets +onlyGivenNames x; first | ((refine_lift have hx : Keeps b x := ?_; ?_); all_goals (first | (guard_hyp hx : Keeps b x; clear_value x) | subst x)) | clear_value x) | (with_reducible apply Keeps.mk_other))

theorem State.imageBurst_keeps {b : State} {s} (h : Keeps b s) : Keeps b (@State.imageBurst s).1 := by
  unfold State.imageBurst
  repeat' (first | with_reducible (first | assumption | apply ite_keeps | apply ite_fst_keeps | apply State.imageBegin_keeps | apply State.imageBusy_keeps | apply State.imageSet_keeps | apply State.partWritten_keeps | apply State.mramPut_keeps) | (extract_lets +onlyGivenNames x; first | ((refine_lift have hx : Keeps b x := ?_; ?_); all_goals (first | (guard_hyp hx : Keeps b x; clear_value x) | subst x)) | ((refine_lift have hx : Keeps b x.1 := ?_; ?_); all_goals (first | (guard_hyp hx : Keeps b x.1; clear_value x) | subst x)) | clear_value x) | split | dsimp only | (with_reducible apply Keeps.mk_other))

theorem State.reviseCal_keeps {b : State} {s} {x1 x2} (h : Keeps b s) : Keeps b (@State.reviseCal s x1 x2) := by
  unfold State.reviseCal
  repeat' (first | with_reducible (first | assumption | apply State.imagePut_keeps | apply State.calRead_keeps) | (extract_lets +onlyGivenNames x; first | ((refine_lift have hx : Keeps b x := ?_; ?_); all_goals (first | (guard_hyp hx : Keeps b x; clear_value x) | subst x)) | clear_value x) | split)

theorem State.exportRead_keeps {b : State} {s} {x1 x2 x3} (h : Keeps b s) : Keeps b (@State.exportRead s x1 x2 x3) := by
  unfold State.exportRead
  repeat' (first | with_reducible (first | assumption | apply ite_keeps | apply State.fwReadIf_keeps) | (extract_lets +onlyGivenNames x; first | ((refine_lift have hx : Keeps b x := ?_; ?_); all_goals (first | (guard_hyp hx : Keeps b x; clear_value x) | subst x)) | clear_value x))

theorem State.export_keeps {b : State} {s} {x1 x2 x3} (h : Keeps b s) : Keeps b (@State.export s x1 x2 x3).1 := by
  unfold State.export
  repeat' (first | with_reducible (first | assumption | apply ite_keeps | apply ite_fst_keeps | apply State.exportRead_keeps) | dsimp only)

theorem State.maskSpore_keeps {b : State} {s} {x1} (h : Keeps b s) : Keeps b (@State.maskSpore s x1) := by
  unfold State.maskSpore
  repeat' (first | with_reducible (first | assumption | apply State.putSpore_keeps | apply State.modTile_keeps) | (extract_lets +onlyGivenNames x; first | ((refine_lift have hx : Keeps b x := ?_; ?_); all_goals (first | (guard_hyp hx : Keeps b x; clear_value x) | subst x)) | clear_value x) | (with_reducible apply Keeps.mk_other))

theorem State.pathStart_keeps {b : State} {s} {x1 x2} (h : Keeps b s) : Keeps b (@State.pathStart s x1 x2) := by
  unfold State.pathStart
  repeat' (first | with_reducible (first | assumption | apply State.maskSpore_keeps) | (extract_lets +onlyGivenNames x; first | ((refine_lift have hx : Keeps b x := ?_; ?_); all_goals (first | (guard_hyp hx : Keeps b x; clear_value x) | subst x)) | clear_value x) | split | (with_reducible apply Keeps.mk_other))

theorem State.diagEnd_keeps {b : State} {s} {x1 x2} (h : Keeps b s) : Keeps b (@State.diagEnd s x1 x2) := by
  unfold State.diagEnd
  repeat' (first | with_reducible (first | assumption | apply ite_keeps | apply State.cmdDone_keeps | apply State.emit_keeps | apply State.modHost_keeps) | (extract_lets +onlyGivenNames x; first | ((refine_lift have hx : Keeps b x := ?_; ?_); all_goals (first | (guard_hyp hx : Keeps b x; clear_value x) | subst x)) | clear_value x) | (with_reducible apply Keeps.mk_other))

theorem State.pathEnd_keeps {b : State} {s} {x1} (h : Keeps b s) : Keeps b (@State.pathEnd s x1) := by
  unfold State.pathEnd
  repeat' (first | with_reducible (first | assumption | apply ite_keeps | apply State.diagEnd_keeps) | (extract_lets +onlyGivenNames x; first | ((refine_lift have hx : Keeps b x := ?_; ?_); all_goals (first | (guard_hyp hx : Keeps b x; clear_value x) | subst x)) | clear_value x) | split | (with_reducible apply Keeps.mk_other))

theorem State.pathDtc_keeps {b : State} {s} {x1 x2} (h : Keeps b s) : Keeps b (@State.pathDtc s x1 x2) := by
  unfold State.pathDtc
  repeat' (first | with_reducible (first | assumption | apply State.setDtc_keeps) | split)

theorem State.pathStep_keeps {b : State} {s} {x1} (h : Keeps b s) : Keeps b (@State.pathStep s x1) := by
  unfold State.pathStep
  repeat' (first | with_reducible (first | assumption | apply ite_keeps | apply State.pathDtc_keeps | apply State.pathEnd_keeps) | (extract_lets +onlyGivenNames x; first | ((refine_lift have hx : Keeps b x := ?_; ?_); all_goals (first | (guard_hyp hx : Keeps b x; clear_value x) | subst x)) | ((refine_lift have hx : Keeps b x.1 := ?_; ?_); all_goals (first | (guard_hyp hx : Keeps b x.1; clear_value x) | subst x)) | clear_value x) | split | dsimp only | (with_reducible apply Keeps.mk_other))

theorem State.pathStop_keeps {b : State} {s} {x1} (h : Keeps b s) : Keeps b (@State.pathStop s x1) := by
  unfold State.pathStop
  repeat' (first | with_reducible (first | assumption | apply ite_keeps) | split | (with_reducible apply Keeps.mk_other))

end Sys2Proof.Laws
end

