-- ==== Sys2Proof/Laws/Keeps/HostCmds.lean ====
section
/-! SUPPORT. The operations of Machine/HostCmds.lean keep the queue, the canonical forms and what has been handed outside. -/

namespace Sys2Proof.Laws

open Sys2Proof.Machine

theorem State.doorbell_keeps {b : State} {s} {x1 x2 x3} (h : Keeps b s) : Keeps b (@State.doorbell s x1 x2 x3) := by
  unfold State.doorbell
  repeat' (first | with_reducible (first | assumption | apply ite_keeps | apply State.ringFail_keeps | apply State.bump_keeps | apply State.orReg_keeps | apply State.setReg_keeps) | (extract_lets +onlyGivenNames x; first | ((refine_lift have hx : Keeps b x := ?_; ?_); all_goals (first | (guard_hyp hx : Keeps b x; clear_value x) | subst x)) | clear_value x))

theorem State.shadowPoll_keeps {b : State} {s} {x1} (h : Keeps b s) : Keeps b (@State.shadowPoll s x1) := by
  unfold State.shadowPoll
  repeat' (first | with_reducible (first | assumption | apply ite_keeps | apply State.doorbell_keeps | apply State.emit_keeps | apply State.orReg_keeps) | (extract_lets +onlyGivenNames x; first | ((refine_lift have hx : Keeps b x := ?_; ?_); all_goals (first | (guard_hyp hx : Keeps b x; clear_value x) | subst x)) | clear_value x) | split | (refine foldl_keeps ?_ ?_) | (intro _ _ _))

theorem State.writeBack_keeps {b : State} {s} {x1} (h : Keeps b s) : Keeps b (@State.writeBack s x1) := by
  unfold State.writeBack
  repeat' (first | with_reducible (first | assumption | apply ite_keeps | apply State.emit_keeps | apply State.modHost_keeps) | (with_reducible apply Keeps.mk_other))

theorem State.ringEnable_keeps {b : State} {s} {x1 x2} (h : Keeps b s) : Keeps b (@State.ringEnable s x1 x2) := by
  unfold State.ringEnable
  repeat' (first | with_reducible (first | assumption | apply ite_keeps | apply State.notice_keeps | apply State.modHost_keeps | apply State.orReg_keeps | apply State.modReg_keeps | apply State.setReg_keeps) | (extract_lets +onlyGivenNames x; first | ((refine_lift have hx : Keeps b x := ?_; ?_); all_goals (first | (guard_hyp hx : Keeps b x; clear_value x) | subst x)) | clear_value x) | (with_reducible apply Keeps.mk_other))

theorem State.ringReset_keeps {b : State} {s} {x1} (h : Keeps b s) : Keeps b (@State.ringReset s x1) := by
  unfold State.ringReset
  repeat' (first | with_reducible (first | assumption | apply ite_keeps | apply State.notice_keeps | apply State.modHost_keeps | apply State.setRegFld_keeps | apply State.modReg_keeps) | (extract_lets +onlyGivenNames x; first | ((refine_lift have hx : Keeps b x := ?_; ?_); all_goals (first | (guard_hyp hx : Keeps b x; clear_value x) | subst x)) | ((refine_lift have hx : Keeps b x.1 := ?_; ?_); all_goals (first | (guard_hyp hx : Keeps b x.1; clear_value x) | subst x)) | clear_value x) | dsimp only | (with_reducible apply Keeps.mk_other))

theorem State.ringResetEnd_keeps {b : State} {s} {x1} (h : Keeps b s) : Keeps b (@State.ringResetEnd s x1) := by
  unfold State.ringResetEnd
  repeat' (first | with_reducible (first | assumption | apply ite_keeps | apply State.modHost_keeps | apply State.modReg_keeps | apply State.setReg_keeps) | (with_reducible apply Keeps.mk_other))

theorem State.raise_keeps {b : State} {s} {x1} (h : Keeps b s) : Keeps b (@State.raise s x1) := by
  unfold State.raise
  repeat' (first | with_reducible (first | assumption | apply ite_keeps | apply State.emit_keeps | apply State.modHost_keeps) | (with_reducible apply Keeps.mk_other))

theorem State.msixFlush_keeps {b : State} {s} (h : Keeps b s) : Keeps b (@State.msixFlush s) := by
  unfold State.msixFlush
  repeat' (first | with_reducible (first | assumption | apply ite_keeps | apply State.raise_keeps) | (refine foldl_keeps ?_ ?_) | (intro _ _ _))

theorem State.erRaise_keeps {b : State} {s} {x1} (h : Keeps b s) : Keeps b (@State.erRaise s x1) := by
  unfold State.erRaise
  repeat' (first | with_reducible (first | assumption | apply State.raise_keeps | apply State.modHost_keeps) | (with_reducible apply Keeps.mk_other))

theorem State.recordPut_keeps {b : State} {s} {x1 x2} (h : Keeps b s) : Keeps b (@State.recordPut s x1 x2) := by
  unfold State.recordPut
  repeat' (first | with_reducible (first | assumption | apply ite_keeps | apply State.erRaise_keeps | apply State.writeBack_keeps | apply State.emit_keeps | apply State.modReg_keeps) | (extract_lets +onlyGivenNames x; first | ((refine_lift have hx : Keeps b x := ?_; ?_); all_goals (first | (guard_hyp hx : Keeps b x; clear_value x) | subst x)) | clear_value x) | (with_reducible apply Keeps.mk_other))

theorem State.recordWrite_keeps {b : State} {s} {x1} (h : Keeps b s) : Keeps b (@State.recordWrite s x1) := by
  unfold State.recordWrite
  repeat' (first | with_reducible (first | assumption | apply ite_keeps | apply State.recordPut_keeps | apply State.modHost_keeps | apply State.bump_keeps) | (extract_lets +onlyGivenNames x; first | ((refine_lift have hx : Keeps b x := ?_; ?_); all_goals (first | (guard_hyp hx : Keeps b x; clear_value x) | subst x)) | ((refine_lift have hx : Keeps b x.1 := ?_; ?_); all_goals (first | (guard_hyp hx : Keeps b x.1; clear_value x) | subst x)) | clear_value x) | split | dsimp only | (with_reducible apply Keeps.mk_other))

theorem State.modExpire_keeps {b : State} {s} {x1} (h : Keeps b s) : Keeps b (@State.modExpire s x1) := by
  unfold State.modExpire
  repeat' (first | with_reducible (first | assumption | apply ite_keeps | apply State.erRaise_keeps | apply State.modHost_keeps) | (extract_lets +onlyGivenNames x; first | ((refine_lift have hx : Keeps b x := ?_; ?_); all_goals (first | (guard_hyp hx : Keeps b x; clear_value x) | subst x)) | clear_value x) | (with_reducible apply Keeps.mk_other))

theorem State.cmdFetch_keeps {b : State} {s} {x1} (h : Keeps b s) : Keeps b (@State.cmdFetch s x1) := by
  unfold State.cmdFetch
  repeat' (first | with_reducible (first | assumption | apply ite_keeps | apply State.cmdRefuse_keeps | apply State.ringFail_keeps | apply State.emit_keeps | apply State.modHost_keeps) | (extract_lets +onlyGivenNames x; first | ((refine_lift have hx : Keeps b x := ?_; ?_); all_goals (first | (guard_hyp hx : Keeps b x; clear_value x) | subst x)) | clear_value x) | split | (with_reducible apply Keeps.mk_other))

theorem State.readDone_keeps {b : State} {s} {x1 x2} (h : Keeps b s) : Keeps b (@State.readDone s x1 x2) := by
  unfold State.readDone
  repeat' (first | with_reducible (first | assumption | apply ite_keeps | apply State.descAdd_keeps | apply State.cmdRefuse_keeps | apply State.ringFail_keeps | apply State.emit_keeps | apply State.modHost_keeps | apply State.orReg_keeps) | (extract_lets +onlyGivenNames x; first | ((refine_lift have hx : Keeps b x := ?_; ?_); all_goals (first | (guard_hyp hx : Keeps b x; clear_value x) | subst x)) | clear_value x) | split | (with_reducible apply Keeps.mk_other))

theorem State.addChange_keeps {b : State} {s} {x1 x2 x3} (h : Keeps b s) : Keeps b (@State.addChange s x1 x2 x3) := by
  unfold State.addChange
  repeat' (first | with_reducible (first | assumption | apply State.cmdTake_keeps | apply State.forwardOut_keeps | apply State.modHost_keeps) | (extract_lets +onlyGivenNames x; first | ((refine_lift have hx : Keeps b x := ?_; ?_); all_goals (first | (guard_hyp hx : Keeps b x; clear_value x) | subst x)) | ((refine_lift have hx : Keeps b x.1 := ?_; ?_); all_goals (first | (guard_hyp hx : Keeps b x.1; clear_value x) | subst x)) | clear_value x) | dsimp only | (with_reducible apply Keeps.mk_other))

theorem State.outdate_keeps {b : State} {s} {x1} (h : Keeps b s) : Keeps b (@State.outdate s x1) := by
  unfold State.outdate
  repeat' (first | with_reducible (first | assumption | apply ite_keeps | apply State.modStream_keeps | apply State.modHost_keeps) | (extract_lets +onlyGivenNames x; first | ((refine_lift have hx : Keeps b x := ?_; ?_); all_goals (first | (guard_hyp hx : Keeps b x; clear_value x) | subst x)) | clear_value x) | split | (refine foldl_keeps ?_ ?_) | (intro _ _ _) | (with_reducible apply Keeps.mk_other))

theorem State.loadPlan_keeps {b : State} {s} {x1 x2} (h : Keeps b s) : Keeps b (@State.loadPlan s x1 x2) := by
  unfold State.loadPlan
  repeat' (first | with_reducible (first | assumption | apply ite_keeps | apply State.outdate_keeps | apply State.cmdRefuse_keeps | apply State.cmdTake_keeps | apply State.forwardOut_keeps | apply State.emit_keeps | apply State.modHost_keeps | apply State.modSched_keeps) | (extract_lets +onlyGivenNames x; first | ((refine_lift have hx : Keeps b x := ?_; ?_); all_goals (first | (guard_hyp hx : Keeps b x; clear_value x) | subst x)) | ((refine_lift have hx : Keeps b x.1 := ?_; ?_); all_goals (first | (guard_hyp hx : Keeps b x.1; clear_value x) | subst x)) | ((refine_lift have hx : State → _ := x; ?_); clear hx; subst x) | clear_value x) | split | dsimp only | (with_reducible apply Keeps.mk_other))

theorem State.loadEnd_keeps {b : State} {s} {x1 x2 x3} (h : Keeps b s) : Keeps b (@State.loadEnd s x1 x2 x3) := by
  unfold State.loadEnd
  repeat' (first | with_reducible (first | assumption | apply ite_keeps | apply State.resumePlan_keeps | apply State.cmdDone_keeps | apply State.modHost_keeps | apply State.modSched_keeps) | (extract_lets +onlyGivenNames x; first | ((refine_lift have hx : Keeps b x := ?_; ?_); all_goals (first | (guard_hyp hx : Keeps b x; clear_value x) | subst x)) | clear_value x) | (with_reducible apply Keeps.mk_other))

theorem State.loadVerified_keeps {b : State} {s} {x1} (h : Keeps b s) : Keeps b (@State.loadVerified s x1) := by
  unfold State.loadVerified
  repeat' (first | with_reducible (first | assumption | apply ite_keeps | apply State.loadEnd_keeps | apply State.imagePut_keeps | apply State.putSome_keeps | apply State.planKeyRead_keeps | apply State.modSched_keeps | apply State.orReg_keeps) | (extract_lets +onlyGivenNames x; first | ((refine_lift have hx : Keeps b x := ?_; ?_); all_goals (first | (guard_hyp hx : Keeps b x; clear_value x) | subst x)) | ((refine_lift have hx : Keeps b x.1 := ?_; ?_); all_goals (first | (guard_hyp hx : Keeps b x.1; clear_value x) | subst x)) | clear_value x) | split | dsimp only | (with_reducible apply Keeps.mk_other))

theorem State.cmdNop_keeps {b : State} {s} {x1} (h : Keeps b s) : Keeps b (@State.cmdNop s x1) := by
  unfold State.cmdNop
  repeat' (first | with_reducible (first | assumption | apply ite_keeps | apply State.cmdRefuse_keeps) | split)

theorem State.cmdSwitch_keeps {b : State} {s} {x1} (h : Keeps b s) : Keeps b (@State.cmdSwitch s x1) := by
  unfold State.cmdSwitch
  repeat' (first | with_reducible (first | assumption | apply ite_keeps | apply State.outdate_keeps | apply State.addChange_keeps | apply State.cmdRefuse_keeps) | split | dsimp only)

theorem State.cmdParam_keeps {b : State} {s} {x1} (h : Keeps b s) : Keeps b (@State.cmdParam s x1) := by
  unfold State.cmdParam
  repeat' (first | with_reducible (first | assumption | apply ite_keeps | apply State.addChange_keeps | apply State.cmdRefuse_keeps) | split)

theorem State.cmdFilter_keeps {b : State} {s} {x1} (h : Keeps b s) : Keeps b (@State.cmdFilter s x1) := by
  unfold State.cmdFilter
  repeat' (first | with_reducible (first | assumption | apply ite_keeps | apply State.addChange_keeps | apply State.cmdRefuse_keeps | apply State.modEng_keeps | apply State.emit_keeps | apply State.memWrite_keeps) | (extract_lets +onlyGivenNames x; first | ((refine_lift have hx : Keeps b x := ?_; ?_); all_goals (first | (guard_hyp hx : Keeps b x; clear_value x) | subst x)) | clear_value x) | split | (with_reducible apply Keeps.mk_other))

theorem State.cmdOpen_keeps {b : State} {s} {x1} (h : Keeps b s) : Keeps b (@State.cmdOpen s x1) := by
  unfold State.cmdOpen
  repeat' (first | with_reducible (first | assumption | apply ite_keeps | apply State.addChange_keeps | apply State.cmdRefuse_keeps | apply State.modHost_keeps) | (extract_lets +onlyGivenNames x; first | ((refine_lift have hx : Keeps b x := ?_; ?_); all_goals (first | (guard_hyp hx : Keeps b x; clear_value x) | subst x)) | clear_value x) | split | (with_reducible apply Keeps.mk_other))

theorem State.cmdClose_keeps {b : State} {s} {x1} (h : Keeps b s) : Keeps b (@State.cmdClose s x1) := by
  unfold State.cmdClose
  repeat' (first | with_reducible (first | assumption | apply ite_keeps | apply State.addChange_keeps | apply State.modStream_keeps | apply State.cmdRefuse_keeps) | split | (with_reducible apply Keeps.mk_other))

theorem State.changeEnd_keeps {b : State} {s} {x1} (h : Keeps b s) : Keeps b (@State.changeEnd s x1) := by
  unfold State.changeEnd
  repeat' (first | with_reducible (first | assumption | apply ite_keeps | apply State.closeDue_keeps | apply State.cmdDone_keeps | apply State.modHost_keeps | apply State.setRegFld_keeps) | (extract_lets +onlyGivenNames x; first | ((refine_lift have hx : Keeps b x := ?_; ?_); all_goals (first | (guard_hyp hx : Keeps b x; clear_value x) | subst x)) | ((refine_lift have hx : State → _ := x; ?_); clear hx; subst x) | clear_value x) | split | (with_reducible apply Keeps.mk_other))

theorem State.takeEffect_keeps {b : State} {s} (h : Keeps b s) : Keeps b (@State.takeEffect s) := by
  unfold State.takeEffect
  repeat' (first | with_reducible (first | assumption | apply State.changeEnd_keeps | apply State.closeDue_keeps) | (extract_lets +onlyGivenNames x; first | ((refine_lift have hx : Keeps b x := ?_; ?_); all_goals (first | (guard_hyp hx : Keeps b x; clear_value x) | subst x)) | ((refine_lift have hx : Keeps b x.1 := ?_; ?_); all_goals (first | (guard_hyp hx : Keeps b x.1; clear_value x) | subst x)) | clear_value x) | (refine foldl_keeps ?_ ?_) | (refine foldl_fst_keeps ?_ ?_) | (intro _ _ _) | dsimp only)

theorem State.diagExport_keeps {b : State} {s} {x1 x2} (h : Keeps b s) : Keeps b (@State.diagExport s x1 x2) := by
  unfold State.diagExport
  repeat' (first | with_reducible (first | assumption | apply ite_keeps | apply State.diagEnd_keeps | apply State.export_keeps | apply State.cmdRefuse_keeps | apply State.cmdTake_keeps) | (extract_lets +onlyGivenNames x; first | ((refine_lift have hx : Keeps b x := ?_; ?_); all_goals (first | (guard_hyp hx : Keeps b x; clear_value x) | subst x)) | ((refine_lift have hx : Keeps b x.1 := ?_; ?_); all_goals (first | (guard_hyp hx : Keeps b x.1; clear_value x) | subst x)) | clear_value x) | split | dsimp only)

theorem State.diagPath_keeps {b : State} {s} {x1} (h : Keeps b s) : Keeps b (@State.diagPath s x1) := by
  unfold State.diagPath
  repeat' (first | with_reducible (first | assumption | apply ite_keeps | apply State.pathStart_keeps | apply State.cmdRefuse_keeps | apply State.cmdTake_keeps | apply State.modHost_keeps) | (extract_lets +onlyGivenNames x; first | ((refine_lift have hx : Keeps b x := ?_; ?_); all_goals (first | (guard_hyp hx : Keeps b x; clear_value x) | subst x)) | ((refine_lift have hx : Keeps b x.1 := ?_; ?_); all_goals (first | (guard_hyp hx : Keeps b x.1; clear_value x) | subst x)) | clear_value x) | split | dsimp only | (with_reducible apply Keeps.mk_other))

theorem State.usb4Up_keeps {b : State} {s} {x1 x2} (h : Keeps b s) : Keeps b (@State.usb4Up s x1 x2) := by
  unfold State.usb4Up
  repeat' (first | with_reducible (first | assumption | apply ite_keeps | apply State.devEvent_keeps | apply State.modHost_keeps | apply State.setReg_keeps) | (with_reducible apply Keeps.mk_other))

theorem State.hostRegsReset_keeps {b : State} {s} (h : Keeps b s) : Keeps b (@State.hostRegsReset s) := ⟨h.pending, fun x => ⟨(h.canon x).1, swf_filter _ _ _ (h.canon x).2⟩, h.shadow, h.out, h.free⟩

theorem State.linkLoss_keeps {b : State} {s} {x1} (h : Keeps b s) : Keeps b (@State.linkLoss s x1) := by
  unfold State.linkLoss
  repeat' (first | with_reducible (first | assumption | apply ite_keeps | apply State.hostRegsReset_keeps | apply State.logEvent_keeps | apply State.devEvent_keeps | apply State.modHost_keeps | apply State.modSched_keeps | apply State.bump_keeps | apply State.modReg_keeps) | (extract_lets +onlyGivenNames x; first | ((refine_lift have hx : Keeps b x := ?_; ?_); all_goals (first | (guard_hyp hx : Keeps b x; clear_value x) | subst x)) | clear_value x) | split | (with_reducible apply Keeps.mk_other))

theorem State.clState_keeps {b : State} {s} {x1} (h : Keeps b s) : Keeps b (@State.clState s x1) := by
  unfold State.clState
  repeat' with_reducible (first | assumption | apply ite_keeps | apply State.setRegFld_keeps)

theorem State.usb2Attach_keeps {b : State} {s} (h : Keeps b s) : Keeps b (@State.usb2Attach s) := by
  unfold State.usb2Attach
  repeat' with_reducible (first | assumption | apply ite_keeps | apply State.setRegFld_keeps)

theorem State.usbAnswer_keeps {b : State} {s} {x1 x2 x3} (h : Keeps b s) : Keeps b (@State.usbAnswer s x1 x2 x3) := by
  unfold State.usbAnswer
  repeat' (first | with_reducible (first | assumption | apply State.emit_keeps) | (extract_lets +onlyGivenNames x; first | ((refine_lift have hx : Keeps b x := ?_; ?_); all_goals (first | (guard_hyp hx : Keeps b x; clear_value x) | subst x)) | clear_value x))

theorem State.usb2Query_keeps {b : State} {s} (h : Keeps b s) : Keeps b (@State.usb2Query s) := by
  unfold State.usb2Query
  repeat' with_reducible (first | assumption | apply ite_keeps | apply State.usbAnswer_keeps)

theorem State.usb2Write_keeps {b : State} {s} {x1 x2 x3} (h : Keeps b s) : Keeps b (@State.usb2Write s x1 x2 x3) := by
  unfold State.usb2Write
  repeat' (first | with_reducible (first | assumption | apply ite_keeps | apply State.usbAnswer_keeps | apply State.imagePut_keeps | apply State.planKeyRead_keeps) | (extract_lets +onlyGivenNames x; first | ((refine_lift have hx : Keeps b x := ?_; ?_); all_goals (first | (guard_hyp hx : Keeps b x; clear_value x) | subst x)) | clear_value x) | split)

theorem State.usb2Reset_keeps {b : State} {s} (h : Keeps b s) : Keeps b (@State.usb2Reset s) := by
  unfold State.usb2Reset
  repeat' with_reducible (first | assumption | apply ite_keeps | apply State.usbAnswer_keeps | apply State.deviceReset_keeps)

theorem State.cfgAccess_keeps {b : State} {s} {x1} (h : Keeps b s) : Keeps b (@State.cfgAccess s x1) := by
  unfold State.cfgAccess
  repeat' (first | with_reducible (first | assumption | apply ite_keeps | apply State.linkLoss_keeps | apply State.msixFlush_keeps | apply State.emit_keeps | apply State.modHost_keeps | apply State.setRegFld_keeps) | (extract_lets +onlyGivenNames x; first | ((refine_lift have hx : Keeps b x := ?_; ?_); all_goals (first | (guard_hyp hx : Keeps b x; clear_value x) | subst x)) | ((refine_lift have hx : Keeps b x.1 := ?_; ?_); all_goals (first | (guard_hyp hx : Keeps b x.1; clear_value x) | subst x)) | clear_value x) | split | dsimp only | (with_reducible apply Keeps.mk_other))

theorem State.bar2_keeps {b : State} {s} {x1} (h : Keeps b s) : Keeps b (@State.bar2 s x1) := by
  unfold State.bar2
  repeat' (first | with_reducible (first | assumption | apply ite_keeps | apply State.msixFlush_keeps | apply State.doorbell_keeps | apply State.emit_keeps | apply State.modHost_keeps | apply State.bump_keeps) | (extract_lets +onlyGivenNames x; first | ((refine_lift have hx : Keeps b x := ?_; ?_); all_goals (first | (guard_hyp hx : Keeps b x; clear_value x) | subst x)) | ((refine_lift have hx : Keeps b x.1 := ?_; ?_); all_goals (first | (guard_hyp hx : Keeps b x.1; clear_value x) | subst x)) | ((refine_lift have hx : State → _ := x; ?_); clear hx; subst x) | clear_value x) | split | (refine foldl_keeps ?_ ?_) | (refine foldl_fst_keeps ?_ ?_) | (intro _ _ _) | dsimp only | (with_reducible apply Keeps.mk_other))

theorem State.whenHost_keeps {b s : State} {f : State → State} (hf : ∀ s, Keeps b s → Keeps b (f s)) (h : Keeps b s) :
    Keeps b (s.whenHost f) := State.whenUp_keeps (fun s hs => ite_keeps (hf s hs) hs) h

theorem State.fwdChange_keeps {b : State} {s} {x1 x2} (h : Keeps b s) : Keeps b (@State.fwdChange s x1 x2) := by
  unfold State.fwdChange
  repeat' (first | with_reducible (first | assumption | apply State.modHost_keeps) | (extract_lets +onlyGivenNames x; first | ((refine_lift have hx : Keeps b x := ?_; ?_); all_goals (first | (guard_hyp hx : Keeps b x; clear_value x) | subst x)) | clear_value x) | (with_reducible apply Keeps.mk_other))

theorem State.inputMismatch_keeps {b : State} {s} (h : Keeps b s) : Keeps b (@State.inputMismatch s) := by
  unfold State.inputMismatch
  repeat' (first | with_reducible (first | assumption | apply State.lkErrs_keeps | apply State.modLk_keeps) | split | (with_reducible apply Keeps.mk_other))

theorem State.listenPut_keeps {b : State} {s} {x1 x2 x3} (h : Keeps b s) : Keeps b (@State.listenPut s x1 x2 x3) := by
  unfold State.listenPut
  repeat' (first | with_reducible (first | assumption | apply State.modAud_keeps) | dsimp only | (with_reducible apply Keeps.mk_other))

theorem State.flitForward_keeps {b : State} {s} {x1} (h : Keeps b s) : Keeps b (@State.flitForward s x1) := by
  unfold State.flitForward
  repeat' (first | with_reducible (first | assumption | apply ite_keeps | apply State.listenPut_keeps | apply State.inputMismatch_keeps | apply State.fwdChange_keeps | apply State.outdate_keeps | apply State.modStream_keeps | apply State.modLk_keeps | apply State.modEng_keeps | apply State.setSlot_keeps | apply State.memWrite_keeps) | (extract_lets +onlyGivenNames x; first | ((refine_lift have hx : Keeps b x := ?_; ?_); all_goals (first | (guard_hyp hx : Keeps b x; clear_value x) | subst x)) | ((refine_lift have hx : Keeps b x.1 := ?_; ?_); all_goals (first | (guard_hyp hx : Keeps b x.1; clear_value x) | subst x)) | clear_value x) | split | dsimp only | (with_reducible apply Keeps.mk_other))

end Sys2Proof.Laws
end

