-- ==== Sys2Proof/Laws/Keeps/MemCtl.lean ====
section
/-! SUPPORT. The operations of Machine/MemCtl.lean keep the queue, the canonical forms and what has been handed outside. -/

namespace Sys2Proof.Laws

open Sys2Proof.Machine

theorem State.writeBack1_keeps {b : State} {s} {x1} (h : Keeps b s) : Keeps b (@State.writeBack1 s x1) := by
  unfold State.writeBack1
  repeat' (first | with_reducible (first | assumption | apply ite_keeps | apply State.unmark_keeps) | (extract_lets +onlyGivenNames x; first | ((refine_lift have hx : Keeps b x := ?_; ?_); all_goals (first | (guard_hyp hx : Keeps b x; clear_value x) | subst x)) | clear_value x) | split | (with_reducible apply Keeps.mk_other))

theorem State.bmtOf_modBmt (s : State) (n : Nat) (f : BmtState → BmtState) :
    (s.modBmt n f).bmtOf n = if n < 23 then f (s.bmtOf n) else s.bmtOf n := by
  unfold State.modBmt State.bmtOf vmod
  by_cases hn : n < 23 <;> simp [hn, Vector.getD]

theorem State.modBmt_keeps {b s : State} {n f} (hf : (s.bmtOf n).retired = none ∨ (s.bmtOf n).phase = .none →
    (f (s.bmtOf n)).retired = none ∨ (f (s.bmtOf n)).phase = .none) (h : Keeps b s) : Keeps b (s.modBmt n f) := by
  refine ⟨h.pending, h.canon, fun x m => ?_, h.out, h.free⟩
  have hs := h.shadow x m
  by_cases hm : m = n
  · subst hm
    rw [State.bmtOf_modBmt]
    split
    · exact hf hs
    · exact hs
  · have : (s.modBmt n f).bmtOf m = s.bmtOf m := by
      unfold State.modBmt State.bmtOf vmod
      by_cases hn : n < 23
      · by_cases hk : m < 23 <;> simp [hn, hk, Vector.getD, Ne.symm hm]
      · simp [hn]
    rw [this]
    exact hs

theorem State.eccRecord_bmt (s : State) (a : Nat) (m : EccMark) (k : Nat) : (s.eccRecord a m k).bmt = s.bmt := by
  unfold State.eccRecord State.eccRecordAt
  split
  · rfl
  · extract_lets
    split <;> rfl

theorem State.eccRead_bmt (s : State) (a k : Nat) : (s.eccRead a k).bmt = s.bmt := by
  unfold State.eccRead
  split
  · rfl
  · show ((s.eccRecord _ _ _).reportCe _).bmt = _
    unfold State.reportCe
    split
    · exact State.eccRecord_bmt ..
    · exact State.eccRecord_bmt ..
  · split
    · exact State.eccRecord_bmt ..
    · exact State.eccRecord_bmt ..

theorem State.copyWord_bmt (s : State) (a i j : Nat) : (s.copyWord a i j).bmt = s.bmt := by
  show (if decide (s.mark a = some EccMark.ue) = true then s else s.eccRead a 3).bmt = _
  split
  · rfl
  · exact State.eccRead_bmt ..

theorem State.copyRow_bmt (s : State) (n r : Nat) (x : Bool) : (s.copyRow n r x).bmt = s.bmt := by
  have key : ∀ (l : List Nat) (f : State → Nat → State) (s : State), (∀ s i, (f s i).bmt = s.bmt) → (l.foldl f s).bmt = s.bmt := by
    intro l f
    induction l with
    | nil => intro s _; rfl
    | cons i l ih => intro s hf; exact (ih (f s i) hf).trans (hf s i)
  refine key _ _ _ fun s i => ?_
  by_cases h : x = true
  · simp only [h, if_true]; exact State.copyWord_bmt ..
  · simp only [h, if_false, Bool.false_eq_true]; exact State.copyWord_bmt ..

/-- Copying rows leaves the retired window and the step of the test. -/
theorem State.copyRows_bmtOf (s : State) (n : Nat) (x : Bool) (r k : Nat) :
    ((s.copyRows n x r k).bmtOf n).retired = (s.bmtOf n).retired ∧ ((s.copyRows n x r k).bmtOf n).phase = (s.bmtOf n).phase := by
  induction k generalizing s r with
  | zero => exact ⟨rfl, rfl⟩
  | succ k ih =>
    unfold State.copyRows
    have := ih ((s.copyRow n r x).modBmt n fun x => { x with rows := r + 1 }) (r + 1)
    rw [State.bmtOf_modBmt] at this
    have hb : (s.copyRow n r x).bmtOf n = s.bmtOf n := by unfold State.bmtOf; rw [State.copyRow_bmt]
    rw [hb] at this
    split at this <;> exact this

theorem State.bmtStep_keeps {b : State} {s} {x1} (h : Keeps b s) : Keeps b (@State.bmtStep s x1) := by
  unfold State.bmtStep
  extract_lets y
  by_cases hc : y.phase ≠ .none ∨ y.stopped ∨ y.retired.isSome
  · rw [if_pos hc]; exact h
  · rw [if_neg hc]
    have hr : (s.bmtOf x1).retired = none := by
      have : ¬ y.retired.isSome := fun z => hc (.inr (.inr z))
      simpa using this
    exact ite_keeps (State.modBmt_keeps (fun _ => .inl hr) h) (State.modBmt_keeps (fun _ => .inl hr) h)

theorem State.copyWord_keeps {b : State} {s} {x1 x2 x3} (h : Keeps b s) : Keeps b (@State.copyWord s x1 x2 x3) := by
  have g : Keeps b (if decide (s.mark x1 = some EccMark.ue) = true then s else s.eccRead x1 3) := ite_keeps h (State.eccRead_keeps h)
  exact ⟨g.pending, fun x => ⟨swf_foldl_sset _ (fun i => x3 + i) (fun i _ => sget 0 s.mem (x2 + i)) _ _ (g.canon x).1, (g.canon x).2⟩,
    g.shadow, g.out, g.free⟩

theorem State.copyRow_keeps {b : State} {s} {x1 x2 x3} (h : Keeps b s) : Keeps b (@State.copyRow s x1 x2 x3) := by
  unfold State.copyRow
  repeat' (first | with_reducible (first | assumption | apply ite_keeps | apply State.copyWord_keeps) | (extract_lets +onlyGivenNames x; first | ((refine_lift have hx : Keeps b x := ?_; ?_); all_goals (first | (guard_hyp hx : Keeps b x; clear_value x) | subst x)) | clear_value x) | (refine foldl_keeps ?_ ?_) | (intro _ _ _))

theorem State.copyRows_keeps {b : State} {s} {x1 x2 x3 x4} (h : Keeps b s) : Keeps b (@State.copyRows s x1 x2 x3 x4) := by
  induction x4 generalizing s x3 with
  | zero => exact h
  | succ n ih => exact ih (State.modBmt_keeps (fun z => z) (State.copyRow_keeps h))

theorem State.bmtError_keeps {b : State} {s} {x1 x2} (h : Keeps b s) : Keeps b (@State.bmtError s x1 x2) := by
  unfold State.bmtError
  repeat' with_reducible (first | assumption | apply State.report_keeps | apply State.orReg_keeps)

theorem State.bmtAdvance_keeps {b : State} {s} {x1 x2 x3} (h : Keeps b s) : Keeps b (@State.bmtAdvance s x1 x2 x3) := by
  unfold State.bmtAdvance
  extract_lets y
  have hid : ∀ {b s : State} {n : Nat} {f : BmtState → BmtState}, (∀ x : BmtState, (f x).phase = .none) → Keeps b s →
      Keeps b (s.modBmt n f) := fun hf hs => State.modBmt_keeps (fun _ => .inr (hf _)) hs
  have hret : ∀ {t : State} {p : BmtPhase}, y.phase = p → p ≠ .none → (t.bmtOf x1).retired = (s.bmtOf x1).retired →
      (t.bmtOf x1).phase = (s.bmtOf x1).phase → ((t.bmtOf x1).retired = none ∨ (t.bmtOf x1).phase = .none) →
      (t.bmtOf x1).retired = none := by
    intro t p hp hn _ h2 h3
    rcases h3 with h3 | h3
    · exact h3
    · exact absurd (hp.symm.trans (h2.symm.trans h3)) hn
  split
  · exact h
  · have h1 : Keeps b (s.copyRows x1 false y.rows (x2 - y.rows)) := State.copyRows_keeps h
    obtain ⟨e1, e2⟩ := State.copyRows_bmtOf s x1 false y.rows (x2 - y.rows)
    exact ite_keeps (State.modBmt_keeps (fun z => .inl (hret ‹_› (by decide) e1 e2 z)) h1) h1
  · refine ite_keeps (hid (fun _ => rfl) (State.bmtError_keeps h)) (State.modBmt_keeps (fun z => .inl (hret ‹_› (by decide) rfl rfl z)) h)
  · have h1 : Keeps b (s.copyRows x1 true y.rows (x2 - y.rows)) := State.copyRows_keeps h
    exact ite_keeps (hid (fun _ => rfl) h1) h1
  · exact ite_keeps (hid (fun _ => rfl) (State.bmtError_keeps h)) (hid (fun _ => rfl) (State.bump_keeps h))

theorem State.bistStart_keeps {b : State} {s} {x1} (h : Keeps b s) : Keeps b (@State.bistStart s x1) := by
  unfold State.bistStart
  repeat' (first | with_reducible (first | assumption | apply ite_keeps | apply State.modTile_keeps) | (with_reducible apply Keeps.mk_other))

theorem State.bistEnd_keeps {b : State} {s} {x1 x2 x3} (h : Keeps b s) : Keeps b (@State.bistEnd s x1 x2 x3) := by
  unfold State.bistEnd
  repeat' (first | with_reducible (first | assumption | apply ite_keeps | apply State.modTile_keeps | apply State.report_keeps | apply State.setReg_keeps) | (extract_lets +onlyGivenNames x; first | ((refine_lift have hx : Keeps b x := ?_; ?_); all_goals (first | (guard_hyp hx : Keeps b x; clear_value x) | subst x)) | clear_value x) | split | (with_reducible apply Keeps.mk_other))

theorem State.mramRead_keeps {b : State} {s} {x1 x2} (h : Keeps b s) : Keeps b (@State.mramRead s x1 x2).1 := by
  unfold State.mramRead
  repeat' (first | with_reducible (first | assumption | apply ite_keeps | apply ite_fst_keeps | apply State.cwRead_keeps) | (extract_lets +onlyGivenNames x; first | ((refine_lift have hx : Keeps b x := ?_; ?_); all_goals (first | (guard_hyp hx : Keeps b x; clear_value x) | subst x)) | ((refine_lift have hx : Keeps b x.1 := ?_; ?_); all_goals (first | (guard_hyp hx : Keeps b x.1; clear_value x) | subst x)) | ((refine_lift have hx : State → _ := x; ?_); clear hx; subst x) | clear_value x) | split | (refine foldl_keeps ?_ ?_) | (refine foldl_fst_keeps ?_ ?_) | (intro _ _ _) | dsimp only | (with_reducible apply Keeps.mk_other) | (with_reducible apply Keeps.mk_free))

theorem State.scrubNext_keeps {b : State} {s} (h : Keeps b s) : Keeps b (@State.scrubNext s) := by
  unfold State.scrubNext
  repeat' (first | with_reducible (first | assumption | apply ite_keeps | apply State.cwRead_keeps | apply State.bump_keeps | apply State.setRegFld_keeps) | (extract_lets +onlyGivenNames x; first | ((refine_lift have hx : Keeps b x := ?_; ?_); all_goals (first | (guard_hyp hx : Keeps b x; clear_value x) | subst x)) | ((refine_lift have hx : Keeps b x.1 := ?_; ?_); all_goals (first | (guard_hyp hx : Keeps b x.1; clear_value x) | subst x)) | clear_value x) | dsimp only | (with_reducible apply Keeps.mk_other))

end Sys2Proof.Laws
end

