-- ==== Sys2Proof/Laws/Keeps/Uds.lean ====
section
/-! SUPPORT. The operations of Machine/Uds.lean keep the queue, the canonical forms and what has been handed outside. -/

namespace Sys2Proof.Laws

open Sys2Proof.Machine

theorem State.udsSend_keeps {b : State} {s} {x1 x2} (h : Keeps b s) : Keeps b (@State.udsSend s x1 x2) := by
  unfold State.udsSend
  repeat' (first | with_reducible (first | assumption | apply State.modNet_keeps | apply State.emit_keeps | apply State.modReg_keeps) | (extract_lets +onlyGivenNames x; first | ((refine_lift have hx : Keeps b x := ?_; ?_); all_goals (first | (guard_hyp hx : Keeps b x; clear_value x) | subst x)) | clear_value x) | split | (with_reducible apply Keeps.mk_other))

theorem State.udsPos_keeps {b : State} {s} {x1 x2} (h : Keeps b s) : Keeps b (@State.udsPos s x1 x2) := by
  unfold State.udsPos
  repeat' (first | with_reducible (first | assumption | apply ite_keeps | apply State.udsSend_keeps | apply State.modNet_keeps) | (extract_lets +onlyGivenNames x; first | ((refine_lift have hx : Keeps b x := ?_; ?_); all_goals (first | (guard_hyp hx : Keeps b x; clear_value x) | subst x)) | clear_value x) | (with_reducible apply Keeps.mk_other))

theorem State.udsNeg_keeps {b : State} {s} {x1 x2} (h : Keeps b s) : Keeps b (@State.udsNeg s x1 x2) := by
  unfold State.udsNeg
  repeat' (first | with_reducible (first | assumption | apply State.udsSend_keeps | apply State.modNet_keeps) | (with_reducible apply Keeps.mk_other))

theorem State.udsRun_keeps {b s : State} {x1 x2} {f : UdsBusy → State → State} (hf : ∀ y s, Keeps b s → Keeps b (f y s)) (h : Keeps b s) :
    Keeps b (s.udsRun x1 x2 f) := by
  unfold State.udsRun
  split
  · exact ite_keeps (hf _ s h) h
  · exact h

theorem State.imageAnswered_keeps {b : State} {s} {x1} (h : Keeps b s) : Keeps b (@State.imageAnswered s x1) := by
  unfold State.imageAnswered
  repeat' (first | with_reducible (first | assumption | apply ite_keeps | apply State.udsPos_keeps | apply State.usbAnswer_keeps | apply State.loadEnd_keeps) | split)

theorem State.setSession_keeps {b : State} {s} {x1 x2} (h : Keeps b s) : Keeps b (@State.setSession s x1 x2) := by
  unfold State.setSession
  repeat' (first | with_reducible (first | assumption | apply ite_keeps | apply State.pathStop_keeps | apply State.modNet_keeps | apply State.modSafety_keeps | apply State.modSched_keeps) | (extract_lets +onlyGivenNames x; first | ((refine_lift have hx : Keeps b x := ?_; ?_); all_goals (first | (guard_hyp hx : Keeps b x; clear_value x) | subst x)) | clear_value x) | split | (with_reducible apply Keeps.mk_other))

theorem State.udsRequest_keeps {b : State} {s} {x1 x2 x3 x4 x5} (h : Keeps b s) : Keeps b (@State.udsRequest s x1 x2 x3 x4 x5) := by
  unfold State.udsRequest
  repeat' (first | with_reducible (first | assumption | apply ite_keeps | apply State.udsSend_keeps | apply State.modNet_keeps) | (extract_lets +onlyGivenNames x; first | ((refine_lift have hx : Keeps b x := ?_; ?_); all_goals (first | (guard_hyp hx : Keeps b x; clear_value x) | subst x)) | clear_value x) | split | (with_reducible apply Keeps.mk_other))

theorem State.udsSession_keeps {b : State} {s} (h : Keeps b s) : Keeps b (@State.udsSession s) := by
  unfold State.udsSession
  repeat' (first | with_reducible (first | assumption | apply ite_keeps | apply State.setSession_keeps | apply State.udsRun_keeps | apply State.udsNeg_keeps | apply State.udsPos_keeps | apply State.modSched_keeps) | (extract_lets +onlyGivenNames x; first | ((refine_lift have hx : Keeps b x := ?_; ?_); all_goals (first | (guard_hyp hx : Keeps b x; clear_value x) | subst x)) | ((refine_lift have hx : State → _ := x; ?_); clear hx; subst x) | clear_value x) | split | (intro _ _ _) | (with_reducible apply Keeps.mk_other))

theorem State.s3_keeps {b : State} {s} (h : Keeps b s) : Keeps b (@State.s3 s) := by
  unfold State.s3
  repeat' with_reducible (first | assumption | apply ite_keeps | apply State.setSession_keeps)

theorem State.udsPending_keeps {b : State} {s} (h : Keeps b s) : Keeps b (@State.udsPending s) := by
  unfold State.udsPending
  repeat' (first | with_reducible (first | assumption | apply ite_keeps | apply State.udsSend_keeps | apply State.modNet_keeps) | split | (with_reducible apply Keeps.mk_other))

theorem State.udsHard_keeps {b : State} {s} (h : Keeps b s) : Keeps b (@State.udsHard s) := by
  unfold State.udsHard
  repeat' (first | with_reducible (first | assumption | apply ite_keeps | apply State.udsRun_keeps | apply State.deviceReset_keeps | apply State.emit_keeps) | (intro _ _ _))

theorem State.udsSoft_keeps {b : State} {s} (h : Keeps b s) : Keeps b (@State.udsSoft s) := by
  unfold State.udsSoft
  repeat' (first | with_reducible (first | assumption | apply State.setSession_keeps | apply State.udsRun_keeps | apply State.udsPos_keeps | apply State.modSched_keeps) | (intro _ _ _) | (with_reducible apply Keeps.mk_other))

theorem State.dtcRead_keeps {b : State} {s} (h : Keeps b s) : Keeps b (@State.dtcRead s) := by
  unfold State.dtcRead
  repeat' with_reducible (first | assumption | apply State.fwRead_keeps)

theorem State.udsClear_keeps {b : State} {s} {x1} (h : Keeps b s) : Keeps b (@State.udsClear s x1) := by
  unfold State.udsClear
  repeat' (first | with_reducible (first | assumption | apply ite_keeps | apply State.udsRun_keeps | apply State.udsNeg_keeps | apply State.udsPos_keeps | apply State.mramCount_keeps | apply State.modSafety_keeps) | (intro _ _ _) | (with_reducible apply Keeps.mk_other))

theorem State.udsCount_keeps {b : State} {s} {x1} (h : Keeps b s) : Keeps b (@State.udsCount s x1) := by
  unfold State.udsCount
  repeat' (first | with_reducible (first | assumption | apply State.dtcRead_keeps | apply State.udsRun_keeps | apply State.udsPos_keeps) | (intro _ _ _))

theorem State.udsByMask_keeps {b : State} {s} {x1} (h : Keeps b s) : Keeps b (@State.udsByMask s x1) := by
  unfold State.udsByMask
  repeat' (first | with_reducible (first | assumption | apply State.dtcRead_keeps | apply State.udsRun_keeps | apply State.udsPos_keeps) | (intro _ _ _))

theorem State.udsRecord_keeps {b : State} {s} {x1 x2 x3 x4} (h : Keeps b s) : Keeps b (@State.udsRecord s x1 x2 x3 x4) := by
  unfold State.udsRecord
  repeat' (first | with_reducible (first | assumption | apply ite_keeps | apply State.dtcRead_keeps | apply State.udsRun_keeps | apply State.udsNeg_keeps | apply State.udsPos_keeps) | split | (intro _ _ _))

theorem State.udsSupported_keeps {b : State} {s} (h : Keeps b s) : Keeps b (@State.udsSupported s) := by
  unfold State.udsSupported
  repeat' (first | with_reducible (first | assumption | apply State.dtcRead_keeps | apply State.udsRun_keeps | apply State.udsPos_keeps) | split | (intro _ _ _))

theorem State.udsRead_keeps {b : State} {s} {x1} (h : Keeps b s) : Keeps b (@State.udsRead s x1) := by
  unfold State.udsRead
  repeat' (first | with_reducible (first | assumption | apply ite_keeps | apply State.udsRun_keeps | apply State.udsNeg_keeps | apply State.udsPos_keeps | apply State.calRead_keeps) | (intro _ _ _))

theorem State.udsWrite_keeps {b : State} {s} {x1 x2} (h : Keeps b s) : Keeps b (@State.udsWrite s x1 x2) := by
  unfold State.udsWrite
  repeat' (first | with_reducible (first | assumption | apply ite_keeps | apply State.udsRun_keeps | apply State.udsNeg_keeps | apply State.reviseCal_keeps) | (extract_lets +onlyGivenNames x; first | ((refine_lift have hx : Keeps b x := ?_; ?_); all_goals (first | (guard_hyp hx : Keeps b x; clear_value x) | subst x)) | clear_value x) | split | (intro _ _ _) | (with_reducible apply Keeps.mk_other))

theorem State.udsSeed_keeps {b : State} {s} {x1} (h : Keeps b s) : Keeps b (@State.udsSeed s x1) := by
  unfold State.udsSeed
  repeat' (first | with_reducible (first | assumption | apply ite_keeps | apply State.udsRun_keeps | apply State.udsNeg_keeps | apply State.udsPos_keeps | apply State.modNet_keeps) | (intro _ _ _) | (with_reducible apply Keeps.mk_other))

theorem State.udsKey_keeps {b : State} {s} {x1} (h : Keeps b s) : Keeps b (@State.udsKey s x1) := by
  unfold State.udsKey
  repeat' (first | with_reducible (first | assumption | apply ite_keeps | apply State.udsRun_keeps | apply State.udsNeg_keeps | apply State.udsPos_keeps | apply State.reviseCal_keeps | apply State.keyRead_keeps | apply State.modNet_keeps) | (extract_lets +onlyGivenNames x; first | ((refine_lift have hx : Keeps b x := ?_; ?_); all_goals (first | (guard_hyp hx : Keeps b x; clear_value x) | subst x)) | ((refine_lift have hx : Keeps b x.1 := ?_; ?_); all_goals (first | (guard_hyp hx : Keeps b x.1; clear_value x) | subst x)) | ((refine_lift have hx : State → _ := x; ?_); clear hx; subst x) | clear_value x) | (intro _ _ _) | dsimp only | (with_reducible apply Keeps.mk_other))

theorem State.udsDeauth_keeps {b : State} {s} (h : Keeps b s) : Keeps b (@State.udsDeauth s) := by
  unfold State.udsDeauth
  repeat' (first | with_reducible (first | assumption | apply State.udsRun_keeps | apply State.udsPos_keeps | apply State.modNet_keeps) | (intro _ _ _) | (with_reducible apply Keeps.mk_other))

theorem State.udsCert_keeps {b : State} {s} {x1 x2 x3} (h : Keeps b s) : Keeps b (@State.udsCert s x1 x2 x3) := by
  unfold State.udsCert
  repeat' (first | with_reducible (first | assumption | apply ite_keeps | apply State.udsRun_keeps | apply State.udsNeg_keeps | apply State.udsPos_keeps | apply State.keyRead_keeps | apply State.modNet_keeps) | (extract_lets +onlyGivenNames x; first | ((refine_lift have hx : Keeps b x := ?_; ?_); all_goals (first | (guard_hyp hx : Keeps b x; clear_value x) | subst x)) | clear_value x) | (intro _ _ _) | (with_reducible apply Keeps.mk_other))

theorem State.udsOwner_keeps {b : State} {s} {x1} (h : Keeps b s) : Keeps b (@State.udsOwner s x1) := by
  unfold State.udsOwner
  repeat' (first | with_reducible (first | assumption | apply ite_keeps | apply State.udsRun_keeps | apply State.udsNeg_keeps | apply State.udsPos_keeps | apply State.modNet_keeps) | (extract_lets +onlyGivenNames x; first | ((refine_lift have hx : Keeps b x := ?_; ?_); all_goals (first | (guard_hyp hx : Keeps b x; clear_value x) | subst x)) | clear_value x) | split | (intro _ _ _) | (with_reducible apply Keeps.mk_other))

theorem State.udsAuthConf_keeps {b : State} {s} (h : Keeps b s) : Keeps b (@State.udsAuthConf s) := by
  unfold State.udsAuthConf
  repeat' (first | with_reducible (first | assumption | apply State.udsRun_keeps | apply State.udsPos_keeps) | (intro _ _ _))

theorem State.udsRoutine_keeps {b s : State} {x1 x2} {f : UdsBusy → State → State} (hf : ∀ y s, Keeps b s → Keeps b (f y s))
    (h : Keeps b s) : Keeps b (s.udsRoutine x1 x2 f) :=
  State.udsRun_keeps (fun y s hs => ite_keeps (hf y s hs) hs) h

theorem State.setRtn_keeps {b : State} {s} {x1 x2} (h : Keeps b s) : Keeps b (@State.setRtn s x1 x2) := by
  unfold State.setRtn
  repeat' (first | with_reducible (first | assumption | apply State.modNet_keeps) | dsimp only | (with_reducible apply Keeps.mk_other))

theorem State.udsPath_keeps {b : State} {s} {x1} (h : Keeps b s) : Keeps b (@State.udsPath s x1) := by
  unfold State.udsPath
  repeat' (first | with_reducible (first | assumption | apply ite_keeps | apply State.udsRoutine_keeps | apply State.udsNeg_keeps | apply State.udsPos_keeps | apply State.pathStart_keeps) | (extract_lets +onlyGivenNames x; first | ((refine_lift have hx : Keeps b x := ?_; ?_); all_goals (first | (guard_hyp hx : Keeps b x; clear_value x) | subst x)) | clear_value x) | split | (intro _ _ _))

theorem State.udsStop_keeps {b : State} {s} (h : Keeps b s) : Keeps b (@State.udsStop s) := by
  unfold State.udsStop
  repeat' (first | with_reducible (first | assumption | apply ite_keeps | apply State.udsRun_keeps | apply State.udsNeg_keeps | apply State.udsPos_keeps | apply State.pathStop_keeps) | (extract_lets +onlyGivenNames x; first | ((refine_lift have hx : Keeps b x := ?_; ?_); all_goals (first | (guard_hyp hx : Keeps b x; clear_value x) | subst x)) | clear_value x) | split | (intro _ _ _))

theorem State.udsResults_keeps {b : State} {s} (h : Keeps b s) : Keeps b (@State.udsResults s) := by
  unfold State.udsResults
  repeat' (first | with_reducible (first | assumption | apply ite_keeps | apply State.udsRun_keeps | apply State.udsNeg_keeps | apply State.udsPos_keeps) | (extract_lets +onlyGivenNames x; first | ((refine_lift have hx : Keeps b x := ?_; ?_); all_goals (first | (guard_hyp hx : Keeps b x; clear_value x) | subst x)) | ((refine_lift have hx : Keeps b x.1 := ?_; ?_); all_goals (first | (guard_hyp hx : Keeps b x.1; clear_value x) | subst x)) | clear_value x) | split | (intro _ _ _) | dsimp only)

theorem State.udsExport_keeps {b : State} {s} {x1 x2 x3} (h : Keeps b s) : Keeps b (@State.udsExport s x1 x2 x3) := by
  unfold State.udsExport
  repeat' (first | with_reducible (first | assumption | apply ite_keeps | apply State.setRtn_keeps | apply State.udsRoutine_keeps | apply State.udsNeg_keeps | apply State.udsPos_keeps | apply State.export_keeps) | (extract_lets +onlyGivenNames x; first | ((refine_lift have hx : Keeps b x := ?_; ?_); all_goals (first | (guard_hyp hx : Keeps b x; clear_value x) | subst x)) | ((refine_lift have hx : Keeps b x.1 := ?_; ?_); all_goals (first | (guard_hyp hx : Keeps b x.1; clear_value x) | subst x)) | clear_value x) | (intro _ _ _) | dsimp only)

theorem State.udsCheck_keeps {b : State} {s} (h : Keeps b s) : Keeps b (@State.udsCheck s) := by
  unfold State.udsCheck
  repeat' (first | with_reducible (first | assumption | apply ite_keeps | apply State.setRtn_keeps | apply State.udsRoutine_keeps | apply State.udsPos_keeps | apply State.planKeyRead_keeps | apply State.fwRead_keeps) | (extract_lets +onlyGivenNames x; first | ((refine_lift have hx : Keeps b x := ?_; ?_); all_goals (first | (guard_hyp hx : Keeps b x; clear_value x) | subst x)) | clear_value x) | split | (intro _ _ _))

theorem State.udsDownload_keeps {b : State} {s} {x1 x2 x3 x4} (h : Keeps b s) : Keeps b (@State.udsDownload s x1 x2 x3 x4) := by
  unfold State.udsDownload
  repeat' (first | with_reducible (first | assumption | apply ite_keeps | apply State.udsRun_keeps | apply State.udsNeg_keeps | apply State.udsPos_keeps | apply State.modNet_keeps) | (intro _ _ _) | (with_reducible apply Keeps.mk_other))

theorem State.udsTransfer_keeps {b : State} {s} {x1 x2} (h : Keeps b s) : Keeps b (@State.udsTransfer s x1 x2) := by
  unfold State.udsTransfer
  repeat' (first | with_reducible (first | assumption | apply ite_keeps | apply State.udsRun_keeps | apply State.udsNeg_keeps | apply State.udsPos_keeps | apply State.modNet_keeps) | split | (intro _ _ _) | (with_reducible apply Keeps.mk_other))

theorem State.udsExit_keeps {b : State} {s} {x1} (h : Keeps b s) : Keeps b (@State.udsExit s x1) := by
  unfold State.udsExit
  repeat' (first | with_reducible (first | assumption | apply ite_keeps | apply State.udsRun_keeps | apply State.udsNeg_keeps | apply State.imagePut_keeps | apply State.planKeyRead_keeps | apply State.modNet_keeps) | (extract_lets +onlyGivenNames x; first | ((refine_lift have hx : Keeps b x := ?_; ?_); all_goals (first | (guard_hyp hx : Keeps b x; clear_value x) | subst x)) | clear_value x) | split | (intro _ _ _) | (with_reducible apply Keeps.mk_other))

theorem State.udsPresent_keeps {b : State} {s} (h : Keeps b s) : Keeps b (@State.udsPresent s) := by
  unfold State.udsPresent
  repeat' (first | with_reducible (first | assumption | apply State.udsRun_keeps | apply State.udsPos_keeps) | (intro _ _ _))

theorem State.udsDtcSet_keeps {b : State} {s} {x1} (h : Keeps b s) : Keeps b (@State.udsDtcSet s x1) := by
  unfold State.udsDtcSet
  repeat' (first | with_reducible (first | assumption | apply ite_keeps | apply State.udsRun_keeps | apply State.udsPos_keeps | apply State.modSafety_keeps) | (intro _ _ _) | (with_reducible apply Keeps.mk_other))

theorem State.doipSend_keeps {b : State} {s} {x1 x2 x3} (h : Keeps b s) : Keeps b (@State.doipSend s x1 x2 x3) := by
  unfold State.doipSend
  repeat' (first | with_reducible (first | assumption | apply State.modNet_keeps) | (extract_lets +onlyGivenNames x; first | ((refine_lift have hx : Keeps b x := ?_; ?_); all_goals (first | (guard_hyp hx : Keeps b x; clear_value x) | subst x)) | clear_value x) | (with_reducible apply Keeps.mk_other))

theorem State.doipIdent_keeps {b : State} {s} {x1} (h : Keeps b s) : Keeps b (@State.doipIdent s x1) := by
  unfold State.doipIdent
  repeat' (first | with_reducible (first | assumption | apply ite_keeps | apply State.doipSend_keeps) | (extract_lets +onlyGivenNames x; first | ((refine_lift have hx : Keeps b x := ?_; ?_); all_goals (first | (guard_hyp hx : Keeps b x; clear_value x) | subst x)) | clear_value x))

theorem State.doipRoute_keeps {b : State} {s} {x1 x2 x3 x4} (h : Keeps b s) : Keeps b (@State.doipRoute s x1 x2 x3 x4) := by
  unfold State.doipRoute
  repeat' (first | with_reducible (first | assumption | apply ite_keeps | apply State.doipSend_keeps | apply State.modNet_keeps) | (extract_lets +onlyGivenNames x; first | ((refine_lift have hx : Keeps b x := ?_; ?_); all_goals (first | (guard_hyp hx : Keeps b x; clear_value x) | subst x)) | ((refine_lift have hx : State → _ := x; ?_); clear hx; subst x) | clear_value x) | split | (with_reducible apply Keeps.mk_other))

theorem State.doipClose_keeps {b : State} {s} {x1} (h : Keeps b s) : Keeps b (@State.doipClose s x1) := by
  unfold State.doipClose
  repeat' (first | with_reducible (first | assumption | apply ite_keeps | apply State.setSession_keeps | apply State.modNet_keeps) | (extract_lets +onlyGivenNames x; first | ((refine_lift have hx : Keeps b x := ?_; ?_); all_goals (first | (guard_hyp hx : Keeps b x; clear_value x) | subst x)) | clear_value x) | split | (with_reducible apply Keeps.mk_other))

end Sys2Proof.Laws
end

