-- ==== Sys2Proof/Laws/Keeps/Security.lean ====
section
/-! SUPPORT. The operations of Machine/Security.lean keep the queue, the canonical forms and what has been handed outside. -/

namespace Sys2Proof.Laws

open Sys2Proof.Machine

theorem State.tokenWord_keeps {b : State} {s} {x1} (h : Keeps b s) : Keeps b (@State.tokenWord s x1) := by
  unfold State.tokenWord
  repeat' (first | with_reducible (first | assumption | apply State.modSec_keeps | apply State.setReg_keeps) | (extract_lets +onlyGivenNames x; first | ((refine_lift have hx : Keeps b x := ?_; ?_); all_goals (first | (guard_hyp hx : Keeps b x; clear_value x) | subst x)) | clear_value x) | (with_reducible apply Keeps.mk_other))

theorem State.logSec_keeps {b : State} {s} {x1} (h : Keeps b s) : Keeps b (@State.logSec s x1) := by
  unfold State.logSec
  repeat' with_reducible (first | assumption | apply State.logEvent_keeps)

theorem State.tokenGo_keeps {b : State} {s} {x1 x2} (h : Keeps b s) : Keeps b (@State.tokenGo s x1 x2) := by
  unfold State.tokenGo
  repeat' (first | with_reducible (first | assumption | apply ite_keeps | apply State.logSec_keeps | apply State.keyRead_keeps | apply State.modSec_keeps | apply State.setReg_keeps) | (extract_lets +onlyGivenNames x; first | ((refine_lift have hx : Keeps b x := ?_; ?_); all_goals (first | (guard_hyp hx : Keeps b x; clear_value x) | subst x)) | clear_value x) | (refine foldl_keeps ?_ ?_) | (intro _ _ _) | (with_reducible apply Keeps.mk_other))

theorem State.mramZero_keeps {b : State} {s} {x1 x2} (h : Keeps b s) : Keeps b (@State.mramZero s x1 x2) := ⟨h.pending, fun x => ⟨swf_filter _ _ _ (h.canon x).1, (h.canon x).2⟩, h.shadow, h.out, h.free⟩

theorem State.wipeUser_keeps {b : State} {s} (h : Keeps b s) : Keeps b (@State.wipeUser s) := by
  unfold State.wipeUser
  repeat' (first | with_reducible (first | assumption | apply State.mramZero_keeps | apply State.modImages_keeps | apply State.setRegFld_keeps | apply State.setReg_keeps) | (with_reducible apply Keeps.mk_other))

theorem State.lcStep_keeps {b : State} {s} (h : Keeps b s) : Keeps b (@State.lcStep s) := by
  unfold State.lcStep
  repeat' (first | with_reducible (first | assumption | apply ite_keeps | apply State.wipeUser_keeps | apply State.logSec_keeps | apply State.deviceReset_keeps | apply State.writeEvent_keeps | apply State.modSafety_keeps | apply State.setRegFld_keeps | apply State.setReg_keeps) | (extract_lets +onlyGivenNames x; first | ((refine_lift have hx : Keeps b x := ?_; ?_); all_goals (first | (guard_hyp hx : Keeps b x; clear_value x) | subst x)) | clear_value x) | split | (refine foldl_keeps ?_ ?_) | (intro _ _ _) | (with_reducible apply Keeps.mk_other))

theorem State.provWord_keeps {b : State} {s} {x1} (h : Keeps b s) : Keeps b (@State.provWord s x1) := by
  unfold State.provWord
  repeat' (first | with_reducible (first | assumption | apply ite_keeps | apply State.modSec_keeps) | (with_reducible apply Keeps.mk_other))

theorem State.provCommit_keeps {b : State} {s} {x1} (h : Keeps b s) : Keeps b (@State.provCommit s x1) := by
  unfold State.provCommit
  repeat' (first | with_reducible (first | assumption | apply ite_keeps | apply State.mramPut_keeps | apply State.modSec_keeps | apply State.setRegFld_keeps) | (extract_lets +onlyGivenNames x; first | ((refine_lift have hx : Keeps b x := ?_; ?_); all_goals (first | (guard_hyp hx : Keeps b x; clear_value x) | subst x)) | clear_value x) | (with_reducible apply Keeps.mk_other))

theorem State.provDone_keeps {b : State} {s} (h : Keeps b s) : Keeps b (@State.provDone s) := by
  unfold State.provDone
  repeat' (first | with_reducible (first | assumption | apply ite_keeps | apply State.logSec_keeps | apply State.setRegFld_keeps) | (extract_lets +onlyGivenNames x; first | ((refine_lift have hx : Keeps b x := ?_; ?_); all_goals (first | (guard_hyp hx : Keeps b x; clear_value x) | subst x)) | clear_value x))

theorem State.provCtl_keeps {b : State} {s} {x1} (h : Keeps b s) : Keeps b (@State.provCtl s x1) := by
  unfold State.provCtl
  repeat' (first | with_reducible (first | assumption | apply ite_keeps | apply State.provDone_keeps | apply State.provCommit_keeps | apply State.modSec_keeps | apply State.setReg_keeps) | (extract_lets +onlyGivenNames x; first | ((refine_lift have hx : Keeps b x := ?_; ?_); all_goals (first | (guard_hyp hx : Keeps b x; clear_value x) | subst x)) | clear_value x) | (with_reducible apply Keeps.mk_other))

theorem State.respWord_keeps {b : State} {s} {x1} (h : Keeps b s) : Keeps b (@State.respWord s x1) := by
  unfold State.respWord
  repeat' (first | with_reducible (first | assumption | apply State.modSec_keeps | apply State.setReg_keeps) | (extract_lets +onlyGivenNames x; first | ((refine_lift have hx : Keeps b x := ?_; ?_); all_goals (first | (guard_hyp hx : Keeps b x; clear_value x) | subst x)) | clear_value x) | (with_reducible apply Keeps.mk_other))

theorem State.dbgGo_keeps {b : State} {s} {x1 x2 x3} (h : Keeps b s) : Keeps b (@State.dbgGo s x1 x2 x3) := by
  unfold State.dbgGo
  repeat' (first | with_reducible (first | assumption | apply ite_keeps | apply State.logSec_keeps | apply State.keyRead_keeps | apply State.setRegFld_keeps | apply State.setReg_keeps) | (extract_lets +onlyGivenNames x; first | ((refine_lift have hx : Keeps b x := ?_; ?_); all_goals (first | (guard_hyp hx : Keeps b x; clear_value x) | subst x)) | clear_value x) | (refine foldl_keeps ?_ ?_) | (intro _ _ _))

theorem State.dbgHalt_keeps {b : State} {s} {x1} (h : Keeps b s) : Keeps b (@State.dbgHalt s x1) := by
  unfold State.dbgHalt
  repeat' (first | with_reducible (first | assumption | apply ite_keeps | apply haltTile_keeps) | (extract_lets +onlyGivenNames x; first | ((refine_lift have hx : Keeps b x := ?_; ?_); all_goals (first | (guard_hyp hx : Keeps b x; clear_value x) | subst x)) | clear_value x))

theorem State.dbgStep_keeps {b : State} {s} {x1} (h : Keeps b s) : Keeps b (@State.dbgStep s x1) := by
  unfold State.dbgStep
  repeat' (first | with_reducible (first | assumption | apply ite_keeps | apply State.modTile_keeps) | (with_reducible apply Keeps.mk_other))

theorem State.dbgBreak_keeps {b : State} {s} {x1} (h : Keeps b s) : Keeps b (@State.dbgBreak s x1) := by
  unfold State.dbgBreak
  repeat' (first | with_reducible (first | assumption | apply ite_keeps | apply haltTile_keeps | apply State.modTile_keeps) | (extract_lets +onlyGivenNames x; first | ((refine_lift have hx : Keeps b x := ?_; ?_); all_goals (first | (guard_hyp hx : Keeps b x; clear_value x) | subst x)) | clear_value x) | (with_reducible apply Keeps.mk_other))

theorem State.injWrite_keeps {b : State} {s} {x1} (h : Keeps b s) : Keeps b (@State.injWrite s x1) := by
  unfold State.injWrite
  repeat' (first | with_reducible (first | assumption | apply ite_keeps | apply State.takeReport_keeps | apply State.orReg_keeps | apply State.setReg_keeps) | (extract_lets +onlyGivenNames x; first | ((refine_lift have hx : Keeps b x := ?_; ?_); all_goals (first | (guard_hyp hx : Keeps b x; clear_value x) | subst x)) | clear_value x) | split | (with_reducible apply Keeps.mk_other))

theorem State.mramCmd_keeps {b : State} {s} {x1 x2} (h : Keeps b s) : Keeps b (@State.mramCmd s x1 x2) := by
  unfold State.mramCmd
  repeat' (first | with_reducible (first | assumption | apply ite_keeps | apply State.bump_keeps | apply State.setRegFld_keeps | apply State.setReg_keeps) | (extract_lets +onlyGivenNames x; first | ((refine_lift have hx : Keeps b x := ?_; ?_); all_goals (first | (guard_hyp hx : Keeps b x; clear_value x) | subst x)) | clear_value x) | (with_reducible apply Keeps.mk_other))

theorem State.imagesHit_keeps {b : State} {s} {x1 x2} (h : Keeps b s) : Keeps b (@State.imagesHit s x1 x2) := by
  unfold State.imagesHit
  repeat' (first | with_reducible (first | assumption | apply ite_keeps | apply State.modImages_keeps | apply State.modSafety_keeps | apply State.setRegFld_keeps) | (extract_lets +onlyGivenNames x; first | ((refine_lift have hx : Keeps b x := ?_; ?_); all_goals (first | (guard_hyp hx : Keeps b x; clear_value x) | subst x)) | ((refine_lift have hx : Keeps b x.1 := ?_; ?_); all_goals (first | (guard_hyp hx : Keeps b x.1; clear_value x) | subst x)) | clear_value x) | (refine foldl_keeps ?_ ?_) | (refine foldl_fst_keeps ?_ ?_) | (intro _ _ _) | dsimp only | (with_reducible apply Keeps.mk_other))

theorem State.mramSource_keeps {b : State} {s} {x1 x2 x3} (h : Keeps b s) : Keeps b (@State.mramSource s x1 x2 x3).1 := by
  unfold State.mramSource
  repeat' (first | with_reducible (first | assumption | apply ite_keeps | apply ite_fst_keeps | apply State.mramRead_keeps | apply State.bankRead_keeps | apply State.emit_keeps) | (extract_lets +onlyGivenNames x; first | ((refine_lift have hx : Keeps b x := ?_; ?_); all_goals (first | (guard_hyp hx : Keeps b x; clear_value x) | subst x)) | ((refine_lift have hx : Keeps b x.1 := ?_; ?_); all_goals (first | (guard_hyp hx : Keeps b x.1; clear_value x) | subst x)) | clear_value x) | split | dsimp only)

theorem State.mramDone_keeps {b : State} {s} {x1} (h : Keeps b s) : Keeps b (@State.mramDone s x1) := by
  unfold State.mramDone
  repeat' (first | with_reducible (first | assumption | apply ite_keeps | apply State.mramSource_keeps | apply State.imagesHit_keeps | apply State.mramZero_keeps | apply State.imageAnswered_keeps | apply State.imageBurst_keeps | apply State.imageBusy_keeps | apply State.mramPut_keeps | apply State.mramCount_keeps | apply State.setReg_keeps) | (extract_lets +onlyGivenNames x; first | ((refine_lift have hx : Keeps b x := ?_; ?_); all_goals (first | (guard_hyp hx : Keeps b x; clear_value x) | subst x)) | ((refine_lift have hx : Keeps b x.1 := ?_; ?_); all_goals (first | (guard_hyp hx : Keeps b x.1; clear_value x) | subst x)) | ((refine_lift have hx : State → _ := x; ?_); clear hx; subst x) | clear_value x) | split | dsimp only | (with_reducible apply Keeps.mk_other))

theorem State.scKick_keeps {b : State} {s} {x1} (h : Keeps b s) : Keeps b (@State.scKick s x1) := by
  unfold State.scKick
  repeat' (first | with_reducible (first | assumption | apply ite_keeps | apply State.modSched_keeps | apply State.bump_keeps) | (with_reducible apply Keeps.mk_other))

theorem State.iswi_keeps {b : State} {s} {x1 x2 x3} (h : Keeps b s) : Keeps b (@State.iswi s x1 x2 x3) := by
  unfold State.iswi
  repeat' (first | with_reducible (first | assumption | apply ite_keeps | apply State.modTile_keeps | apply State.bump_keeps) | (with_reducible apply Keeps.mk_other))

theorem State.spqWrite_keeps {b : State} {s} {x1 x2 x3} (h : Keeps b s) : Keeps b (@State.spqWrite s x1 x2 x3) := by
  unfold State.spqWrite
  repeat' (first | with_reducible (first | assumption | apply ite_keeps | apply State.drainSpill_keeps | apply State.modTile_keeps | apply State.bump_keeps) | (extract_lets +onlyGivenNames x; first | ((refine_lift have hx : Keeps b x := ?_; ?_); all_goals (first | (guard_hyp hx : Keeps b x; clear_value x) | subst x)) | clear_value x) | (with_reducible apply Keeps.mk_other))

theorem State.patchRead_keeps {b : State} {s} {x1} (h : Keeps b s) : Keeps b (@State.patchRead s x1).1 := by
  unfold State.patchRead
  repeat' (first | with_reducible (first | assumption | apply State.setTile_keeps) | (extract_lets +onlyGivenNames x; first | ((refine_lift have hx : Keeps b x := ?_; ?_); all_goals (first | (guard_hyp hx : Keeps b x; clear_value x) | subst x)) | ((refine_lift have hx : Keeps b x.1 := ?_; ?_); all_goals (first | (guard_hyp hx : Keeps b x.1; clear_value x) | subst x)) | clear_value x) | dsimp only | (with_reducible apply Keeps.mk_other))

theorem State.patchWrite_keeps {b : State} {s} {x1 x2 x3} (h : Keeps b s) : Keeps b (@State.patchWrite s x1 x2 x3) := by
  unfold State.patchWrite
  repeat' (first | with_reducible (first | assumption | apply ite_keeps | apply State.modTile_keeps | apply State.bump_keeps) | (extract_lets +onlyGivenNames x; first | ((refine_lift have hx : Keeps b x := ?_; ?_); all_goals (first | (guard_hyp hx : Keeps b x; clear_value x) | subst x)) | clear_value x) | (with_reducible apply Keeps.mk_other))

theorem State.serialPut_keeps {b : State} {s} {x1 x2 x3 x4} (h : Keeps b s) : Keeps b (@State.serialPut s x1 x2 x3 x4) := by
  unfold State.serialPut
  repeat' (first | with_reducible (first | assumption | apply ite_keeps | apply State.emit_keeps) | (extract_lets +onlyGivenNames x; first | ((refine_lift have hx : Keeps b x := ?_; ?_); all_goals (first | (guard_hyp hx : Keeps b x; clear_value x) | subst x)) | ((refine_lift have hx : Keeps b x.1 := ?_; ?_); all_goals (first | (guard_hyp hx : Keeps b x.1; clear_value x) | subst x)) | clear_value x) | dsimp only | (with_reducible apply Keeps.mk_other))

theorem State.serialEnd_keeps {b : State} {s} {x1 x2 x3 x4 x5} (h : Keeps b s) : Keeps b (@State.serialEnd s x1 x2 x3 x4 x5) := by
  unfold State.serialEnd
  repeat' (first | with_reducible (first | assumption | apply ite_keeps | apply State.serialPut_keeps | apply State.report_keeps) | split)

theorem State.serialAccess_keeps {b : State} {s} {x1 x2 x3} (h : Keeps b s) : Keeps b (@State.serialAccess s x1 x2 x3) := by
  unfold State.serialAccess
  repeat' (first | with_reducible (first | assumption | apply ite_keeps | apply State.serialEnd_keeps | apply State.emit_keeps) | split | (with_reducible apply Keeps.mk_other))

end Sys2Proof.Laws
end

