-- ==== Sys2Proof/Laws/Keeps/CsrAccess.lean ====
section
/-! SUPPORT. The operations of Machine/CsrAccess.lean keep the queue, the canonical forms and what has been handed outside. -/

namespace Sys2Proof.Laws

open Sys2Proof.Machine

theorem State.addrErr_keeps {b : State} {s} {x1 x2} (h : Keeps b s) : Keeps b (@State.addrErr s x1 x2) := by
  unfold State.addrErr
  repeat' (first | with_reducible (first | assumption | apply ite_keeps | apply State.bump_keeps | apply State.orReg_keeps | apply State.setReg_keeps) | (extract_lets +onlyGivenNames x; first | ((refine_lift have hx : Keeps b x := ?_; ?_); all_goals (first | (guard_hyp hx : Keeps b x; clear_value x) | subst x)) | clear_value x))

theorem State.pairDrop_keeps {b : State} {s} {x1 x2} (h : Keeps b s) : Keeps b (@State.pairDrop s x1 x2) := by
  unfold State.pairDrop
  repeat' (first | assumption | dsimp only | (with_reducible apply Keeps.mk_other))

theorem State.pairKeep_keeps {b : State} {s} {x1 x2 x3} (h : Keeps b s) : Keeps b (@State.pairKeep s x1 x2 x3) := by
  unfold State.pairKeep
  repeat' (first | assumption | dsimp only | (with_reducible apply Keeps.mk_other))

theorem State.dropCaptures_keeps {b : State} {s} {x1} (h : Keeps b s) : Keeps b (@State.dropCaptures s x1) := by
  unfold State.dropCaptures
  repeat' (first | assumption | dsimp only | (with_reducible apply Keeps.mk_other))

theorem State.readEffect_keeps {b : State} {s} {x1 x2} (h : Keeps b s) : Keeps b (@State.readEffect s x1 x2) := by
  unfold State.readEffect
  repeat' (first | with_reducible (first | assumption | apply ite_keeps | apply State.patchRead_keeps | apply State.modTile_keeps | apply State.setReg_keeps) | dsimp only | (with_reducible apply Keeps.mk_other))

theorem State.csrRead_keeps {b : State} {s} {x1 x2} (h : Keeps b s) : Keeps b (@State.csrRead s x1 x2).1 := by
  unfold State.csrRead
  repeat' (first | with_reducible (first | assumption | apply ite_keeps | apply ite_fst_keeps | apply State.readEffect_keeps | apply State.dropCaptures_keeps | apply State.pairKeep_keeps | apply State.addrErr_keeps) | (extract_lets +onlyGivenNames x; first | ((refine_lift have hx : Keeps b x := ?_; ?_); all_goals (first | (guard_hyp hx : Keeps b x; clear_value x) | subst x)) | ((refine_lift have hx : Keeps b x.1 := ?_; ?_); all_goals (first | (guard_hyp hx : Keeps b x.1; clear_value x) | subst x)) | clear_value x) | split | dsimp only)

theorem State.dbgWrite_keeps {b : State} {s} {x1 x2 x3 x4} (h : Keeps b s) : Keeps b (@State.dbgWrite s x1 x2 x3 x4) := by
  unfold State.dbgWrite
  repeat' (first | with_reducible (first | assumption | apply ite_keeps | apply State.dbgStep_keeps | apply State.dbgHalt_keeps | apply State.modTile_keeps | apply State.bump_keeps) | (extract_lets +onlyGivenNames x; first | ((refine_lift have hx : Keeps b x := ?_; ?_); all_goals (first | (guard_hyp hx : Keeps b x; clear_value x) | subst x)) | ((refine_lift have hx : Keeps b x.1 := ?_; ?_); all_goals (first | (guard_hyp hx : Keeps b x.1; clear_value x) | subst x)) | clear_value x) | dsimp only | (with_reducible apply Keeps.mk_other))

theorem State.tilePut_keeps {b : State} {s} {x1 x2 x3 x4} (h : Keeps b s) : Keeps b (@State.tilePut s x1 x2 x3 x4) := by
  unfold State.tilePut
  repeat' (first | with_reducible (first | assumption | apply ite_keeps | apply State.patchWrite_keeps | apply State.spqWrite_keeps | apply State.iswi_keeps | apply State.modTile_keeps | apply State.bump_keeps) | (with_reducible apply Keeps.mk_other))

theorem State.ringCtlPut_keeps {b : State} {s} {x1 x2} (h : Keeps b s) : Keeps b (@State.ringCtlPut s x1 x2) := by
  unfold State.ringCtlPut
  repeat' with_reducible (first | assumption | apply ite_keeps | apply State.ringReset_keeps | apply State.ringEnable_keeps | apply State.modReg_keeps)

theorem State.plainPut_keeps {b : State} {s} {x1 x2 x3} (h : Keeps b s) : Keeps b (@State.plainPut s x1 x2 x3) := by
  unfold State.plainPut
  repeat' with_reducible (first | assumption | apply ite_keeps | apply State.modReg_keeps)

theorem State.regPut_keeps {b : State} {s} {x1 x2 x3 x4} (h : Keeps b s) : Keeps b (@State.regPut s x1 x2 x3 x4) := by
  unfold State.regPut
  repeat' with_reducible (first | assumption | apply ite_keeps | apply State.plainPut_keeps | apply State.ringCtlPut_keeps | apply State.scKick_keeps | apply State.mramCmd_keeps | apply State.injWrite_keeps | apply State.respWord_keeps | apply State.provCtl_keeps | apply State.provWord_keeps | apply State.tokenWord_keeps | apply State.ceCtl_keeps | apply State.setRegFld_keeps | apply State.setReg_keeps)

theorem State.csrWrite_keeps {b : State} {s} {x1 x2 x3} (h : Keeps b s) : Keeps b (@State.csrWrite s x1 x2 x3) := by
  unfold State.csrWrite
  repeat' (first | with_reducible (first | assumption | apply ite_keeps | apply State.regPut_keeps | apply State.tilePut_keeps | apply State.dbgWrite_keeps | apply State.dropCaptures_keeps | apply State.pairKeep_keeps | apply State.pairDrop_keeps | apply State.addrErr_keeps | apply State.spqWrite_keeps | apply State.bump_keeps) | (extract_lets +onlyGivenNames x; first | ((refine_lift have hx : Keeps b x := ?_; ?_); all_goals (first | (guard_hyp hx : Keeps b x; clear_value x) | subst x)) | clear_value x) | split)

theorem State.csrReads_keeps {b : State} {s} {x1 x2} (h : Keeps b s) : Keeps b (@State.csrReads s x1 x2).1 := by
  unfold State.csrReads
  repeat' (first | with_reducible (first | assumption | apply State.csrRead_keeps) | (refine foldl_fst_keeps ?_ ?_) | (intro _ _ _) | dsimp only)

theorem State.csrBytes_keeps {b : State} {s} {x1 x2 x3} (h : Keeps b s) : Keeps b (@State.csrBytes s x1 x2 x3).1 := by
  unfold State.csrBytes
  repeat' (first | with_reducible (first | assumption | apply State.csrReads_keeps) | (extract_lets +onlyGivenNames x; first | ((refine_lift have hx : Keeps b x := ?_; ?_); all_goals (first | (guard_hyp hx : Keeps b x; clear_value x) | subst x)) | ((refine_lift have hx : Keeps b x.1 := ?_; ?_); all_goals (first | (guard_hyp hx : Keeps b x.1; clear_value x) | subst x)) | clear_value x) | dsimp only)

theorem State.csrPut_keeps {b : State} {s} {x1 x2 x3} (h : Keeps b s) : Keeps b (@State.csrPut s x1 x2 x3) := by
  unfold State.csrPut
  repeat' (first | with_reducible (first | assumption | apply ite_keeps | apply State.csrWrite_keeps | apply State.addrErr_keeps) | (extract_lets +onlyGivenNames x; first | ((refine_lift have hx : Keeps b x := ?_; ?_); all_goals (first | (guard_hyp hx : Keeps b x; clear_value x) | subst x)) | clear_value x) | (refine foldl_keeps ?_ ?_) | (intro _ _ _))

theorem State.csrAnswer_keeps {b : State} {s} {x1 x2} (h : Keeps b s) : Keeps b (@State.csrAnswer s x1 x2) := by
  unfold State.csrAnswer
  repeat' (first | with_reducible (first | assumption | apply State.csrRead_keeps | apply State.emit_keeps) | (extract_lets +onlyGivenNames x; first | ((refine_lift have hx : Keeps b x := ?_; ?_); all_goals (first | (guard_hyp hx : Keeps b x; clear_value x) | subst x)) | ((refine_lift have hx : Keeps b x.1 := ?_; ?_); all_goals (first | (guard_hyp hx : Keeps b x.1; clear_value x) | subst x)) | clear_value x) | dsimp only)

end Sys2Proof.Laws
end

