-- ==== Sys2Proof/Laws/Keeps/Fabric.lean ====
section
/-! SUPPORT. The operations of Machine/Fabric.lean keep the queue, the canonical forms and what has been handed outside. -/

namespace Sys2Proof.Laws

open Sys2Proof.Machine

theorem State.sendFlit_keeps {b : State} {s} {x1 x2 x3} (h : Keeps b s) : Keeps b (@State.sendFlit s x1 x2 x3) := by
  unfold State.sendFlit
  repeat' (first | with_reducible (first | assumption | apply State.modLk_keeps | apply State.emit_keeps) | (extract_lets +onlyGivenNames x; first | ((refine_lift have hx : Keeps b x := ?_; ?_); all_goals (first | (guard_hyp hx : Keeps b x; clear_value x) | subst x)) | clear_value x) | split | (with_reducible apply Keeps.mk_other))

theorem State.askPartner_keeps {b : State} {s} {x1 x2 x3 x4 x5} (h : Keeps b s) : Keeps b (@State.askPartner s x1 x2 x3 x4 x5) := by
  unfold State.askPartner
  repeat' (first | with_reducible (first | assumption | apply State.sendFlit_keeps | apply State.modLk_keeps) | (extract_lets +onlyGivenNames x; first | ((refine_lift have hx : Keeps b x := ?_; ?_); all_goals (first | (guard_hyp hx : Keeps b x; clear_value x) | subst x)) | clear_value x) | (with_reducible apply Keeps.mk_other))

theorem State.fabricRead_keeps {b : State} {s} {x1 x2 x3 x4} (h : Keeps b s) : Keeps b (@State.fabricRead s x1 x2 x3 x4).1 := by
  unfold State.fabricRead
  repeat' (first | with_reducible (first | assumption | apply ite_keeps | apply ite_fst_keeps | apply State.sendFlit_keeps | apply State.csrBytes_keeps | apply State.dropCaptures_keeps | apply State.mramRead_keeps | apply State.bankRead_keeps | apply State.emit_keeps) | (extract_lets +onlyGivenNames x; first | ((refine_lift have hx : Keeps b x := ?_; ?_); all_goals (first | (guard_hyp hx : Keeps b x; clear_value x) | subst x)) | ((refine_lift have hx : Keeps b x.1 := ?_; ?_); all_goals (first | (guard_hyp hx : Keeps b x.1; clear_value x) | subst x)) | clear_value x) | split | dsimp only)

theorem State.fabricWrite_keeps {b : State} {s} {x1 x2 x3} (h : Keeps b s) : Keeps b (@State.fabricWrite s x1 x2 x3).1 := by
  unfold State.fabricWrite
  repeat' (first | with_reducible (first | assumption | apply ite_keeps | apply ite_fst_keeps | apply State.sendFlit_keeps | apply State.csrPut_keeps | apply State.dropCaptures_keeps | apply State.bankWrite_keeps | apply State.emit_keeps) | (extract_lets +onlyGivenNames x; first | ((refine_lift have hx : Keeps b x := ?_; ?_); all_goals (first | (guard_hyp hx : Keeps b x; clear_value x) | subst x)) | ((refine_lift have hx : Keeps b x.1 := ?_; ?_); all_goals (first | (guard_hyp hx : Keeps b x.1; clear_value x) | subst x)) | clear_value x) | split | dsimp only)

theorem State.bar0_keeps {b : State} {s} {x1} (h : Keeps b s) : Keeps b (@State.bar0 s x1) := by
  unfold State.bar0
  repeat' (first | with_reducible (first | assumption | apply ite_keeps | apply State.csrWrite_keeps | apply State.csrRead_keeps | apply State.addrErr_keeps | apply State.emit_keeps | apply State.orReg_keeps) | (extract_lets +onlyGivenNames x; first | ((refine_lift have hx : Keeps b x := ?_; ?_); all_goals (first | (guard_hyp hx : Keeps b x; clear_value x) | subst x)) | ((refine_lift have hx : Keeps b x.1 := ?_; ?_); all_goals (first | (guard_hyp hx : Keeps b x.1; clear_value x) | subst x)) | clear_value x) | split | (refine foldl_keeps ?_ ?_) | (refine foldl_fst_keeps ?_ ?_) | (intro _ _ _) | dsimp only)

theorem State.bar4Err_keeps {b : State} {s} {x1 x2} (h : Keeps b s) : Keeps b (@State.bar4Err s x1 x2) := by
  unfold State.bar4Err
  repeat' with_reducible (first | assumption | apply State.emit_keeps | apply State.orReg_keeps)

theorem State.bar4Read_keeps {b : State} {s} {x1 x2 x3} (h : Keeps b s) : Keeps b (@State.bar4Read s x1 x2 x3) := by
  unfold State.bar4Read
  repeat' (first | with_reducible (first | assumption | apply ite_keeps | apply ite_fst_keeps | apply State.bar4Err_keeps | apply State.fabricRead_keeps | apply State.askPartner_keeps | apply State.emit_keeps) | (extract_lets +onlyGivenNames x; first | ((refine_lift have hx : Keeps b x := ?_; ?_); all_goals (first | (guard_hyp hx : Keeps b x; clear_value x) | subst x)) | ((refine_lift have hx : Keeps b x.1 := ?_; ?_); all_goals (first | (guard_hyp hx : Keeps b x.1; clear_value x) | subst x)) | ((refine_lift have hx : State → _ := x; ?_); clear hx; subst x) | clear_value x) | split | (refine foldl_keeps ?_ ?_) | (refine foldl_fst_keeps ?_ ?_) | (intro _ _ _) | dsimp only | (with_reducible apply Keeps.mk_other) | (with_reducible apply Keeps.mk_free))

theorem State.bar4Write_keeps {b : State} {s} {x1 x2 x3} (h : Keeps b s) : Keeps b (@State.bar4Write s x1 x2 x3) := by
  unfold State.bar4Write
  repeat' (first | with_reducible (first | assumption | apply ite_keeps | apply State.bar4Err_keeps | apply State.fabricWrite_keeps | apply State.askPartner_keeps) | (extract_lets +onlyGivenNames x; first | ((refine_lift have hx : Keeps b x := ?_; ?_); all_goals (first | (guard_hyp hx : Keeps b x; clear_value x) | subst x)) | ((refine_lift have hx : Keeps b x.1 := ?_; ?_); all_goals (first | (guard_hyp hx : Keeps b x.1; clear_value x) | subst x)) | clear_value x) | (refine foldl_keeps ?_ ?_) | (refine foldl_fst_keeps ?_ ?_) | (intro _ _ _) | dsimp only)

theorem State.bar4_keeps {b : State} {s} {x1} (h : Keeps b s) : Keeps b (@State.bar4 s x1) := by
  unfold State.bar4
  repeat' (first | with_reducible (first | assumption | apply ite_keeps | apply State.bar4Write_keeps | apply State.bar4Read_keeps | apply State.bar4Err_keeps) | split)

theorem State.flitRead_keeps {b : State} {s} {x1 x2 x3} (h : Keeps b s) : Keeps b (@State.flitRead s x1 x2 x3) := by
  unfold State.flitRead
  repeat' (first | with_reducible (first | assumption | apply ite_keeps | apply State.fabricRead_keeps | apply State.emit_keeps) | (extract_lets +onlyGivenNames x; first | ((refine_lift have hx : Keeps b x := ?_; ?_); all_goals (first | (guard_hyp hx : Keeps b x; clear_value x) | subst x)) | ((refine_lift have hx : Keeps b x.1 := ?_; ?_); all_goals (first | (guard_hyp hx : Keeps b x.1; clear_value x) | subst x)) | clear_value x) | dsimp only)

theorem State.flitWrite_keeps {b : State} {s} {x1 x2 x3} (h : Keeps b s) : Keeps b (@State.flitWrite s x1 x2 x3) := by
  unfold State.flitWrite
  repeat' (first | with_reducible (first | assumption | apply ite_keeps | apply State.fabricWrite_keeps | apply State.emit_keeps) | (extract_lets +onlyGivenNames x; first | ((refine_lift have hx : Keeps b x := ?_; ?_); all_goals (first | (guard_hyp hx : Keeps b x; clear_value x) | subst x)) | ((refine_lift have hx : Keeps b x.1 := ?_; ?_); all_goals (first | (guard_hyp hx : Keeps b x.1; clear_value x) | subst x)) | clear_value x) | dsimp only)

theorem State.flitAnswer_keeps {b : State} {s} {x1 x2 x3 x4} (h : Keeps b s) : Keeps b (@State.flitAnswer s x1 x2 x3 x4) := by
  unfold State.flitAnswer
  repeat' (first | with_reducible (first | assumption | apply ite_keeps | apply State.bar4Err_keeps | apply State.modLk_keeps | apply State.emit_keeps | apply State.modTile_keeps) | (extract_lets +onlyGivenNames x; first | ((refine_lift have hx : Keeps b x := ?_; ?_); all_goals (first | (guard_hyp hx : Keeps b x; clear_value x) | subst x)) | clear_value x) | split | (with_reducible apply Keeps.mk_other))

end Sys2Proof.Laws
end

