-- ==== Sys2Proof/Laws/Keeps/FarOps.lean ====
section
/-! SUPPORT. The operations of Machine/FarOps.lean keep the queue, the canonical forms and what has been handed outside. -/

namespace Sys2Proof.Laws

open Sys2Proof.Machine

theorem State.farPerform_keeps {b : State} {s} {x1 x2 x3} (h : Keeps b s) : Keeps b (@State.farPerform s x1 x2 x3) := by
  unfold State.farPerform
  repeat' (first | with_reducible (first | assumption | apply ite_keeps | apply State.fabricWrite_keeps | apply State.fabricRead_keeps | apply State.askPartner_keeps | apply State.farDone_keeps) | (extract_lets +onlyGivenNames x; first | ((refine_lift have hx : Keeps b x := ?_; ?_); all_goals (first | (guard_hyp hx : Keeps b x; clear_value x) | subst x)) | ((refine_lift have hx : Keeps b x.1 := ?_; ?_); all_goals (first | (guard_hyp hx : Keeps b x.1; clear_value x) | subst x)) | clear_value x) | split | dsimp only)

theorem State.farRelease_keeps {b : State} {s} {x1 x2} (h : Keeps b s) : Keeps b (@State.farRelease s x1 x2) := by
  unfold State.farRelease
  repeat' (first | with_reducible (first | assumption | apply ite_keeps | apply State.modFar_keeps) | (extract_lets +onlyGivenNames x; first | ((refine_lift have hx : Keeps b x := ?_; ?_); all_goals (first | (guard_hyp hx : Keeps b x; clear_value x) | subst x)) | clear_value x) | split | (with_reducible apply Keeps.mk_other))

theorem State.crcCount_keeps {b : State} {s} {x1} (h : Keeps b s) : Keeps b (@State.crcCount s x1) := by
  unfold State.crcCount
  repeat' (first | with_reducible (first | assumption | apply ite_keeps | apply State.report_keeps | apply State.bump_keeps | apply State.setReg_keeps) | (extract_lets +onlyGivenNames x; first | ((refine_lift have hx : Keeps b x := ?_; ?_); all_goals (first | (guard_hyp hx : Keeps b x; clear_value x) | subst x)) | clear_value x))

theorem State.farLost_keeps {b : State} {s} {x1 x2} (h : Keeps b s) : Keeps b (@State.farLost s x1 x2) := by
  unfold State.farLost
  repeat' (first | with_reducible (first | assumption | apply ite_keeps | apply State.modLk_keeps | apply State.farDone_keeps) | (extract_lets +onlyGivenNames x; first | ((refine_lift have hx : Keeps b x := ?_; ?_); all_goals (first | (guard_hyp hx : Keeps b x; clear_value x) | subst x)) | clear_value x) | split | (with_reducible apply Keeps.mk_other))

theorem State.semPerform_keeps {b : State} {s} {x1 x2} (h : Keeps b s) : Keeps b (@State.semPerform s x1 x2) := by
  unfold State.semPerform
  repeat' (first | with_reducible (first | assumption | apply ite_keeps | apply State.farDone_keeps | apply State.memWrite_keeps | apply State.eccReadRange_keeps) | (extract_lets +onlyGivenNames x; first | ((refine_lift have hx : Keeps b x := ?_; ?_); all_goals (first | (guard_hyp hx : Keeps b x; clear_value x) | subst x)) | ((refine_lift have hx : Keeps b x.1 := ?_; ?_); all_goals (first | (guard_hyp hx : Keeps b x.1; clear_value x) | subst x)) | clear_value x) | split | dsimp only)

theorem State.semMeet_keeps {b : State} {s} {x1} (h : Keeps b s) : Keeps b (@State.semMeet s x1) := by
  unfold State.semMeet
  repeat' (first | with_reducible (first | assumption | apply State.semPerform_keeps) | (refine foldl_keeps ?_ ?_) | (refine foldl_fst_keeps ?_ ?_) | (intro _ _ _) | dsimp only)

theorem State.sporeDeliver_keeps {b : State} {s} {x1 x2} (h : Keeps b s) : Keeps b (@State.sporeDeliver s x1 x2) := by
  unfold State.sporeDeliver
  repeat' (first | with_reducible (first | assumption | apply ite_keeps | apply State.farDone_keeps | apply State.putSpore_keeps | apply State.eccReadRange_keeps) | (extract_lets +onlyGivenNames x; first | ((refine_lift have hx : Keeps b x := ?_; ?_); all_goals (first | (guard_hyp hx : Keeps b x; clear_value x) | subst x)) | ((refine_lift have hx : Keeps b x.1 := ?_; ?_); all_goals (first | (guard_hyp hx : Keeps b x.1; clear_value x) | subst x)) | clear_value x) | split | dsimp only)

theorem State.putDest_keeps {b : State} {s} {x1 x2 x3} (h : Keeps b s) : Keeps b (@State.putDest s x1 x2 x3) := by
  unfold State.putDest
  repeat' (first | with_reducible (first | assumption | apply State.localWrite_keeps | apply State.modTile_keeps) | split)

theorem State.farComplete_keeps {b : State} {s} {x1 x2} (h : Keeps b s) : Keeps b (@State.farComplete s x1 x2) := by
  unfold State.farComplete
  repeat' (first | with_reducible (first | assumption | apply ite_keeps | apply State.putDest_keeps | apply resumeJoin_keeps | apply State.modTile_keeps) | (extract_lets +onlyGivenNames x; first | ((refine_lift have hx : Keeps b x := ?_; ?_); all_goals (first | (guard_hyp hx : Keeps b x; clear_value x) | subst x)) | ((refine_lift have hx : Keeps b x.1 := ?_; ?_); all_goals (first | (guard_hyp hx : Keeps b x.1; clear_value x) | subst x)) | ((refine_lift have hx : State → _ := x; ?_); clear hx; subst x) | clear_value x) | split | dsimp only)

end Sys2Proof.Laws
end

