-- ==== Sys2Proof/Laws/Keeps/Routines.lean ====
section
/-! SUPPORT. The operations of Machine/Routines.lean keep the queue, the canonical forms and what has been handed outside. -/

namespace Sys2Proof.Laws

open Sys2Proof.Machine

/-- An element whose action keeps it, from the state it was computed in. -/
def ElKeeps (s : State) (o : ElemOut) : Prop :=
  (∀ b t : State, Keeps b s → Keeps b t → Keeps b (o.act t)) ∧ ∀ b t : State, Keeps b s → Keeps b t → Keeps b (o.wait t)

theorem ElKeeps.lit {s : State} {a b c d e act w} (h : ∀ b t : State, Keeps b s → Keeps b t → Keeps b (act t)) :
    ElKeeps s (ElemOut.mk a b c d e act w id) := ⟨h, fun _ _ _ ht => ht⟩

theorem ElKeeps.full {s : State} {a b c d e act w wait} (h : ∀ b t : State, Keeps b s → Keeps b t → Keeps b (act t))
    (hw : ∀ b t : State, Keeps b s → Keeps b t → Keeps b (wait t)) : ElKeeps s (ElemOut.mk a b c d e act w wait) := ⟨h, hw⟩

theorem ElKeeps.work {s : State} {o : ElemOut} {w} (h : ElKeeps s o) : ElKeeps s { o with work := w } := h

theorem el_ite_keeps {s : State} {x y : ElemOut} {c : Prop} [Decidable c] (hx : ElKeeps s x) (hy : ElKeeps s y) :
    ElKeeps s (if c then x else y) := by
  by_cases h : c
  · rw [if_pos h]; exact hx
  · rw [if_neg h]; exact hy

theorem elemOk_keeps {s : State} {fl act} (h : ∀ b t : State, Keeps b t → Keeps b (act t)) : ElKeeps s (elemOk fl act) :=
  ⟨fun b t _ ht => h b t ht, fun _ _ _ ht => ht⟩

theorem elemBad_keeps {s : State} {a c d act} (h : ∀ b t : State, Keeps b t → Keeps b (act t)) : ElKeeps s (elemBad a c d act) :=
  ⟨fun b t _ ht => h b t ht, fun _ _ _ ht => ht⟩

theorem State.localReads_keeps {b : State} {s} {x1 x2} (h : Keeps b s) : Keeps b (@State.localReads s x1 x2) := by
  unfold State.localReads
  repeat' (first | with_reducible (first | assumption | apply ite_keeps | apply State.eccReadRange_keeps) | (refine foldl_keeps ?_ ?_) | (refine foldl_fst_keeps ?_ ?_) | (intro _ _ _) | dsimp only)

theorem State.localElem_keeps {s : State} {x1 x2 x3} : ElKeeps s (@State.localElem s x1 x2 x3) := by
  unfold State.localElem
  repeat' (first | with_reducible (first | assumption | apply State.localReads_keeps | apply elemBad_keeps | apply elemOk_keeps | apply State.localWrite_keeps | apply el_ite_keeps) | (extract_lets +onlyGivenNames x; subst x) | split | (refine ElKeeps.lit ?_ ; intro b t hs ht) | (refine foldl_keeps ?_ ?_) | (refine foldl_fst_keeps ?_ ?_) | (intro _ _ _) | dsimp only)

theorem State.intElem_keeps {s : State} {x1 x2} : ElKeeps s (@State.intElem s x1 x2) := by
  unfold State.intElem
  repeat' (first | with_reducible (first | assumption | apply ite_keeps | apply elemBad_keeps | apply elemOk_keeps | apply retireOne_keeps | apply State.modTile_keeps | apply el_ite_keeps) | (extract_lets +onlyGivenNames x; subst x) | split | (refine ElKeeps.lit ?_ ; intro b t hs ht) | (refine foldl_keeps ?_ ?_) | (refine foldl_fst_keeps ?_ ?_) | (intro _ _ _) | dsimp only | (with_reducible apply Keeps.mk_other))

theorem fpElem_keeps {s : State} {x0 x1} : ElKeeps s (@fpElem x0 x1) := by
  unfold fpElem
  repeat' (first | with_reducible (first | assumption | apply ite_keeps | apply elemOk_keeps | apply retireOne_keeps | apply el_ite_keeps) | (extract_lets +onlyGivenNames x; subst x) | (refine ElKeeps.lit ?_ ; intro b t hs ht) | (refine foldl_keeps ?_ ?_) | (intro _ _ _) | (with_reducible apply Keeps.mk_other))

theorem State.biqElem_keeps {s : State} {x1 x2 x3} : ElKeeps s (@State.biqElem s x1 x2 x3) := by
  unfold State.biqElem
  extract_lets +onlyGivenNames e p
  split
  · exact elemBad_keeps fun _ _ ht => State.localReads_keeps ht
  · exact ElKeeps.work State.localElem_keeps

theorem State.cmacElem_keeps {s : State} {x1 x2 x3} : ElKeeps s (@State.cmacElem s x1 x2 x3) := by
  unfold State.cmacElem
  repeat' (first | with_reducible (first | assumption | apply State.localElem_keeps | apply el_ite_keeps) | (extract_lets +onlyGivenNames x; subst x) | (refine ElKeeps.lit ?_ ; intro b t hs ht) | (intro _ _ _))

theorem State.nlmsElem_keeps {s : State} {x1 x2 x3} : ElKeeps s (@State.nlmsElem s x1 x2 x3) := by
  unfold State.nlmsElem
  repeat' (first | with_reducible (first | assumption | apply State.localElem_keeps | apply State.localReads_keeps | apply elemBad_keeps | apply el_ite_keeps) | (extract_lets +onlyGivenNames x; subst x) | split | (refine ElKeeps.lit ?_ ; intro b t hs ht) | (intro _ _ _) | dsimp only)

theorem State.fftElem_keeps {s : State} {x1 x2 x3} : ElKeeps s (@State.fftElem s x1 x2 x3) := by
  unfold State.fftElem
  repeat' (first | with_reducible (first | assumption | apply State.localElem_keeps | apply State.localReads_keeps | apply elemBad_keeps | apply el_ite_keeps) | (extract_lets +onlyGivenNames x; subst x) | split | (refine ElKeeps.lit ?_ ; intro b t hs ht) | (intro _ _ _) | dsimp only)

theorem State.meterElem_keeps {s : State} {x1 x2 x3} : ElKeeps s (@State.meterElem s x1 x2 x3) := by
  unfold State.meterElem
  exact ElKeeps.work State.localElem_keeps

theorem State.farElem_keeps {b : State} {s} {x1 x2 x3 x4 x5 x6 x7} (h : Keeps b s) : Keeps b (@State.farElem s x1 x2 x3 x4 x5 x6 x7).1 := by
  unfold State.farElem
  repeat' (first | with_reducible (first | assumption | apply ite_keeps | apply ite_fst_keeps | apply State.fabricWrite_keeps | apply State.fabricRead_keeps | apply State.askPartner_keeps) | (extract_lets +onlyGivenNames x; first | ((refine_lift have hx : Keeps b x := ?_; ?_); all_goals (first | (guard_hyp hx : Keeps b x; clear_value x) | subst x)) | ((refine_lift have hx : Keeps b x.1 := ?_; ?_); all_goals (first | (guard_hyp hx : Keeps b x.1; clear_value x) | subst x)) | clear_value x) | split | dsimp only)

theorem State.putLane_keeps {b : State} {s} {x1 x2 x3 x4 x5} (h : Keeps b s) : Keeps b (@State.putLane s x1 x2 x3 x4 x5) := by
  unfold State.putLane
  repeat' with_reducible (first | assumption | apply State.modTile_keeps)

theorem State.gsElem_keeps {s : State} {x1 x2 x3 x4} : ElKeeps s (@State.gsElem s x1 x2 x3 x4) := by
  unfold State.gsElem
  extract_lets +onlyGivenNames i wb a load lane r held
  have hr : ∀ b, Keeps b s → Keeps b r.1 := fun b hs => State.farElem_keeps hs
  clear_value r held
  refine el_ite_keeps (elemOk_keeps fun _ _ ht => ht) ?_
  split
  · split
    · refine ElKeeps.full (fun _ _ _ ht => ht) fun b t hs ht => ?_
      exact ite_keeps ht (hr b hs)
    · refine ElKeeps.lit fun b t hs _ => ?_
      exact ite_keeps (State.putLane_keeps (hr b hs)) (hr b hs)
  · split
    · exact elemBad_keeps fun _ _ ht => State.localReads_keeps ht
    · exact elemOk_keeps fun _ _ ht => ite_keeps (State.putLane_keeps (State.localReads_keeps ht)) (State.localWrite_keeps ht)

theorem State.modRun_keeps {b : State} {s} {x1 x2 x3} (h : Keeps b s) : Keeps b (@State.modRun s x1 x2 x3) := by
  unfold State.modRun
  repeat' (first | with_reducible (first | assumption | apply ite_keeps | apply State.modTile_keeps) | (with_reducible apply Keeps.mk_other))

theorem State.bmovElem_keeps {s : State} {x1 x2 x3 x4 x5 x6} : ElKeeps s (@State.bmovElem s x1 x2 x3 x4 x5 x6) := by
  unfold State.bmovElem
  extract_lets +onlyGivenNames c sa da rd held
  have hr : ∀ b, Keeps b s → Keeps b rd.1 := by
    intro b hs
    simp only [rd]
    split
    · exact hs
    · split
      · exact State.farElem_keeps hs
      · split
        · exact State.localReads_keeps hs
        · exact State.localReads_keeps hs
  clear_value rd held
  split
  · exact ElKeeps.full (fun _ _ _ ht => ht) fun b t hs ht => ite_keeps ht (hr b hs)
  · refine el_ite_keeps (ElKeeps.lit fun b t hs _ => hr b hs) ?_
    extract_lets +onlyGivenNames wr
    have hw : ∀ b, Keeps b s → Keeps b wr.1 := by
      intro b hs
      simp only [wr]
      split
      · exact State.farElem_keeps (hr b hs)
      · exact ite_fst_keeps (hr b hs) (State.localWrite_keeps (hr b hs))
    clear_value wr
    split
    · exact ElKeeps.full (fun _ _ _ ht => ht) fun b t hs ht => ite_keeps ht (State.modRun_keeps (hw b hs))
    · exact ElKeeps.lit fun b t hs _ => hw b hs

theorem State.element_keeps {s : State} {x1 x2 x3 x4} : ElKeeps s (@State.element s x1 x2 x3 x4) := by
  unfold State.element
  repeat' (first | with_reducible (first | assumption | apply ite_keeps | apply State.bmovElem_keeps | apply State.gsElem_keeps | apply State.meterElem_keeps | apply State.fftElem_keeps | apply State.nlmsElem_keeps | apply State.cmacElem_keeps | apply State.biqElem_keeps | apply fpElem_keeps | apply State.intElem_keeps | apply State.localElem_keeps | apply elemBad_keeps | apply el_ite_keeps) | (extract_lets +onlyGivenNames x; subst x) | split | (refine ElKeeps.lit ?_ ; intro b t hs ht) | (intro _ _ _) | dsimp only)

theorem State.routineEnd_keeps {b : State} {s} {x1 x2 x3 x4 x5 x6} (h : Keeps b s) : Keeps b (@State.routineEnd s x1 x2 x3 x4 x5 x6) := by
  unfold State.routineEnd
  repeat' with_reducible (first | assumption | apply resumeJoin_keeps | apply State.setUp_keeps | apply State.modTile_keeps)

theorem State.landAt_keeps {b : State} {s} {x1 x2} (h : Keeps b s) : Keeps b (@State.landAt s x1 x2) := by
  unfold State.landAt
  repeat' (first | with_reducible (first | assumption | apply State.modTile_keeps) | (with_reducible apply Keeps.mk_other))

theorem State.ucodeFault_keeps {b : State} {s} {x1 x2} (h : Keeps b s) : Keeps b (@State.ucodeFault s x1 x2) := by
  unfold State.ucodeFault
  repeat' with_reducible (first | assumption | apply State.landAt_keeps | apply State.routineEnd_keeps | apply State.report_keeps)

theorem State.elementDone_keeps {b s : State} {u e r n o} (ho : ElKeeps s o) (h : Keeps b s) : Keeps b (s.elementDone u e r n o) := by
  unfold State.elementDone
  refine ite_keeps (ho.2 b s h h) ?_
  extract_lets +onlyGivenNames s1 s2
  have h1 : Keeps b s1 := State.landAt_keeps (ho.1 b s h h)
  clear_value s1
  have h2 : Keeps b s2 := State.modTile_keeps h1
  clear_value s2
  exact ite_keeps (State.routineEnd_keeps h1) (ite_keeps (State.routineEnd_keeps h2) (State.modTile_keeps h2))

theorem State.routineElement_keeps {b : State} {s} {x1 x2 x3 x4} (h : Keeps b s) : Keeps b (@State.routineElement s x1 x2 x3 x4) := by
  unfold State.routineElement
  split
  · exact h
  · split
    · exact h
    · refine ite_keeps h (ite_keeps (State.ucodeFault_keeps h) ?_)
      split
      · exact State.routineEnd_keeps (State.landAt_keeps (ite_keeps (State.eccReadRange_keeps h) h))
      · exact ite_keeps (State.routineEnd_keeps (State.landAt_keeps h)) (State.elementDone_keeps State.element_keeps h)

theorem State.elemLost_keeps {b : State} {s} {x1 x2 x3} (h : Keeps b s) : Keeps b (@State.elemLost s x1 x2 x3) := by
  unfold State.elemLost
  split
  · exact h
  · split
    · exact h
    · refine ite_keeps h ?_
      extract_lets +onlyGivenNames s1
      have h1 : Keeps b s1 := ite_keeps (State.element_keeps.1 b s h h) h
      clear_value s1
      exact State.modLk_keeps (State.modTile_keeps h1)

theorem State.crcFail_keeps {b : State} {s} {x1 x2} (h : Keeps b s) : Keeps b (@State.crcFail s x1 x2) := by
  unfold State.crcFail
  repeat' (first | with_reducible (first | assumption | apply State.elemLost_keeps | apply State.farLost_keeps | apply State.crcCount_keeps) | split)

theorem State.retireCycle_keeps {b : State} {s} {x1} (h : Keeps b s) : Keeps b (@State.retireCycle s x1) := by
  unfold State.retireCycle
  repeat' with_reducible (first | assumption | apply ite_keeps | apply issueCycle_keeps)

theorem State.acceptInterrupt_keeps {b : State} {s} {x1} (h : Keeps b s) : Keeps b (@State.acceptInterrupt s x1) := by
  unfold State.acceptInterrupt
  repeat' (first | with_reducible (first | assumption | apply ite_keeps | apply deliverTrap_keeps | apply enter_keeps | apply State.modTile_keeps) | (extract_lets +onlyGivenNames x; first | ((refine_lift have hx : Keeps b x := ?_; ?_); all_goals (first | (guard_hyp hx : Keeps b x; clear_value x) | subst x)) | clear_value x) | split | (with_reducible apply Keeps.mk_other))

theorem State.noEntry_keeps {b : State} {s} {x1} (h : Keeps b s) : Keeps b (@State.noEntry s x1) := by
  unfold State.noEntry
  repeat' assumption

end Sys2Proof.Laws
end

