-- ==== Sys2Proof/Laws/Keeps/Streams.lean ====
section
/-! SUPPORT. The operations of Machine/Streams.lean keep the queue, the canonical forms and what has been handed outside. -/

namespace Sys2Proof.Laws

open Sys2Proof.Machine

theorem State.setNext_keeps {b : State} {s} {x1 x2} (h : Keeps b s) : Keeps b (@State.setNext s x1 x2) := by
  unfold State.setNext
  repeat' (first | with_reducible (first | assumption | apply State.modAud_keeps) | (with_reducible apply Keeps.mk_other))

theorem State.chanStop_keeps {b : State} {s} {x1 x2 x3} (h : Keeps b s) : Keeps b (@State.chanStop s x1 x2 x3) := by
  unfold State.chanStop
  repeat' (first | with_reducible (first | assumption | apply State.setNext_keeps | apply State.badInputs_keeps | apply State.devEvent_keeps | apply State.report_keeps | apply State.modReg_keeps) | (extract_lets +onlyGivenNames x; first | ((refine_lift have hx : Keeps b x := ?_; ?_); all_goals (first | (guard_hyp hx : Keeps b x; clear_value x) | subst x)) | clear_value x))

theorem State.chanLate_keeps {b : State} {s} {x1 x2} (h : Keeps b s) : Keeps b (@State.chanLate s x1 x2) := by
  unfold State.chanLate
  repeat' (first | with_reducible (first | assumption | apply ite_keeps | apply State.badInputs_keeps | apply State.orRegEvent_keeps | apply State.report_keeps) | (extract_lets +onlyGivenNames x; first | ((refine_lift have hx : Keeps b x := ?_; ?_); all_goals (first | (guard_hyp hx : Keeps b x; clear_value x) | subst x)) | clear_value x))

theorem State.chanEnd_keeps {b : State} {s} {x1} (h : Keeps b s) : Keeps b (@State.chanEnd s x1) := by
  unfold State.chanEnd
  repeat' with_reducible (first | assumption | apply State.setNext_keeps | apply State.modReg_keeps)

theorem State.chanOn_keeps {b : State} {s} {x1 x2} (h : Keeps b s) : Keeps b (@State.chanOn s x1 x2) := by
  unfold State.chanOn
  repeat' with_reducible (first | assumption | apply ite_keeps | apply State.chanEnd_keeps | apply State.setNext_keeps)

/-- A transfer that keeps it. -/
def XKeeps (x : Xfer) : Prop := ∀ b s : State, Keeps b s → Keeps b (x s).1

theorem runXfers_keeps {b : State} {cut : Option Nat} {xs : List Xfer} (hx : ∀ x ∈ xs, XKeeps x) :
    ∀ {i : Nat} {s : State}, Keeps b s → Keeps b (runXfers cut i xs s).1 := by
  induction xs with
  | nil => exact fun h => h
  | cons x r ih =>
    intro i s h
    unfold runXfers
    refine ite_fst_keeps h ?_
    have hy := hx x (List.mem_cons_self ..) b s h
    exact ite_fst_keeps hy (ih (fun z hz => hx z (List.mem_cons_of_mem _ hz)) hy)

theorem wrXfer_keeps {a : Nat} {bs : List Byte} : XKeeps (wrXfer a bs) := fun _ _ h => State.fabricWrite_keeps h

theorem rowWrites_keeps {a : Nat} {bs : List Byte} : ∀ x ∈ rowWrites a bs, XKeeps x := by
  intro x hx
  obtain ⟨p, -, rfl⟩ := List.mem_map.mp hx
  exact wrXfer_keeps

theorem State.landXfers_keeps {s : State} {st : Step} : ∀ x ∈ s.landXfers st, XKeeps x := by
  intro x hx
  simp only [State.landXfers, List.mem_flatMap, List.mem_map] at hx
  obtain ⟨i, -, d, -, rfl⟩ := hx
  exact wrXfer_keeps

theorem State.validXfers_keeps {s : State} {st : Step} : ∀ x ∈ s.validXfers st, XKeeps x := by
  intro x hx
  obtain ⟨d, -, hd⟩ := List.mem_flatMap.mp hx
  exact rowWrites_keeps x hd

theorem State.drainPut_keeps {b : State} {s} {x1 x2 x3} (h : Keeps b s) : Keeps b (@State.drainPut s x1 x2 x3) := by
  unfold State.drainPut
  repeat' (first | with_reducible (first | assumption | apply ite_keeps | apply State.modAud_keeps) | (extract_lets +onlyGivenNames x; first | ((refine_lift have hx : Keeps b x := ?_; ?_); all_goals (first | (guard_hyp hx : Keeps b x; clear_value x) | subst x)) | ((refine_lift have hx : Keeps b x.1 := ?_; ?_); all_goals (first | (guard_hyp hx : Keeps b x.1; clear_value x) | subst x)) | clear_value x) | split | dsimp only | (with_reducible apply Keeps.mk_other))

theorem State.hostServe_keeps {b : State} {s} {x1} (h : Keeps b s) : Keeps b (@State.hostServe s x1) := by
  unfold State.hostServe
  repeat' with_reducible (first | assumption | apply ite_keeps | apply State.serve_keeps)

theorem drainXfer_keeps {a ix n : Nat} : XKeeps (drainXfer a ix n) := by
  intro b s h
  unfold drainXfer
  extract_lets +onlyGivenNames r
  have hr : Keeps b r.1 := by
    refine foldl_fst_keeps (fun p x hp => ite_fst_keeps hp ?_) h
    exact State.fabricRead_keeps hp
  exact ite_fst_keeps hr (State.drainPut_keeps hr)

theorem State.drainXfers_keeps {s : State} {st : Step} : ∀ x ∈ s.drainXfers st, XKeeps x := by
  intro x hx
  rcases List.mem_append.mp hx with h | h
  · obtain ⟨o, -, rfl⟩ := List.mem_map.mp h
    exact drainXfer_keeps
  · split at h
    · obtain ⟨o, -, ho⟩ := List.mem_flatMap.mp h
      exact rowWrites_keeps x ho
    · cases h

theorem copyXfer_keeps {src n : Nat} {dsts : List Nat} {ext : Option (List Byte)} : XKeeps (copyXfer src n dsts ext) := by
  intro b s h
  unfold copyXfer
  extract_lets +onlyGivenNames r
  have hr : Keeps b r.1 := State.fabricRead_keeps h
  refine ite_fst_keeps hr (runXfers_keeps (fun x hx => ?_) hr)
  obtain ⟨d, -, hd⟩ := List.mem_flatMap.mp hx
  exact rowWrites_keeps x hd

theorem copyXfers_keeps {st : Step} {ext : Option (List Byte)} : ∀ x ∈ copyXfers st ext, XKeeps x := by
  intro x hx
  rcases List.mem_append.mp hx with h | h
  · obtain ⟨o, -, rfl⟩ := List.mem_map.mp h
    exact copyXfer_keeps
  · split at h
    · exact rowWrites_keeps x h
    · cases h

theorem State.runStep_keeps {b s : State} {x1 x2 x3 x4} {xs : State → Step → List Xfer} (hx : ∀ s st, ∀ x ∈ xs s st, XKeeps x)
    (h : Keeps b s) : Keeps b (s.runStep x1 x2 x3 x4 xs) := by
  unfold State.runStep
  extract_lets +onlyGivenNames s0
  have h0 : Keeps b s0 := State.hostServe_keeps h
  clear_value s0
  refine ite_keeps h ?_
  split
  · exact h0
  · extract_lets +onlyGivenNames s1
    have h1 : Keeps b s1 := State.eccReadRange_keeps h0
    clear_value s1
    refine ite_keeps (State.chanStop_keeps h1) ?_
    extract_lets +onlyGivenNames st
    refine ite_keeps (State.chanEnd_keeps h1) (ite_keeps h0 ?_)
    extract_lets +onlyGivenNames r s2 s3
    have h2 : Keeps b s2 := State.setReg_keeps (runXfers_keeps (hx s0 st) h1)
    clear_value s2
    have h3 : Keeps b s3 := ite_keeps (State.chanLate_keeps h2) h2
    clear_value s3
    exact ite_keeps (State.chanStop_keeps h3) (State.chanOn_keeps h3)

theorem State.chanRestart_keeps {b : State} {s} {x1 x2} (h : Keeps b s) : Keeps b (@State.chanRestart s x1 x2) := by
  unfold State.chanRestart
  repeat' (first | with_reducible (first | assumption | apply ite_keeps | apply State.badInputs_keeps | apply State.modAud_keeps) | (with_reducible apply Keeps.mk_other))

end Sys2Proof.Laws
end

