-- ==== Sys2Proof/Laws/Keeps/Execs.lean ====
section
/-! SUPPORT. Every command keeps what every operation keeps. -/

namespace Sys2Proof.Laws

open Sys2Proof.Machine
theorem execEccWriteback_keeps {s t : State} {x0} (h : Machine.execEccWriteback x0 s = .next t) : Keeps s t := by
  unfold Machine.execEccWriteback at h
  cases h
  repeat' (first | exact Keeps.refl _ | apply State.writeBack1_keeps)
theorem execHeldTickWake_keeps {s t : State} {x0} (h : Machine.execHeldTickWake x0 s = .next t) : Keeps s t := by
  unfold Machine.execHeldTickWake at h
  cases h
  repeat' (first | exact Keeps.refl _ | apply State.heldWake_keeps)
theorem execLcTokDataWrite_keeps {s t : State} {x0} (h : Machine.execLcTokDataWrite x0 s = .next t) : Keeps s t := by
  unfold Machine.execLcTokDataWrite at h
  cases h
  repeat' (first | with_reducible (first | exact Keeps.refl _ | assumption | apply ite_keeps | apply State.whenUp_keeps | apply State.tokenWord_keeps | exact State.landXfers_keeps | exact State.validXfers_keeps | exact State.drainXfers_keeps | exact fun _ _ => copyXfers_keeps) | (extract_lets +onlyGivenNames x; first | ((refine_lift have hx : Keeps s x := ?_; ?_); all_goals (first | (guard_hyp hx : Keeps s x; clear_value x) | subst x)) | ((refine_lift have hx : Keeps s x.1 := ?_; ?_); all_goals (first | (guard_hyp hx : Keeps s x.1; clear_value x) | subst x)) | clear_value x) | split | (intro _ _) | (refine foldl_keeps ?_ ?_) | dsimp only | with_reducible apply Keeps.mk_other)
theorem execFlitRead_keeps {s t : State} {x0 x1 x2} (h : Machine.execFlitRead x0 x1 x2 s = .next t) : Keeps s t := by
  unfold Machine.execFlitRead at h
  cases h
  repeat' (first | with_reducible (first | exact Keeps.refl _ | assumption | apply ite_keeps | apply State.whenUp_keeps | apply State.flitRead_keeps | exact State.landXfers_keeps | exact State.validXfers_keeps | exact State.drainXfers_keeps | exact fun _ _ => copyXfers_keeps) | (extract_lets +onlyGivenNames x; first | ((refine_lift have hx : Keeps s x := ?_; ?_); all_goals (first | (guard_hyp hx : Keeps s x; clear_value x) | subst x)) | ((refine_lift have hx : Keeps s x.1 := ?_; ?_); all_goals (first | (guard_hyp hx : Keeps s x.1; clear_value x) | subst x)) | clear_value x) | split | (intro _ _) | (refine foldl_keeps ?_ ?_) | dsimp only | with_reducible apply Keeps.mk_other)
theorem execShls_keeps {s t : State} {x0 x1} (h : Machine.execShls x0 x1 s = .next t) : Keeps s t := by
  unfold Machine.execShls at h
  cases h
  repeat' (first | exact Keeps.refl _ | apply issueWord_keeps)
theorem execLcTokGo_keeps {s t : State} {x0 x1} (h : Machine.execLcTokGo x0 x1 s = .next t) : Keeps s t := by
  unfold Machine.execLcTokGo at h
  cases h
  repeat' (first | with_reducible (first | exact Keeps.refl _ | assumption | apply ite_keeps | apply State.whenUp_keeps | apply State.tokenGo_keeps | exact State.landXfers_keeps | exact State.validXfers_keeps | exact State.drainXfers_keeps | exact fun _ _ => copyXfers_keeps) | (extract_lets +onlyGivenNames x; first | ((refine_lift have hx : Keeps s x := ?_; ?_); all_goals (first | (guard_hyp hx : Keeps s x; clear_value x) | subst x)) | ((refine_lift have hx : Keeps s x.1 := ?_; ?_); all_goals (first | (guard_hyp hx : Keeps s x.1; clear_value x) | subst x)) | clear_value x) | split | (intro _ _) | (refine foldl_keeps ?_ ?_) | dsimp only | with_reducible apply Keeps.mk_other)
theorem execLinkTrainDone_keeps {s t : State} {x0} (h : Machine.execLinkTrainDone x0 s = .next t) : Keeps s t := by
  unfold Machine.execLinkTrainDone at h
  cases h
  repeat' (first | with_reducible (first | exact Keeps.refl _ | assumption | apply ite_keeps | apply State.whenUp_keeps | apply State.trainDone_keeps | exact State.landXfers_keeps | exact State.validXfers_keeps | exact State.drainXfers_keeps | exact fun _ _ => copyXfers_keeps) | (extract_lets +onlyGivenNames x; first | ((refine_lift have hx : Keeps s x := ?_; ?_); all_goals (first | (guard_hyp hx : Keeps s x; clear_value x) | subst x)) | ((refine_lift have hx : Keeps s x.1 := ?_; ?_); all_goals (first | (guard_hyp hx : Keeps s x.1; clear_value x) | subst x)) | clear_value x) | split | (intro _ _) | (refine foldl_keeps ?_ ?_) | dsimp only | with_reducible apply Keeps.mk_other)
theorem execFlOutputDeadline_keeps {s t : State} {x0} (h : Machine.execFlOutputDeadline x0 s = .next t) : Keeps s t := by
  unfold Machine.execFlOutputDeadline at h
  cases h
  repeat' (first | exact Keeps.refl _ | apply State.flDeadline_keeps)
theorem execRoutineElement_keeps {s t : State} {x0 x1 x2 x3} (h : Machine.execRoutineElement x0 x1 x2 x3 s = .next t) : Keeps s t := by
  unfold Machine.execRoutineElement at h
  cases h
  repeat' (first | with_reducible (first | exact Keeps.refl _ | assumption | apply ite_keeps | apply State.whenUp_keeps | apply State.routineElement_keeps | exact State.landXfers_keeps | exact State.validXfers_keeps | exact State.drainXfers_keeps | exact fun _ _ => copyXfers_keeps) | (extract_lets +onlyGivenNames x; first | ((refine_lift have hx : Keeps s x := ?_; ?_); all_goals (first | (guard_hyp hx : Keeps s x; clear_value x) | subst x)) | ((refine_lift have hx : Keeps s x.1 := ?_; ?_); all_goals (first | (guard_hyp hx : Keeps s x.1; clear_value x) | subst x)) | clear_value x) | split | (intro _ _) | (refine foldl_keeps ?_ ?_) | dsimp only | with_reducible apply Keeps.mk_other)
theorem execMramEraseCmd_keeps {s t : State} {x0} (h : Machine.execMramEraseCmd x0 s = .next t) : Keeps s t := by
  unfold Machine.execMramEraseCmd at h
  cases h
  repeat' (first | with_reducible (first | exact Keeps.refl _ | assumption | apply ite_keeps | apply State.whenUp_keeps | apply State.mramCmd_keeps | exact State.landXfers_keeps | exact State.validXfers_keeps | exact State.drainXfers_keeps | exact fun _ _ => copyXfers_keeps) | (extract_lets +onlyGivenNames x; first | ((refine_lift have hx : Keeps s x := ?_; ?_); all_goals (first | (guard_hyp hx : Keeps s x; clear_value x) | subst x)) | ((refine_lift have hx : Keeps s x.1 := ?_; ?_); all_goals (first | (guard_hyp hx : Keeps s x.1; clear_value x) | subst x)) | clear_value x) | split | (intro _ _) | (refine foldl_keeps ?_ ?_) | dsimp only | with_reducible apply Keeps.mk_other)
theorem execBar4Access_keeps {s t : State} {x0} (h : Machine.execBar4Access x0 s = .next t) : Keeps s t := by
  unfold Machine.execBar4Access at h
  cases h
  repeat' (first | with_reducible (first | exact Keeps.refl _ | assumption | apply ite_keeps | apply State.whenUp_keeps | apply State.bar4_keeps | exact State.landXfers_keeps | exact State.validXfers_keeps | exact State.drainXfers_keeps | exact fun _ _ => copyXfers_keeps) | (extract_lets +onlyGivenNames x; first | ((refine_lift have hx : Keeps s x := ?_; ?_); all_goals (first | (guard_hyp hx : Keeps s x; clear_value x) | subst x)) | ((refine_lift have hx : Keeps s x.1 := ?_; ?_); all_goals (first | (guard_hyp hx : Keeps s x.1; clear_value x) | subst x)) | clear_value x) | split | (intro _ _) | (refine foldl_keeps ?_ ?_) | dsimp only | with_reducible apply Keeps.mk_other)
theorem execVerdict_keeps {s t : State} (h : Machine.execVerdict  s = .next t) : Keeps s t := by
  unfold Machine.execVerdict at h
  cases h
  repeat' (first | exact Keeps.refl _ | apply State.verdict_keeps)
theorem execCmdNop_keeps {s t : State} {x0} (h : Machine.execCmdNop x0 s = .next t) : Keeps s t := by
  unfold Machine.execCmdNop at h
  cases h
  repeat' (first | with_reducible (first | exact Keeps.refl _ | assumption | apply ite_keeps | apply State.whenUp_keeps | apply State.cmdNop_keeps | exact State.landXfers_keeps | exact State.validXfers_keeps | exact State.drainXfers_keeps | exact fun _ _ => copyXfers_keeps) | (extract_lets +onlyGivenNames x; first | ((refine_lift have hx : Keeps s x := ?_; ?_); all_goals (first | (guard_hyp hx : Keeps s x; clear_value x) | subst x)) | ((refine_lift have hx : Keeps s x.1 := ?_; ?_); all_goals (first | (guard_hyp hx : Keeps s x.1; clear_value x) | subst x)) | clear_value x) | split | (intro _ _) | (refine foldl_keeps ?_ ?_) | dsimp only | with_reducible apply Keeps.mk_other)
theorem execFadd_keeps {s t : State} {x0 x1} (h : Machine.execFadd x0 x1 s = .next t) : Keeps s t := by
  unfold Machine.execFadd at h
  cases h
  repeat' (first | exact Keeps.refl _ | apply issueWord_keeps)
theorem execTdone_keeps {s t : State} {x0 x1} (h : Machine.execTdone x0 x1 s = .next t) : Keeps s t := by
  unfold Machine.execTdone at h
  cases h
  repeat' (first | exact Keeps.refl _ | apply issueWord_keeps)
theorem execScKickWrite_keeps {s t : State} {x0} (h : Machine.execScKickWrite x0 s = .next t) : Keeps s t := by
  unfold Machine.execScKickWrite at h
  cases h
  repeat' (first | with_reducible (first | exact Keeps.refl _ | assumption | apply ite_keeps | apply State.whenUp_keeps | apply State.scKick_keeps | exact State.landXfers_keeps | exact State.validXfers_keeps | exact State.drainXfers_keeps | exact fun _ _ => copyXfers_keeps) | (extract_lets +onlyGivenNames x; first | ((refine_lift have hx : Keeps s x := ?_; ?_); all_goals (first | (guard_hyp hx : Keeps s x; clear_value x) | subst x)) | ((refine_lift have hx : Keeps s x.1 := ?_; ?_); all_goals (first | (guard_hyp hx : Keeps s x.1; clear_value x) | subst x)) | clear_value x) | split | (intro _ _) | (refine foldl_keeps ?_ ?_) | dsimp only | with_reducible apply Keeps.mk_other)
theorem execLoadPlanStore_keeps {s t : State} {x0} (h : Machine.execLoadPlanStore x0 s = .next t) : Keeps s t := by
  unfold Machine.execLoadPlanStore at h
  cases h
  repeat' (first | with_reducible (first | exact Keeps.refl _ | assumption | apply ite_keeps | apply State.whenUp_keeps | apply State.loadPlan_keeps | exact State.landXfers_keeps | exact State.validXfers_keeps | exact State.drainXfers_keeps | exact fun _ _ => copyXfers_keeps) | (extract_lets +onlyGivenNames x; first | ((refine_lift have hx : Keeps s x := ?_; ?_); all_goals (first | (guard_hyp hx : Keeps s x; clear_value x) | subst x)) | ((refine_lift have hx : Keeps s x.1 := ?_; ?_); all_goals (first | (guard_hyp hx : Keeps s x.1; clear_value x) | subst x)) | clear_value x) | split | (intro _ _) | (refine foldl_keeps ?_ ?_) | dsimp only | with_reducible apply Keeps.mk_other)
theorem execClearDiagnosticInformation_keeps {s t : State} {x0} (h : Machine.execClearDiagnosticInformation x0 s = .next t) : Keeps s t := by
  unfold Machine.execClearDiagnosticInformation at h
  cases h
  repeat' (first | with_reducible (first | exact Keeps.refl _ | assumption | apply ite_keeps | apply State.whenUp_keeps | apply State.udsClear_keeps | exact State.landXfers_keeps | exact State.validXfers_keeps | exact State.drainXfers_keeps | exact fun _ _ => copyXfers_keeps) | (extract_lets +onlyGivenNames x; first | ((refine_lift have hx : Keeps s x := ?_; ?_); all_goals (first | (guard_hyp hx : Keeps s x; clear_value x) | subst x)) | ((refine_lift have hx : Keeps s x.1 := ?_; ?_); all_goals (first | (guard_hyp hx : Keeps s x.1; clear_value x) | subst x)) | clear_value x) | split | (intro _ _) | (refine foldl_keeps ?_ ?_) | dsimp only | with_reducible apply Keeps.mk_other)
theorem execDrainStart_keeps {s t : State} (h : Machine.execDrainStart  s = .next t) : Keeps s t := by
  unfold Machine.execDrainStart at h
  cases h
  repeat' (first | exact Keeps.refl _ | apply State.drainStart_keeps)
theorem execCall_keeps {s t : State} {x0 x1} (h : Machine.execCall x0 x1 s = .next t) : Keeps s t := by
  unfold Machine.execCall at h
  cases h
  repeat' (first | exact Keeps.refl _ | apply issueWord_keeps)
theorem execPartnerWaitTimeout_keeps {s t : State} (h : Machine.execPartnerWaitTimeout  s = .next t) : Keeps s t := by
  unfold Machine.execPartnerWaitTimeout at h
  cases h
  repeat' (first | exact Keeps.refl _ | apply State.whenUp_keeps | apply State.waitTimeout_keeps)
theorem execExt_keeps {s t : State} {x0 x1} (h : Machine.execExt x0 x1 s = .next t) : Keeps s t := by
  unfold Machine.execExt at h
  cases h
  repeat' (first | exact Keeps.refl _ | apply issueWord_keeps)
theorem execRequestRoutineResults_keeps {s t : State} (h : Machine.execRequestRoutineResults  s = .next t) : Keeps s t := by
  unfold Machine.execRequestRoutineResults at h
  cases h
  repeat' (first | exact Keeps.refl _ | apply State.whenUp_keeps | apply State.udsResults_keeps)
theorem execPlanVerifyComplete_keeps {s t : State} {x0} (h : Machine.execPlanVerifyComplete x0 s = .next t) : Keeps s t := by
  unfold Machine.execPlanVerifyComplete at h
  cases h
  repeat' (first | with_reducible (first | exact Keeps.refl _ | assumption | apply ite_keeps | apply State.whenUp_keeps | apply State.loadVerified_keeps | exact State.landXfers_keeps | exact State.validXfers_keeps | exact State.drainXfers_keeps | exact fun _ _ => copyXfers_keeps) | (extract_lets +onlyGivenNames x; first | ((refine_lift have hx : Keeps s x := ?_; ?_); all_goals (first | (guard_hyp hx : Keeps s x; clear_value x) | subst x)) | ((refine_lift have hx : Keeps s x.1 := ?_; ?_); all_goals (first | (guard_hyp hx : Keeps s x.1; clear_value x) | subst x)) | clear_value x) | split | (intro _ _) | (refine foldl_keeps ?_ ?_) | dsimp only | with_reducible apply Keeps.mk_other)
theorem execAvtpPduSend_keeps {s t : State} {x0} (h : Machine.execAvtpPduSend x0 s = .next t) : Keeps s t := by
  unfold Machine.execAvtpPduSend at h
  cases h
  repeat' (first | exact Keeps.refl _ | apply State.avtpOut_keeps)
theorem execAadd_keeps {s t : State} {x0 x1} (h : Machine.execAadd x0 x1 s = .next t) : Keeps s t := by
  unfold Machine.execAadd at h
  cases h
  repeat' (first | exact Keeps.refl _ | apply issueWord_keeps)
theorem execDeepTileRelease_keeps {s t : State} (h : Machine.execDeepTileRelease  s = .next t) : Keeps s t := by
  unfold Machine.execDeepTileRelease at h
  cases h
  repeat' (first | exact Keeps.refl _ | apply State.whenUp_keeps | apply State.deepRelease_keeps)
theorem execAcousticPathTestStart_keeps {s t : State} {x0} (h : Machine.execAcousticPathTestStart x0 s = .next t) : Keeps s t := by
  unfold Machine.execAcousticPathTestStart at h
  cases h
  repeat' (first | with_reducible (first | exact Keeps.refl _ | assumption | apply ite_keeps | apply State.whenUp_keeps | apply State.udsPath_keeps | exact State.landXfers_keeps | exact State.validXfers_keeps | exact State.drainXfers_keeps | exact fun _ _ => copyXfers_keeps) | (extract_lets +onlyGivenNames x; first | ((refine_lift have hx : Keeps s x := ?_; ?_); all_goals (first | (guard_hyp hx : Keeps s x; clear_value x) | subst x)) | ((refine_lift have hx : Keeps s x.1 := ?_; ?_); all_goals (first | (guard_hyp hx : Keeps s x.1; clear_value x) | subst x)) | clear_value x) | split | (intro _ _) | (refine foldl_keeps ?_ ?_) | dsimp only | with_reducible apply Keeps.mk_other)
theorem execSub_keeps {s t : State} {x0 x1} (h : Machine.execSub x0 x1 s = .next t) : Keeps s t := by
  unfold Machine.execSub at h
  cases h
  repeat' (first | exact Keeps.refl _ | apply issueWord_keeps)
theorem execVfsub_keeps {s t : State} {x0 x1} (h : Machine.execVfsub x0 x1 s = .next t) : Keeps s t := by
  unfold Machine.execVfsub at h
  cases h
  repeat' (first | exact Keeps.refl _ | apply issueWord_keeps)
theorem execFcmp_keeps {s t : State} {x0 x1} (h : Machine.execFcmp x0 x1 s = .next t) : Keeps s t := by
  unfold Machine.execFcmp at h
  cases h
  repeat' (first | exact Keeps.refl _ | apply issueWord_keeps)
theorem execLinkAlign_keeps {s t : State} {x0 x1} (h : Machine.execLinkAlign x0 x1 s = .next t) : Keeps s t := by
  unfold Machine.execLinkAlign at h
  cases h
  repeat' (first | with_reducible (first | exact Keeps.refl _ | assumption | apply ite_keeps | apply State.whenUp_keeps | apply State.align_keeps | exact State.landXfers_keeps | exact State.validXfers_keeps | exact State.drainXfers_keeps | exact fun _ _ => copyXfers_keeps) | (extract_lets +onlyGivenNames x; first | ((refine_lift have hx : Keeps s x := ?_; ?_); all_goals (first | (guard_hyp hx : Keeps s x; clear_value x) | subst x)) | ((refine_lift have hx : Keeps s x.1 := ?_; ?_); all_goals (first | (guard_hyp hx : Keeps s x.1; clear_value x) | subst x)) | clear_value x) | split | (intro _ _) | (refine foldl_keeps ?_ ?_) | dsimp only | with_reducible apply Keeps.mk_other)
theorem execSubs_keeps {s t : State} {x0 x1} (h : Machine.execSubs x0 x1 s = .next t) : Keeps s t := by
  unfold Machine.execSubs at h
  cases h
  repeat' (first | exact Keeps.refl _ | apply issueWord_keeps)
theorem execVst_keeps {s t : State} {x0 x1} (h : Machine.execVst x0 x1 s = .next t) : Keeps s t := by
  unfold Machine.execVst at h
  cases h
  repeat' (first | exact Keeps.refl _ | apply issueWord_keeps)
theorem execDiagnosticSessionControl_keeps {s t : State} (h : Machine.execDiagnosticSessionControl  s = .next t) : Keeps s t := by
  unfold Machine.execDiagnosticSessionControl at h
  cases h
  repeat' (first | exact Keeps.refl _ | apply State.whenUp_keeps | apply State.udsSession_keeps)
theorem execJoinany_keeps {s t : State} {x0 x1} (h : Machine.execJoinany x0 x1 s = .next t) : Keeps s t := by
  unfold Machine.execJoinany at h
  cases h
  repeat' (first | exact Keeps.refl _ | apply issueWord_keeps)
theorem execFcvtQ31S_keeps {s t : State} {x0 x1} (h : Machine.execFcvtQ31S x0 x1 s = .next t) : Keeps s t := by
  unfold Machine.execFcvtQ31S at h
  cases h
  repeat' (first | exact Keeps.refl _ | apply issueWord_keeps)
theorem execUsb4LinkUp_keeps {s t : State} {x0 x1} (h : Machine.execUsb4LinkUp x0 x1 s = .next t) : Keeps s t := by
  unfold Machine.execUsb4LinkUp at h
  cases h
  repeat' (first | with_reducible (first | exact Keeps.refl _ | assumption | apply ite_keeps | apply State.whenUp_keeps | apply State.usb4Up_keeps | exact State.landXfers_keeps | exact State.validXfers_keeps | exact State.drainXfers_keeps | exact fun _ _ => copyXfers_keeps) | (extract_lets +onlyGivenNames x; first | ((refine_lift have hx : Keeps s x := ?_; ?_); all_goals (first | (guard_hyp hx : Keeps s x; clear_value x) | subst x)) | ((refine_lift have hx : Keeps s x.1 := ?_; ?_); all_goals (first | (guard_hyp hx : Keeps s x.1; clear_value x) | subst x)) | clear_value x) | split | (intro _ _) | (refine foldl_keeps ?_ ?_) | dsimp only | with_reducible apply Keeps.mk_other)
theorem execHubMismatch_keeps {s t : State} (h : Machine.execHubMismatch  s = .next t) : Keeps s t := by
  unfold Machine.execHubMismatch at h
  cases h
  repeat' (first | with_reducible (first | exact Keeps.refl _ | assumption | apply ite_keeps | apply State.whenUp_keeps | apply State.takeReport_keeps | exact State.landXfers_keeps | exact State.validXfers_keeps | exact State.drainXfers_keeps | exact fun _ _ => copyXfers_keeps) | (extract_lets +onlyGivenNames x; first | ((refine_lift have hx : Keeps s x := ?_; ?_); all_goals (first | (guard_hyp hx : Keeps s x; clear_value x) | subst x)) | ((refine_lift have hx : Keeps s x.1 := ?_; ?_); all_goals (first | (guard_hyp hx : Keeps s x.1; clear_value x) | subst x)) | clear_value x) | split | (intro _ _) | (refine foldl_keeps ?_ ?_) | dsimp only | with_reducible apply Keeps.mk_other)
theorem execSpore_keeps {s t : State} {x0 x1} (h : Machine.execSpore x0 x1 s = .next t) : Keeps s t := by
  unfold Machine.execSpore at h
  cases h
  repeat' (first | exact Keeps.refl _ | apply issueWord_keeps)
theorem execCommandFetch_keeps {s t : State} {x0} (h : Machine.execCommandFetch x0 s = .next t) : Keeps s t := by
  unfold Machine.execCommandFetch at h
  cases h
  repeat' (first | with_reducible (first | exact Keeps.refl _ | assumption | apply ite_keeps | apply State.whenHost_keeps | apply State.cmdFetch_keeps | exact State.landXfers_keeps | exact State.validXfers_keeps | exact State.drainXfers_keeps | exact fun _ _ => copyXfers_keeps) | (extract_lets +onlyGivenNames x; first | ((refine_lift have hx : Keeps s x := ?_; ?_); all_goals (first | (guard_hyp hx : Keeps s x; clear_value x) | subst x)) | ((refine_lift have hx : Keeps s x.1 := ?_; ?_); all_goals (first | (guard_hyp hx : Keeps s x.1; clear_value x) | subst x)) | clear_value x) | split | (intro _ _) | (refine foldl_keeps ?_ ?_) | dsimp only | with_reducible apply Keeps.mk_other)
theorem execPmicWarnLoweringEnd_keeps {s t : State} (h : Machine.execPmicWarnLoweringEnd  s = .next t) : Keeps s t := by
  unfold Machine.execPmicWarnLoweringEnd at h
  cases h
  repeat' (first | exact Keeps.refl _ | apply State.whenUp_keeps | apply State.pmicWarnEnd_keeps)
theorem execReadDataByIdentifier_keeps {s t : State} {x0} (h : Machine.execReadDataByIdentifier x0 s = .next t) : Keeps s t := by
  unfold Machine.execReadDataByIdentifier at h
  cases h
  repeat' (first | with_reducible (first | exact Keeps.refl _ | assumption | apply ite_keeps | apply State.whenUp_keeps | apply State.udsRead_keeps | exact State.landXfers_keeps | exact State.validXfers_keeps | exact State.drainXfers_keeps | exact fun _ _ => copyXfers_keeps) | (extract_lets +onlyGivenNames x; first | ((refine_lift have hx : Keeps s x := ?_; ?_); all_goals (first | (guard_hyp hx : Keeps s x; clear_value x) | subst x)) | ((refine_lift have hx : Keeps s x.1 := ?_; ?_); all_goals (first | (guard_hyp hx : Keeps s x.1; clear_value x) | subst x)) | clear_value x) | split | (intro _ _) | (refine foldl_keeps ?_ ?_) | dsimp only | with_reducible apply Keeps.mk_other)
theorem execMinuteCount_keeps {s t : State} (h : Machine.execMinuteCount  s = .next t) : Keeps s t := by
  unfold Machine.execMinuteCount at h
  cases h
  repeat' (first | exact Keeps.refl _ | apply State.minute_keeps)
theorem execVsubs_keeps {s t : State} {x0 x1} (h : Machine.execVsubs x0 x1 s = .next t) : Keeps s t := by
  unfold Machine.execVsubs at h
  cases h
  repeat' (first | exact Keeps.refl _ | apply issueWord_keeps)
theorem execLoadPlanReplace_keeps {s t : State} {x0} (h : Machine.execLoadPlanReplace x0 s = .next t) : Keeps s t := by
  unfold Machine.execLoadPlanReplace at h
  cases h
  repeat' (first | with_reducible (first | exact Keeps.refl _ | assumption | apply ite_keeps | apply State.whenUp_keeps | apply State.loadPlan_keeps | exact State.landXfers_keeps | exact State.validXfers_keeps | exact State.drainXfers_keeps | exact fun _ _ => copyXfers_keeps) | (extract_lets +onlyGivenNames x; first | ((refine_lift have hx : Keeps s x := ?_; ?_); all_goals (first | (guard_hyp hx : Keeps s x; clear_value x) | subst x)) | ((refine_lift have hx : Keeps s x.1 := ?_; ?_); all_goals (first | (guard_hyp hx : Keeps s x.1; clear_value x) | subst x)) | clear_value x) | split | (intro _ _) | (refine foldl_keeps ?_ ?_) | dsimp only | with_reducible apply Keeps.mk_other)
theorem execInterruptAccept_keeps {s t : State} {x0} (h : Machine.execInterruptAccept x0 s = .next t) : Keeps s t := by
  unfold Machine.execInterruptAccept at h
  cases h
  repeat' (first | with_reducible (first | exact Keeps.refl _ | assumption | apply ite_keeps | apply State.whenUp_keeps | apply State.acceptInterrupt_keeps | exact State.landXfers_keeps | exact State.validXfers_keeps | exact State.drainXfers_keeps | exact fun _ _ => copyXfers_keeps) | (extract_lets +onlyGivenNames x; first | ((refine_lift have hx : Keeps s x := ?_; ?_); all_goals (first | (guard_hyp hx : Keeps s x; clear_value x) | subst x)) | ((refine_lift have hx : Keeps s x.1 := ?_; ?_); all_goals (first | (guard_hyp hx : Keeps s x.1; clear_value x) | subst x)) | clear_value x) | split | (intro _ _) | (refine foldl_keeps ?_ ?_) | dsimp only | with_reducible apply Keeps.mk_other)
theorem execRowTransferWithdraw_keeps {s t : State} {x0 x1 x2 x3 x4} (h : Machine.execRowTransferWithdraw x0 x1 x2 x3 x4 s = .next t) : Keeps s t := by
  unfold Machine.execRowTransferWithdraw at h
  cases h
  repeat' (first | exact Keeps.refl _ | apply State.rowWithdraw_keeps)
theorem execSramMarginMeasure_keeps {s t : State} {x0 x1} (h : Machine.execSramMarginMeasure x0 x1 s = .next t) : Keeps s t := by
  unfold Machine.execSramMarginMeasure at h
  cases h
  repeat' (first | with_reducible (first | exact Keeps.refl _ | assumption | apply ite_keeps | apply State.whenUp_keeps | apply State.sramMargin_keeps | exact State.landXfers_keeps | exact State.validXfers_keeps | exact State.drainXfers_keeps | exact fun _ _ => copyXfers_keeps) | (extract_lets +onlyGivenNames x; first | ((refine_lift have hx : Keeps s x := ?_; ?_); all_goals (first | (guard_hyp hx : Keeps s x; clear_value x) | subst x)) | ((refine_lift have hx : Keeps s x.1 := ?_; ?_); all_goals (first | (guard_hyp hx : Keeps s x.1; clear_value x) | subst x)) | clear_value x) | split | (intro _ _) | (refine foldl_keeps ?_ ?_) | dsimp only | with_reducible apply Keeps.mk_other)
theorem execGptpSyncSend_keeps {s t : State} {x0} (h : Machine.execGptpSyncSend x0 s = .next t) : Keeps s t := by
  unfold Machine.execGptpSyncSend at h
  cases h
  repeat' (first | with_reducible (first | exact Keeps.refl _ | assumption | apply ite_keeps | apply State.whenUp_keeps | apply State.ptpSend_keeps | exact State.landXfers_keeps | exact State.validXfers_keeps | exact State.drainXfers_keeps | exact fun _ _ => copyXfers_keeps) | (extract_lets +onlyGivenNames x; first | ((refine_lift have hx : Keeps s x := ?_; ?_); all_goals (first | (guard_hyp hx : Keeps s x; clear_value x) | subst x)) | ((refine_lift have hx : Keeps s x.1 := ?_; ?_); all_goals (first | (guard_hyp hx : Keeps s x.1; clear_value x) | subst x)) | clear_value x) | split | (intro _ _) | (refine foldl_keeps ?_ ?_) | dsimp only | with_reducible apply Keeps.mk_other)
theorem execRoutineSuspend_keeps {s t : State} {x0 x1} (h : Machine.execRoutineSuspend x0 x1 s = .next t) : Keeps s t := by
  unfold Machine.execRoutineSuspend at h
  cases h
  repeat' (first | with_reducible (first | exact Keeps.refl _ | assumption | apply ite_keeps | apply State.whenUp_keeps | apply State.setUp_keeps | apply State.modTile_keeps | exact State.landXfers_keeps | exact State.validXfers_keeps | exact State.drainXfers_keeps | exact fun _ _ => copyXfers_keeps) | (extract_lets +onlyGivenNames x; first | ((refine_lift have hx : Keeps s x := ?_; ?_); all_goals (first | (guard_hyp hx : Keeps s x; clear_value x) | subst x)) | ((refine_lift have hx : Keeps s x.1 := ?_; ?_); all_goals (first | (guard_hyp hx : Keeps s x.1; clear_value x) | subst x)) | clear_value x) | split | (intro _ _) | (refine foldl_keeps ?_ ?_) | dsimp only | with_reducible apply Keeps.mk_other)
theorem execVfadd_keeps {s t : State} {x0 x1} (h : Machine.execVfadd x0 x1 s = .next t) : Keeps s t := by
  unfold Machine.execVfadd at h
  cases h
  repeat' (first | exact Keeps.refl _ | apply issueWord_keeps)
theorem execLeaveRequest_keeps {s t : State} {x0} (h : Machine.execLeaveRequest x0 s = .next t) : Keeps s t := by
  unfold Machine.execLeaveRequest at h
  cases h
  repeat' (first | exact Keeps.refl _ | apply State.leaveAsk_keeps)
theorem execSemrel_keeps {s t : State} {x0 x1} (h : Machine.execSemrel x0 x1 s = .next t) : Keeps s t := by
  unfold Machine.execSemrel at h
  cases h
  repeat' (first | exact Keeps.refl _ | apply issueWord_keeps)
theorem execFcvtHS_keeps {s t : State} {x0 x1} (h : Machine.execFcvtHS x0 x1 s = .next t) : Keeps s t := by
  unfold Machine.execFcvtHS at h
  cases h
  repeat' (first | exact Keeps.refl _ | apply issueWord_keeps)
theorem execMinu_keeps {s t : State} {x0 x1} (h : Machine.execMinu x0 x1 s = .next t) : Keeps s t := by
  unfold Machine.execMinu at h
  cases h
  repeat' (first | exact Keeps.refl _ | apply issueWord_keeps)
theorem execPllRelock_keeps {s t : State} {x0} (h : Machine.execPllRelock x0 s = .next t) : Keeps s t := by
  unfold Machine.execPllRelock at h
  cases h
  repeat' (first | with_reducible (first | exact Keeps.refl _ | assumption | apply ite_keeps | apply State.whenUp_keeps | apply State.pllRelock_keeps | exact State.landXfers_keeps | exact State.validXfers_keeps | exact State.drainXfers_keeps | exact fun _ _ => copyXfers_keeps) | (extract_lets +onlyGivenNames x; first | ((refine_lift have hx : Keeps s x := ?_; ?_); all_goals (first | (guard_hyp hx : Keeps s x; clear_value x) | subst x)) | ((refine_lift have hx : Keeps s x.1 := ?_; ?_); all_goals (first | (guard_hyp hx : Keeps s x.1; clear_value x) | subst x)) | clear_value x) | split | (intro _ _) | (refine foldl_keeps ?_ ?_) | dsimp only | with_reducible apply Keeps.mk_other)
theorem execPeerSilent_keeps {s t : State} (h : Machine.execPeerSilent  s = .next t) : Keeps s t := by
  unfold Machine.execPeerSilent at h
  cases h
  repeat' (first | exact Keeps.refl _ | apply State.whenUp_keeps | apply State.peerSilent_keeps)
theorem execFlitBulk_keeps {s t : State} {x0 x1} (h : Machine.execFlitBulk x0 x1 s = .next t) : Keeps s t := by
  unfold Machine.execFlitBulk at h
  cases h
  repeat' (first | with_reducible (first | exact Keeps.refl _ | assumption | apply ite_keeps | apply State.whenUp_keeps | apply State.flitBulk_keeps | exact State.landXfers_keeps | exact State.validXfers_keeps | exact State.drainXfers_keeps | exact fun _ _ => copyXfers_keeps) | (extract_lets +onlyGivenNames x; first | ((refine_lift have hx : Keeps s x := ?_; ?_); all_goals (first | (guard_hyp hx : Keeps s x; clear_value x) | subst x)) | ((refine_lift have hx : Keeps s x.1 := ?_; ?_); all_goals (first | (guard_hyp hx : Keeps s x.1; clear_value x) | subst x)) | clear_value x) | split | (intro _ _) | (refine foldl_keeps ?_ ?_) | dsimp only | with_reducible apply Keeps.mk_other)
theorem execSetvl_keeps {s t : State} {x0 x1} (h : Machine.execSetvl x0 x1 s = .next t) : Keeps s t := by
  unfold Machine.execSetvl at h
  cases h
  repeat' (first | exact Keeps.refl _ | apply issueWord_keeps)
theorem execCanErrorStateChange_keeps {s t : State} {x0 x1 x2} (h : Machine.execCanErrorStateChange x0 x1 x2 s = .next t) : Keeps s t := by
  unfold Machine.execCanErrorStateChange at h
  cases h
  repeat' (first | with_reducible (first | exact Keeps.refl _ | assumption | apply ite_keeps | apply State.whenUp_keeps | apply State.canCounts_keeps | exact State.landXfers_keeps | exact State.validXfers_keeps | exact State.drainXfers_keeps | exact fun _ _ => copyXfers_keeps) | (extract_lets +onlyGivenNames x; first | ((refine_lift have hx : Keeps s x := ?_; ?_); all_goals (first | (guard_hyp hx : Keeps s x; clear_value x) | subst x)) | ((refine_lift have hx : Keeps s x.1 := ?_; ?_); all_goals (first | (guard_hyp hx : Keeps s x.1; clear_value x) | subst x)) | clear_value x) | split | (intro _ _) | (refine foldl_keeps ?_ ?_) | dsimp only | with_reducible apply Keeps.mk_other)
theorem execCanFrameReceive_keeps {s t : State} {x0 x1 x2} (h : Machine.execCanFrameReceive x0 x1 x2 s = .next t) : Keeps s t := by
  unfold Machine.execCanFrameReceive at h
  cases h
  repeat' (first | with_reducible (first | exact Keeps.refl _ | assumption | apply ite_keeps | apply State.whenUp_keeps | apply State.canRx_keeps | exact State.landXfers_keeps | exact State.validXfers_keeps | exact State.drainXfers_keeps | exact fun _ _ => copyXfers_keeps) | (extract_lets +onlyGivenNames x; first | ((refine_lift have hx : Keeps s x := ?_; ?_); all_goals (first | (guard_hyp hx : Keeps s x; clear_value x) | subst x)) | ((refine_lift have hx : Keeps s x.1 := ?_; ?_); all_goals (first | (guard_hyp hx : Keeps s x.1; clear_value x) | subst x)) | clear_value x) | split | (intro _ _) | (refine foldl_keeps ?_ ?_) | dsimp only | with_reducible apply Keeps.mk_other)
theorem execFilterLoad_keeps {s t : State} {x0} (h : Machine.execFilterLoad x0 s = .next t) : Keeps s t := by
  unfold Machine.execFilterLoad at h
  cases h
  repeat' (first | with_reducible (first | exact Keeps.refl _ | assumption | apply ite_keeps | apply State.whenUp_keeps | apply State.cmdFilter_keeps | exact State.landXfers_keeps | exact State.validXfers_keeps | exact State.drainXfers_keeps | exact fun _ _ => copyXfers_keeps) | (extract_lets +onlyGivenNames x; first | ((refine_lift have hx : Keeps s x := ?_; ?_); all_goals (first | (guard_hyp hx : Keeps s x; clear_value x) | subst x)) | ((refine_lift have hx : Keeps s x.1 := ?_; ?_); all_goals (first | (guard_hyp hx : Keeps s x.1; clear_value x) | subst x)) | clear_value x) | split | (intro _ _) | (refine foldl_keeps ?_ ?_) | dsimp only | with_reducible apply Keeps.mk_other)
theorem execAmovx_keeps {s t : State} {x0 x1} (h : Machine.execAmovx x0 x1 s = .next t) : Keeps s t := by
  unfold Machine.execAmovx at h
  cases h
  repeat' (first | exact Keeps.refl _ | apply issueWord_keeps)
theorem execVmulq15_keeps {s t : State} {x0 x1} (h : Machine.execVmulq15 x0 x1 s = .next t) : Keeps s t := by
  unfold Machine.execVmulq15 at h
  cases h
  repeat' (first | exact Keeps.refl _ | apply issueWord_keeps)
theorem execCmac_keeps {s t : State} {x0 x1} (h : Machine.execCmac x0 x1 s = .next t) : Keeps s t := by
  unfold Machine.execCmac at h
  cases h
  repeat' (first | exact Keeps.refl _ | apply issueWord_keeps)
theorem execPlog_keeps {s t : State} {x0 x1} (h : Machine.execPlog x0 x1 s = .next t) : Keeps s t := by
  unfold Machine.execPlog at h
  cases h
  repeat' (first | exact Keeps.refl _ | apply issueWord_keeps)
theorem execMacroTrap_keeps {s t : State} {x0 x1} (h : Machine.execMacroTrap x0 x1 s = .next t) : Keeps s t := by
  unfold Machine.execMacroTrap at h
  cases h
  repeat' (first | exact Keeps.refl _ | apply issueWord_keeps)
theorem execPdmStuck_keeps {s t : State} {x0} (h : Machine.execPdmStuck x0 s = .next t) : Keeps s t := by
  unfold Machine.execPdmStuck at h
  cases h
  repeat' (first | exact Keeps.refl _ | apply State.pdmStuck_keeps)
theorem execSampleTick_keeps {s t : State} {x0} (h : Machine.execSampleTick x0 s = .next t) : Keeps s t := by
  unfold Machine.execSampleTick at h
  cases h
  repeat' (first | with_reducible (first | exact Keeps.refl _ | assumption | apply ite_keeps | apply State.whenUp_keeps | apply State.sampleTick_keeps | exact State.landXfers_keeps | exact State.validXfers_keeps | exact State.drainXfers_keeps | exact fun _ _ => copyXfers_keeps) | (extract_lets +onlyGivenNames x; first | ((refine_lift have hx : Keeps s x := ?_; ?_); all_goals (first | (guard_hyp hx : Keeps s x; clear_value x) | subst x)) | ((refine_lift have hx : Keeps s x.1 := ?_; ?_); all_goals (first | (guard_hyp hx : Keeps s x.1; clear_value x) | subst x)) | clear_value x) | split | (intro _ _) | (refine foldl_keeps ?_ ?_) | dsimp only | with_reducible apply Keeps.mk_other)
theorem execMramCmdComplete_keeps {s t : State} {x0} (h : Machine.execMramCmdComplete x0 s = .next t) : Keeps s t := by
  unfold Machine.execMramCmdComplete at h
  cases h
  repeat' (first | with_reducible (first | exact Keeps.refl _ | assumption | apply ite_keeps | apply State.whenUp_keeps | apply State.mramDone_keeps | exact State.landXfers_keeps | exact State.validXfers_keeps | exact State.drainXfers_keeps | exact fun _ _ => copyXfers_keeps) | (extract_lets +onlyGivenNames x; first | ((refine_lift have hx : Keeps s x := ?_; ?_); all_goals (first | (guard_hyp hx : Keeps s x; clear_value x) | subst x)) | ((refine_lift have hx : Keeps s x.1 := ?_; ?_); all_goals (first | (guard_hyp hx : Keeps s x.1; clear_value x) | subst x)) | clear_value x) | split | (intro _ _) | (refine foldl_keeps ?_ ?_) | dsimp only | with_reducible apply Keeps.mk_other)
theorem execFlitMirror_keeps {s t : State} {x0} (h : Machine.execFlitMirror x0 s = .next t) : Keeps s t := by
  unfold Machine.execFlitMirror at h
  cases h
  repeat' (first | with_reducible (first | exact Keeps.refl _ | assumption | apply ite_keeps | apply State.whenUp_keeps | apply State.flitMirror_keeps | exact State.landXfers_keeps | exact State.validXfers_keeps | exact State.drainXfers_keeps | exact fun _ _ => copyXfers_keeps) | (extract_lets +onlyGivenNames x; first | ((refine_lift have hx : Keeps s x := ?_; ?_); all_goals (first | (guard_hyp hx : Keeps s x; clear_value x) | subst x)) | ((refine_lift have hx : Keeps s x.1 := ?_; ?_); all_goals (first | (guard_hyp hx : Keeps s x.1; clear_value x) | subst x)) | clear_value x) | split | (intro _ _) | (refine foldl_keeps ?_ ?_) | dsimp only | with_reducible apply Keeps.mk_other)
theorem execBistSliceStart_keeps {s t : State} {x0} (h : Machine.execBistSliceStart x0 s = .next t) : Keeps s t := by
  unfold Machine.execBistSliceStart at h
  cases h
  repeat' (first | exact Keeps.refl _ | apply State.bistStart_keeps)
theorem execAnd_keeps {s t : State} {x0 x1} (h : Machine.execAnd x0 x1 s = .next t) : Keeps s t := by
  unfold Machine.execAnd at h
  cases h
  repeat' (first | exact Keeps.refl _ | apply issueWord_keeps)
theorem execMramWriteCmd_keeps {s t : State} {x0} (h : Machine.execMramWriteCmd x0 s = .next t) : Keeps s t := by
  unfold Machine.execMramWriteCmd at h
  cases h
  repeat' (first | with_reducible (first | exact Keeps.refl _ | assumption | apply ite_keeps | apply State.whenUp_keeps | apply State.mramCmd_keeps | exact State.landXfers_keeps | exact State.validXfers_keeps | exact State.drainXfers_keeps | exact fun _ _ => copyXfers_keeps) | (extract_lets +onlyGivenNames x; first | ((refine_lift have hx : Keeps s x := ?_; ?_); all_goals (first | (guard_hyp hx : Keeps s x; clear_value x) | subst x)) | ((refine_lift have hx : Keeps s x.1 := ?_; ?_); all_goals (first | (guard_hyp hx : Keeps s x.1; clear_value x) | subst x)) | clear_value x) | split | (intro _ _) | (refine foldl_keeps ?_ ?_) | dsimp only | with_reducible apply Keeps.mk_other)
theorem execAonSourceLoss_keeps {s t : State} (h : Machine.execAonSourceLoss  s = .next t) : Keeps s t := by
  unfold Machine.execAonSourceLoss at h
  cases h
  repeat' (first | exact Keeps.refl _ | apply State.whenUp_keeps | apply State.aonLoss_keeps)
theorem execVmax_keeps {s t : State} {x0 x1} (h : Machine.execVmax x0 x1 s = .next t) : Keeps s t := by
  unfold Machine.execVmax at h
  cases h
  repeat' (first | exact Keeps.refl _ | apply issueWord_keeps)
theorem execPcieConfigAccess_keeps {s t : State} {x0} (h : Machine.execPcieConfigAccess x0 s = .next t) : Keeps s t := by
  unfold Machine.execPcieConfigAccess at h
  cases h
  repeat' (first | with_reducible (first | exact Keeps.refl _ | assumption | apply ite_keeps | apply State.whenUp_keeps | apply State.cfgAccess_keeps | exact State.landXfers_keeps | exact State.validXfers_keeps | exact State.drainXfers_keeps | exact fun _ _ => copyXfers_keeps) | (extract_lets +onlyGivenNames x; first | ((refine_lift have hx : Keeps s x := ?_; ?_); all_goals (first | (guard_hyp hx : Keeps s x; clear_value x) | subst x)) | ((refine_lift have hx : Keeps s x.1 := ?_; ?_); all_goals (first | (guard_hyp hx : Keeps s x.1; clear_value x) | subst x)) | clear_value x) | split | (intro _ _) | (refine foldl_keeps ?_ ?_) | dsimp only | with_reducible apply Keeps.mk_other)
theorem execFcvtSD_keeps {s t : State} {x0 x1} (h : Machine.execFcvtSD x0 x1 s = .next t) : Keeps s t := by
  unfold Machine.execFcvtSD at h
  cases h
  repeat' (first | exact Keeps.refl _ | apply issueWord_keeps)
theorem execLeaveWithdraw_keeps {s t : State} {x0} (h : Machine.execLeaveWithdraw x0 s = .next t) : Keeps s t := by
  unfold Machine.execLeaveWithdraw at h
  cases h
  repeat' (first | exact Keeps.refl _ | apply State.leaveCut_keeps)
theorem execFlitWrite_keeps {s t : State} {x0 x1 x2} (h : Machine.execFlitWrite x0 x1 x2 s = .next t) : Keeps s t := by
  unfold Machine.execFlitWrite at h
  cases h
  repeat' (first | with_reducible (first | exact Keeps.refl _ | assumption | apply ite_keeps | apply State.whenUp_keeps | apply State.flitWrite_keeps | exact State.landXfers_keeps | exact State.validXfers_keeps | exact State.drainXfers_keeps | exact fun _ _ => copyXfers_keeps) | (extract_lets +onlyGivenNames x; first | ((refine_lift have hx : Keeps s x := ?_; ?_); all_goals (first | (guard_hyp hx : Keeps s x; clear_value x) | subst x)) | ((refine_lift have hx : Keeps s x.1 := ?_; ?_); all_goals (first | (guard_hyp hx : Keeps s x.1; clear_value x) | subst x)) | clear_value x) | split | (intro _ _) | (refine foldl_keeps ?_ ?_) | dsimp only | with_reducible apply Keeps.mk_other)
theorem execVshr_keeps {s t : State} {x0 x1} (h : Machine.execVshr x0 x1 s = .next t) : Keeps s t := by
  unfold Machine.execVshr at h
  cases h
  repeat' (first | exact Keeps.refl _ | apply issueWord_keeps)
theorem execPflush_keeps {s t : State} {x0 x1} (h : Machine.execPflush x0 x1 s = .next t) : Keeps s t := by
  unfold Machine.execPflush at h
  cases h
  repeat' (first | exact Keeps.refl _ | apply issueWord_keeps)
theorem execFsub_keeps {s t : State} {x0 x1} (h : Machine.execFsub x0 x1 s = .next t) : Keeps s t := by
  unfold Machine.execFsub at h
  cases h
  repeat' (first | exact Keeps.refl _ | apply issueWord_keeps)
theorem execDoipRoutingActivation_keeps {s t : State} {x0 x1 x2 x3} (h : Machine.execDoipRoutingActivation x0 x1 x2 x3 s = .next t) : Keeps s t := by
  unfold Machine.execDoipRoutingActivation at h
  cases h
  repeat' (first | with_reducible (first | exact Keeps.refl _ | assumption | apply ite_keeps | apply State.whenUp_keeps | apply State.doipRoute_keeps | exact State.landXfers_keeps | exact State.validXfers_keeps | exact State.drainXfers_keeps | exact fun _ _ => copyXfers_keeps) | (extract_lets +onlyGivenNames x; first | ((refine_lift have hx : Keeps s x := ?_; ?_); all_goals (first | (guard_hyp hx : Keeps s x; clear_value x) | subst x)) | ((refine_lift have hx : Keeps s x.1 := ?_; ?_); all_goals (first | (guard_hyp hx : Keeps s x.1; clear_value x) | subst x)) | clear_value x) | split | (intro _ _) | (refine foldl_keeps ?_ ?_) | dsimp only | with_reducible apply Keeps.mk_other)
theorem execFlInputFrame_keeps {s t : State} {x0} (h : Machine.execFlInputFrame x0 s = .next t) : Keeps s t := by
  unfold Machine.execFlInputFrame at h
  cases h
  repeat' (first | exact Keeps.refl _ | apply State.flInput_keeps)
theorem execFarAccessPerform_keeps {s t : State} {x0 x1 x2} (h : Machine.execFarAccessPerform x0 x1 x2 s = .next t) : Keeps s t := by
  unfold Machine.execFarAccessPerform at h
  cases h
  repeat' (first | with_reducible (first | exact Keeps.refl _ | assumption | apply ite_keeps | apply State.whenUp_keeps | apply State.farPerform_keeps | exact State.landXfers_keeps | exact State.validXfers_keeps | exact State.drainXfers_keeps | exact fun _ _ => copyXfers_keeps) | (extract_lets +onlyGivenNames x; first | ((refine_lift have hx : Keeps s x := ?_; ?_); all_goals (first | (guard_hyp hx : Keeps s x; clear_value x) | subst x)) | ((refine_lift have hx : Keeps s x.1 := ?_; ?_); all_goals (first | (guard_hyp hx : Keeps s x.1; clear_value x) | subst x)) | clear_value x) | split | (intro _ _) | (refine foldl_keeps ?_ ?_) | dsimp only | with_reducible apply Keeps.mk_other)
theorem execPairLowRead_keeps {s t : State} {x0 x1} (h : Machine.execPairLowRead x0 x1 s = .next t) : Keeps s t := by
  unfold Machine.execPairLowRead at h
  cases h
  repeat' (first | with_reducible (first | exact Keeps.refl _ | assumption | apply ite_keeps | apply State.whenUp_keeps | apply State.csrAnswer_keeps | exact State.landXfers_keeps | exact State.validXfers_keeps | exact State.drainXfers_keeps | exact fun _ _ => copyXfers_keeps) | (extract_lets +onlyGivenNames x; first | ((refine_lift have hx : Keeps s x := ?_; ?_); all_goals (first | (guard_hyp hx : Keeps s x; clear_value x) | subst x)) | ((refine_lift have hx : Keeps s x.1 := ?_; ?_); all_goals (first | (guard_hyp hx : Keeps s x.1; clear_value x) | subst x)) | clear_value x) | split | (intro _ _) | (refine foldl_keeps ?_ ?_) | dsimp only | with_reducible apply Keeps.mk_other)
theorem execLoop_keeps {s t : State} {x0 x1} (h : Machine.execLoop x0 x1 s = .next t) : Keeps s t := by
  unfold Machine.execLoop at h
  cases h
  repeat' (first | exact Keeps.refl _ | apply issueWord_keeps)
theorem execChannelRestart_keeps {s t : State} {x0 x1} (h : Machine.execChannelRestart x0 x1 s = .next t) : Keeps s t := by
  unfold Machine.execChannelRestart at h
  cases h
  repeat' (first | with_reducible (first | exact Keeps.refl _ | assumption | apply ite_keeps | apply State.whenUp_keeps | apply State.chanRestart_keeps | exact State.landXfers_keeps | exact State.validXfers_keeps | exact State.drainXfers_keeps | exact fun _ _ => copyXfers_keeps) | (extract_lets +onlyGivenNames x; first | ((refine_lift have hx : Keeps s x := ?_; ?_); all_goals (first | (guard_hyp hx : Keeps s x; clear_value x) | subst x)) | ((refine_lift have hx : Keeps s x.1 := ?_; ?_); all_goals (first | (guard_hyp hx : Keeps s x.1; clear_value x) | subst x)) | clear_value x) | split | (intro _ _) | (refine foldl_keeps ?_ ?_) | dsimp only | with_reducible apply Keeps.mk_other)
theorem execAuthenticationConfiguration_keeps {s t : State} (h : Machine.execAuthenticationConfiguration  s = .next t) : Keeps s t := by
  unfold Machine.execAuthenticationConfiguration at h
  cases h
  repeat' (first | exact Keeps.refl _ | apply State.whenUp_keeps | apply State.udsAuthConf_keeps)
theorem execFld_keeps {s t : State} {x0 x1} (h : Machine.execFld x0 x1 s = .next t) : Keeps s t := by
  unfold Machine.execFld at h
  cases h
  repeat' (first | exact Keeps.refl _ | apply issueWord_keeps)
theorem execD2hBlockWrite_keeps {s t : State} {x0} (h : Machine.execD2hBlockWrite x0 s = .next t) : Keeps s t := by
  unfold Machine.execD2hBlockWrite at h
  cases h
  repeat' (first | with_reducible (first | exact Keeps.refl _ | assumption | apply ite_keeps | apply State.whenHost_keeps | apply State.d2hWrite_keeps | exact State.landXfers_keeps | exact State.validXfers_keeps | exact State.drainXfers_keeps | exact fun _ _ => copyXfers_keeps) | (extract_lets +onlyGivenNames x; first | ((refine_lift have hx : Keeps s x := ?_; ?_); all_goals (first | (guard_hyp hx : Keeps s x; clear_value x) | subst x)) | ((refine_lift have hx : Keeps s x.1 := ?_; ?_); all_goals (first | (guard_hyp hx : Keeps s x.1; clear_value x) | subst x)) | clear_value x) | split | (intro _ _) | (refine foldl_keeps ?_ ?_) | dsimp only | with_reducible apply Keeps.mk_other)
theorem execPbar_keeps {s t : State} {x0 x1} (h : Machine.execPbar x0 x1 s = .next t) : Keeps s t := by
  unfold Machine.execPbar at h
  cases h
  repeat' (first | exact Keeps.refl _ | apply issueWord_keeps)
theorem execVfmul_keeps {s t : State} {x0 x1} (h : Machine.execVfmul x0 x1 s = .next t) : Keeps s t := by
  unfold Machine.execVfmul at h
  cases h
  repeat' (first | exact Keeps.refl _ | apply issueWord_keeps)
theorem execShr_keeps {s t : State} {x0 x1} (h : Machine.execShr x0 x1 s = .next t) : Keeps s t := by
  unfold Machine.execShr at h
  cases h
  repeat' (first | exact Keeps.refl _ | apply issueWord_keeps)
theorem execVmov_keeps {s t : State} {x0 x1} (h : Machine.execVmov x0 x1 s = .next t) : Keeps s t := by
  unfold Machine.execVmov at h
  cases h
  repeat' (first | exact Keeps.refl _ | apply issueWord_keeps)
theorem execBootRomStart_keeps {s t : State} (h : Machine.execBootRomStart  s = .next t) : Keeps s t := by
  unfold Machine.execBootRomStart at h
  cases h
  repeat' (first | exact Keeps.refl _ | apply State.whenUp_keeps | apply State.romStart_keeps)
theorem execH2dDescriptorFetch_keeps {s t : State} {x0 x1} (h : Machine.execH2dDescriptorFetch x0 x1 s = .next t) : Keeps s t := by
  unfold Machine.execH2dDescriptorFetch at h
  cases h
  repeat' (first | with_reducible (first | exact Keeps.refl _ | assumption | apply ite_keeps | apply State.whenHost_keeps | apply State.h2dFetch_keeps | exact State.landXfers_keeps | exact State.validXfers_keeps | exact State.drainXfers_keeps | exact fun _ _ => copyXfers_keeps) | (extract_lets +onlyGivenNames x; first | ((refine_lift have hx : Keeps s x := ?_; ?_); all_goals (first | (guard_hyp hx : Keeps s x; clear_value x) | subst x)) | ((refine_lift have hx : Keeps s x.1 := ?_; ?_); all_goals (first | (guard_hyp hx : Keeps s x.1; clear_value x) | subst x)) | clear_value x) | split | (intro _ _) | (refine foldl_keeps ?_ ?_) | dsimp only | with_reducible apply Keeps.mk_other)
theorem execMov_keeps {s t : State} {x0 x1} (h : Machine.execMov x0 x1 s = .next t) : Keeps s t := by
  unfold Machine.execMov at h
  cases h
  repeat' (first | exact Keeps.refl _ | apply issueWord_keeps)
theorem execMarginAlarm_keeps {s t : State} (h : Machine.execMarginAlarm  s = .next t) : Keeps s t := by
  unfold Machine.execMarginAlarm at h
  cases h
  repeat' (first | exact Keeps.refl _ | apply State.whenUp_keeps | apply State.backoff_keeps)
theorem execMulq31_keeps {s t : State} {x0 x1} (h : Machine.execMulq31 x0 x1 s = .next t) : Keeps s t := by
  unfold Machine.execMulq31 at h
  cases h
  repeat' (first | exact Keeps.refl _ | apply issueWord_keeps)
theorem execSar_keeps {s t : State} {x0 x1} (h : Machine.execSar x0 x1 s = .next t) : Keeps s t := by
  unfold Machine.execSar at h
  cases h
  repeat' (first | exact Keeps.refl _ | apply issueWord_keeps)
theorem execVadds_keeps {s t : State} {x0 x1} (h : Machine.execVadds x0 x1 s = .next t) : Keeps s t := by
  unfold Machine.execVadds at h
  cases h
  repeat' (first | exact Keeps.refl _ | apply issueWord_keeps)
theorem execAaddi_keeps {s t : State} {x0 x1} (h : Machine.execAaddi x0 x1 s = .next t) : Keeps s t := by
  unfold Machine.execAaddi at h
  cases h
  repeat' (first | exact Keeps.refl _ | apply issueWord_keeps)
theorem execVxor_keeps {s t : State} {x0 x1} (h : Machine.execVxor x0 x1 s = .next t) : Keeps s t := by
  unfold Machine.execVxor at h
  cases h
  repeat' (first | exact Keeps.refl _ | apply issueWord_keeps)
theorem execClockMonitor_keeps {s t : State} {x0 x1} (h : Machine.execClockMonitor x0 x1 s = .next t) : Keeps s t := by
  unfold Machine.execClockMonitor at h
  cases h
  repeat' (first | with_reducible (first | exact Keeps.refl _ | assumption | apply ite_keeps | apply State.whenUp_keeps | apply State.clockSample_keeps | exact State.landXfers_keeps | exact State.validXfers_keeps | exact State.drainXfers_keeps | exact fun _ _ => copyXfers_keeps) | (extract_lets +onlyGivenNames x; first | ((refine_lift have hx : Keeps s x := ?_; ?_); all_goals (first | (guard_hyp hx : Keeps s x; clear_value x) | subst x)) | ((refine_lift have hx : Keeps s x.1 := ?_; ?_); all_goals (first | (guard_hyp hx : Keeps s x.1; clear_value x) | subst x)) | clear_value x) | split | (intro _ _) | (refine foldl_keeps ?_ ?_) | dsimp only | with_reducible apply Keeps.mk_other)
theorem execCmp_keeps {s t : State} {x0 x1} (h : Machine.execCmp x0 x1 s = .next t) : Keeps s t := by
  unfold Machine.execCmp at h
  cases h
  repeat' (first | exact Keeps.refl _ | apply issueWord_keeps)
theorem execNlms_keeps {s t : State} {x0 x1} (h : Machine.execNlms x0 x1 s = .next t) : Keeps s t := by
  unfold Machine.execNlms at h
  cases h
  repeat' (first | exact Keeps.refl _ | apply issueWord_keeps)
theorem execFma_keeps {s t : State} {x0 x1} (h : Machine.execFma x0 x1 s = .next t) : Keeps s t := by
  unfold Machine.execFma at h
  cases h
  repeat' (first | exact Keeps.refl _ | apply issueWord_keeps)
theorem execBmov_keeps {s t : State} {x0 x1} (h : Machine.execBmov x0 x1 s = .next t) : Keeps s t := by
  unfold Machine.execBmov at h
  cases h
  repeat' (first | exact Keeps.refl _ | apply issueWord_keeps)
theorem execUsb2Attach_keeps {s t : State} (h : Machine.execUsb2Attach  s = .next t) : Keeps s t := by
  unfold Machine.execUsb2Attach at h
  cases h
  repeat' (first | exact Keeps.refl _ | apply State.whenUp_keeps | apply State.usb2Attach_keeps)
theorem execBr_keeps {s t : State} {x0 x1} (h : Machine.execBr x0 x1 s = .next t) : Keeps s t := by
  unfold Machine.execBr at h
  cases h
  repeat' (first | exact Keeps.refl _ | apply issueWord_keeps)
theorem execRequestDownload_keeps {s t : State} {x0 x1 x2 x3} (h : Machine.execRequestDownload x0 x1 x2 x3 s = .next t) : Keeps s t := by
  unfold Machine.execRequestDownload at h
  cases h
  repeat' (first | with_reducible (first | exact Keeps.refl _ | assumption | apply ite_keeps | apply State.whenUp_keeps | apply State.udsDownload_keeps | exact State.landXfers_keeps | exact State.validXfers_keeps | exact State.drainXfers_keeps | exact fun _ _ => copyXfers_keeps) | (extract_lets +onlyGivenNames x; first | ((refine_lift have hx : Keeps s x := ?_; ?_); all_goals (first | (guard_hyp hx : Keeps s x; clear_value x) | subst x)) | ((refine_lift have hx : Keeps s x.1 := ?_; ?_); all_goals (first | (guard_hyp hx : Keeps s x.1; clear_value x) | subst x)) | clear_value x) | split | (intro _ _) | (refine foldl_keeps ?_ ?_) | dsimp only | with_reducible apply Keeps.mk_other)
theorem execLeaveGrant_keeps {s t : State} {x0} (h : Machine.execLeaveGrant x0 s = .next t) : Keeps s t := by
  unfold Machine.execLeaveGrant at h
  cases h
  repeat' (first | exact Keeps.refl _ | apply State.leaveGive_keeps)
theorem execAutomaticRestart_keeps {s t : State} (h : Machine.execAutomaticRestart  s = .next t) : Keeps s t := by
  unfold Machine.execAutomaticRestart at h
  cases h
  repeat' (first | exact Keeps.refl _ | apply State.whenUp_keeps | apply State.autoRestart_keeps)
theorem execVfmin_keeps {s t : State} {x0 x1} (h : Machine.execVfmin x0 x1 s = .next t) : Keeps s t := by
  unfold Machine.execVfmin at h
  cases h
  repeat' (first | exact Keeps.refl _ | apply issueWord_keeps)
theorem execValid_keeps {s t : State} {x0 x1 x2} (h : Machine.execValid x0 x1 x2 s = .next t) : Keeps s t := by
  unfold Machine.execValid at h
  cases h
  repeat' (first | with_reducible (first | exact Keeps.refl _ | assumption | apply ite_keeps | apply State.whenUp_keeps | apply State.runStep_keeps | exact State.landXfers_keeps | exact State.validXfers_keeps | exact State.drainXfers_keeps | exact fun _ _ => copyXfers_keeps) | (extract_lets +onlyGivenNames x; first | ((refine_lift have hx : Keeps s x := ?_; ?_); all_goals (first | (guard_hyp hx : Keeps s x; clear_value x) | subst x)) | ((refine_lift have hx : Keeps s x.1 := ?_; ?_); all_goals (first | (guard_hyp hx : Keeps s x.1; clear_value x) | subst x)) | clear_value x) | split | (intro _ _) | (refine foldl_keeps ?_ ?_) | dsimp only | with_reducible apply Keeps.mk_other)
theorem execResetWipe_keeps {s t : State} (h : Machine.execResetWipe  s = .next t) : Keeps s t := by
  unfold Machine.execResetWipe at h
  cases h
  repeat' (first | exact Keeps.refl _ | apply State.whenUp_keeps | apply State.wipe_keeps)
theorem execRingReset_keeps {s t : State} {x0} (h : Machine.execRingReset x0 s = .next t) : Keeps s t := by
  unfold Machine.execRingReset at h
  cases h
  repeat' (first | with_reducible (first | exact Keeps.refl _ | assumption | apply ite_keeps | apply State.whenUp_keeps | apply State.ringReset_keeps | exact State.landXfers_keeps | exact State.validXfers_keeps | exact State.drainXfers_keeps | exact fun _ _ => copyXfers_keeps) | (extract_lets +onlyGivenNames x; first | ((refine_lift have hx : Keeps s x := ?_; ?_); all_goals (first | (guard_hyp hx : Keeps s x; clear_value x) | subst x)) | ((refine_lift have hx : Keeps s x.1 := ?_; ?_); all_goals (first | (guard_hyp hx : Keeps s x.1; clear_value x) | subst x)) | clear_value x) | split | (intro _ _) | (refine foldl_keeps ?_ ?_) | dsimp only | with_reducible apply Keeps.mk_other)
theorem execAvtpListenerTick_keeps {s t : State} {x0} (h : Machine.execAvtpListenerTick x0 s = .next t) : Keeps s t := by
  unfold Machine.execAvtpListenerTick at h
  cases h
  repeat' (first | exact Keeps.refl _ | apply State.avtpTick_keeps)
theorem execEcuResetSoft_keeps {s t : State} (h : Machine.execEcuResetSoft  s = .next t) : Keeps s t := by
  unfold Machine.execEcuResetSoft at h
  cases h
  repeat' (first | exact Keeps.refl _ | apply State.whenUp_keeps | apply State.udsSoft_keeps)
theorem execReti_keeps {s t : State} {x0 x1} (h : Machine.execReti x0 x1 s = .next t) : Keeps s t := by
  unfold Machine.execReti at h
  cases h
  repeat' (first | exact Keeps.refl _ | apply issueWord_keeps)
theorem execMull64_keeps {s t : State} {x0 x1} (h : Machine.execMull64 x0 x1 s = .next t) : Keeps s t := by
  unfold Machine.execMull64 at h
  cases h
  repeat' (first | exact Keeps.refl _ | apply issueWord_keeps)
theorem execStoredPlanVerify_keeps {s t : State} (h : Machine.execStoredPlanVerify  s = .next t) : Keeps s t := by
  unfold Machine.execStoredPlanVerify at h
  cases h
  repeat' (first | exact Keeps.refl _ | apply State.whenUp_keeps | apply State.planVerify_keeps)
theorem execRep_keeps {s t : State} {x0 x1} (h : Machine.execRep x0 x1 s = .next t) : Keeps s t := by
  unfold Machine.execRep at h
  cases h
  repeat' (first | exact Keeps.refl _ | apply issueWord_keeps)
theorem execReportSupportedDtc_keeps {s t : State} (h : Machine.execReportSupportedDtc  s = .next t) : Keeps s t := by
  unfold Machine.execReportSupportedDtc at h
  cases h
  repeat' (first | exact Keeps.refl _ | apply State.whenUp_keeps | apply State.udsSupported_keeps)
theorem execReadClearAccess_keeps {s t : State} {x0 x1} (h : Machine.execReadClearAccess x0 x1 s = .next t) : Keeps s t := by
  unfold Machine.execReadClearAccess at h
  cases h
  repeat' (first | with_reducible (first | exact Keeps.refl _ | assumption | apply ite_keeps | apply State.whenUp_keeps | apply State.csrAnswer_keeps | exact State.landXfers_keeps | exact State.validXfers_keeps | exact State.drainXfers_keeps | exact fun _ _ => copyXfers_keeps) | (extract_lets +onlyGivenNames x; first | ((refine_lift have hx : Keeps s x := ?_; ?_); all_goals (first | (guard_hyp hx : Keeps s x; clear_value x) | subst x)) | ((refine_lift have hx : Keeps s x.1 := ?_; ?_); all_goals (first | (guard_hyp hx : Keeps s x.1; clear_value x) | subst x)) | clear_value x) | split | (intro _ _) | (refine foldl_keeps ?_ ?_) | dsimp only | with_reducible apply Keeps.mk_other)
theorem execSporeDeliver_keeps {s t : State} {x0 x1} (h : Machine.execSporeDeliver x0 x1 s = .next t) : Keeps s t := by
  unfold Machine.execSporeDeliver at h
  cases h
  repeat' (first | with_reducible (first | exact Keeps.refl _ | assumption | apply ite_keeps | apply State.whenUp_keeps | apply State.sporeDeliver_keeps | exact State.landXfers_keeps | exact State.validXfers_keeps | exact State.drainXfers_keeps | exact fun _ _ => copyXfers_keeps) | (extract_lets +onlyGivenNames x; first | ((refine_lift have hx : Keeps s x := ?_; ?_); all_goals (first | (guard_hyp hx : Keeps s x; clear_value x) | subst x)) | ((refine_lift have hx : Keeps s x.1 := ?_; ?_); all_goals (first | (guard_hyp hx : Keeps s x.1; clear_value x) | subst x)) | clear_value x) | split | (intro _ _) | (refine foldl_keeps ?_ ?_) | dsimp only | with_reducible apply Keeps.mk_other)
theorem execCesub_keeps {s t : State} {x0 x1} (h : Machine.execCesub x0 x1 s = .next t) : Keeps s t := by
  unfold Machine.execCesub at h
  cases h
  repeat' (first | exact Keeps.refl _ | apply issueWord_keeps)
theorem execDivS32_keeps {s t : State} {x0 x1} (h : Machine.execDivS32 x0 x1 s = .next t) : Keeps s t := by
  unfold Machine.execDivS32 at h
  cases h
  repeat' (first | exact Keeps.refl _ | apply issueWord_keeps)
theorem execSecurityAccessSeed_keeps {s t : State} {x0} (h : Machine.execSecurityAccessSeed x0 s = .next t) : Keeps s t := by
  unfold Machine.execSecurityAccessSeed at h
  cases h
  repeat' (first | with_reducible (first | exact Keeps.refl _ | assumption | apply ite_keeps | apply State.whenUp_keeps | apply State.udsSeed_keeps | exact State.landXfers_keeps | exact State.validXfers_keeps | exact State.drainXfers_keeps | exact fun _ _ => copyXfers_keeps) | (extract_lets +onlyGivenNames x; first | ((refine_lift have hx : Keeps s x := ?_; ?_); all_goals (first | (guard_hyp hx : Keeps s x; clear_value x) | subst x)) | ((refine_lift have hx : Keeps s x.1 := ?_; ?_); all_goals (first | (guard_hyp hx : Keeps s x.1; clear_value x) | subst x)) | clear_value x) | split | (intro _ _) | (refine foldl_keeps ?_ ?_) | dsimp only | with_reducible apply Keeps.mk_other)
theorem execStopRoutine_keeps {s t : State} (h : Machine.execStopRoutine  s = .next t) : Keeps s t := by
  unfold Machine.execStopRoutine at h
  cases h
  repeat' (first | exact Keeps.refl _ | apply State.whenUp_keeps | apply State.udsStop_keeps)
theorem execMulq15_keeps {s t : State} {x0 x1} (h : Machine.execMulq15 x0 x1 s = .next t) : Keeps s t := by
  unfold Machine.execMulq15 at h
  cases h
  repeat' (first | exact Keeps.refl _ | apply issueWord_keeps)
theorem execRingResetComplete_keeps {s t : State} {x0} (h : Machine.execRingResetComplete x0 s = .next t) : Keeps s t := by
  unfold Machine.execRingResetComplete at h
  cases h
  repeat' (first | with_reducible (first | exact Keeps.refl _ | assumption | apply ite_keeps | apply State.whenUp_keeps | apply State.ringResetEnd_keeps | exact State.landXfers_keeps | exact State.validXfers_keeps | exact State.drainXfers_keeps | exact fun _ _ => copyXfers_keeps) | (extract_lets +onlyGivenNames x; first | ((refine_lift have hx : Keeps s x := ?_; ?_); all_goals (first | (guard_hyp hx : Keeps s x; clear_value x) | subst x)) | ((refine_lift have hx : Keeps s x.1 := ?_; ?_); all_goals (first | (guard_hyp hx : Keeps s x.1; clear_value x) | subst x)) | clear_value x) | split | (intro _ _) | (refine foldl_keeps ?_ ?_) | dsimp only | with_reducible apply Keeps.mk_other)
theorem execBar0Access_keeps {s t : State} {x0} (h : Machine.execBar0Access x0 s = .next t) : Keeps s t := by
  unfold Machine.execBar0Access at h
  cases h
  repeat' (first | with_reducible (first | exact Keeps.refl _ | assumption | apply ite_keeps | apply State.whenUp_keeps | apply State.bar0_keeps | exact State.landXfers_keeps | exact State.validXfers_keeps | exact State.drainXfers_keeps | exact fun _ _ => copyXfers_keeps) | (extract_lets +onlyGivenNames x; first | ((refine_lift have hx : Keeps s x := ?_; ?_); all_goals (first | (guard_hyp hx : Keeps s x; clear_value x) | subst x)) | ((refine_lift have hx : Keeps s x.1 := ?_; ?_); all_goals (first | (guard_hyp hx : Keeps s x.1; clear_value x) | subst x)) | clear_value x) | split | (intro _ _) | (refine foldl_keeps ?_ ?_) | dsimp only | with_reducible apply Keeps.mk_other)
theorem execReplanTrigger_keeps {s t : State} {x0} (h : Machine.execReplanTrigger x0 s = .next t) : Keeps s t := by
  unfold Machine.execReplanTrigger at h
  cases h
  repeat' (first | with_reducible (first | exact Keeps.refl _ | assumption | apply ite_keeps | apply State.whenUp_keeps | apply State.replanTrigger_keeps | exact State.landXfers_keeps | exact State.validXfers_keeps | exact State.drainXfers_keeps | exact fun _ _ => copyXfers_keeps) | (extract_lets +onlyGivenNames x; first | ((refine_lift have hx : Keeps s x := ?_; ?_); all_goals (first | (guard_hyp hx : Keeps s x; clear_value x) | subst x)) | ((refine_lift have hx : Keeps s x.1 := ?_; ?_); all_goals (first | (guard_hyp hx : Keeps s x.1; clear_value x) | subst x)) | clear_value x) | split | (intro _ _) | (refine foldl_keeps ?_ ?_) | dsimp only | with_reducible apply Keeps.mk_other)
theorem execThermalHoldRelease_keeps {s t : State} {x0 x1} (h : Machine.execThermalHoldRelease x0 x1 s = .next t) : Keeps s t := by
  unfold Machine.execThermalHoldRelease at h
  cases h
  repeat' (first | exact Keeps.refl _ | apply State.holdRelease_keeps)
theorem execFaultReport_keeps {s t : State} {x0} (h : Machine.execFaultReport x0 s = .next t) : Keeps s t := by
  unfold Machine.execFaultReport at h
  cases h
  repeat' (first | with_reducible (first | exact Keeps.refl _ | assumption | apply ite_keeps | apply State.whenUp_keeps | apply State.takeReport_keeps | exact State.landXfers_keeps | exact State.validXfers_keeps | exact State.drainXfers_keeps | exact fun _ _ => copyXfers_keeps) | (extract_lets +onlyGivenNames x; first | ((refine_lift have hx : Keeps s x := ?_; ?_); all_goals (first | (guard_hyp hx : Keeps s x; clear_value x) | subst x)) | ((refine_lift have hx : Keeps s x.1 := ?_; ?_); all_goals (first | (guard_hyp hx : Keeps s x.1; clear_value x) | subst x)) | clear_value x) | split | (intro _ _) | (refine foldl_keeps ?_ ?_) | dsimp only | with_reducible apply Keeps.mk_other)
theorem execTemperatureSample_keeps {s t : State} {x0} (h : Machine.execTemperatureSample x0 s = .next t) : Keeps s t := by
  unfold Machine.execTemperatureSample at h
  cases h
  repeat' (first | with_reducible (first | exact Keeps.refl _ | assumption | apply ite_keeps | apply State.whenUp_keeps | apply State.tempSample_keeps | exact State.landXfers_keeps | exact State.validXfers_keeps | exact State.drainXfers_keeps | exact fun _ _ => copyXfers_keeps) | (extract_lets +onlyGivenNames x; first | ((refine_lift have hx : Keeps s x := ?_; ?_); all_goals (first | (guard_hyp hx : Keeps s x; clear_value x) | subst x)) | ((refine_lift have hx : Keeps s x.1 := ?_; ?_); all_goals (first | (guard_hyp hx : Keeps s x.1; clear_value x) | subst x)) | clear_value x) | split | (intro _ _) | (refine foldl_keeps ?_ ?_) | dsimp only | with_reducible apply Keeps.mk_other)
theorem execWarmRestart_keeps {s t : State} (h : Machine.execWarmRestart  s = .next t) : Keeps s t := by
  unfold Machine.execWarmRestart at h
  cases h
  repeat' (first | exact Keeps.refl _ | apply State.whenUp_keeps | apply State.warmRestart_keeps)
theorem execResetRelease_keeps {s t : State} {x0} (h : Machine.execResetRelease x0 s = .next t) : Keeps s t := by
  unfold Machine.execResetRelease at h
  cases h
  repeat' (first | exact Keeps.refl _ | apply State.resetRelease_keeps)
theorem execMarginHistoryReadout_keeps {s t : State} {x0 x1} (h : Machine.execMarginHistoryReadout x0 x1 s = .next t) : Keeps s t := by
  unfold Machine.execMarginHistoryReadout at h
  cases h
  repeat' (first | with_reducible (first | exact Keeps.refl _ | assumption | apply ite_keeps | apply State.whenUp_keeps | apply State.udsExport_keeps | exact State.landXfers_keeps | exact State.validXfers_keeps | exact State.drainXfers_keeps | exact fun _ _ => copyXfers_keeps) | (extract_lets +onlyGivenNames x; first | ((refine_lift have hx : Keeps s x := ?_; ?_); all_goals (first | (guard_hyp hx : Keeps s x; clear_value x) | subst x)) | ((refine_lift have hx : Keeps s x.1 := ?_; ?_); all_goals (first | (guard_hyp hx : Keeps s x.1; clear_value x) | subst x)) | clear_value x) | split | (intro _ _) | (refine foldl_keeps ?_ ?_) | dsimp only | with_reducible apply Keeps.mk_other)
theorem execCeCtlWrite_keeps {s t : State} {x0 x1 x2} (h : Machine.execCeCtlWrite x0 x1 x2 s = .next t) : Keeps s t := by
  unfold Machine.execCeCtlWrite at h
  cases h
  repeat' (first | exact Keeps.refl _ | apply State.ceCtl_keeps | apply State.bump_keeps | split)
theorem execFirmwareVerify_keeps {s t : State} (h : Machine.execFirmwareVerify  s = .next t) : Keeps s t := by
  unfold Machine.execFirmwareVerify at h
  cases h
  repeat' (first | exact Keeps.refl _ | apply State.whenUp_keeps | apply State.fwVerify_keeps)
theorem execEthFrameTransmit_keeps {s t : State} {x0 x1 x2} (h : Machine.execEthFrameTransmit x0 x1 x2 s = .next t) : Keeps s t := by
  unfold Machine.execEthFrameTransmit at h
  cases h
  repeat' (first | with_reducible (first | exact Keeps.refl _ | assumption | apply ite_keeps | apply State.whenUp_keeps | apply State.ethTx_keeps | exact State.landXfers_keeps | exact State.validXfers_keeps | exact State.drainXfers_keeps | exact fun _ _ => copyXfers_keeps) | (extract_lets +onlyGivenNames x; first | ((refine_lift have hx : Keeps s x := ?_; ?_); all_goals (first | (guard_hyp hx : Keeps s x; clear_value x) | subst x)) | ((refine_lift have hx : Keeps s x.1 := ?_; ?_); all_goals (first | (guard_hyp hx : Keeps s x.1; clear_value x) | subst x)) | clear_value x) | split | (intro _ _) | (refine foldl_keeps ?_ ?_) | dsimp only | with_reducible apply Keeps.mk_other)
theorem execUpatchDataAccess_keeps {s t : State} {x0 x1 x2} (h : Machine.execUpatchDataAccess x0 x1 x2 s = .next t) : Keeps s t := by
  unfold Machine.execUpatchDataAccess at h
  cases h
  repeat' (first | with_reducible (first | exact Keeps.refl _ | assumption | apply ite_keeps | apply State.whenUp_keeps | apply State.patchWrite_keeps | apply State.patchRead_keeps | exact State.landXfers_keeps | exact State.validXfers_keeps | exact State.drainXfers_keeps | exact fun _ _ => copyXfers_keeps) | (extract_lets +onlyGivenNames x; first | ((refine_lift have hx : Keeps s x := ?_; ?_); all_goals (first | (guard_hyp hx : Keeps s x; clear_value x) | subst x)) | ((refine_lift have hx : Keeps s x.1 := ?_; ?_); all_goals (first | (guard_hyp hx : Keeps s x.1; clear_value x) | subst x)) | clear_value x) | split | (intro _ _) | (refine foldl_keeps ?_ ?_) | dsimp only | with_reducible apply Keeps.mk_other)
theorem execDeviceEvent_keeps {s t : State} {x0} (h : Machine.execDeviceEvent x0 s = .next t) : Keeps s t := by
  unfold Machine.execDeviceEvent at h
  cases h
  repeat' (first | with_reducible (first | exact Keeps.refl _ | assumption | apply ite_keeps | apply State.whenUp_keeps | apply State.devEvent_keeps | exact State.landXfers_keeps | exact State.validXfers_keeps | exact State.drainXfers_keeps | exact fun _ _ => copyXfers_keeps) | (extract_lets +onlyGivenNames x; first | ((refine_lift have hx : Keeps s x := ?_; ?_); all_goals (first | (guard_hyp hx : Keeps s x; clear_value x) | subst x)) | ((refine_lift have hx : Keeps s x.1 := ?_; ?_); all_goals (first | (guard_hyp hx : Keeps s x.1; clear_value x) | subst x)) | clear_value x) | split | (intro _ _) | (refine foldl_keeps ?_ ?_) | dsimp only | with_reducible apply Keeps.mk_other)
theorem execDone_keeps {s t : State} {x0 x1} (h : Machine.execDone x0 x1 s = .next t) : Keeps s t := by
  unfold Machine.execDone at h
  cases h
  repeat' (first | exact Keeps.refl _ | apply issueWord_keeps)
theorem execFlitWriteAck_keeps {s t : State} {x0 x1} (h : Machine.execFlitWriteAck x0 x1 s = .next t) : Keeps s t := by
  unfold Machine.execFlitWriteAck at h
  cases h
  repeat' (first | with_reducible (first | exact Keeps.refl _ | assumption | apply ite_keeps | apply State.whenUp_keeps | apply State.flitAnswer_keeps | exact State.landXfers_keeps | exact State.validXfers_keeps | exact State.drainXfers_keeps | exact fun _ _ => copyXfers_keeps) | (extract_lets +onlyGivenNames x; first | ((refine_lift have hx : Keeps s x := ?_; ?_); all_goals (first | (guard_hyp hx : Keeps s x; clear_value x) | subst x)) | ((refine_lift have hx : Keeps s x.1 := ?_; ?_); all_goals (first | (guard_hyp hx : Keeps s x.1; clear_value x) | subst x)) | clear_value x) | split | (intro _ _) | (refine foldl_keeps ?_ ?_) | dsimp only | with_reducible apply Keeps.mk_other)
theorem execAaddx_keeps {s t : State} {x0 x1} (h : Machine.execAaddx x0 x1 s = .next t) : Keeps s t := by
  unfold Machine.execAaddx at h
  cases h
  repeat' (first | exact Keeps.refl _ | apply issueWord_keeps)
theorem execFmul_keeps {s t : State} {x0 x1} (h : Machine.execFmul x0 x1 s = .next t) : Keeps s t := by
  unfold Machine.execFmul at h
  cases h
  repeat' (first | exact Keeps.refl _ | apply issueWord_keeps)
theorem execVfmax_keeps {s t : State} {x0 x1} (h : Machine.execVfmax x0 x1 s = .next t) : Keeps s t := by
  unfold Machine.execVfmax at h
  cases h
  repeat' (first | exact Keeps.refl _ | apply issueWord_keeps)
theorem execAdds_keeps {s t : State} {x0 x1} (h : Machine.execAdds x0 x1 s = .next t) : Keeps s t := by
  unfold Machine.execAdds at h
  cases h
  repeat' (first | exact Keeps.refl _ | apply issueWord_keeps)
theorem execShadowPoll_keeps {s t : State} {x0} (h : Machine.execShadowPoll x0 s = .next t) : Keeps s t := by
  unfold Machine.execShadowPoll at h
  cases h
  repeat' (first | with_reducible (first | exact Keeps.refl _ | assumption | apply ite_keeps | apply State.whenHost_keeps | apply State.shadowPoll_keeps | exact State.landXfers_keeps | exact State.validXfers_keeps | exact State.drainXfers_keeps | exact fun _ _ => copyXfers_keeps) | (extract_lets +onlyGivenNames x; first | ((refine_lift have hx : Keeps s x := ?_; ?_); all_goals (first | (guard_hyp hx : Keeps s x; clear_value x) | subst x)) | ((refine_lift have hx : Keeps s x.1 := ?_; ?_); all_goals (first | (guard_hyp hx : Keeps s x.1; clear_value x) | subst x)) | clear_value x) | split | (intro _ _) | (refine foldl_keeps ?_ ?_) | dsimp only | with_reducible apply Keeps.mk_other)
theorem execDoipConnectionClose_keeps {s t : State} {x0} (h : Machine.execDoipConnectionClose x0 s = .next t) : Keeps s t := by
  unfold Machine.execDoipConnectionClose at h
  cases h
  repeat' (first | with_reducible (first | exact Keeps.refl _ | assumption | apply ite_keeps | apply State.whenUp_keeps | apply State.doipClose_keeps | exact State.landXfers_keeps | exact State.validXfers_keeps | exact State.drainXfers_keeps | exact fun _ _ => copyXfers_keeps) | (extract_lets +onlyGivenNames x; first | ((refine_lift have hx : Keeps s x := ?_; ?_); all_goals (first | (guard_hyp hx : Keeps s x; clear_value x) | subst x)) | ((refine_lift have hx : Keeps s x.1 := ?_; ?_); all_goals (first | (guard_hyp hx : Keeps s x.1; clear_value x) | subst x)) | clear_value x) | split | (intro _ _) | (refine foldl_keeps ?_ ?_) | dsimp only | with_reducible apply Keeps.mk_other)
theorem execCsrWrite_keeps {s t : State} {x0 x1 x2} (h : Machine.execCsrWrite x0 x1 x2 s = .next t) : Keeps s t := by
  unfold Machine.execCsrWrite at h
  cases h
  repeat' (first | with_reducible (first | exact Keeps.refl _ | assumption | apply ite_keeps | apply State.whenUp_keeps | apply State.csrWrite_keeps | exact State.landXfers_keeps | exact State.validXfers_keeps | exact State.drainXfers_keeps | exact fun _ _ => copyXfers_keeps) | (extract_lets +onlyGivenNames x; first | ((refine_lift have hx : Keeps s x := ?_; ?_); all_goals (first | (guard_hyp hx : Keeps s x; clear_value x) | subst x)) | ((refine_lift have hx : Keeps s x.1 := ?_; ?_); all_goals (first | (guard_hyp hx : Keeps s x.1; clear_value x) | subst x)) | clear_value x) | split | (intro _ _) | (refine foldl_keeps ?_ ?_) | dsimp only | with_reducible apply Keeps.mk_other)
theorem execReportNumberOfDtc_keeps {s t : State} {x0} (h : Machine.execReportNumberOfDtc x0 s = .next t) : Keeps s t := by
  unfold Machine.execReportNumberOfDtc at h
  cases h
  repeat' (first | with_reducible (first | exact Keeps.refl _ | assumption | apply ite_keeps | apply State.whenUp_keeps | apply State.udsCount_keeps | exact State.landXfers_keeps | exact State.validXfers_keeps | exact State.drainXfers_keeps | exact fun _ _ => copyXfers_keeps) | (extract_lets +onlyGivenNames x; first | ((refine_lift have hx : Keeps s x := ?_; ?_); all_goals (first | (guard_hyp hx : Keeps s x; clear_value x) | subst x)) | ((refine_lift have hx : Keeps s x.1 := ?_; ?_); all_goals (first | (guard_hyp hx : Keeps s x.1; clear_value x) | subst x)) | clear_value x) | split | (intro _ _) | (refine foldl_keeps ?_ ?_) | dsimp only | with_reducible apply Keeps.mk_other)
theorem execMulU32_keeps {s t : State} {x0 x1} (h : Machine.execMulU32 x0 x1 s = .next t) : Keeps s t := by
  unfold Machine.execMulU32 at h
  cases h
  repeat' (first | exact Keeps.refl _ | apply issueWord_keeps)
theorem execRoutineResume_keeps {s t : State} {x0 x1} (h : Machine.execRoutineResume x0 x1 s = .next t) : Keeps s t := by
  unfold Machine.execRoutineResume at h
  cases h
  repeat' (first | with_reducible (first | exact Keeps.refl _ | assumption | apply ite_keeps | apply State.whenUp_keeps | apply State.setUp_keeps | apply State.modTile_keeps | exact State.landXfers_keeps | exact State.validXfers_keeps | exact State.drainXfers_keeps | exact fun _ _ => copyXfers_keeps) | (extract_lets +onlyGivenNames x; first | ((refine_lift have hx : Keeps s x := ?_; ?_); all_goals (first | (guard_hyp hx : Keeps s x; clear_value x) | subst x)) | ((refine_lift have hx : Keeps s x.1 := ?_; ?_); all_goals (first | (guard_hyp hx : Keeps s x.1; clear_value x) | subst x)) | clear_value x) | split | (intro _ _) | (refine foldl_keeps ?_ ?_) | dsimp only | with_reducible apply Keeps.mk_other)
theorem execSemaphorePerform_keeps {s t : State} {x0 x1 x2} (h : Machine.execSemaphorePerform x0 x1 x2 s = .next t) : Keeps s t := by
  unfold Machine.execSemaphorePerform at h
  cases h
  repeat' (first | with_reducible (first | exact Keeps.refl _ | assumption | apply ite_keeps | apply State.whenUp_keeps | apply State.semMeet_keeps | exact State.landXfers_keeps | exact State.validXfers_keeps | exact State.drainXfers_keeps | exact fun _ _ => copyXfers_keeps) | (extract_lets +onlyGivenNames x; first | ((refine_lift have hx : Keeps s x := ?_; ?_); all_goals (first | (guard_hyp hx : Keeps s x; clear_value x) | subst x)) | ((refine_lift have hx : Keeps s x.1 := ?_; ?_); all_goals (first | (guard_hyp hx : Keeps s x.1; clear_value x) | subst x)) | clear_value x) | split | (intro _ _) | (refine foldl_keeps ?_ ?_) | dsimp only | with_reducible apply Keeps.mk_other)
theorem execSignalTimeout_keeps {s t : State} {x0} (h : Machine.execSignalTimeout x0 s = .next t) : Keeps s t := by
  unfold Machine.execSignalTimeout at h
  cases h
  repeat' (first | with_reducible (first | exact Keeps.refl _ | assumption | apply ite_keeps | apply State.whenUp_keeps | apply State.sigTimeout_keeps | exact State.landXfers_keeps | exact State.validXfers_keeps | exact State.drainXfers_keeps | exact fun _ _ => copyXfers_keeps) | (extract_lets +onlyGivenNames x; first | ((refine_lift have hx : Keeps s x := ?_; ?_); all_goals (first | (guard_hyp hx : Keeps s x; clear_value x) | subst x)) | ((refine_lift have hx : Keeps s x.1 := ?_; ?_); all_goals (first | (guard_hyp hx : Keeps s x.1; clear_value x) | subst x)) | clear_value x) | split | (intro _ _) | (refine foldl_keeps ?_ ?_) | dsimp only | with_reducible apply Keeps.mk_other)
theorem execVfcmp_keeps {s t : State} {x0 x1} (h : Machine.execVfcmp x0 x1 s = .next t) : Keeps s t := by
  unfold Machine.execVfcmp at h
  cases h
  repeat' (first | exact Keeps.refl _ | apply issueWord_keeps)
theorem execUsb2WriteImage_keeps {s t : State} {x0 x1 x2} (h : Machine.execUsb2WriteImage x0 x1 x2 s = .next t) : Keeps s t := by
  unfold Machine.execUsb2WriteImage at h
  cases h
  repeat' (first | with_reducible (first | exact Keeps.refl _ | assumption | apply ite_keeps | apply State.whenUp_keeps | apply State.usb2Write_keeps | exact State.landXfers_keeps | exact State.validXfers_keeps | exact State.drainXfers_keeps | exact fun _ _ => copyXfers_keeps) | (extract_lets +onlyGivenNames x; first | ((refine_lift have hx : Keeps s x := ?_; ?_); all_goals (first | (guard_hyp hx : Keeps s x; clear_value x) | subst x)) | ((refine_lift have hx : Keeps s x.1 := ?_; ?_); all_goals (first | (guard_hyp hx : Keeps s x.1; clear_value x) | subst x)) | clear_value x) | split | (intro _ _) | (refine foldl_keeps ?_ ?_) | dsimp only | with_reducible apply Keeps.mk_other)
theorem execFwSvnRaise_keeps {s t : State} (h : Machine.execFwSvnRaise  s = .next t) : Keeps s t := by
  unfold Machine.execFwSvnRaise at h
  cases h
  repeat' (first | exact Keeps.refl _ | apply State.whenUp_keeps | apply State.svnRaise_keeps)
theorem execDoorbell_keeps {s t : State} {x0 x1 x2} (h : Machine.execDoorbell x0 x1 x2 s = .next t) : Keeps s t := by
  unfold Machine.execDoorbell at h
  cases h
  repeat' (first | with_reducible (first | exact Keeps.refl _ | assumption | apply ite_keeps | apply State.whenUp_keeps | apply State.doorbell_keeps | exact State.landXfers_keeps | exact State.validXfers_keeps | exact State.drainXfers_keeps | exact fun _ _ => copyXfers_keeps) | (extract_lets +onlyGivenNames x; first | ((refine_lift have hx : Keeps s x := ?_; ?_); all_goals (first | (guard_hyp hx : Keeps s x; clear_value x) | subst x)) | ((refine_lift have hx : Keeps s x.1 := ?_; ?_); all_goals (first | (guard_hyp hx : Keeps s x.1; clear_value x) | subst x)) | clear_value x) | split | (intro _ _) | (refine foldl_keeps ?_ ?_) | dsimp only | with_reducible apply Keeps.mk_other)
theorem execCrfEventReceive_keeps {s t : State} {x0 x1 x2} (h : Machine.execCrfEventReceive x0 x1 x2 s = .next t) : Keeps s t := by
  unfold Machine.execCrfEventReceive at h
  cases h
  repeat' (first | exact Keeps.refl _ | apply State.crfIn_keeps)
theorem execCommandTakeEffect_keeps {s t : State} (h : Machine.execCommandTakeEffect  s = .next t) : Keeps s t := by
  unfold Machine.execCommandTakeEffect at h
  cases h
  repeat' (first | exact Keeps.refl _ | apply State.whenUp_keeps | apply State.takeEffect_keeps)
theorem execVsar_keeps {s t : State} {x0 x1} (h : Machine.execVsar x0 x1 s = .next t) : Keeps s t := by
  unfold Machine.execVsar at h
  cases h
  repeat' (first | exact Keeps.refl _ | apply issueWord_keeps)
theorem execReportDtcSnapshot_keeps {s t : State} {x0 x1} (h : Machine.execReportDtcSnapshot x0 x1 s = .next t) : Keeps s t := by
  unfold Machine.execReportDtcSnapshot at h
  cases h
  repeat' (first | with_reducible (first | exact Keeps.refl _ | assumption | apply ite_keeps | apply State.whenUp_keeps | apply State.udsRecord_keeps | exact State.landXfers_keeps | exact State.validXfers_keeps | exact State.drainXfers_keeps | exact fun _ _ => copyXfers_keeps) | (extract_lets +onlyGivenNames x; first | ((refine_lift have hx : Keeps s x := ?_; ?_); all_goals (first | (guard_hyp hx : Keeps s x; clear_value x) | subst x)) | ((refine_lift have hx : Keeps s x.1 := ?_; ?_); all_goals (first | (guard_hyp hx : Keeps s x.1; clear_value x) | subst x)) | clear_value x) | split | (intro _ _) | (refine foldl_keeps ?_ ?_) | dsimp only | with_reducible apply Keeps.mk_other)
theorem execCheckProgrammingDependencies_keeps {s t : State} (h : Machine.execCheckProgrammingDependencies  s = .next t) : Keeps s t := by
  unfold Machine.execCheckProgrammingDependencies at h
  cases h
  repeat' (first | exact Keeps.refl _ | apply State.whenUp_keeps | apply State.udsCheck_keeps)
theorem execVmerge_keeps {s t : State} {x0 x1} (h : Machine.execVmerge x0 x1 s = .next t) : Keeps s t := by
  unfold Machine.execVmerge at h
  cases h
  repeat' (first | exact Keeps.refl _ | apply issueWord_keeps)
theorem execProvCommit_keeps {s t : State} {x0} (h : Machine.execProvCommit x0 s = .next t) : Keeps s t := by
  unfold Machine.execProvCommit at h
  cases h
  repeat' (first | with_reducible (first | exact Keeps.refl _ | assumption | apply ite_keeps | apply State.whenUp_keeps | apply State.provCommit_keeps | apply State.setReg_keeps | exact State.landXfers_keeps | exact State.validXfers_keeps | exact State.drainXfers_keeps | exact fun _ _ => copyXfers_keeps) | (extract_lets +onlyGivenNames x; first | ((refine_lift have hx : Keeps s x := ?_; ?_); all_goals (first | (guard_hyp hx : Keeps s x; clear_value x) | subst x)) | ((refine_lift have hx : Keeps s x.1 := ?_; ?_); all_goals (first | (guard_hyp hx : Keeps s x.1; clear_value x) | subst x)) | clear_value x) | split | (intro _ _) | (refine foldl_keeps ?_ ?_) | dsimp only | with_reducible apply Keeps.mk_other)
theorem execIsdFlag_keeps {s t : State} {x0} (h : Machine.execIsdFlag x0 s = .next t) : Keeps s t := by
  unfold Machine.execIsdFlag at h
  cases h
  repeat' (first | with_reducible (first | exact Keeps.refl _ | assumption | apply ite_keeps | apply State.whenUp_keeps | apply State.isdFlag_keeps | exact State.landXfers_keeps | exact State.validXfers_keeps | exact State.drainXfers_keeps | exact fun _ _ => copyXfers_keeps) | (extract_lets +onlyGivenNames x; first | ((refine_lift have hx : Keeps s x := ?_; ?_); all_goals (first | (guard_hyp hx : Keeps s x; clear_value x) | subst x)) | ((refine_lift have hx : Keeps s x.1 := ?_; ?_); all_goals (first | (guard_hyp hx : Keeps s x.1; clear_value x) | subst x)) | clear_value x) | split | (intro _ _) | (refine foldl_keeps ?_ ?_) | dsimp only | with_reducible apply Keeps.mk_other)
theorem execAbss_keeps {s t : State} {x0 x1} (h : Machine.execAbss x0 x1 s = .next t) : Keeps s t := by
  unfold Machine.execAbss at h
  cases h
  repeat' (first | exact Keeps.refl _ | apply issueWord_keeps)
theorem execFsqrtD_keeps {s t : State} {x0 x1} (h : Machine.execFsqrtD x0 x1 s = .next t) : Keeps s t := by
  unfold Machine.execFsqrtD at h
  cases h
  repeat' (first | exact Keeps.refl _ | apply issueWord_keeps)
theorem execFlOutputTake_keeps {s t : State} {x0} (h : Machine.execFlOutputTake x0 s = .next t) : Keeps s t := by
  unfold Machine.execFlOutputTake at h
  cases h
  repeat' (first | exact Keeps.refl _ | apply State.flTake_keeps)
theorem execVor_keeps {s t : State} {x0 x1} (h : Machine.execVor x0 x1 s = .next t) : Keeps s t := by
  unfold Machine.execVor at h
  cases h
  repeat' (first | exact Keeps.refl _ | apply issueWord_keeps)
theorem execDrain_keeps {s t : State} {x0 x1} (h : Machine.execDrain x0 x1 s = .next t) : Keeps s t := by
  unfold Machine.execDrain at h
  cases h
  repeat' (first | with_reducible (first | exact Keeps.refl _ | assumption | apply ite_keeps | apply State.whenUp_keeps | apply State.runStep_keeps | exact State.landXfers_keeps | exact State.validXfers_keeps | exact State.drainXfers_keeps | exact fun _ _ => copyXfers_keeps) | (extract_lets +onlyGivenNames x; first | ((refine_lift have hx : Keeps s x := ?_; ?_); all_goals (first | (guard_hyp hx : Keeps s x; clear_value x) | subst x)) | ((refine_lift have hx : Keeps s x.1 := ?_; ?_); all_goals (first | (guard_hyp hx : Keeps s x.1; clear_value x) | subst x)) | clear_value x) | split | (intro _ _) | (refine foldl_keeps ?_ ?_) | dsimp only | with_reducible apply Keeps.mk_other)
theorem execUdsRequestReceive_keeps {s t : State} {x0 x1 x2 x3 x4} (h : Machine.execUdsRequestReceive x0 x1 x2 x3 x4 s = .next t) : Keeps s t := by
  unfold Machine.execUdsRequestReceive at h
  cases h
  repeat' (first | with_reducible (first | exact Keeps.refl _ | assumption | apply ite_keeps | apply State.whenUp_keeps | apply State.udsRequest_keeps | exact State.landXfers_keeps | exact State.validXfers_keeps | exact State.drainXfers_keeps | exact fun _ _ => copyXfers_keeps) | (extract_lets +onlyGivenNames x; first | ((refine_lift have hx : Keeps s x := ?_; ?_); all_goals (first | (guard_hyp hx : Keeps s x; clear_value x) | subst x)) | ((refine_lift have hx : Keeps s x.1 := ?_; ?_); all_goals (first | (guard_hyp hx : Keeps s x.1; clear_value x) | subst x)) | clear_value x) | split | (intro _ _) | (refine foldl_keeps ?_ ?_) | dsimp only | with_reducible apply Keeps.mk_other)
theorem execEthLinkChange_keeps {s t : State} {x0 x1 x2} (h : Machine.execEthLinkChange x0 x1 x2 s = .next t) : Keeps s t := by
  unfold Machine.execEthLinkChange at h
  cases h
  repeat' (first | with_reducible (first | exact Keeps.refl _ | assumption | apply ite_keeps | apply State.whenUp_keeps | apply State.ethLink_keeps | exact State.landXfers_keeps | exact State.validXfers_keeps | exact State.drainXfers_keeps | exact fun _ _ => copyXfers_keeps) | (extract_lets +onlyGivenNames x; first | ((refine_lift have hx : Keeps s x := ?_; ?_); all_goals (first | (guard_hyp hx : Keeps s x; clear_value x) | subst x)) | ((refine_lift have hx : Keeps s x.1 := ?_; ?_); all_goals (first | (guard_hyp hx : Keeps s x.1; clear_value x) | subst x)) | clear_value x) | split | (intro _ _) | (refine foldl_keeps ?_ ?_) | dsimp only | with_reducible apply Keeps.mk_other)
theorem execCePhaseAdvance_keeps {s t : State} {x0 x1 x2} (h : Machine.execCePhaseAdvance x0 x1 x2 s = .next t) : Keeps s t := by
  unfold Machine.execCePhaseAdvance at h
  cases h
  repeat' (first | exact Keeps.refl _ | apply State.ceAdvance_keeps)
theorem execFcvtSH_keeps {s t : State} {x0 x1} (h : Machine.execFcvtSH x0 x1 s = .next t) : Keeps s t := by
  unfold Machine.execFcvtSH at h
  cases h
  repeat' (first | exact Keeps.refl _ | apply issueWord_keeps)
theorem execLoadPlanSwitch_keeps {s t : State} {x0} (h : Machine.execLoadPlanSwitch x0 s = .next t) : Keeps s t := by
  unfold Machine.execLoadPlanSwitch at h
  cases h
  repeat' (first | with_reducible (first | exact Keeps.refl _ | assumption | apply ite_keeps | apply State.whenUp_keeps | apply State.loadPlan_keeps | exact State.landXfers_keeps | exact State.validXfers_keeps | exact State.drainXfers_keeps | exact fun _ _ => copyXfers_keeps) | (extract_lets +onlyGivenNames x; first | ((refine_lift have hx : Keeps s x := ?_; ?_); all_goals (first | (guard_hyp hx : Keeps s x; clear_value x) | subst x)) | ((refine_lift have hx : Keeps s x.1 := ?_; ?_); all_goals (first | (guard_hyp hx : Keeps s x.1; clear_value x) | subst x)) | clear_value x) | split | (intro _ _) | (refine foldl_keeps ?_ ?_) | dsimp only | with_reducible apply Keeps.mk_other)
theorem execVmin_keeps {s t : State} {x0 x1} (h : Machine.execVmin x0 x1 s = .next t) : Keeps s t := by
  unfold Machine.execVmin at h
  cases h
  repeat' (first | exact Keeps.refl _ | apply issueWord_keeps)
theorem execVid_keeps {s t : State} {x0 x1} (h : Machine.execVid x0 x1 s = .next t) : Keeps s t := by
  unfold Machine.execVid at h
  cases h
  repeat' (first | exact Keeps.refl _ | apply issueWord_keeps)
theorem execInjGo_keeps {s t : State} {x0} (h : Machine.execInjGo x0 s = .next t) : Keeps s t := by
  unfold Machine.execInjGo at h
  cases h
  repeat' (first | with_reducible (first | exact Keeps.refl _ | assumption | apply ite_keeps | apply State.whenUp_keeps | apply State.injWrite_keeps | exact State.landXfers_keeps | exact State.validXfers_keeps | exact State.drainXfers_keeps | exact fun _ _ => copyXfers_keeps) | (extract_lets +onlyGivenNames x; first | ((refine_lift have hx : Keeps s x := ?_; ?_); all_goals (first | (guard_hyp hx : Keeps s x; clear_value x) | subst x)) | ((refine_lift have hx : Keeps s x.1 := ?_; ?_); all_goals (first | (guard_hyp hx : Keeps s x.1; clear_value x) | subst x)) | clear_value x) | split | (intro _ _) | (refine foldl_keeps ?_ ?_) | dsimp only | with_reducible apply Keeps.mk_other)
theorem execFcvtI64D_keeps {s t : State} {x0 x1} (h : Machine.execFcvtI64D x0 x1 s = .next t) : Keeps s t := by
  unfold Machine.execFcvtI64D at h
  cases h
  repeat' (first | exact Keeps.refl _ | apply issueWord_keeps)
theorem execBattSenseSample_keeps {s t : State} {x0} (h : Machine.execBattSenseSample x0 s = .next t) : Keeps s t := by
  unfold Machine.execBattSenseSample at h
  cases h
  repeat' (first | with_reducible (first | exact Keeps.refl _ | assumption | apply ite_keeps | apply State.whenUp_keeps | apply State.battSample_keeps | exact State.landXfers_keeps | exact State.validXfers_keeps | exact State.drainXfers_keeps | exact fun _ _ => copyXfers_keeps) | (extract_lets +onlyGivenNames x; first | ((refine_lift have hx : Keeps s x := ?_; ?_); all_goals (first | (guard_hyp hx : Keeps s x; clear_value x) | subst x)) | ((refine_lift have hx : Keeps s x.1 := ?_; ?_); all_goals (first | (guard_hyp hx : Keeps s x.1; clear_value x) | subst x)) | clear_value x) | split | (intro _ _) | (refine foldl_keeps ?_ ?_) | dsimp only | with_reducible apply Keeps.mk_other)
theorem execBandChange_keeps {s t : State} (h : Machine.execBandChange  s = .next t) : Keeps s t := by
  unfold Machine.execBandChange at h
  cases h
  repeat' (first | exact Keeps.refl _ | apply State.whenUp_keeps | apply State.bandChange_keeps)
theorem execFullPlanStart_keeps {s t : State} (h : Machine.execFullPlanStart  s = .next t) : Keeps s t := by
  unfold Machine.execFullPlanStart at h
  cases h
  repeat' (first | exact Keeps.refl _ | apply State.whenUp_keeps | apply State.fullStart_keeps)
theorem execSwitchWindowCommit_keeps {s t : State} (h : Machine.execSwitchWindowCommit  s = .next t) : Keeps s t := by
  unfold Machine.execSwitchWindowCommit at h
  cases h
  repeat' (first | exact Keeps.refl _ | apply State.windowCommit_keeps)
theorem execScatter_keeps {s t : State} {x0 x1} (h : Machine.execScatter x0 x1 s = .next t) : Keeps s t := by
  unfold Machine.execScatter at h
  cases h
  repeat' (first | exact Keeps.refl _ | apply issueWord_keeps)
theorem execAmov_keeps {s t : State} {x0 x1} (h : Machine.execAmov x0 x1 s = .next t) : Keeps s t := by
  unfold Machine.execAmov at h
  cases h
  repeat' (first | exact Keeps.refl _ | apply issueWord_keeps)
theorem execBudgetHoldExpire_keeps {s t : State} (h : Machine.execBudgetHoldExpire  s = .next t) : Keeps s t := by
  unfold Machine.execBudgetHoldExpire at h
  cases h
  repeat' (first | exact Keeps.refl _ | apply State.whenUp_keeps | apply State.budgetHeld_keeps)
theorem execVoltageMonitor_keeps {s t : State} {x0 x1} (h : Machine.execVoltageMonitor x0 x1 s = .next t) : Keeps s t := by
  unfold Machine.execVoltageMonitor at h
  cases h
  repeat' (first | with_reducible (first | exact Keeps.refl _ | assumption | apply ite_keeps | apply State.whenUp_keeps | apply State.railSample_keeps | exact State.landXfers_keeps | exact State.validXfers_keeps | exact State.drainXfers_keeps | exact fun _ _ => copyXfers_keeps) | (extract_lets +onlyGivenNames x; first | ((refine_lift have hx : Keeps s x := ?_; ?_); all_goals (first | (guard_hyp hx : Keeps s x; clear_value x) | subst x)) | ((refine_lift have hx : Keeps s x.1 := ?_; ?_); all_goals (first | (guard_hyp hx : Keeps s x.1; clear_value x) | subst x)) | clear_value x) | split | (intro _ _) | (refine foldl_keeps ?_ ?_) | dsimp only | with_reducible apply Keeps.mk_other)
theorem execCodewordReceive_keeps {s t : State} {x0 x1 x2 x3 x4 x5} (h : Machine.execCodewordReceive x0 x1 x2 x3 x4 x5 s = .next t) : Keeps s t := by
  unfold Machine.execCodewordReceive at h
  cases h
  repeat' (first | with_reducible (first | exact Keeps.refl _ | assumption | apply ite_keeps | apply State.whenUp_keeps | apply State.codeword_keeps | exact State.landXfers_keeps | exact State.validXfers_keeps | exact State.drainXfers_keeps | exact fun _ _ => copyXfers_keeps) | (extract_lets +onlyGivenNames x; first | ((refine_lift have hx : Keeps s x := ?_; ?_); all_goals (first | (guard_hyp hx : Keeps s x; clear_value x) | subst x)) | ((refine_lift have hx : Keeps s x.1 := ?_; ?_); all_goals (first | (guard_hyp hx : Keeps s x.1; clear_value x) | subst x)) | clear_value x) | split | (intro _ _) | (refine foldl_keeps ?_ ?_) | dsimp only | with_reducible apply Keeps.mk_other)
theorem execDiagEventExport_keeps {s t : State} {x0} (h : Machine.execDiagEventExport x0 s = .next t) : Keeps s t := by
  unfold Machine.execDiagEventExport at h
  cases h
  repeat' (first | with_reducible (first | exact Keeps.refl _ | assumption | apply ite_keeps | apply State.whenUp_keeps | apply State.diagExport_keeps | exact State.landXfers_keeps | exact State.validXfers_keeps | exact State.drainXfers_keeps | exact fun _ _ => copyXfers_keeps) | (extract_lets +onlyGivenNames x; first | ((refine_lift have hx : Keeps s x := ?_; ?_); all_goals (first | (guard_hyp hx : Keeps s x; clear_value x) | subst x)) | ((refine_lift have hx : Keeps s x.1 := ?_; ?_); all_goals (first | (guard_hyp hx : Keeps s x.1; clear_value x) | subst x)) | clear_value x) | split | (intro _ _) | (refine foldl_keeps ?_ ?_) | dsimp only | with_reducible apply Keeps.mk_other)
theorem execEventLogWrite_keeps {s t : State} (h : Machine.execEventLogWrite  s = .next t) : Keeps s t := by
  unfold Machine.execEventLogWrite at h
  cases h
  repeat' (first | exact Keeps.refl _ | apply State.flushEvent_keeps)
theorem execRetry_keeps {s t : State} {x0 x1} (h : Machine.execRetry x0 x1 s = .next t) : Keeps s t := by
  unfold Machine.execRetry at h
  cases h
  repeat' (first | exact Keeps.refl _ | apply issueWord_keeps)
theorem execGateListChange_keeps {s t : State} {x0 x1} (h : Machine.execGateListChange x0 x1 s = .next t) : Keeps s t := by
  unfold Machine.execGateListChange at h
  cases h
  repeat' (first | with_reducible (first | exact Keeps.refl _ | assumption | apply ite_keeps | apply State.whenUp_keeps | apply State.gateChange_keeps | exact State.landXfers_keeps | exact State.validXfers_keeps | exact State.drainXfers_keeps | exact fun _ _ => copyXfers_keeps) | (extract_lets +onlyGivenNames x; first | ((refine_lift have hx : Keeps s x := ?_; ?_); all_goals (first | (guard_hyp hx : Keeps s x; clear_value x) | subst x)) | ((refine_lift have hx : Keeps s x.1 := ?_; ?_); all_goals (first | (guard_hyp hx : Keeps s x.1; clear_value x) | subst x)) | clear_value x) | split | (intro _ _) | (refine foldl_keeps ?_ ?_) | dsimp only | with_reducible apply Keeps.mk_other)
theorem execPeak_keeps {s t : State} {x0 x1} (h : Machine.execPeak x0 x1 s = .next t) : Keeps s t := by
  unfold Machine.execPeak at h
  cases h
  repeat' (first | exact Keeps.refl _ | apply issueWord_keeps)
theorem execProvDataWrite_keeps {s t : State} {x0} (h : Machine.execProvDataWrite x0 s = .next t) : Keeps s t := by
  unfold Machine.execProvDataWrite at h
  cases h
  repeat' (first | with_reducible (first | exact Keeps.refl _ | assumption | apply ite_keeps | apply State.whenUp_keeps | apply State.provWord_keeps | exact State.landXfers_keeps | exact State.validXfers_keeps | exact State.drainXfers_keeps | exact fun _ _ => copyXfers_keeps) | (extract_lets +onlyGivenNames x; first | ((refine_lift have hx : Keeps s x := ?_; ?_); all_goals (first | (guard_hyp hx : Keeps s x; clear_value x) | subst x)) | ((refine_lift have hx : Keeps s x.1 := ?_; ?_); all_goals (first | (guard_hyp hx : Keeps s x.1; clear_value x) | subst x)) | clear_value x) | split | (intro _ _) | (refine foldl_keeps ?_ ?_) | dsimp only | with_reducible apply Keeps.mk_other)
theorem execAget_keeps {s t : State} {x0 x1} (h : Machine.execAget x0 x1 s = .next t) : Keeps s t := by
  unfold Machine.execAget at h
  cases h
  repeat' (first | exact Keeps.refl _ | apply issueWord_keeps)
theorem execFlitState_keeps {s t : State} {x0} (h : Machine.execFlitState x0 s = .next t) : Keeps s t := by
  unfold Machine.execFlitState at h
  cases h
  repeat' (first | with_reducible (first | exact Keeps.refl _ | assumption | apply ite_keeps | apply State.whenUp_keeps | apply State.flitState_keeps | exact State.landXfers_keeps | exact State.validXfers_keeps | exact State.drainXfers_keeps | exact fun _ _ => copyXfers_keeps) | (extract_lets +onlyGivenNames x; first | ((refine_lift have hx : Keeps s x := ?_; ?_); all_goals (first | (guard_hyp hx : Keeps s x; clear_value x) | subst x)) | ((refine_lift have hx : Keeps s x.1 := ?_; ?_); all_goals (first | (guard_hyp hx : Keeps s x.1; clear_value x) | subst x)) | clear_value x) | split | (intro _ _) | (refine foldl_keeps ?_ ?_) | dsimp only | with_reducible apply Keeps.mk_other)
theorem execDoipVehicleIdentification_keeps {s t : State} {x0} (h : Machine.execDoipVehicleIdentification x0 s = .next t) : Keeps s t := by
  unfold Machine.execDoipVehicleIdentification at h
  cases h
  repeat' (first | with_reducible (first | exact Keeps.refl _ | assumption | apply ite_keeps | apply State.whenUp_keeps | apply State.doipIdent_keeps | exact State.landXfers_keeps | exact State.validXfers_keeps | exact State.drainXfers_keeps | exact fun _ _ => copyXfers_keeps) | (extract_lets +onlyGivenNames x; first | ((refine_lift have hx : Keeps s x := ?_; ?_); all_goals (first | (guard_hyp hx : Keeps s x; clear_value x) | subst x)) | ((refine_lift have hx : Keeps s x.1 := ?_; ?_); all_goals (first | (guard_hyp hx : Keeps s x.1; clear_value x) | subst x)) | clear_value x) | split | (intro _ _) | (refine foldl_keeps ?_ ?_) | dsimp only | with_reducible apply Keeps.mk_other)
theorem execWriteDataByIdentifier_keeps {s t : State} {x0 x1} (h : Machine.execWriteDataByIdentifier x0 x1 s = .next t) : Keeps s t := by
  unfold Machine.execWriteDataByIdentifier at h
  cases h
  repeat' (first | with_reducible (first | exact Keeps.refl _ | assumption | apply ite_keeps | apply State.whenUp_keeps | apply State.udsWrite_keeps | exact State.landXfers_keeps | exact State.validXfers_keeps | exact State.drainXfers_keeps | exact fun _ _ => copyXfers_keeps) | (extract_lets +onlyGivenNames x; first | ((refine_lift have hx : Keeps s x := ?_; ?_); all_goals (first | (guard_hyp hx : Keeps s x; clear_value x) | subst x)) | ((refine_lift have hx : Keeps s x.1 := ?_; ?_); all_goals (first | (guard_hyp hx : Keeps s x.1; clear_value x) | subst x)) | clear_value x) | split | (intro _ _) | (refine foldl_keeps ?_ ?_) | dsimp only | with_reducible apply Keeps.mk_other)
theorem execEventLogExport_keeps {s t : State} {x0 x1} (h : Machine.execEventLogExport x0 x1 s = .next t) : Keeps s t := by
  unfold Machine.execEventLogExport at h
  cases h
  repeat' (first | with_reducible (first | exact Keeps.refl _ | assumption | apply ite_keeps | apply State.whenUp_keeps | apply State.udsExport_keeps | exact State.landXfers_keeps | exact State.validXfers_keeps | exact State.drainXfers_keeps | exact fun _ _ => copyXfers_keeps) | (extract_lets +onlyGivenNames x; first | ((refine_lift have hx : Keeps s x := ?_; ?_); all_goals (first | (guard_hyp hx : Keeps s x; clear_value x) | subst x)) | ((refine_lift have hx : Keeps s x.1 := ?_; ?_); all_goals (first | (guard_hyp hx : Keeps s x.1; clear_value x) | subst x)) | clear_value x) | split | (intro _ _) | (refine foldl_keeps ?_ ?_) | dsimp only | with_reducible apply Keeps.mk_other)
theorem execSwitchWindowStart_keeps {s t : State} (h : Machine.execSwitchWindowStart  s = .next t) : Keeps s t := by
  unfold Machine.execSwitchWindowStart at h
  cases h
  repeat' (first | exact Keeps.refl _ | apply State.windowStart_keeps)
theorem execXor_keeps {s t : State} {x0 x1} (h : Machine.execXor x0 x1 s = .next t) : Keeps s t := by
  unfold Machine.execXor at h
  cases h
  repeat' (first | exact Keeps.refl _ | apply issueWord_keeps)
theorem execIswiWrite_keeps {s t : State} {x0 x1 x2} (h : Machine.execIswiWrite x0 x1 x2 s = .next t) : Keeps s t := by
  unfold Machine.execIswiWrite at h
  cases h
  repeat' (first | with_reducible (first | exact Keeps.refl _ | assumption | apply ite_keeps | apply State.whenUp_keeps | apply State.iswi_keeps | exact State.landXfers_keeps | exact State.validXfers_keeps | exact State.drainXfers_keeps | exact fun _ _ => copyXfers_keeps) | (extract_lets +onlyGivenNames x; first | ((refine_lift have hx : Keeps s x := ?_; ?_); all_goals (first | (guard_hyp hx : Keeps s x; clear_value x) | subst x)) | ((refine_lift have hx : Keeps s x.1 := ?_; ?_); all_goals (first | (guard_hyp hx : Keeps s x.1; clear_value x) | subst x)) | clear_value x) | split | (intro _ _) | (refine foldl_keeps ?_ ?_) | dsimp only | with_reducible apply Keeps.mk_other)
theorem execPmicWarnAssert_keeps {s t : State} (h : Machine.execPmicWarnAssert  s = .next t) : Keeps s t := by
  unfold Machine.execPmicWarnAssert at h
  cases h
  repeat' (first | exact Keeps.refl _ | apply State.whenUp_keeps | apply State.pmicWarn_keeps)
theorem execOr_keeps {s t : State} {x0 x1} (h : Machine.execOr x0 x1 s = .next t) : Keeps s t := by
  unfold Machine.execOr at h
  cases h
  repeat' (first | exact Keeps.refl _ | apply issueWord_keeps)
theorem execRequestTransferExit_keeps {s t : State} {x0} (h : Machine.execRequestTransferExit x0 s = .next t) : Keeps s t := by
  unfold Machine.execRequestTransferExit at h
  cases h
  repeat' (first | with_reducible (first | exact Keeps.refl _ | assumption | apply ite_keeps | apply State.whenUp_keeps | apply State.udsExit_keeps | exact State.landXfers_keeps | exact State.validXfers_keeps | exact State.drainXfers_keeps | exact fun _ _ => copyXfers_keeps) | (extract_lets +onlyGivenNames x; first | ((refine_lift have hx : Keeps s x := ?_; ?_); all_goals (first | (guard_hyp hx : Keeps s x; clear_value x) | subst x)) | ((refine_lift have hx : Keeps s x.1 := ?_; ?_); all_goals (first | (guard_hyp hx : Keeps s x.1; clear_value x) | subst x)) | clear_value x) | split | (intro _ _) | (refine foldl_keeps ?_ ?_) | dsimp only | with_reducible apply Keeps.mk_other)
theorem execResponsePending_keeps {s t : State} (h : Machine.execResponsePending  s = .next t) : Keeps s t := by
  unfold Machine.execResponsePending at h
  cases h
  repeat' (first | exact Keeps.refl _ | apply State.whenUp_keeps | apply State.udsPending_keeps)
theorem execPmicWarnFall_keeps {s t : State} (h : Machine.execPmicWarnFall  s = .next t) : Keeps s t := by
  unfold Machine.execPmicWarnFall at h
  cases h
  repeat' (first | exact Keeps.refl _ | apply State.whenUp_keeps | apply State.pmicWarnFall_keeps)
theorem execAmovi_keeps {s t : State} {x0 x1} (h : Machine.execAmovi x0 x1 s = .next t) : Keeps s t := by
  unfold Machine.execAmovi at h
  cases h
  repeat' (first | exact Keeps.refl _ | apply issueWord_keeps)
theorem execTileWake_keeps {s t : State} {x0} (h : Machine.execTileWake x0 s = .next t) : Keeps s t := by
  unfold Machine.execTileWake at h
  cases h
  repeat' (first | exact Keeps.refl _ | apply State.tileWake_keeps)
theorem execReplanComplete_keeps {s t : State} {x0} (h : Machine.execReplanComplete x0 s = .next t) : Keeps s t := by
  unfold Machine.execReplanComplete at h
  cases h
  repeat' (first | with_reducible (first | exact Keeps.refl _ | assumption | apply ite_keeps | apply State.whenUp_keeps | apply State.replanDone_keeps | exact State.landXfers_keeps | exact State.validXfers_keeps | exact State.drainXfers_keeps | exact fun _ _ => copyXfers_keeps) | (extract_lets +onlyGivenNames x; first | ((refine_lift have hx : Keeps s x := ?_; ?_); all_goals (first | (guard_hyp hx : Keeps s x; clear_value x) | subst x)) | ((refine_lift have hx : Keeps s x.1 := ?_; ?_); all_goals (first | (guard_hyp hx : Keeps s x.1; clear_value x) | subst x)) | clear_value x) | split | (intro _ _) | (refine foldl_keeps ?_ ?_) | dsimp only | with_reducible apply Keeps.mk_other)
theorem execPwrGoodFall_keeps {s t : State} (h : Machine.execPwrGoodFall  s = .next t) : Keeps s t := by
  unfold Machine.execPwrGoodFall at h
  cases h
  repeat' (first | exact Keeps.refl _ | apply State.whenUp_keeps | apply State.pwrGoodFall_keeps)
theorem execShl_keeps {s t : State} {x0 x1} (h : Machine.execShl x0 x1 s = .next t) : Keeps s t := by
  unfold Machine.execShl at h
  cases h
  repeat' (first | exact Keeps.refl _ | apply issueWord_keeps)
theorem execSwitchPlan_keeps {s t : State} {x0} (h : Machine.execSwitchPlan x0 s = .next t) : Keeps s t := by
  unfold Machine.execSwitchPlan at h
  cases h
  repeat' (first | with_reducible (first | exact Keeps.refl _ | assumption | apply ite_keeps | apply State.whenUp_keeps | apply State.cmdSwitch_keeps | exact State.landXfers_keeps | exact State.validXfers_keeps | exact State.drainXfers_keeps | exact fun _ _ => copyXfers_keeps) | (extract_lets +onlyGivenNames x; first | ((refine_lift have hx : Keeps s x := ?_; ?_); all_goals (first | (guard_hyp hx : Keeps s x; clear_value x) | subst x)) | ((refine_lift have hx : Keeps s x.1 := ?_; ?_); all_goals (first | (guard_hyp hx : Keeps s x.1; clear_value x) | subst x)) | clear_value x) | split | (intro _ _) | (refine foldl_keeps ?_ ?_) | dsimp only | with_reducible apply Keeps.mk_other)
theorem execPairHighWrite_keeps {s t : State} {x0 x1 x2} (h : Machine.execPairHighWrite x0 x1 x2 s = .next t) : Keeps s t := by
  unfold Machine.execPairHighWrite at h
  cases h
  repeat' (first | with_reducible (first | exact Keeps.refl _ | assumption | apply ite_keeps | apply State.whenUp_keeps | apply State.csrWrite_keeps | exact State.landXfers_keeps | exact State.validXfers_keeps | exact State.drainXfers_keeps | exact fun _ _ => copyXfers_keeps) | (extract_lets +onlyGivenNames x; first | ((refine_lift have hx : Keeps s x := ?_; ?_); all_goals (first | (guard_hyp hx : Keeps s x; clear_value x) | subst x)) | ((refine_lift have hx : Keeps s x.1 := ?_; ?_); all_goals (first | (guard_hyp hx : Keeps s x.1; clear_value x) | subst x)) | clear_value x) | split | (intro _ _) | (refine foldl_keeps ?_ ?_) | dsimp only | with_reducible apply Keeps.mk_other)
theorem execMacq15_keeps {s t : State} {x0 x1} (h : Machine.execMacq15 x0 x1 s = .next t) : Keeps s t := by
  unfold Machine.execMacq15 at h
  cases h
  repeat' (first | exact Keeps.refl _ | apply issueWord_keeps)
theorem execReplicaMeasure_keeps {s t : State} {x0 x1 x2} (h : Machine.execReplicaMeasure x0 x1 x2 s = .next t) : Keeps s t := by
  unfold Machine.execReplicaMeasure at h
  cases h
  repeat' (first | with_reducible (first | exact Keeps.refl _ | assumption | apply ite_keeps | apply State.whenUp_keeps | apply State.replica_keeps | exact State.landXfers_keeps | exact State.validXfers_keeps | exact State.drainXfers_keeps | exact fun _ _ => copyXfers_keeps) | (extract_lets +onlyGivenNames x; first | ((refine_lift have hx : Keeps s x := ?_; ?_); all_goals (first | (guard_hyp hx : Keeps s x; clear_value x) | subst x)) | ((refine_lift have hx : Keeps s x.1 := ?_; ?_); all_goals (first | (guard_hyp hx : Keeps s x.1; clear_value x) | subst x)) | clear_value x) | split | (intro _ _) | (refine foldl_keeps ?_ ?_) | dsimp only | with_reducible apply Keeps.mk_other)
theorem execBiq_keeps {s t : State} {x0 x1} (h : Machine.execBiq x0 x1 s = .next t) : Keeps s t := by
  unfold Machine.execBiq at h
  cases h
  repeat' (first | exact Keeps.refl _ | apply issueWord_keeps)
theorem execAvtpPduReceive_keeps {s t : State} {x0} (h : Machine.execAvtpPduReceive x0 s = .next t) : Keeps s t := by
  unfold Machine.execAvtpPduReceive at h
  cases h
  repeat' (first | exact Keeps.refl _ | apply State.avtpIn_keeps)
theorem execCopy_keeps {s t : State} {x0 x1 x2} (h : Machine.execCopy x0 x1 x2 s = .next t) : Keeps s t := by
  unfold Machine.execCopy at h
  cases h
  repeat' (first | with_reducible (first | exact Keeps.refl _ | assumption | apply ite_keeps | apply State.whenUp_keeps | apply State.runStep_keeps | exact State.landXfers_keeps | exact State.validXfers_keeps | exact State.drainXfers_keeps | exact fun _ _ => copyXfers_keeps) | (extract_lets +onlyGivenNames x; first | ((refine_lift have hx : Keeps s x := ?_; ?_); all_goals (first | (guard_hyp hx : Keeps s x; clear_value x) | subst x)) | ((refine_lift have hx : Keeps s x.1 := ?_; ?_); all_goals (first | (guard_hyp hx : Keeps s x.1; clear_value x) | subst x)) | clear_value x) | split | (intro _ _) | (refine foldl_keeps ?_ ?_) | dsimp only | with_reducible apply Keeps.mk_other)
theorem execFneg_keeps {s t : State} {x0 x1} (h : Machine.execFneg x0 x1 s = .next t) : Keeps s t := by
  unfold Machine.execFneg at h
  cases h
  repeat' (first | exact Keeps.refl _ | apply issueWord_keeps)
theorem execFlitRecord_keeps {s t : State} {x0 x1 x2} (h : Machine.execFlitRecord x0 x1 x2 s = .next t) : Keeps s t := by
  unfold Machine.execFlitRecord at h
  cases h
  repeat' (first | with_reducible (first | exact Keeps.refl _ | assumption | apply ite_keeps | apply State.whenUp_keeps | apply State.flitRecord_keeps | exact State.landXfers_keeps | exact State.validXfers_keeps | exact State.drainXfers_keeps | exact fun _ _ => copyXfers_keeps) | (extract_lets +onlyGivenNames x; first | ((refine_lift have hx : Keeps s x := ?_; ?_); all_goals (first | (guard_hyp hx : Keeps s x; clear_value x) | subst x)) | ((refine_lift have hx : Keeps s x.1 := ?_; ?_); all_goals (first | (guard_hyp hx : Keeps s x.1; clear_value x) | subst x)) | clear_value x) | split | (intro _ _) | (refine foldl_keeps ?_ ?_) | dsimp only | with_reducible apply Keeps.mk_other)
theorem execNapWake_keeps {s t : State} {x0} (h : Machine.execNapWake x0 s = .next t) : Keeps s t := by
  unfold Machine.execNapWake at h
  cases h
  repeat' (first | exact Keeps.refl _ | apply State.napWake_keeps)
theorem execNop_keeps {s t : State} {x0 x1} (h : Machine.execNop x0 x1 s = .next t) : Keeps s t := by
  unfold Machine.execNop at h
  cases h
  repeat' (first | exact Keeps.refl _ | apply issueWord_keeps)
theorem execTilePowerUp_keeps {s t : State} {x0} (h : Machine.execTilePowerUp x0 s = .next t) : Keeps s t := by
  unfold Machine.execTilePowerUp at h
  cases h
  repeat' (first | exact Keeps.refl _ | apply State.tilePower_keeps)
theorem execDbgRespDataWrite_keeps {s t : State} {x0} (h : Machine.execDbgRespDataWrite x0 s = .next t) : Keeps s t := by
  unfold Machine.execDbgRespDataWrite at h
  cases h
  repeat' (first | with_reducible (first | exact Keeps.refl _ | assumption | apply ite_keeps | apply State.whenUp_keeps | apply State.respWord_keeps | exact State.landXfers_keeps | exact State.validXfers_keeps | exact State.drainXfers_keeps | exact fun _ _ => copyXfers_keeps) | (extract_lets +onlyGivenNames x; first | ((refine_lift have hx : Keeps s x := ?_; ?_); all_goals (first | (guard_hyp hx : Keeps s x; clear_value x) | subst x)) | ((refine_lift have hx : Keeps s x.1 := ?_; ?_); all_goals (first | (guard_hyp hx : Keeps s x.1; clear_value x) | subst x)) | clear_value x) | split | (intro _ _) | (refine foldl_keeps ?_ ?_) | dsimp only | with_reducible apply Keeps.mk_other)
theorem execTesterPresent_keeps {s t : State} (h : Machine.execTesterPresent  s = .next t) : Keeps s t := by
  unfold Machine.execTesterPresent at h
  cases h
  repeat' (first | exact Keeps.refl _ | apply State.whenUp_keeps | apply State.udsPresent_keeps)
theorem execVadd_keeps {s t : State} {x0 x1} (h : Machine.execVadd x0 x1 s = .next t) : Keeps s t := by
  unfold Machine.execVadd at h
  cases h
  repeat' (first | exact Keeps.refl _ | apply issueWord_keeps)
theorem execThermalCapRemove_keeps {s t : State} (h : Machine.execThermalCapRemove  s = .next t) : Keeps s t := by
  unfold Machine.execThermalCapRemove at h
  cases h
  repeat' (first | exact Keeps.refl _ | apply State.whenUp_keeps | apply State.capEnd_keeps)
theorem execS3Timeout_keeps {s t : State} (h : Machine.execS3Timeout  s = .next t) : Keeps s t := by
  unfold Machine.execS3Timeout at h
  cases h
  repeat' (first | exact Keeps.refl _ | apply State.whenUp_keeps | apply State.s3_keeps)
theorem execFcvtDI32_keeps {s t : State} {x0 x1} (h : Machine.execFcvtDI32 x0 x1 s = .next t) : Keeps s t := by
  unfold Machine.execFcvtDI32 at h
  cases h
  repeat' (first | exact Keeps.refl _ | apply issueWord_keeps)
theorem execStandbyCancel_keeps {s t : State} {x0} (h : Machine.execStandbyCancel x0 s = .next t) : Keeps s t := by
  unfold Machine.execStandbyCancel at h
  cases h
  repeat' (first | with_reducible (first | exact Keeps.refl _ | assumption | apply ite_keeps | apply State.whenUp_keeps | apply State.standbyOut_keeps | exact State.landXfers_keeps | exact State.validXfers_keeps | exact State.drainXfers_keeps | exact fun _ _ => copyXfers_keeps) | (extract_lets +onlyGivenNames x; first | ((refine_lift have hx : Keeps s x := ?_; ?_); all_goals (first | (guard_hyp hx : Keeps s x; clear_value x) | subst x)) | ((refine_lift have hx : Keeps s x.1 := ?_; ?_); all_goals (first | (guard_hyp hx : Keeps s x.1; clear_value x) | subst x)) | clear_value x) | split | (intro _ _) | (refine foldl_keeps ?_ ?_) | dsimp only | with_reducible apply Keeps.mk_other)
theorem execWakeFail_keeps {s t : State} {x0} (h : Machine.execWakeFail x0 s = .next t) : Keeps s t := by
  unfold Machine.execWakeFail at h
  cases h
  repeat' (first | exact Keeps.refl _ | apply State.wakeFail_keeps)
theorem execBar2OtherAccess_keeps {s t : State} {x0} (h : Machine.execBar2OtherAccess x0 s = .next t) : Keeps s t := by
  unfold Machine.execBar2OtherAccess at h
  cases h
  repeat' (first | with_reducible (first | exact Keeps.refl _ | assumption | apply ite_keeps | apply State.whenUp_keeps | apply State.bar2_keeps | exact State.landXfers_keeps | exact State.validXfers_keeps | exact State.drainXfers_keeps | exact fun _ _ => copyXfers_keeps) | (extract_lets +onlyGivenNames x; first | ((refine_lift have hx : Keeps s x := ?_; ?_); all_goals (first | (guard_hyp hx : Keeps s x; clear_value x) | subst x)) | ((refine_lift have hx : Keeps s x.1 := ?_; ?_); all_goals (first | (guard_hyp hx : Keeps s x.1; clear_value x) | subst x)) | clear_value x) | split | (intro _ _) | (refine foldl_keeps ?_ ?_) | dsimp only | with_reducible apply Keeps.mk_other)
theorem execSafetyPhaseStart_keeps {s t : State} (h : Machine.execSafetyPhaseStart  s = .next t) : Keeps s t := by
  unfold Machine.execSafetyPhaseStart at h
  cases h
  repeat' (first | exact Keeps.refl _ | apply State.whenUp_keeps | apply State.safetyStart_keeps)
theorem execResyncJoin_keeps {s t : State} (h : Machine.execResyncJoin  s = .next t) : Keeps s t := by
  unfold Machine.execResyncJoin at h
  cases h
  repeat' (first | exact Keeps.refl _ | apply State.whenUp_keeps | apply State.resyncJoin_keeps)
theorem execParamWrite_keeps {s t : State} {x0} (h : Machine.execParamWrite x0 s = .next t) : Keeps s t := by
  unfold Machine.execParamWrite at h
  cases h
  repeat' (first | with_reducible (first | exact Keeps.refl _ | assumption | apply ite_keeps | apply State.whenUp_keeps | apply State.cmdParam_keeps | exact State.landXfers_keeps | exact State.validXfers_keeps | exact State.drainXfers_keeps | exact fun _ _ => copyXfers_keeps) | (extract_lets +onlyGivenNames x; first | ((refine_lift have hx : Keeps s x := ?_; ?_); all_goals (first | (guard_hyp hx : Keeps s x; clear_value x) | subst x)) | ((refine_lift have hx : Keeps s x.1 := ?_; ?_); all_goals (first | (guard_hyp hx : Keeps s x.1; clear_value x) | subst x)) | clear_value x) | split | (intro _ _) | (refine foldl_keeps ?_ ?_) | dsimp only | with_reducible apply Keeps.mk_other)
theorem execVld_keeps {s t : State} {x0 x1} (h : Machine.execVld x0 x1 s = .next t) : Keeps s t := by
  unfold Machine.execVld at h
  cases h
  repeat' (first | exact Keeps.refl _ | apply issueWord_keeps)
theorem execReplacePlanStart_keeps {s t : State} (h : Machine.execReplacePlanStart  s = .next t) : Keeps s t := by
  unfold Machine.execReplacePlanStart at h
  cases h
  repeat' (first | exact Keeps.refl _ | apply State.whenUp_keeps | apply State.replaceStart_keeps)
theorem execFbar_keeps {s t : State} {x0 x1} (h : Machine.execFbar x0 x1 s = .next t) : Keeps s t := by
  unfold Machine.execFbar at h
  cases h
  repeat' (first | exact Keeps.refl _ | apply issueWord_keeps)
theorem execCalla_keeps {s t : State} {x0 x1} (h : Machine.execCalla x0 x1 s = .next t) : Keeps s t := by
  unfold Machine.execCalla at h
  cases h
  repeat' (first | exact Keeps.refl _ | apply issueWord_keeps)
theorem execHeldFarLoadRelease_keeps {s t : State} {x0 x1} (h : Machine.execHeldFarLoadRelease x0 x1 s = .next t) : Keeps s t := by
  unfold Machine.execHeldFarLoadRelease at h
  cases h
  repeat' (first | with_reducible (first | exact Keeps.refl _ | assumption | apply ite_keeps | apply State.whenUp_keeps | apply State.farRelease_keeps | exact State.landXfers_keeps | exact State.validXfers_keeps | exact State.drainXfers_keeps | exact fun _ _ => copyXfers_keeps) | (extract_lets +onlyGivenNames x; first | ((refine_lift have hx : Keeps s x := ?_; ?_); all_goals (first | (guard_hyp hx : Keeps s x; clear_value x) | subst x)) | ((refine_lift have hx : Keeps s x.1 := ?_; ?_); all_goals (first | (guard_hyp hx : Keeps s x.1; clear_value x) | subst x)) | clear_value x) | split | (intro _ _) | (refine foldl_keeps ?_ ?_) | dsimp only | with_reducible apply Keeps.mk_other)
theorem execHostReadComplete_keeps {s t : State} {x0 x1} (h : Machine.execHostReadComplete x0 x1 s = .next t) : Keeps s t := by
  unfold Machine.execHostReadComplete at h
  cases h
  repeat' (first | with_reducible (first | exact Keeps.refl _ | assumption | apply ite_keeps | apply State.whenHost_keeps | apply State.readDone_keeps | exact State.landXfers_keeps | exact State.validXfers_keeps | exact State.drainXfers_keeps | exact fun _ _ => copyXfers_keeps) | (extract_lets +onlyGivenNames x; first | ((refine_lift have hx : Keeps s x := ?_; ?_); all_goals (first | (guard_hyp hx : Keeps s x; clear_value x) | subst x)) | ((refine_lift have hx : Keeps s x.1 := ?_; ?_); all_goals (first | (guard_hyp hx : Keeps s x.1; clear_value x) | subst x)) | clear_value x) | split | (intro _ _) | (refine foldl_keeps ?_ ?_) | dsimp only | with_reducible apply Keeps.mk_other)
theorem execDiagMarginExport_keeps {s t : State} {x0} (h : Machine.execDiagMarginExport x0 s = .next t) : Keeps s t := by
  unfold Machine.execDiagMarginExport at h
  cases h
  repeat' (first | with_reducible (first | exact Keeps.refl _ | assumption | apply ite_keeps | apply State.whenUp_keeps | apply State.diagExport_keeps | exact State.landXfers_keeps | exact State.validXfers_keeps | exact State.drainXfers_keeps | exact fun _ _ => copyXfers_keeps) | (extract_lets +onlyGivenNames x; first | ((refine_lift have hx : Keeps s x := ?_; ?_); all_goals (first | (guard_hyp hx : Keeps s x; clear_value x) | subst x)) | ((refine_lift have hx : Keeps s x.1 := ?_; ?_); all_goals (first | (guard_hyp hx : Keeps s x.1; clear_value x) | subst x)) | clear_value x) | split | (intro _ _) | (refine foldl_keeps ?_ ?_) | dsimp only | with_reducible apply Keeps.mk_other)
theorem execBreakpointHit_keeps {s t : State} {x0} (h : Machine.execBreakpointHit x0 s = .next t) : Keeps s t := by
  unfold Machine.execBreakpointHit at h
  cases h
  repeat' (first | exact Keeps.refl _ | apply State.dbgBreak_keeps)
theorem execAput_keeps {s t : State} {x0 x1} (h : Machine.execAput x0 x1 s = .next t) : Keeps s t := by
  unfold Machine.execAput at h
  cases h
  repeat' (first | exact Keeps.refl _ | apply issueWord_keeps)
theorem execRingEnable_keeps {s t : State} {x0 x1} (h : Machine.execRingEnable x0 x1 s = .next t) : Keeps s t := by
  unfold Machine.execRingEnable at h
  cases h
  repeat' (first | with_reducible (first | exact Keeps.refl _ | assumption | apply ite_keeps | apply State.whenUp_keeps | apply State.ringEnable_keeps | exact State.landXfers_keeps | exact State.validXfers_keeps | exact State.drainXfers_keeps | exact fun _ _ => copyXfers_keeps) | (extract_lets +onlyGivenNames x; first | ((refine_lift have hx : Keeps s x := ?_; ?_); all_goals (first | (guard_hyp hx : Keeps s x; clear_value x) | subst x)) | ((refine_lift have hx : Keeps s x.1 := ?_; ?_); all_goals (first | (guard_hyp hx : Keeps s x.1; clear_value x) | subst x)) | clear_value x) | split | (intro _ _) | (refine foldl_keeps ?_ ?_) | dsimp only | with_reducible apply Keeps.mk_other)
theorem execCeJobTake_keeps {s t : State} {x0} (h : Machine.execCeJobTake x0 s = .next t) : Keeps s t := by
  unfold Machine.execCeJobTake at h
  cases h
  repeat' (first | exact Keeps.refl _ | apply State.ceTake_keeps)
theorem execStreamOpen_keeps {s t : State} {x0} (h : Machine.execStreamOpen x0 s = .next t) : Keeps s t := by
  unfold Machine.execStreamOpen at h
  cases h
  repeat' (first | with_reducible (first | exact Keeps.refl _ | assumption | apply ite_keeps | apply State.whenUp_keeps | apply State.cmdOpen_keeps | exact State.landXfers_keeps | exact State.validXfers_keeps | exact State.drainXfers_keeps | exact fun _ _ => copyXfers_keeps) | (extract_lets +onlyGivenNames x; first | ((refine_lift have hx : Keeps s x := ?_; ?_); all_goals (first | (guard_hyp hx : Keeps s x; clear_value x) | subst x)) | ((refine_lift have hx : Keeps s x.1 := ?_; ?_); all_goals (first | (guard_hyp hx : Keeps s x.1; clear_value x) | subst x)) | clear_value x) | split | (intro _ _) | (refine foldl_keeps ?_ ?_) | dsimp only | with_reducible apply Keeps.mk_other)
theorem execLand_keeps {s t : State} {x0 x1 x2} (h : Machine.execLand x0 x1 x2 s = .next t) : Keeps s t := by
  unfold Machine.execLand at h
  cases h
  repeat' (first | with_reducible (first | exact Keeps.refl _ | assumption | apply ite_keeps | apply State.whenUp_keeps | apply State.runStep_keeps | exact State.landXfers_keeps | exact State.validXfers_keeps | exact State.drainXfers_keeps | exact fun _ _ => copyXfers_keeps) | (extract_lets +onlyGivenNames x; first | ((refine_lift have hx : Keeps s x := ?_; ?_); all_goals (first | (guard_hyp hx : Keeps s x; clear_value x) | subst x)) | ((refine_lift have hx : Keeps s x.1 := ?_; ?_); all_goals (first | (guard_hyp hx : Keeps s x.1; clear_value x) | subst x)) | clear_value x) | split | (intro _ _) | (refine foldl_keeps ?_ ?_) | dsimp only | with_reducible apply Keeps.mk_other)
theorem execGather_keeps {s t : State} {x0 x1} (h : Machine.execGather x0 x1 s = .next t) : Keeps s t := by
  unfold Machine.execGather at h
  cases h
  repeat' (first | exact Keeps.refl _ | apply issueWord_keeps)
theorem execExcursion_keeps {s t : State} (h : Machine.execExcursion  s = .next t) : Keeps s t := by
  unfold Machine.execExcursion at h
  cases h
  repeat' (first | exact Keeps.refl _ | apply State.whenUp_keeps | apply State.excursion_keeps)
theorem execBrx_keeps {s t : State} {x0 x1} (h : Machine.execBrx x0 x1 s = .next t) : Keeps s t := by
  unfold Machine.execBrx at h
  cases h
  repeat' (first | exact Keeps.refl _ | apply issueWord_keeps)
theorem execDivU32_keeps {s t : State} {x0 x1} (h : Machine.execDivU32 x0 x1 s = .next t) : Keeps s t := by
  unfold Machine.execDivU32 at h
  cases h
  repeat' (first | exact Keeps.refl _ | apply issueWord_keeps)
theorem execDeviceReset_keeps {s t : State} {x0 x1} (h : Machine.execDeviceReset x0 x1 s = .next t) : Keeps s t := by
  unfold Machine.execDeviceReset at h
  cases h
  repeat' (first | with_reducible (first | exact Keeps.refl _ | assumption | apply ite_keeps | apply State.whenUp_keeps | apply State.deviceReset_keeps | exact State.landXfers_keeps | exact State.validXfers_keeps | exact State.drainXfers_keeps | exact fun _ _ => copyXfers_keeps) | (extract_lets +onlyGivenNames x; first | ((refine_lift have hx : Keeps s x := ?_; ?_); all_goals (first | (guard_hyp hx : Keeps s x; clear_value x) | subst x)) | ((refine_lift have hx : Keeps s x.1 := ?_; ?_); all_goals (first | (guard_hyp hx : Keeps s x.1; clear_value x) | subst x)) | clear_value x) | split | (intro _ _) | (refine foldl_keeps ?_ ?_) | dsimp only | with_reducible apply Keeps.mk_other)
theorem execCanBusOffRecover_keeps {s t : State} {x0} (h : Machine.execCanBusOffRecover x0 s = .next t) : Keeps s t := by
  unfold Machine.execCanBusOffRecover at h
  cases h
  repeat' (first | with_reducible (first | exact Keeps.refl _ | assumption | apply ite_keeps | apply State.whenUp_keeps | apply State.busBack_keeps | exact State.landXfers_keeps | exact State.validXfers_keeps | exact State.drainXfers_keeps | exact fun _ _ => copyXfers_keeps) | (extract_lets +onlyGivenNames x; first | ((refine_lift have hx : Keeps s x := ?_; ?_); all_goals (first | (guard_hyp hx : Keeps s x; clear_value x) | subst x)) | ((refine_lift have hx : Keeps s x.1 := ?_; ?_); all_goals (first | (guard_hyp hx : Keeps s x.1; clear_value x) | subst x)) | clear_value x) | split | (intro _ _) | (refine foldl_keeps ?_ ?_) | dsimp only | with_reducible apply Keeps.mk_other)
theorem execFcvtSI32_keeps {s t : State} {x0 x1} (h : Machine.execFcvtSI32 x0 x1 s = .next t) : Keeps s t := by
  unfold Machine.execFcvtSI32 at h
  cases h
  repeat' (first | exact Keeps.refl _ | apply issueWord_keeps)
theorem execBistSliceEnd_keeps {s t : State} {x0 x1 x2} (h : Machine.execBistSliceEnd x0 x1 x2 s = .next t) : Keeps s t := by
  unfold Machine.execBistSliceEnd at h
  cases h
  repeat' (first | exact Keeps.refl _ | apply State.bistEnd_keeps)
theorem execTicketComplete_keeps {s t : State} {x0 x1} (h : Machine.execTicketComplete x0 x1 s = .next t) : Keeps s t := by
  unfold Machine.execTicketComplete at h
  cases h
  repeat' (first | with_reducible (first | exact Keeps.refl _ | assumption | apply ite_keeps | apply State.whenUp_keeps | apply State.farComplete_keeps | exact State.landXfers_keeps | exact State.validXfers_keeps | exact State.drainXfers_keeps | exact fun _ _ => copyXfers_keeps) | (extract_lets +onlyGivenNames x; first | ((refine_lift have hx : Keeps s x := ?_; ?_); all_goals (first | (guard_hyp hx : Keeps s x; clear_value x) | subst x)) | ((refine_lift have hx : Keeps s x.1 := ?_; ?_); all_goals (first | (guard_hyp hx : Keeps s x.1; clear_value x) | subst x)) | clear_value x) | split | (intro _ _) | (refine foldl_keeps ?_ ?_) | dsimp only | with_reducible apply Keeps.mk_other)
theorem execSwitchWindowRoles_keeps {s t : State} (h : Machine.execSwitchWindowRoles  s = .next t) : Keeps s t := by
  unfold Machine.execSwitchWindowRoles at h
  cases h
  repeat' (first | exact Keeps.refl _ | apply State.windowRoles_keeps)
theorem execStandbyEntry_keeps {s t : State} (h : Machine.execStandbyEntry  s = .next t) : Keeps s t := by
  unfold Machine.execStandbyEntry at h
  cases h
  repeat' (first | exact Keeps.refl _ | apply State.whenUp_keeps | apply State.standbyIn_keeps)
theorem execFdivD_keeps {s t : State} {x0 x1} (h : Machine.execFdivD x0 x1 s = .next t) : Keeps s t := by
  unfold Machine.execFdivD at h
  cases h
  repeat' (first | exact Keeps.refl _ | apply issueWord_keeps)
theorem execCalibrationApply_keeps {s t : State} (h : Machine.execCalibrationApply  s = .next t) : Keeps s t := by
  unfold Machine.execCalibrationApply at h
  cases h
  repeat' (first | exact Keeps.refl _ | apply State.whenUp_keeps | apply State.calApply_keeps)
theorem execUsb2Reset_keeps {s t : State} (h : Machine.execUsb2Reset  s = .next t) : Keeps s t := by
  unfold Machine.execUsb2Reset at h
  cases h
  repeat' (first | exact Keeps.refl _ | apply State.whenUp_keeps | apply State.usb2Reset_keeps)
theorem execVand_keeps {s t : State} {x0 x1} (h : Machine.execVand x0 x1 s = .next t) : Keeps s t := by
  unfold Machine.execVand at h
  cases h
  repeat' (first | exact Keeps.refl _ | apply issueWord_keeps)
theorem execAsub_keeps {s t : State} {x0 x1} (h : Machine.execAsub x0 x1 s = .next t) : Keeps s t := by
  unfold Machine.execAsub at h
  cases h
  repeat' (first | exact Keeps.refl _ | apply issueWord_keeps)
theorem execFft4_keeps {s t : State} {x0 x1} (h : Machine.execFft4 x0 x1 s = .next t) : Keeps s t := by
  unfold Machine.execFft4 at h
  cases h
  repeat' (first | exact Keeps.refl _ | apply issueWord_keeps)
theorem execPdmStuckClear_keeps {s t : State} {x0} (h : Machine.execPdmStuckClear x0 s = .next t) : Keeps s t := by
  unfold Machine.execPdmStuckClear at h
  cases h
  repeat' (first | exact Keeps.refl _ | apply State.pdmFree_keeps)
theorem execMfsr_keeps {s t : State} {x0 x1} (h : Machine.execMfsr x0 x1 s = .next t) : Keeps s t := by
  unfold Machine.execMfsr at h
  cases h
  repeat' (first | exact Keeps.refl _ | apply issueWord_keeps)
theorem execFlitDelta_keeps {s t : State} {x0 x1} (h : Machine.execFlitDelta x0 x1 s = .next t) : Keeps s t := by
  unfold Machine.execFlitDelta at h
  cases h
  repeat' (first | with_reducible (first | exact Keeps.refl _ | assumption | apply ite_keeps | apply State.whenUp_keeps | apply State.flitDelta_keeps | exact State.landXfers_keeps | exact State.validXfers_keeps | exact State.drainXfers_keeps | exact fun _ _ => copyXfers_keeps) | (extract_lets +onlyGivenNames x; first | ((refine_lift have hx : Keeps s x := ?_; ?_); all_goals (first | (guard_hyp hx : Keeps s x; clear_value x) | subst x)) | ((refine_lift have hx : Keeps s x.1 := ?_; ?_); all_goals (first | (guard_hyp hx : Keeps s x.1; clear_value x) | subst x)) | clear_value x) | split | (intro _ _) | (refine foldl_keeps ?_ ?_) | dsimp only | with_reducible apply Keeps.mk_other)
theorem execVerifyCertificate_keeps {s t : State} {x0 x1 x2} (h : Machine.execVerifyCertificate x0 x1 x2 s = .next t) : Keeps s t := by
  unfold Machine.execVerifyCertificate at h
  cases h
  repeat' (first | with_reducible (first | exact Keeps.refl _ | assumption | apply ite_keeps | apply State.whenUp_keeps | apply State.udsCert_keeps | exact State.landXfers_keeps | exact State.validXfers_keeps | exact State.drainXfers_keeps | exact fun _ _ => copyXfers_keeps) | (extract_lets +onlyGivenNames x; first | ((refine_lift have hx : Keeps s x := ?_; ?_); all_goals (first | (guard_hyp hx : Keeps s x; clear_value x) | subst x)) | ((refine_lift have hx : Keeps s x.1 := ?_; ?_); all_goals (first | (guard_hyp hx : Keeps s x.1; clear_value x) | subst x)) | clear_value x) | split | (intro _ _) | (refine foldl_keeps ?_ ?_) | dsimp only | with_reducible apply Keeps.mk_other)
theorem execIfence_keeps {s t : State} {x0 x1} (h : Machine.execIfence x0 x1 s = .next t) : Keeps s t := by
  unfold Machine.execIfence at h
  cases h
  repeat' (first | exact Keeps.refl _ | apply issueWord_keeps)
theorem execExternalRowTransfer_keeps {s t : State} {x0 x1 x2 x3} (h : Machine.execExternalRowTransfer x0 x1 x2 x3 s = .next t) : Keeps s t := by
  unfold Machine.execExternalRowTransfer at h
  cases h
  repeat' (first | exact Keeps.refl _ | apply State.rowTransfer_keeps)
theorem execRet_keeps {s t : State} {x0 x1} (h : Machine.execRet x0 x1 s = .next t) : Keeps s t := by
  unfold Machine.execRet at h
  cases h
  repeat' (first | exact Keeps.refl _ | apply issueWord_keeps)
theorem execOwnershipMove_keeps {s t : State} (h : Machine.execOwnershipMove  s = .next t) : Keeps s t := by
  unfold Machine.execOwnershipMove at h
  cases h
  repeat' (first | exact Keeps.refl _ | apply State.whenUp_keeps | apply State.ownMove_keeps)
theorem execSpqHeadWrite_keeps {s t : State} {x0 x1 x2} (h : Machine.execSpqHeadWrite x0 x1 x2 s = .next t) : Keeps s t := by
  unfold Machine.execSpqHeadWrite at h
  cases h
  repeat' (first | with_reducible (first | exact Keeps.refl _ | assumption | apply ite_keeps | apply State.whenUp_keeps | apply State.spqWrite_keeps | exact State.landXfers_keeps | exact State.validXfers_keeps | exact State.drainXfers_keeps | exact fun _ _ => copyXfers_keeps) | (extract_lets +onlyGivenNames x; first | ((refine_lift have hx : Keeps s x := ?_; ?_); all_goals (first | (guard_hyp hx : Keeps s x; clear_value x) | subst x)) | ((refine_lift have hx : Keeps s x.1 := ?_; ?_); all_goals (first | (guard_hyp hx : Keeps s x.1; clear_value x) | subst x)) | clear_value x) | split | (intro _ _) | (refine foldl_keeps ?_ ?_) | dsimp only | with_reducible apply Keeps.mk_other)
theorem execLkSidebandPulse_keeps {s t : State} {x0 x1} (h : Machine.execLkSidebandPulse x0 x1 s = .next t) : Keeps s t := by
  unfold Machine.execLkSidebandPulse at h
  cases h
  repeat' (first | with_reducible (first | exact Keeps.refl _ | assumption | apply ite_keeps | apply State.whenUp_keeps | apply State.sideband_keeps | exact State.landXfers_keeps | exact State.validXfers_keeps | exact State.drainXfers_keeps | exact fun _ _ => copyXfers_keeps) | (extract_lets +onlyGivenNames x; first | ((refine_lift have hx : Keeps s x := ?_; ?_); all_goals (first | (guard_hyp hx : Keeps s x; clear_value x) | subst x)) | ((refine_lift have hx : Keeps s x.1 := ?_; ?_); all_goals (first | (guard_hyp hx : Keeps s x.1; clear_value x) | subst x)) | clear_value x) | split | (intro _ _) | (refine foldl_keeps ?_ ?_) | dsimp only | with_reducible apply Keeps.mk_other)
theorem execTdmNoclkExit_keeps {s t : State} {x0 x1} (h : Machine.execTdmNoclkExit x0 x1 s = .next t) : Keeps s t := by
  unfold Machine.execTdmNoclkExit at h
  cases h
  repeat' (first | exact Keeps.refl _ | apply State.tdmClkBack_keeps)
theorem execReportDtcExtData_keeps {s t : State} {x0 x1} (h : Machine.execReportDtcExtData x0 x1 s = .next t) : Keeps s t := by
  unfold Machine.execReportDtcExtData at h
  cases h
  repeat' (first | with_reducible (first | exact Keeps.refl _ | assumption | apply ite_keeps | apply State.whenUp_keeps | apply State.udsRecord_keeps | exact State.landXfers_keeps | exact State.validXfers_keeps | exact State.drainXfers_keeps | exact fun _ _ => copyXfers_keeps) | (extract_lets +onlyGivenNames x; first | ((refine_lift have hx : Keeps s x := ?_; ?_); all_goals (first | (guard_hyp hx : Keeps s x; clear_value x) | subst x)) | ((refine_lift have hx : Keeps s x.1 := ?_; ?_); all_goals (first | (guard_hyp hx : Keeps s x.1; clear_value x) | subst x)) | clear_value x) | split | (intro _ _) | (refine foldl_keeps ?_ ?_) | dsimp only | with_reducible apply Keeps.mk_other)
theorem execTransferData_keeps {s t : State} {x0 x1} (h : Machine.execTransferData x0 x1 s = .next t) : Keeps s t := by
  unfold Machine.execTransferData at h
  cases h
  repeat' (first | with_reducible (first | exact Keeps.refl _ | assumption | apply ite_keeps | apply State.whenUp_keeps | apply State.udsTransfer_keeps | exact State.landXfers_keeps | exact State.validXfers_keeps | exact State.drainXfers_keeps | exact fun _ _ => copyXfers_keeps) | (extract_lets +onlyGivenNames x; first | ((refine_lift have hx : Keeps s x := ?_; ?_); all_goals (first | (guard_hyp hx : Keeps s x; clear_value x) | subst x)) | ((refine_lift have hx : Keeps s x.1 := ?_; ?_); all_goals (first | (guard_hyp hx : Keeps s x.1; clear_value x) | subst x)) | clear_value x) | split | (intro _ _) | (refine foldl_keeps ?_ ?_) | dsimp only | with_reducible apply Keeps.mk_other)
theorem execControlDtcSettingOff_keeps {s t : State} (h : Machine.execControlDtcSettingOff  s = .next t) : Keeps s t := by
  unfold Machine.execControlDtcSettingOff at h
  cases h
  repeat' (first | with_reducible (first | exact Keeps.refl _ | assumption | apply ite_keeps | apply State.whenUp_keeps | apply State.udsDtcSet_keeps | exact State.landXfers_keeps | exact State.validXfers_keeps | exact State.drainXfers_keeps | exact fun _ _ => copyXfers_keeps) | (extract_lets +onlyGivenNames x; first | ((refine_lift have hx : Keeps s x := ?_; ?_); all_goals (first | (guard_hyp hx : Keeps s x; clear_value x) | subst x)) | ((refine_lift have hx : Keeps s x.1 := ?_; ?_); all_goals (first | (guard_hyp hx : Keeps s x.1; clear_value x) | subst x)) | clear_value x) | split | (intro _ _) | (refine foldl_keeps ?_ ?_) | dsimp only | with_reducible apply Keeps.mk_other)
theorem execFst_keeps {s t : State} {x0 x1} (h : Machine.execFst x0 x1 s = .next t) : Keeps s t := by
  unfold Machine.execFst at h
  cases h
  repeat' (first | exact Keeps.refl _ | apply issueWord_keeps)
theorem execDbgHalt_keeps {s t : State} {x0} (h : Machine.execDbgHalt x0 s = .next t) : Keeps s t := by
  unfold Machine.execDbgHalt at h
  cases h
  repeat' (first | exact Keeps.refl _ | apply State.dbgHalt_keeps)
theorem execFcvtDI64_keeps {s t : State} {x0 x1} (h : Machine.execFcvtDI64 x0 x1 s = .next t) : Keeps s t := by
  unfold Machine.execFcvtDI64 at h
  cases h
  repeat' (first | exact Keeps.refl _ | apply issueWord_keeps)
theorem execSerialTransferComplete_keeps {s t : State} {x0 x1 x2} (h : Machine.execSerialTransferComplete x0 x1 x2 s = .next t) : Keeps s t := by
  unfold Machine.execSerialTransferComplete at h
  cases h
  repeat' (first | with_reducible (first | exact Keeps.refl _ | assumption | apply ite_keeps | apply State.whenUp_keeps | apply State.serialAccess_keeps | exact State.landXfers_keeps | exact State.validXfers_keeps | exact State.drainXfers_keeps | exact fun _ _ => copyXfers_keeps) | (extract_lets +onlyGivenNames x; first | ((refine_lift have hx : Keeps s x := ?_; ?_); all_goals (first | (guard_hyp hx : Keeps s x; clear_value x) | subst x)) | ((refine_lift have hx : Keeps s x.1 := ?_; ?_); all_goals (first | (guard_hyp hx : Keeps s x.1; clear_value x) | subst x)) | clear_value x) | split | (intro _ _) | (refine foldl_keeps ?_ ?_) | dsimp only | with_reducible apply Keeps.mk_other)
theorem execMin_keeps {s t : State} {x0 x1} (h : Machine.execMin x0 x1 s = .next t) : Keeps s t := by
  unfold Machine.execMin at h
  cases h
  repeat' (first | exact Keeps.refl _ | apply issueWord_keeps)
theorem execTdmOutputFrame_keeps {s t : State} {x0} (h : Machine.execTdmOutputFrame x0 s = .next t) : Keeps s t := by
  unfold Machine.execTdmOutputFrame at h
  cases h
  repeat' (first | exact Keeps.refl _ | apply State.tdmOut_keeps)
theorem execFlitCommit_keeps {s t : State} {x0} (h : Machine.execFlitCommit x0 s = .next t) : Keeps s t := by
  unfold Machine.execFlitCommit at h
  cases h
  repeat' (first | with_reducible (first | exact Keeps.refl _ | assumption | apply ite_keeps | apply State.whenUp_keeps | apply State.flitCommit_keeps | exact State.landXfers_keeps | exact State.validXfers_keeps | exact State.drainXfers_keeps | exact fun _ _ => copyXfers_keeps) | (extract_lets +onlyGivenNames x; first | ((refine_lift have hx : Keeps s x := ?_; ?_); all_goals (first | (guard_hyp hx : Keeps s x; clear_value x) | subst x)) | ((refine_lift have hx : Keeps s x.1 := ?_; ?_); all_goals (first | (guard_hyp hx : Keeps s x.1; clear_value x) | subst x)) | clear_value x) | split | (intro _ _) | (refine foldl_keeps ?_ ?_) | dsimp only | with_reducible apply Keeps.mk_other)
theorem execVfma_keeps {s t : State} {x0 x1} (h : Machine.execVfma x0 x1 s = .next t) : Keeps s t := by
  unfold Machine.execVfma at h
  cases h
  repeat' (first | exact Keeps.refl _ | apply issueWord_keeps)
theorem execPdmSample_keeps {s t : State} {x0 x1} (h : Machine.execPdmSample x0 x1 s = .next t) : Keeps s t := by
  unfold Machine.execPdmSample at h
  cases h
  repeat' (first | exact Keeps.refl _ | apply State.pdmSample_keeps)
theorem execMramScrub_keeps {s t : State} (h : Machine.execMramScrub  s = .next t) : Keeps s t := by
  unfold Machine.execMramScrub at h
  cases h
  repeat' (first | exact Keeps.refl _ | apply State.whenUp_keeps | apply State.scrubNext_keeps)
theorem execPdmFillDone_keeps {s t : State} {x0} (h : Machine.execPdmFillDone x0 s = .next t) : Keeps s t := by
  unfold Machine.execPdmFillDone at h
  cases h
  repeat' (first | exact Keeps.refl _ | apply State.pdmFilled_keeps)
theorem execI2cClockStretchTimeout_keeps {s t : State} {x0 x1 x2} (h : Machine.execI2cClockStretchTimeout x0 x1 x2 s = .next t) : Keeps s t := by
  unfold Machine.execI2cClockStretchTimeout at h
  cases h
  repeat' (first | with_reducible (first | exact Keeps.refl _ | assumption | apply ite_keeps | apply State.whenUp_keeps | apply State.emit_keeps | apply State.serialPut_keeps | apply State.serialEnd_keeps | exact State.landXfers_keeps | exact State.validXfers_keeps | exact State.drainXfers_keeps | exact fun _ _ => copyXfers_keeps) | (extract_lets +onlyGivenNames x; first | ((refine_lift have hx : Keeps s x := ?_; ?_); all_goals (first | (guard_hyp hx : Keeps s x; clear_value x) | subst x)) | ((refine_lift have hx : Keeps s x.1 := ?_; ?_); all_goals (first | (guard_hyp hx : Keeps s x.1; clear_value x) | subst x)) | clear_value x) | split | (intro _ _) | (refine foldl_keeps ?_ ?_) | dsimp only | with_reducible apply Keeps.mk_other)
theorem execFcvtI32D_keeps {s t : State} {x0 x1} (h : Machine.execFcvtI32D x0 x1 s = .next t) : Keeps s t := by
  unfold Machine.execFcvtI32D at h
  cases h
  repeat' (first | exact Keeps.refl _ | apply issueWord_keeps)
theorem execVcmp_keeps {s t : State} {x0 x1} (h : Machine.execVcmp x0 x1 s = .next t) : Keeps s t := by
  unfold Machine.execVcmp at h
  cases h
  repeat' (first | exact Keeps.refl _ | apply issueWord_keeps)
theorem execVfcvt_keeps {s t : State} {x0 x1} (h : Machine.execVfcvt x0 x1 s = .next t) : Keeps s t := by
  unfold Machine.execVfcvt at h
  cases h
  repeat' (first | exact Keeps.refl _ | apply issueWord_keeps)
theorem execResyncPhaseEnd_keeps {s t : State} (h : Machine.execResyncPhaseEnd  s = .next t) : Keeps s t := by
  unfold Machine.execResyncPhaseEnd at h
  cases h
  repeat' (first | exact Keeps.refl _ | apply State.whenUp_keeps | apply State.resyncPhase_keeps)
theorem execFmovS_keeps {s t : State} {x0 x1} (h : Machine.execFmovS x0 x1 s = .next t) : Keeps s t := by
  unfold Machine.execFmovS at h
  cases h
  repeat' (first | exact Keeps.refl _ | apply issueWord_keeps)
theorem execRoutineStart_keeps {s t : State} {x0} (h : Machine.execRoutineStart x0 s = .next t) : Keeps s t := by
  unfold Machine.execRoutineStart at h
  cases h
  repeat' (first | with_reducible (first | exact Keeps.refl _ | assumption | apply ite_keeps | apply State.whenUp_keeps | apply State.setUp_keeps | apply State.modTile_keeps | exact State.landXfers_keeps | exact State.validXfers_keeps | exact State.drainXfers_keeps | exact fun _ _ => copyXfers_keeps) | (extract_lets +onlyGivenNames x; first | ((refine_lift have hx : Keeps s x := ?_; ?_); all_goals (first | (guard_hyp hx : Keeps s x; clear_value x) | subst x)) | ((refine_lift have hx : Keeps s x.1 := ?_; ?_); all_goals (first | (guard_hyp hx : Keeps s x.1; clear_value x) | subst x)) | clear_value x) | split | (intro _ _) | (refine foldl_keeps ?_ ?_) | dsimp only | with_reducible apply Keeps.mk_other)
theorem execLinkRetrain_keeps {s t : State} (h : Machine.execLinkRetrain  s = .next t) : Keeps s t := by
  unfold Machine.execLinkRetrain at h
  cases h
  repeat' (first | exact Keeps.refl _ | apply State.whenUp_keeps | apply State.retrain_keeps)
theorem execFlitReadRsp_keeps {s t : State} {x0 x1 x2} (h : Machine.execFlitReadRsp x0 x1 x2 s = .next t) : Keeps s t := by
  unfold Machine.execFlitReadRsp at h
  cases h
  repeat' (first | with_reducible (first | exact Keeps.refl _ | assumption | apply ite_keeps | apply State.whenUp_keeps | apply State.flitAnswer_keeps | exact State.landXfers_keeps | exact State.validXfers_keeps | exact State.drainXfers_keeps | exact fun _ _ => copyXfers_keeps) | (extract_lets +onlyGivenNames x; first | ((refine_lift have hx : Keeps s x := ?_; ?_); all_goals (first | (guard_hyp hx : Keeps s x; clear_value x) | subst x)) | ((refine_lift have hx : Keeps s x.1 := ?_; ?_); all_goals (first | (guard_hyp hx : Keeps s x.1; clear_value x) | subst x)) | clear_value x) | split | (intro _ _) | (refine foldl_keeps ?_ ?_) | dsimp only | with_reducible apply Keeps.mk_other)
theorem execGptpSyncReceive_keeps {s t : State} {x0 x1} (h : Machine.execGptpSyncReceive x0 x1 s = .next t) : Keeps s t := by
  unfold Machine.execGptpSyncReceive at h
  cases h
  repeat' (first | with_reducible (first | exact Keeps.refl _ | assumption | apply ite_keeps | apply State.whenUp_keeps | apply State.ptpSync_keeps | exact State.landXfers_keeps | exact State.validXfers_keeps | exact State.drainXfers_keeps | exact fun _ _ => copyXfers_keeps) | (extract_lets +onlyGivenNames x; first | ((refine_lift have hx : Keeps s x := ?_; ?_); all_goals (first | (guard_hyp hx : Keeps s x; clear_value x) | subst x)) | ((refine_lift have hx : Keeps s x.1 := ?_; ?_); all_goals (first | (guard_hyp hx : Keeps s x.1; clear_value x) | subst x)) | clear_value x) | split | (intro _ _) | (refine foldl_keeps ?_ ?_) | dsimp only | with_reducible apply Keeps.mk_other)
theorem execJournalApply_keeps {s t : State} (h : Machine.execJournalApply  s = .next t) : Keeps s t := by
  unfold Machine.execJournalApply at h
  cases h
  repeat' (first | exact Keeps.refl _ | apply State.whenUp_keeps | apply State.journalApply_keeps)
theorem execMax_keeps {s t : State} {x0 x1} (h : Machine.execMax x0 x1 s = .next t) : Keeps s t := by
  unfold Machine.execMax at h
  cases h
  repeat' (first | exact Keeps.refl _ | apply issueWord_keeps)
theorem execUsb4ClStateRequest_keeps {s t : State} {x0} (h : Machine.execUsb4ClStateRequest x0 s = .next t) : Keeps s t := by
  unfold Machine.execUsb4ClStateRequest at h
  cases h
  repeat' (first | with_reducible (first | exact Keeps.refl _ | assumption | apply ite_keeps | apply State.whenUp_keeps | apply State.clState_keeps | exact State.landXfers_keeps | exact State.validXfers_keeps | exact State.drainXfers_keeps | exact fun _ _ => copyXfers_keeps) | (extract_lets +onlyGivenNames x; first | ((refine_lift have hx : Keeps s x := ?_; ?_); all_goals (first | (guard_hyp hx : Keeps s x; clear_value x) | subst x)) | ((refine_lift have hx : Keeps s x.1 := ?_; ?_); all_goals (first | (guard_hyp hx : Keeps s x.1; clear_value x) | subst x)) | clear_value x) | split | (intro _ _) | (refine foldl_keeps ?_ ?_) | dsimp only | with_reducible apply Keeps.mk_other)
theorem execInterruptNoEntry_keeps {s t : State} {x0} (h : Machine.execInterruptNoEntry x0 s = .next t) : Keeps s t := by
  unfold Machine.execInterruptNoEntry at h
  cases h
  repeat' (first | with_reducible (first | exact Keeps.refl _ | assumption | apply ite_keeps | apply State.whenUp_keeps | apply State.noEntry_keeps | exact State.landXfers_keeps | exact State.validXfers_keeps | exact State.drainXfers_keeps | exact fun _ _ => copyXfers_keeps) | (extract_lets +onlyGivenNames x; first | ((refine_lift have hx : Keeps s x := ?_; ?_); all_goals (first | (guard_hyp hx : Keeps s x; clear_value x) | subst x)) | ((refine_lift have hx : Keeps s x.1 := ?_; ?_); all_goals (first | (guard_hyp hx : Keeps s x.1; clear_value x) | subst x)) | clear_value x) | split | (intro _ _) | (refine foldl_keeps ?_ ?_) | dsimp only | with_reducible apply Keeps.mk_other)
theorem execVidStep_keeps {s t : State} (h : Machine.execVidStep  s = .next t) : Keeps s t := by
  unfold Machine.execVidStep at h
  cases h
  repeat' (first | with_reducible (first | exact Keeps.refl _ | assumption | apply ite_keeps | apply State.whenUp_keeps | apply State.ageSettle_keeps | apply State.vidStep_keeps | exact State.landXfers_keeps | exact State.validXfers_keeps | exact State.drainXfers_keeps | exact fun _ _ => copyXfers_keeps) | (extract_lets +onlyGivenNames x; first | ((refine_lift have hx : Keeps s x := ?_; ?_); all_goals (first | (guard_hyp hx : Keeps s x; clear_value x) | subst x)) | ((refine_lift have hx : Keeps s x.1 := ?_; ?_); all_goals (first | (guard_hyp hx : Keeps s x.1; clear_value x) | subst x)) | clear_value x) | split | (intro _ _) | (refine foldl_keeps ?_ ?_) | dsimp only | with_reducible apply Keeps.mk_other)
theorem execFabricTransferReceive_keeps {s t : State} {x0 x1 x2} (h : Machine.execFabricTransferReceive x0 x1 x2 s = .next t) : Keeps s t := by
  unfold Machine.execFabricTransferReceive at h
  cases h
  repeat' (first | with_reducible (first | exact Keeps.refl _ | assumption | apply ite_keeps | apply State.whenUp_keeps | apply State.crcFail_keeps | exact State.landXfers_keeps | exact State.validXfers_keeps | exact State.drainXfers_keeps | exact fun _ _ => copyXfers_keeps) | (extract_lets +onlyGivenNames x; first | ((refine_lift have hx : Keeps s x := ?_; ?_); all_goals (first | (guard_hyp hx : Keeps s x; clear_value x) | subst x)) | ((refine_lift have hx : Keeps s x.1 := ?_; ?_); all_goals (first | (guard_hyp hx : Keeps s x.1; clear_value x) | subst x)) | clear_value x) | split | (intro _ _) | (refine foldl_keeps ?_ ?_) | dsimp only | with_reducible apply Keeps.mk_other)
theorem execJoin_keeps {s t : State} {x0 x1} (h : Machine.execJoin x0 x1 s = .next t) : Keeps s t := by
  unfold Machine.execJoin at h
  cases h
  repeat' (first | exact Keeps.refl _ | apply issueWord_keeps)
theorem execBmtPhaseAdvance_keeps {s t : State} {x0 x1 x2} (h : Machine.execBmtPhaseAdvance x0 x1 x2 s = .next t) : Keeps s t := by
  unfold Machine.execBmtPhaseAdvance at h
  cases h
  repeat' (first | exact Keeps.refl _ | apply State.bmtAdvance_keeps)
theorem execRndq_keeps {s t : State} {x0 x1} (h : Machine.execRndq x0 x1 s = .next t) : Keeps s t := by
  unfold Machine.execRndq at h
  cases h
  repeat' (first | exact Keeps.refl _ | apply issueWord_keeps)
theorem execMtsr_keeps {s t : State} {x0 x1} (h : Machine.execMtsr x0 x1 s = .next t) : Keeps s t := by
  unfold Machine.execMtsr at h
  cases h
  repeat' (first | exact Keeps.refl _ | apply issueWord_keeps)
theorem execIndexWriteback_keeps {s t : State} {x0} (h : Machine.execIndexWriteback x0 s = .next t) : Keeps s t := by
  unfold Machine.execIndexWriteback at h
  cases h
  repeat' (first | with_reducible (first | exact Keeps.refl _ | assumption | apply ite_keeps | apply State.whenHost_keeps | apply State.writeBack_keeps | exact State.landXfers_keeps | exact State.validXfers_keeps | exact State.drainXfers_keeps | exact fun _ _ => copyXfers_keeps) | (extract_lets +onlyGivenNames x; first | ((refine_lift have hx : Keeps s x := ?_; ?_); all_goals (first | (guard_hyp hx : Keeps s x; clear_value x) | subst x)) | ((refine_lift have hx : Keeps s x.1 := ?_; ?_); all_goals (first | (guard_hyp hx : Keeps s x.1; clear_value x) | subst x)) | clear_value x) | split | (intro _ _) | (refine foldl_keeps ?_ ?_) | dsimp only | with_reducible apply Keeps.mk_other)
theorem execCanBusOff_keeps {s t : State} {x0} (h : Machine.execCanBusOff x0 s = .next t) : Keeps s t := by
  unfold Machine.execCanBusOff at h
  cases h
  repeat' (first | with_reducible (first | exact Keeps.refl _ | assumption | apply ite_keeps | apply State.whenUp_keeps | apply State.busOff_keeps | exact State.landXfers_keeps | exact State.validXfers_keeps | exact State.drainXfers_keeps | exact fun _ _ => copyXfers_keeps) | (extract_lets +onlyGivenNames x; first | ((refine_lift have hx : Keeps s x := ?_; ?_); all_goals (first | (guard_hyp hx : Keeps s x; clear_value x) | subst x)) | ((refine_lift have hx : Keeps s x.1 := ?_; ?_); all_goals (first | (guard_hyp hx : Keeps s x.1; clear_value x) | subst x)) | clear_value x) | split | (intro _ _) | (refine foldl_keeps ?_ ?_) | dsimp only | with_reducible apply Keeps.mk_other)
theorem execLcTransition_keeps {s t : State} (h : Machine.execLcTransition  s = .next t) : Keeps s t := by
  unfold Machine.execLcTransition at h
  cases h
  repeat' (first | exact Keeps.refl _ | apply State.whenUp_keeps | apply State.lcStep_keeps)
theorem execResultRetire_keeps {s t : State} {x0} (h : Machine.execResultRetire x0 s = .next t) : Keeps s t := by
  unfold Machine.execResultRetire at h
  cases h
  repeat' (first | with_reducible (first | exact Keeps.refl _ | assumption | apply ite_keeps | apply State.whenUp_keeps | apply State.retireCycle_keeps | exact State.landXfers_keeps | exact State.validXfers_keeps | exact State.drainXfers_keeps | exact fun _ _ => copyXfers_keeps) | (extract_lets +onlyGivenNames x; first | ((refine_lift have hx : Keeps s x := ?_; ?_); all_goals (first | (guard_hyp hx : Keeps s x; clear_value x) | subst x)) | ((refine_lift have hx : Keeps s x.1 := ?_; ?_); all_goals (first | (guard_hyp hx : Keeps s x.1; clear_value x) | subst x)) | clear_value x) | split | (intro _ _) | (refine foldl_keeps ?_ ?_) | dsimp only | with_reducible apply Keeps.mk_other)
theorem execDiagPathTest_keeps {s t : State} {x0} (h : Machine.execDiagPathTest x0 s = .next t) : Keeps s t := by
  unfold Machine.execDiagPathTest at h
  cases h
  repeat' (first | with_reducible (first | exact Keeps.refl _ | assumption | apply ite_keeps | apply State.whenUp_keeps | apply State.diagPath_keeps | exact State.landXfers_keeps | exact State.validXfers_keeps | exact State.drainXfers_keeps | exact fun _ _ => copyXfers_keeps) | (extract_lets +onlyGivenNames x; first | ((refine_lift have hx : Keeps s x := ?_; ?_); all_goals (first | (guard_hyp hx : Keeps s x; clear_value x) | subst x)) | ((refine_lift have hx : Keeps s x.1 := ?_; ?_); all_goals (first | (guard_hyp hx : Keeps s x.1; clear_value x) | subst x)) | clear_value x) | split | (intro _ _) | (refine foldl_keeps ?_ ?_) | dsimp only | with_reducible apply Keeps.mk_other)
theorem execSecurityAccessKey_keeps {s t : State} {x0} (h : Machine.execSecurityAccessKey x0 s = .next t) : Keeps s t := by
  unfold Machine.execSecurityAccessKey at h
  cases h
  repeat' (first | with_reducible (first | exact Keeps.refl _ | assumption | apply ite_keeps | apply State.whenUp_keeps | apply State.udsKey_keeps | exact State.landXfers_keeps | exact State.validXfers_keeps | exact State.drainXfers_keeps | exact fun _ _ => copyXfers_keeps) | (extract_lets +onlyGivenNames x; first | ((refine_lift have hx : Keeps s x := ?_; ?_); all_goals (first | (guard_hyp hx : Keeps s x; clear_value x) | subst x)) | ((refine_lift have hx : Keeps s x.1 := ?_; ?_); all_goals (first | (guard_hyp hx : Keeps s x.1; clear_value x) | subst x)) | clear_value x) | split | (intro _ _) | (refine foldl_keeps ?_ ?_) | dsimp only | with_reducible apply Keeps.mk_other)
theorem execFabs_keeps {s t : State} {x0 x1} (h : Machine.execFabs x0 x1 s = .next t) : Keeps s t := by
  unfold Machine.execFabs at h
  cases h
  repeat' (first | exact Keeps.refl _ | apply issueWord_keeps)
theorem execDbgCmdGo_keeps {s t : State} {x0 x1 x2} (h : Machine.execDbgCmdGo x0 x1 x2 s = .next t) : Keeps s t := by
  unfold Machine.execDbgCmdGo at h
  cases h
  repeat' (first | with_reducible (first | exact Keeps.refl _ | assumption | apply ite_keeps | apply State.whenUp_keeps | apply State.dbgGo_keeps | exact State.landXfers_keeps | exact State.validXfers_keeps | exact State.drainXfers_keeps | exact fun _ _ => copyXfers_keeps) | (extract_lets +onlyGivenNames x; first | ((refine_lift have hx : Keeps s x := ?_; ?_); all_goals (first | (guard_hyp hx : Keeps s x; clear_value x) | subst x)) | ((refine_lift have hx : Keeps s x.1 := ?_; ?_); all_goals (first | (guard_hyp hx : Keeps s x.1; clear_value x) | subst x)) | clear_value x) | split | (intro _ _) | (refine foldl_keeps ?_ ?_) | dsimp only | with_reducible apply Keeps.mk_other)
theorem execControlDtcSettingOn_keeps {s t : State} (h : Machine.execControlDtcSettingOn  s = .next t) : Keeps s t := by
  unfold Machine.execControlDtcSettingOn at h
  cases h
  repeat' (first | with_reducible (first | exact Keeps.refl _ | assumption | apply ite_keeps | apply State.whenUp_keeps | apply State.udsDtcSet_keeps | exact State.landXfers_keeps | exact State.validXfers_keeps | exact State.drainXfers_keeps | exact fun _ _ => copyXfers_keeps) | (extract_lets +onlyGivenNames x; first | ((refine_lift have hx : Keeps s x := ?_; ?_); all_goals (first | (guard_hyp hx : Keeps s x; clear_value x) | subst x)) | ((refine_lift have hx : Keeps s x.1 := ?_; ?_); all_goals (first | (guard_hyp hx : Keeps s x.1; clear_value x) | subst x)) | clear_value x) | split | (intro _ _) | (refine foldl_keeps ?_ ?_) | dsimp only | with_reducible apply Keeps.mk_other)
theorem execEthFrameReceive_keeps {s t : State} {x0 x1} (h : Machine.execEthFrameReceive x0 x1 s = .next t) : Keeps s t := by
  unfold Machine.execEthFrameReceive at h
  cases h
  repeat' (first | with_reducible (first | exact Keeps.refl _ | assumption | apply ite_keeps | apply State.whenUp_keeps | apply State.ethRx_keeps | exact State.landXfers_keeps | exact State.validXfers_keeps | exact State.drainXfers_keeps | exact fun _ _ => copyXfers_keeps) | (extract_lets +onlyGivenNames x; first | ((refine_lift have hx : Keeps s x := ?_; ?_); all_goals (first | (guard_hyp hx : Keeps s x; clear_value x) | subst x)) | ((refine_lift have hx : Keeps s x.1 := ?_; ?_); all_goals (first | (guard_hyp hx : Keeps s x.1; clear_value x) | subst x)) | clear_value x) | split | (intro _ _) | (refine foldl_keeps ?_ ?_) | dsimp only | with_reducible apply Keeps.mk_other)
theorem execNap_keeps {s t : State} {x0 x1} (h : Machine.execNap x0 x1 s = .next t) : Keeps s t := by
  unfold Machine.execNap at h
  cases h
  repeat' (first | exact Keeps.refl _ | apply issueWord_keeps)
theorem execFdivS_keeps {s t : State} {x0 x1} (h : Machine.execFdivS x0 x1 s = .next t) : Keeps s t := by
  unfold Machine.execFdivS at h
  cases h
  repeat' (first | exact Keeps.refl _ | apply issueWord_keeps)
theorem execVerdictPoint_keeps {s t : State} {x0} (h : Machine.execVerdictPoint x0 s = .next t) : Keeps s t := by
  unfold Machine.execVerdictPoint at h
  cases h
  repeat' (first | with_reducible (first | exact Keeps.refl _ | assumption | apply ite_keeps | apply State.whenUp_keeps | apply State.verdictPoint_keeps | exact State.landXfers_keeps | exact State.validXfers_keeps | exact State.drainXfers_keeps | exact fun _ _ => copyXfers_keeps) | (extract_lets +onlyGivenNames x; first | ((refine_lift have hx : Keeps s x := ?_; ?_); all_goals (first | (guard_hyp hx : Keeps s x; clear_value x) | subst x)) | ((refine_lift have hx : Keeps s x.1 := ?_; ?_); all_goals (first | (guard_hyp hx : Keeps s x.1; clear_value x) | subst x)) | clear_value x) | split | (intro _ _) | (refine foldl_keeps ?_ ?_) | dsimp only | with_reducible apply Keeps.mk_other)
theorem execPatchLoad_keeps {s t : State} (h : Machine.execPatchLoad  s = .next t) : Keeps s t := by
  unfold Machine.execPatchLoad at h
  cases h
  repeat' (first | exact Keeps.refl _ | apply State.whenUp_keeps | apply State.patchLoad_keeps)
theorem execMaxu_keeps {s t : State} {x0 x1} (h : Machine.execMaxu x0 x1 s = .next t) : Keeps s t := by
  unfold Machine.execMaxu at h
  cases h
  repeat' (first | exact Keeps.refl _ | apply issueWord_keeps)
theorem execNeg_keeps {s t : State} {x0 x1} (h : Machine.execNeg x0 x1 s = .next t) : Keeps s t := by
  unfold Machine.execNeg at h
  cases h
  repeat' (first | exact Keeps.refl _ | apply issueWord_keeps)
theorem execLeaveRelease_keeps {s t : State} {x0} (h : Machine.execLeaveRelease x0 s = .next t) : Keeps s t := by
  unfold Machine.execLeaveRelease at h
  cases h
  repeat' (first | exact Keeps.refl _ | apply State.leaveEnd_keeps)
theorem execPathTestOutputStep_keeps {s t : State} {x0} (h : Machine.execPathTestOutputStep x0 s = .next t) : Keeps s t := by
  unfold Machine.execPathTestOutputStep at h
  cases h
  repeat' (first | with_reducible (first | exact Keeps.refl _ | assumption | apply ite_keeps | apply State.whenUp_keeps | apply State.pathStep_keeps | exact State.landXfers_keeps | exact State.validXfers_keeps | exact State.drainXfers_keeps | exact fun _ _ => copyXfers_keeps) | (extract_lets +onlyGivenNames x; first | ((refine_lift have hx : Keeps s x := ?_; ?_); all_goals (first | (guard_hyp hx : Keeps s x; clear_value x) | subst x)) | ((refine_lift have hx : Keeps s x.1 := ?_; ?_); all_goals (first | (guard_hyp hx : Keeps s x.1; clear_value x) | subst x)) | clear_value x) | split | (intro _ _) | (refine foldl_keeps ?_ ?_) | dsimp only | with_reducible apply Keeps.mk_other)
theorem execLinkLoss_keeps {s t : State} {x0} (h : Machine.execLinkLoss x0 s = .next t) : Keeps s t := by
  unfold Machine.execLinkLoss at h
  cases h
  repeat' (first | with_reducible (first | exact Keeps.refl _ | assumption | apply ite_keeps | apply State.whenUp_keeps | apply State.linkLoss_keeps | exact State.landXfers_keeps | exact State.validXfers_keeps | exact State.drainXfers_keeps | exact fun _ _ => copyXfers_keeps) | (extract_lets +onlyGivenNames x; first | ((refine_lift have hx : Keeps s x := ?_; ?_); all_goals (first | (guard_hyp hx : Keeps s x; clear_value x) | subst x)) | ((refine_lift have hx : Keeps s x.1 := ?_; ?_); all_goals (first | (guard_hyp hx : Keeps s x.1; clear_value x) | subst x)) | clear_value x) | split | (intro _ _) | (refine foldl_keeps ?_ ?_) | dsimp only | with_reducible apply Keeps.mk_other)
theorem execReportDtcByStatusMask_keeps {s t : State} {x0} (h : Machine.execReportDtcByStatusMask x0 s = .next t) : Keeps s t := by
  unfold Machine.execReportDtcByStatusMask at h
  cases h
  repeat' (first | with_reducible (first | exact Keeps.refl _ | assumption | apply ite_keeps | apply State.whenUp_keeps | apply State.udsByMask_keeps | exact State.landXfers_keeps | exact State.validXfers_keeps | exact State.drainXfers_keeps | exact fun _ _ => copyXfers_keeps) | (extract_lets +onlyGivenNames x; first | ((refine_lift have hx : Keeps s x := ?_; ?_); all_goals (first | (guard_hyp hx : Keeps s x; clear_value x) | subst x)) | ((refine_lift have hx : Keeps s x.1 := ?_; ?_); all_goals (first | (guard_hyp hx : Keeps s x.1; clear_value x) | subst x)) | clear_value x) | split | (intro _ _) | (refine foldl_keeps ?_ ?_) | dsimp only | with_reducible apply Keeps.mk_other)
theorem execFpTrapDeliver_keeps {s t : State} {x0} (h : Machine.execFpTrapDeliver x0 s = .next t) : Keeps s t := by
  unfold Machine.execFpTrapDeliver at h
  cases h
  repeat' (first | with_reducible (first | exact Keeps.refl _ | assumption | apply ite_keeps | apply State.whenUp_keeps | apply deliverTrap_keeps | exact State.landXfers_keeps | exact State.validXfers_keeps | exact State.drainXfers_keeps | exact fun _ _ => copyXfers_keeps) | (extract_lets +onlyGivenNames x; first | ((refine_lift have hx : Keeps s x := ?_; ?_); all_goals (first | (guard_hyp hx : Keeps s x; clear_value x) | subst x)) | ((refine_lift have hx : Keeps s x.1 := ?_; ?_); all_goals (first | (guard_hyp hx : Keeps s x.1; clear_value x) | subst x)) | clear_value x) | split | (intro _ _) | (refine foldl_keeps ?_ ?_) | dsimp only | with_reducible apply Keeps.mk_other)
theorem execBra_keeps {s t : State} {x0 x1} (h : Machine.execBra x0 x1 s = .next t) : Keeps s t := by
  unfold Machine.execBra at h
  cases h
  repeat' (first | exact Keeps.refl _ | apply issueWord_keeps)
theorem execFsqrtS_keeps {s t : State} {x0 x1} (h : Machine.execFsqrtS x0 x1 s = .next t) : Keeps s t := by
  unfold Machine.execFsqrtS at h
  cases h
  repeat' (first | exact Keeps.refl _ | apply issueWord_keeps)
theorem execTdmNoclk_keeps {s t : State} {x0} (h : Machine.execTdmNoclk x0 s = .next t) : Keeps s t := by
  unfold Machine.execTdmNoclk at h
  cases h
  repeat' (first | exact Keeps.refl _ | apply State.tdmNoClk_keeps)
theorem execAshli_keeps {s t : State} {x0 x1} (h : Machine.execAshli x0 x1 s = .next t) : Keeps s t := by
  unfold Machine.execAshli at h
  cases h
  repeat' (first | exact Keeps.refl _ | apply issueWord_keeps)
theorem execEcuResetHard_keeps {s t : State} (h : Machine.execEcuResetHard  s = .next t) : Keeps s t := by
  unfold Machine.execEcuResetHard at h
  cases h
  repeat' (first | exact Keeps.refl _ | apply State.whenUp_keeps | apply State.udsHard_keeps)
theorem execCeJobQueue_keeps {s t : State} {x0} (h : Machine.execCeJobQueue x0 s = .next t) : Keeps s t := by
  unfold Machine.execCeJobQueue at h
  cases h
  repeat' (first | exact Keeps.refl _ | apply State.ceQueue_keeps)
theorem execProvDone_keeps {s t : State} (h : Machine.execProvDone  s = .next t) : Keeps s t := by
  unfold Machine.execProvDone at h
  cases h
  repeat' (first | exact Keeps.refl _ | apply State.whenUp_keeps | apply State.provDone_keeps)
theorem execFcvtI32S_keeps {s t : State} {x0 x1} (h : Machine.execFcvtI32S x0 x1 s = .next t) : Keeps s t := by
  unfold Machine.execFcvtI32S at h
  cases h
  repeat' (first | exact Keeps.refl _ | apply issueWord_keeps)
theorem execRms_keeps {s t : State} {x0 x1} (h : Machine.execRms x0 x1 s = .next t) : Keeps s t := by
  unfold Machine.execRms at h
  cases h
  repeat' (first | exact Keeps.refl _ | apply issueWord_keeps)
theorem execDivS64_keeps {s t : State} {x0 x1} (h : Machine.execDivS64 x0 x1 s = .next t) : Keeps s t := by
  unfold Machine.execDivS64 at h
  cases h
  repeat' (first | exact Keeps.refl _ | apply issueWord_keeps)
theorem execDbgStep_keeps {s t : State} {x0} (h : Machine.execDbgStep x0 s = .next t) : Keeps s t := by
  unfold Machine.execDbgStep at h
  cases h
  repeat' (first | exact Keeps.refl _ | apply State.dbgStep_keeps)
theorem execFmovD_keeps {s t : State} {x0 x1} (h : Machine.execFmovD x0 x1 s = .next t) : Keeps s t := by
  unfold Machine.execFmovD at h
  cases h
  repeat' (first | exact Keeps.refl _ | apply issueWord_keeps)
theorem execGptpSyncIntervalExpire_keeps {s t : State} {x0} (h : Machine.execGptpSyncIntervalExpire x0 s = .next t) : Keeps s t := by
  unfold Machine.execGptpSyncIntervalExpire at h
  cases h
  repeat' (first | with_reducible (first | exact Keeps.refl _ | assumption | apply ite_keeps | apply State.whenUp_keeps | apply State.ptpInterval_keeps | exact State.landXfers_keeps | exact State.validXfers_keeps | exact State.drainXfers_keeps | exact fun _ _ => copyXfers_keeps) | (extract_lets +onlyGivenNames x; first | ((refine_lift have hx : Keeps s x := ?_; ?_); all_goals (first | (guard_hyp hx : Keeps s x; clear_value x) | subst x)) | ((refine_lift have hx : Keeps s x.1 := ?_; ?_); all_goals (first | (guard_hyp hx : Keeps s x.1; clear_value x) | subst x)) | clear_value x) | split | (intro _ _) | (refine foldl_keeps ?_ ?_) | dsimp only | with_reducible apply Keeps.mk_other)
theorem execMulhS64_keeps {s t : State} {x0 x1} (h : Machine.execMulhS64 x0 x1 s = .next t) : Keeps s t := by
  unfold Machine.execMulhS64 at h
  cases h
  repeat' (first | exact Keeps.refl _ | apply issueWord_keeps)
theorem execTrel_keeps {s t : State} {x0 x1} (h : Machine.execTrel x0 x1 s = .next t) : Keeps s t := by
  unfold Machine.execTrel at h
  cases h
  repeat' (first | exact Keeps.refl _ | apply issueWord_keeps)
theorem execStandbyWake_keeps {s t : State} {x0} (h : Machine.execStandbyWake x0 s = .next t) : Keeps s t := by
  unfold Machine.execStandbyWake at h
  cases h
  repeat' (first | exact Keeps.refl _ | apply State.standbyWake_keeps)
theorem execTdmInputFrame_keeps {s t : State} {x0 x1 x2} (h : Machine.execTdmInputFrame x0 x1 x2 s = .next t) : Keeps s t := by
  unfold Machine.execTdmInputFrame at h
  cases h
  repeat' (first | exact Keeps.refl _ | apply State.tdmIn_keeps)
theorem execFlitForward_keeps {s t : State} {x0} (h : Machine.execFlitForward x0 s = .next t) : Keeps s t := by
  unfold Machine.execFlitForward at h
  cases h
  repeat' (first | with_reducible (first | exact Keeps.refl _ | assumption | apply ite_keeps | apply State.whenUp_keeps | apply State.flitForward_keeps | exact State.landXfers_keeps | exact State.validXfers_keeps | exact State.drainXfers_keeps | exact fun _ _ => copyXfers_keeps) | (extract_lets +onlyGivenNames x; first | ((refine_lift have hx : Keeps s x := ?_; ?_); all_goals (first | (guard_hyp hx : Keeps s x; clear_value x) | subst x)) | ((refine_lift have hx : Keeps s x.1 := ?_; ?_); all_goals (first | (guard_hyp hx : Keeps s x.1; clear_value x) | subst x)) | clear_value x) | split | (intro _ _) | (refine foldl_keeps ?_ ?_) | dsimp only | with_reducible apply Keeps.mk_other)
theorem execZext_keeps {s t : State} {x0 x1} (h : Machine.execZext x0 x1 s = .next t) : Keeps s t := by
  unfold Machine.execZext at h
  cases h
  repeat' (first | exact Keeps.refl _ | apply issueWord_keeps)
theorem execAonSourceReturn_keeps {s t : State} (h : Machine.execAonSourceReturn  s = .next t) : Keeps s t := by
  unfold Machine.execAonSourceReturn at h
  cases h
  repeat' (first | exact Keeps.refl _ | apply State.whenUp_keeps | apply State.aonReturn_keeps)
theorem execFcvtDS_keeps {s t : State} {x0 x1} (h : Machine.execFcvtDS x0 x1 s = .next t) : Keeps s t := by
  unfold Machine.execFcvtDS at h
  cases h
  repeat' (first | exact Keeps.refl _ | apply issueWord_keeps)
theorem execMulhU64_keeps {s t : State} {x0 x1} (h : Machine.execMulhU64 x0 x1 s = .next t) : Keeps s t := by
  unfold Machine.execMulhU64 at h
  cases h
  repeat' (first | exact Keeps.refl _ | apply issueWord_keeps)
theorem execSurvivorSwitch_keeps {s t : State} (h : Machine.execSurvivorSwitch  s = .next t) : Keeps s t := by
  unfold Machine.execSurvivorSwitch at h
  cases h
  repeat' (first | exact Keeps.refl _ | apply State.whenUp_keeps | apply State.survivorSwitch_keeps)
theorem execAdd_keeps {s t : State} {x0 x1} (h : Machine.execAdd x0 x1 s = .next t) : Keeps s t := by
  unfold Machine.execAdd at h
  cases h
  repeat' (first | exact Keeps.refl _ | apply issueWord_keeps)
theorem execEventRecordWrite_keeps {s t : State} {x0} (h : Machine.execEventRecordWrite x0 s = .next t) : Keeps s t := by
  unfold Machine.execEventRecordWrite at h
  cases h
  repeat' (first | with_reducible (first | exact Keeps.refl _ | assumption | apply ite_keeps | apply State.whenHost_keeps | apply State.recordWrite_keeps | exact State.landXfers_keeps | exact State.validXfers_keeps | exact State.drainXfers_keeps | exact fun _ _ => copyXfers_keeps) | (extract_lets +onlyGivenNames x; first | ((refine_lift have hx : Keeps s x := ?_; ?_); all_goals (first | (guard_hyp hx : Keeps s x; clear_value x) | subst x)) | ((refine_lift have hx : Keeps s x.1 := ?_; ?_); all_goals (first | (guard_hyp hx : Keeps s x.1; clear_value x) | subst x)) | clear_value x) | split | (intro _ _) | (refine foldl_keeps ?_ ?_) | dsimp only | with_reducible apply Keeps.mk_other)
theorem execVsub_keeps {s t : State} {x0 x1} (h : Machine.execVsub x0 x1 s = .next t) : Keeps s t := by
  unfold Machine.execVsub at h
  cases h
  repeat' (first | exact Keeps.refl _ | apply issueWord_keeps)
theorem execVshl_keeps {s t : State} {x0 x1} (h : Machine.execVshl x0 x1 s = .next t) : Keeps s t := by
  unfold Machine.execVshl at h
  cases h
  repeat' (first | exact Keeps.refl _ | apply issueWord_keeps)
theorem execTimeZero_keeps {s t : State} {x0 x1} (h : Machine.execTimeZero x0 x1 s = .next t) : Keeps s t := by
  unfold Machine.execTimeZero at h
  cases h
  repeat' (first | exact Keeps.refl _ | apply State.timeZero_keeps)
theorem execMsixModerationExpire_keeps {s t : State} {x0} (h : Machine.execMsixModerationExpire x0 s = .next t) : Keeps s t := by
  unfold Machine.execMsixModerationExpire at h
  cases h
  repeat' (first | with_reducible (first | exact Keeps.refl _ | assumption | apply ite_keeps | apply State.whenUp_keeps | apply State.modExpire_keeps | exact State.landXfers_keeps | exact State.validXfers_keeps | exact State.drainXfers_keeps | exact fun _ _ => copyXfers_keeps) | (extract_lets +onlyGivenNames x; first | ((refine_lift have hx : Keeps s x := ?_; ?_); all_goals (first | (guard_hyp hx : Keeps s x; clear_value x) | subst x)) | ((refine_lift have hx : Keeps s x.1 := ?_; ?_); all_goals (first | (guard_hyp hx : Keeps s x.1; clear_value x) | subst x)) | clear_value x) | split | (intro _ _) | (refine foldl_keeps ?_ ?_) | dsimp only | with_reducible apply Keeps.mk_other)
theorem execDivU64_keeps {s t : State} {x0 x1} (h : Machine.execDivU64 x0 x1 s = .next t) : Keeps s t := by
  unfold Machine.execDivU64 at h
  cases h
  repeat' (first | exact Keeps.refl _ | apply issueWord_keeps)
theorem execVfnms_keeps {s t : State} {x0 x1} (h : Machine.execVfnms x0 x1 s = .next t) : Keeps s t := by
  unfold Machine.execVfnms at h
  cases h
  repeat' (first | exact Keeps.refl _ | apply issueWord_keeps)
theorem execStreamClose_keeps {s t : State} {x0} (h : Machine.execStreamClose x0 s = .next t) : Keeps s t := by
  unfold Machine.execStreamClose at h
  cases h
  repeat' (first | with_reducible (first | exact Keeps.refl _ | assumption | apply ite_keeps | apply State.whenUp_keeps | apply State.cmdClose_keeps | exact State.landXfers_keeps | exact State.validXfers_keeps | exact State.drainXfers_keeps | exact fun _ _ => copyXfers_keeps) | (extract_lets +onlyGivenNames x; first | ((refine_lift have hx : Keeps s x := ?_; ?_); all_goals (first | (guard_hyp hx : Keeps s x; clear_value x) | subst x)) | ((refine_lift have hx : Keeps s x.1 := ?_; ?_); all_goals (first | (guard_hyp hx : Keeps s x.1; clear_value x) | subst x)) | clear_value x) | split | (intro _ _) | (refine foldl_keeps ?_ ?_) | dsimp only | with_reducible apply Keeps.mk_other)
theorem execMulS32_keeps {s t : State} {x0 x1} (h : Machine.execMulS32 x0 x1 s = .next t) : Keeps s t := by
  unfold Machine.execMulS32 at h
  cases h
  repeat' (first | exact Keeps.refl _ | apply issueWord_keeps)
theorem execSemacq_keeps {s t : State} {x0 x1} (h : Machine.execSemacq x0 x1 s = .next t) : Keeps s t := by
  unfold Machine.execSemacq at h
  cases h
  repeat' (first | exact Keeps.refl _ | apply issueWord_keeps)
theorem execDeauthenticate_keeps {s t : State} (h : Machine.execDeauthenticate  s = .next t) : Keeps s t := by
  unfold Machine.execDeauthenticate at h
  cases h
  repeat' (first | exact Keeps.refl _ | apply State.whenUp_keeps | apply State.udsDeauth_keeps)
theorem execProofOfOwnership_keeps {s t : State} {x0} (h : Machine.execProofOfOwnership x0 s = .next t) : Keeps s t := by
  unfold Machine.execProofOfOwnership at h
  cases h
  repeat' (first | with_reducible (first | exact Keeps.refl _ | assumption | apply ite_keeps | apply State.whenUp_keeps | apply State.udsOwner_keeps | exact State.landXfers_keeps | exact State.validXfers_keeps | exact State.drainXfers_keeps | exact fun _ _ => copyXfers_keeps) | (extract_lets +onlyGivenNames x; first | ((refine_lift have hx : Keeps s x := ?_; ?_); all_goals (first | (guard_hyp hx : Keeps s x; clear_value x) | subst x)) | ((refine_lift have hx : Keeps s x.1 := ?_; ?_); all_goals (first | (guard_hyp hx : Keeps s x.1; clear_value x) | subst x)) | clear_value x) | split | (intro _ _) | (refine foldl_keeps ?_ ?_) | dsimp only | with_reducible apply Keeps.mk_other)
theorem execBmtStep_keeps {s t : State} {x0} (h : Machine.execBmtStep x0 s = .next t) : Keeps s t := by
  unfold Machine.execBmtStep at h
  cases h
  repeat' (first | exact Keeps.refl _ | apply State.bmtStep_keeps)
theorem execPortRestart_keeps {s t : State} {x0} (h : Machine.execPortRestart x0 s = .next t) : Keeps s t := by
  unfold Machine.execPortRestart at h
  cases h
  repeat' (first | exact Keeps.refl _ | apply State.tdmRestart_keeps)
theorem execSext_keeps {s t : State} {x0 x1} (h : Machine.execSext x0 x1 s = .next t) : Keeps s t := by
  unfold Machine.execSext at h
  cases h
  repeat' (first | exact Keeps.refl _ | apply issueWord_keeps)
theorem execFcvtSQ31_keeps {s t : State} {x0 x1} (h : Machine.execFcvtSQ31 x0 x1 s = .next t) : Keeps s t := by
  unfold Machine.execFcvtSQ31 at h
  cases h
  repeat' (first | exact Keeps.refl _ | apply issueWord_keeps)
theorem execFnms_keeps {s t : State} {x0 x1} (h : Machine.execFnms x0 x1 s = .next t) : Keeps s t := by
  unfold Machine.execFnms at h
  cases h
  repeat' (first | exact Keeps.refl _ | apply issueWord_keeps)
theorem execDroppedReset_keeps {s t : State} (h : Machine.execDroppedReset  s = .next t) : Keeps s t := by
  unfold Machine.execDroppedReset at h
  cases h
  repeat' (first | exact Keeps.refl _ | apply State.whenUp_keeps | apply State.droppedReset_keeps)
theorem execUsb2Query_keeps {s t : State} (h : Machine.execUsb2Query  s = .next t) : Keeps s t := by
  unfold Machine.execUsb2Query at h
  cases h
  repeat' (first | exact Keeps.refl _ | apply State.whenUp_keeps | apply State.usb2Query_keeps)
theorem execGptpPdelayReq_keeps {s t : State} {x0 x1} (h : Machine.execGptpPdelayReq x0 x1 s = .next t) : Keeps s t := by
  unfold Machine.execGptpPdelayReq at h
  cases h
  repeat' (first | with_reducible (first | exact Keeps.refl _ | assumption | apply ite_keeps | apply State.whenUp_keeps | apply State.ptpDelay_keeps | apply State.ptpSend_keeps | exact State.landXfers_keeps | exact State.validXfers_keeps | exact State.drainXfers_keeps | exact fun _ _ => copyXfers_keeps) | (extract_lets +onlyGivenNames x; first | ((refine_lift have hx : Keeps s x := ?_; ?_); all_goals (first | (guard_hyp hx : Keeps s x; clear_value x) | subst x)) | ((refine_lift have hx : Keeps s x.1 := ?_; ?_); all_goals (first | (guard_hyp hx : Keeps s x.1; clear_value x) | subst x)) | clear_value x) | split | (intro _ _) | (refine foldl_keeps ?_ ?_) | dsimp only | with_reducible apply Keeps.mk_other)
theorem execAndn_keeps {s t : State} {x0 x1} (h : Machine.execAndn x0 x1 s = .next t) : Keeps s t := by
  unfold Machine.execAndn at h
  cases h
  repeat' (first | exact Keeps.refl _ | apply issueWord_keeps)

end Sys2Proof.Laws
end

