-- ==== Sys2Proof/Laws/Regs.lean ====
section
/-! SUPPORT. Reading a plain register after each way of writing one. -/

namespace Sys2Proof.Laws

open Sys2Proof.Machine

theorem reg_setReg (s : State) (a b : Nat) (v : Word) (h : swf 0 s.csr = true) :
    (s.setReg a v).reg b = if b = a then v else s.reg b := by
  split
  · next e => subst e; exact sget_sset_eq 0 s.csr b v h
  · next e => exact sget_sset_other 0 s.csr a b v e

theorem reg_setReg_same (s : State) (a : Nat) (v : Word) (h : swf 0 s.csr = true) : (s.setReg a v).reg a = v :=
  sget_sset_eq 0 s.csr a v h

theorem reg_setReg_other (s : State) (a b : Nat) (v : Word) (h : b ≠ a) : (s.setReg a v).reg b = s.reg b :=
  sget_sset_other 0 s.csr a b v h

theorem reg_modReg_same (s : State) (a : Nat) (f : Word → Word) (h : swf 0 s.csr = true) : (s.modReg a f).reg a = f (s.reg a) :=
  reg_setReg_same s a _ h

theorem reg_modReg_other (s : State) (a b : Nat) (f : Word → Word) (h : b ≠ a) : (s.modReg a f).reg b = s.reg b :=
  reg_setReg_other s a b _ h

theorem reg_setRegFld_same (s : State) (a hi lo v : Nat) (h : swf 0 s.csr = true) :
    (s.setRegFld a hi lo v).reg a = setFld (s.reg a) hi lo v := reg_modReg_same s a _ h

theorem reg_setRegFld_other (s : State) (a b hi lo v : Nat) (h : b ≠ a) : (s.setRegFld a hi lo v).reg b = s.reg b :=
  reg_modReg_other s a b _ h

theorem reg_orReg_same (s : State) (a : Nat) (m : Word) (h : swf 0 s.csr = true) : (s.orReg a m).reg a = s.reg a ||| m :=
  reg_modReg_same s a _ h

theorem reg_orReg_other (s : State) (a b : Nat) (m : Word) (h : b ≠ a) : (s.orReg a m).reg b = s.reg b := reg_modReg_other s a b _ h

theorem reg_bump_same (s : State) (a : Nat) (h : swf 0 s.csr = true) :
    (s.bump a).reg a = if s.reg a = 0xFFFFFFFF#32 then s.reg a else s.reg a + 1 := reg_modReg_same s a _ h

theorem reg_bump_other (s : State) (a b : Nat) (h : b ≠ a) : (s.bump a).reg b = s.reg b := reg_modReg_other s a b _ h

theorem csr_setReg (s : State) (a : Nat) (v : Word) (h : swf 0 s.csr = true) : swf 0 (s.setReg a v).csr = true := swf_sset 0 s.csr a v h

end Sys2Proof.Laws
end

