-- ==== Sys2Proof/Laws/Ucode.lean ====
section
/-! SUPPORT. What the words of the microcode ROM are known to be (R145). -/

namespace Sys2Proof.Laws

open Sys2Proof.Machine

/-- SEQ of a ROM word below the reserved range is none of the reserved codes. -/
theorem seq_romWord (a : Nat) (h : a < 0x1C00) : bitsOf (romWord a).toNat 143 141 < 6 := by
  unfold romWord
  extract_lets x
  rw [if_neg (by omega)]
  obtain ⟨lo, hl, hx⟩ : ∃ lo, lo < 2 ^ 141 ∧ withBits x 143 141 (bitsOf x 143 141 % 6) % 2 ^ 144 = lo + (bitsOf x 143 141 % 6) * 2 ^ 141 := by
    have hx : x < 2 ^ 144 := (Config.rom a).isLt
    refine ⟨x % 2 ^ 141, Nat.mod_lt _ (by decide), ?_⟩
    unfold withBits bitsOf
    simp only [Nat.shiftRight_eq_div_pow]
    omega
  show bitsOf ((BitVec.ofNat 144 _).toNat) 143 141 < 6
  rw [BitVec.toNat_ofNat, hx]
  unfold bitsOf
  simp only [Nat.shiftRight_eq_div_pow]
  omega

/-- A routine of the ROM that no override changes is entered through a good word. -/
theorem entryBad_rom (t : Tile) (j : Job) (r : Run) (h : t.patch = { disp := [], field := [] }) (hs : j.spare = none) :
    t.entryBad j r = false := by
  have hw : ∀ a, a < 0x1800 → t.seqBad a = false := fun a ha => by
    have := seq_romWord a (by omega)
    simp only [Tile.seqBad, Tile.microword, h, List.foldl_nil]
    exact decide_eq_false (by omega)
  have hd : ∀ ix a, t.dispatch ix = some a → a < 0x1800 := fun ix a ha => by
    simp only [Tile.dispatch, Tile.override, h, List.reverse_nil, List.find?_nil, Option.ite_none_right_eq_some, Option.some.injEq] at ha
    exact ha.2 ▸ Nat.mod_lt _ (by decide)
  simp only [Tile.entryBad, hs]
  split
  · exact hw _ (hd _ _ ‹_›)
  · rfl

end Sys2Proof.Laws
end

