-- ==== Sys2Proof/WellFormed.lean ====
section
/-! DEFINITION. Well-formed commands: the sizes and alignments the spec gives the data that a command brings, as far as its Lean type
does not already give them.  A command that is not well formed is no event of the hardware; exec is total on it all the same. -/

namespace Sys2Proof

/-- A word of a unit with two slots  but no width field: W is zero. -/
def OpWord.noWidth (w : OpWord) : Bool := w.w == 0

/-- A word of a unit with one slot and no width field. -/
def OpWord.oneSlot (w : OpWord) : Bool := !w.second && w.noWidth

/-- A row transfer moves bytes of one 64-byte row (R44). -/
def RowXfer.inRow (x : RowXfer) : Bool := decide (1 ≤ x.bs.length) && decide (x.ofs % 64 + x.bs.length ≤ 64)

/-- A host access of whole DWORDs (R320): 1 to 1024 of them, at a DWORD offset. -/
def BarAccess.whole : BarAccess → Bool
  | .read ofs _ bes => ofs % 4 == 0 && decide (1 ≤ bes.length) && decide (bes.length ≤ 1024)
  | .write ofs _ dws => ofs % 4 == 0 && decide (1 ≤ dws.length) && decide (dws.length ≤ 1024)

/-- Well-formed commands. -/
def Instr.wf : Instr → Bool
  | .timeZero _ _ => true
  | .deviceReset _ _ => true
  | .resetRelease _ => true
  | .thermalHoldRelease ts _ => ts.length == 24
  | .bootRomStart => true
  | .resetWipe => true
  | .firmwareVerify => true
  | .patchLoad => true
  | .calibrationApply => true
  | .storedPlanVerify => true
  | .safetyPhaseStart => true
  | .fullPlanStart => true
  | .fwSvnRaise => true
  | .warmRestart => true
  | .sampleTick _ => true
  | .tileWake _ => true
  | .heldTickWake _ => true
  | .tilePowerUp _ => true
  | .napWake _ => true
  | .drainStart => true
  | .switchWindowStart => true
  | .switchWindowRoles => true
  | .switchWindowCommit => true
  | .flInputFrame _ => true
  | .flOutputDeadline _ => true
  | .flOutputTake _ => true
  | .wakeFail _ => true
  | .resultRetire _ => true
  | .fpTrapDeliver _ => true
  | .interruptAccept _ => true
  | .interruptNoEntry _ => true
  | .ext _ w => w.oneSlot
  | .fmovD _ w => w.oneSlot
  | .fmovS _ w => w.oneSlot
  | .sext _ _ => true
  | .zext _ _ => true
  | .mov _ _ => true
  | .add _ _ => true
  | .sub _ _ => true
  | .adds _ _ => true
  | .subs _ _ => true
  | .neg _ _ => true
  | .abss _ _ => true
  | .and _ _ => true
  | .or _ _ => true
  | .xor _ _ => true
  | .andn _ _ => true
  | .shl _ _ => true
  | .shr _ _ => true
  | .sar _ _ => true
  | .shls _ _ => true
  | .min _ _ => true
  | .max _ _ => true
  | .minu _ _ => true
  | .maxu _ _ => true
  | .cmp _ _ => true
  | .plog _ _ => true
  | .mulq15 _ _ => true
  | .macq15 _ _ => true
  | .rndq _ _ => true
  | .fadd _ _ => true
  | .fsub _ _ => true
  | .fmul _ _ => true
  | .fma _ _ => true
  | .fnms _ _ => true
  | .fcmp _ _ => true
  | .fneg _ _ => true
  | .fabs _ _ => true
  | .fcvtDS _ _ => true
  | .fcvtSD _ _ => true
  | .fcvtHS _ _ => true
  | .fcvtSH _ _ => true
  | .fcvtI32S _ _ => true
  | .fcvtI32D _ _ => true
  | .fcvtI64D _ _ => true
  | .fcvtSI32 _ _ => true
  | .fcvtDI32 _ _ => true
  | .fcvtDI64 _ _ => true
  | .fcvtQ31S _ _ => true
  | .fcvtSQ31 _ _ => true
  | .amovi _ w => w.oneSlot
  | .amovx _ w => w.oneSlot
  | .amov _ w => w.oneSlot
  | .aaddi _ w => w.oneSlot
  | .aadd _ w => w.oneSlot
  | .asub _ w => w.oneSlot
  | .ashli _ w => w.oneSlot
  | .aaddx _ w => w.oneSlot
  | .aget _ w => w.oneSlot
  | .aput _ w => w.oneSlot
  | .setvl _ w => w.noWidth
  | .vmov _ w => w.noWidth
  | .vid _ w => w.noWidth
  | .vadd _ w => w.noWidth
  | .vsub _ w => w.noWidth
  | .vadds _ w => w.noWidth
  | .vsubs _ w => w.noWidth
  | .vand _ w => w.noWidth
  | .vor _ w => w.noWidth
  | .vxor _ w => w.noWidth
  | .vshl _ w => w.noWidth
  | .vshr _ w => w.noWidth
  | .vsar _ w => w.noWidth
  | .vmin _ w => w.noWidth
  | .vmax _ w => w.noWidth
  | .vmulq15 _ w => w.noWidth
  | .vcmp _ w => w.noWidth
  | .vmerge _ w => w.noWidth
  | .vfadd _ w => w.noWidth
  | .vfsub _ w => w.noWidth
  | .vfmul _ w => w.noWidth
  | .vfma _ w => w.noWidth
  | .vfnms _ w => w.noWidth
  | .vfmin _ w => w.noWidth
  | .vfmax _ w => w.noWidth
  | .vfcmp _ w => w.noWidth
  | .vfcvt _ w => w.noWidth
  | .vld _ w => w.noWidth
  | .vst _ w => w.noWidth
  | .join _ w => w.oneSlot
  | .joinany _ w => w.oneSlot
  | .retry _ w => w.oneSlot
  | .trel _ w => w.oneSlot
  | .tdone _ w => w.oneSlot
  | .macroTrap _ _ => true
  | .fld _ w => w.oneSlot
  | .fst _ w => w.oneSlot
  | .spore _ w => w.oneSlot
  | .semacq _ w => w.oneSlot
  | .semrel _ w => w.oneSlot
  | .cesub _ w => w.oneSlot
  | .mulS32 _ w => w.oneSlot
  | .mulU32 _ w => w.oneSlot
  | .mull64 _ w => w.oneSlot
  | .mulhS64 _ w => w.oneSlot
  | .mulhU64 _ w => w.oneSlot
  | .mulq31 _ w => w.oneSlot
  | .divS32 _ w => w.oneSlot
  | .divU32 _ w => w.oneSlot
  | .divS64 _ w => w.oneSlot
  | .divU64 _ w => w.oneSlot
  | .fdivS _ w => w.oneSlot
  | .fdivD _ w => w.oneSlot
  | .fsqrtS _ w => w.oneSlot
  | .fsqrtD _ w => w.oneSlot
  | .biq _ w => w.oneSlot
  | .fft4 _ w => w.oneSlot
  | .cmac _ w => w.oneSlot
  | .nlms _ w => w.oneSlot
  | .gather _ w => w.oneSlot
  | .scatter _ w => w.oneSlot
  | .bmov _ w => w.oneSlot
  | .peak _ w => w.oneSlot
  | .rms _ w => w.oneSlot
  | .nop _ w => w.oneSlot
  | .br _ w => w.oneSlot
  | .brx _ w => w.oneSlot
  | .bra _ w => w.oneSlot
  | .call _ w => w.oneSlot
  | .calla _ w => w.oneSlot
  | .ret _ w => w.oneSlot
  | .loop _ w => w.oneSlot
  | .rep _ w => w.oneSlot
  | .done _ w => w.oneSlot
  | .nap _ w => w.oneSlot
  | .fbar _ w => w.oneSlot
  | .ifence _ w => w.oneSlot
  | .pflush _ w => w.oneSlot
  | .pbar _ w => w.oneSlot
  | .mfsr _ w => w.oneSlot
  | .mtsr _ w => w.oneSlot
  | .reti _ w => w.oneSlot
  | .routineStart _ => true
  | .routineElement _ _ _ _ => true
  | .routineSuspend _ _ => true
  | .routineResume _ _ => true
  | .ticketComplete _ _ => true
  | .farAccessPerform _ _ _ => true
  | .heldFarLoadRelease _ _ => true
  | .fabricTransferReceive _ _ _ => true
  | .semaphorePerform _ _ _ => true
  | .sporeDeliver _ _ => true
  | .externalRowTransfer b _ x _ => x.all fun y => y.inRow && y.bank == b
  | .rowTransferWithdraw b _ x _ _ => x.all fun y => y.inRow && y.bank == b
  | .eccWriteback a => a.toNat % 8 == 0
  | .bmtStep _ => true
  | .bmtPhaseAdvance _ _ _ => true
  | .bistSliceStart _ => true
  | .bistSliceEnd _ _ _ => true
  | .mramScrub => true
  | .ceJobTake _ => true
  | .cePhaseAdvance _ _ _ => true
  | .ceJobQueue _ => true
  | .leaveRequest _ => true
  | .leaveGrant _ => true
  | .leaveRelease _ => true
  | .leaveWithdraw _ => true
  | .tdmInputFrame _ _ _ => true
  | .tdmOutputFrame _ => true
  | .tdmNoclk _ => true
  | .tdmNoclkExit _ _ => true
  | .portRestart _ => true
  | .pdmSample _ _ => true
  | .pdmFillDone _ => true
  | .pdmStuck _ => true
  | .pdmStuckClear _ => true
  | .land _ _ _ => true
  | .valid _ _ _ => true
  | .drain _ _ => true
  | .copy _ _ _ => true
  | .channelRestart _ _ => true
  | .avtpPduReceive _ => true
  | .avtpListenerTick _ => true
  | .avtpPduSend _ => true
  | .crfEventReceive _ _ _ => true
  | .ethFrameReceive _ _ => true
  | .ethFrameTransmit _ _ _ => true
  | .gateListChange _ _ => true
  | .gptpSyncReceive _ _ => true
  | .gptpSyncSend _ => true
  | .gptpPdelayReq _ _ => true
  | .gptpSyncIntervalExpire _ => true
  | .canFrameReceive _ _ bs => decide (bs.length ≤ 64)
  | .signalTimeout _ => true
  | .canBusOff _ => true
  | .canBusOffRecover _ => true
  | .udsRequestReceive _ _ _ _ _ => true
  | .diagnosticSessionControl => true
  | .ecuResetHard => true
  | .ecuResetSoft => true
  | .clearDiagnosticInformation _ => true
  | .reportNumberOfDtc _ => true
  | .reportDtcByStatusMask _ => true
  | .reportDtcSnapshot _ _ => true
  | .reportDtcExtData _ _ => true
  | .reportSupportedDtc => true
  | .readDataByIdentifier _ => true
  | .writeDataByIdentifier _ _ => true
  | .securityAccessSeed seed => seed.length == 16
  | .securityAccessKey _ => true
  | .deauthenticate => true
  | .verifyCertificate _ _ _ => true
  | .proofOfOwnership _ => true
  | .authenticationConfiguration => true
  | .acousticPathTestStart _ => true
  | .stopRoutine => true
  | .requestRoutineResults => true
  | .marginHistoryReadout _ _ => true
  | .eventLogExport _ _ => true
  | .checkProgrammingDependencies => true
  | .requestDownload _ _ _ _ => true
  | .transferData _ _ => true
  | .requestTransferExit _ => true
  | .testerPresent => true
  | .controlDtcSettingOn => true
  | .controlDtcSettingOff => true
  | .responsePending => true
  | .s3Timeout => true
  | .doipVehicleIdentification _ => true
  | .doipRoutingActivation _ _ _ _ => true
  | .doipConnectionClose _ => true
  | .pathTestOutputStep _ => true
  | .usb4LinkUp _ _ => true
  | .linkLoss _ => true
  | .bar0Access a => a.whole
  | .bar2OtherAccess a => a.whole
  | .bar4Access a => a.whole
  | .hostReadComplete _ _ => true
  | .doorbell _ _ _ => true
  | .ringEnable _ _ => true
  | .ringReset _ => true
  | .shadowPoll vals => match vals with | some vs => vs.length == 56 | none => true
  | .indexWriteback _ => true
  | .commandFetch data => data.all fun bs => bs.length == 64
  | .cmdNop _ => true
  | .loadPlanSwitch _ => true
  | .loadPlanReplace _ => true
  | .loadPlanStore _ => true
  | .planVerifyComplete _ => true
  | .replacePlanStart => true
  | .switchPlan _ => true
  | .paramWrite _ => true
  | .filterLoad _ => true
  | .streamOpen _ => true
  | .streamClose _ => true
  | .diagEventExport _ => true
  | .diagMarginExport _ => true
  | .diagPathTest _ => true
  | .commandTakeEffect => true
  | .eventRecordWrite _ => true
  | .msixModerationExpire _ => true
  | .h2dDescriptorFetch _ _ => true
  | .d2hBlockWrite _ => true
  | .usb2Attach => true
  | .usb2Query => true
  | .usb2WriteImage _ _ _ => true
  | .usb2Reset => true
  | .lkSidebandPulse _ _ => true
  | .linkTrainDone _ => true
  | .linkAlign _ _ => true
  | .linkRetrain => true
  | .codewordReceive _ _ _ _ _ _ => true
  | .flitRead _ _ n => decide (1 ≤ n) && decide (n ≤ 64)
  | .flitReadRsp _ _ bs => decide (bs.length ≤ 64)
  | .flitWrite _ _ bs => decide (1 ≤ bs.length) && decide (bs.length ≤ 64)
  | .flitWriteAck _ _ => true
  | .flitState _ => true
  | .flitRecord _ _ _ => true
  | .flitForward _ => true
  | .flitMirror _ => true
  | .flitCommit _ => true
  | .journalApply => true
  | .flitBulk _ _ => true
  | .flitDelta _ _ => true
  | .resyncPhaseEnd => true
  | .resyncJoin => true
  | .verdictPoint _ => true
  | .droppedReset => true
  | .ownershipMove => true
  | .survivorSwitch => true
  | .peerSilent => true
  | .partnerWaitTimeout => true
  | .faultReport _ => true
  | .hubMismatch => true
  | .verdict => true
  | .automaticRestart => true
  | .eventLogWrite => true
  | .clockMonitor _ _ => true
  | .voltageMonitor _ _ => true
  | .temperatureSample ts => ts.length == 24
  | .thermalCapRemove => true
  | .battSenseSample _ => true
  | .deepTileRelease => true
  | .pmicWarnAssert => true
  | .pmicWarnLoweringEnd => true
  | .pwrGoodFall => true
  | .budgetHoldExpire => true
  | .vidStep => true
  | .aonSourceLoss => true
  | .aonSourceReturn => true
  | .standbyEntry => true
  | .standbyCancel _ => true
  | .standbyWake _ => true
  | .replicaMeasure _ _ _ => true
  | .isdFlag _ => true
  | .marginAlarm => true
  | .sramMarginMeasure _ _ => true
  | .replanTrigger _ => true
  | .replanComplete ms => ms.length == 17
  | .bandChange => true
  | .excursion => true
  | .minuteCount => true
  | .lcTokGo _ nonce => nonce.length == 8
  | .lcTransition => true
  | .lcTokDataWrite _ => true
  | .provCommit _ => true
  | .provDone => true
  | .provDataWrite _ => true
  | .dbgCmdGo _ _ chal => chal.length == 8
  | .dbgRespDataWrite _ => true
  | .dbgHalt _ => true
  | .dbgStep _ => true
  | .breakpointHit _ => true
  | .injGo _ => true
  | .mramWriteCmd _ => true
  | .mramEraseCmd _ => true
  | .mramCmdComplete _ => true
  | .scKickWrite _ => true
  | .iswiWrite _ _ _ => true
  | .spqHeadWrite _ _ _ => true
  | .upatchDataAccess _ _ _ => true
  | .ceCtlWrite _ _ _ => true
  | .pairLowRead _ a => a.toNat % 4 == 0
  | .pairHighWrite _ a _ => a.toNat % 4 == 0
  | .readClearAccess _ a => a.toNat % 4 == 0
  | .csrWrite _ a _ => a.toNat % 4 == 0
  | .deviceEvent _ => true
  | .pmicWarnFall => true
  | .ethLinkChange _ _ _ => true
  | .canErrorStateChange _ _ _ => true
  | .ringResetComplete _ => true
  | .pllRelock _ => true
  | .usb4ClStateRequest _ => true
  | .pcieConfigAccess _ => true
  | .i2cClockStretchTimeout _ _ _ => true
  | .serialTransferComplete _ _ _ => true

end Sys2Proof
end

