-- ==== Sys2Proof/Tests/Slice0.lean ====
section
/-! SUPPORT. Small tests of one step each, and for every statement states and operands that meet its hypotheses together. -/

namespace Sys2Proof.Tests

open Sys2Proof.Machine Sys2Proof.Laws

set_option maxRecDepth 8192

/-! ## Small states -/

/-- A plan with work for tile 0 and a safety task on tiles 1 and 2. -/
def plan0 : Plan :=
  { planId := 7, ver := 1, block := 32, ucode := 0, isaReq := 0, lcMask := 0
    sects := [{ typ := 3, unit := 0, vmask := 7, twr := false, dst := 0, len := 0, body := .sched 1 [(0x100, 0)] },
              { typ := 3, unit := 1, vmask := 7, twr := false, dst := 0, len := 0, body := .sched 1 [(0x200, 0)] },
              { typ := 3, unit := 2, vmask := 7, twr := false, dst := 0, len := 0, body := .sched 1 [(0x200, 0)] }]
    inMap := [], outMap := [], tdm := [], pdm := [], chans := [], streams := [], eps := []
    tasks := [{ lead := 1, check := 2, areaL := (0, 0), areaC := (0, 0), outs := [], rstL := (0, 0, 0), rstC := (0, 0, 0) }]
    restor := [], mics := [], accels := [], peaks := (0, 0, 0), owners := [], eth := []
    pair := { mode := 0, ownPri := 0, ownPar := 0, shadow := 0, carried := [], survivor := 0 } }

/-- The device just out of reset. -/
def up : State := { State.reset with dev := { State.reset.dev with up := true } }

/-- That device with registers set. -/
def upWith (rs : List (Nat × Word)) : State := rs.foldl (fun s x => s.setReg x.1 x.2) up

/-- A plan runs at sample `n`. -/
def runs (p : Plan) (n : Nat) : State :=
  { (up.modSched fun x => { x with plan := some p, stored := true }) with bsize := p.block, sample := BitVec.ofNat 64 n }

/-- A plan image that every check passes. -/
def goodImage : PlanImage :=
  { sigSlot := some 1, bodies := [], rest := plan0
    bytes := leBytes 4 0x50564E48 ++ leBytes 2 1 ++ zeros 2 ++ leBytes 4 176 ++ leBytes 2 32 ++ zeros 2 ++ leBytes 4 0x10 ++ leBytes 4 7
      ++ leBytes 4 1 ++ [7, 2] ++ leBytes 2 1 ++ leBytes 4 64 ++ zeros 28 ++ [0x0E, 0, 7, 0] ++ zeros 8 ++ leBytes 4 80 ++ zeros 96 }

/-! ## Well-formed commands: one ill-formed term for each check -/

def badHead : OpWord := { stop := true, second := true, ge := false, gn := false, gp := 0, w := 1, body := 0 }
def longRow : RowXfer := { bank := 0, port := 16, wr := true, ofs := 60, bs := zeros 8, far := none, at_ := 0 }
theorem test_wf_refuses_words : Instr.wf (.setvl 0 badHead) = false ∧ Instr.wf (.nop 0 { badHead with w := 0 }) = false ∧
    Instr.wf (.nop 0 { badHead with second := false }) = false ∧ Instr.wf (.add 0 badHead) = true := by decide
theorem test_wf_refuses_accesses : Instr.wf (.externalRowTransfer 0 0 (some longRow) 0) = false ∧
    Instr.wf (.externalRowTransfer 1 0 (some { longRow with ofs := 0 }) 0) = false ∧ Instr.wf (.rowTransferWithdraw 0 0 (some { longRow with bs := [] }) none 0) = false ∧
    Instr.wf (.eccWriteback 4) = false ∧ Instr.wf (.flitRead 0 0 65) = false ∧ Instr.wf (.flitRead 0 0 0) = false ∧
    Instr.wf (.flitReadRsp 0 0 (zeros 65)) = false ∧ Instr.wf (.flitWrite 0 0 []) = false ∧ Instr.wf (.bar0Access (.read 2 0 [15])) = false ∧
    Instr.wf (.bar2OtherAccess (.read 0 0 [])) = false ∧ Instr.wf (.bar4Access (.write 0 0 [])) = false ∧
    Instr.wf (.csrWrite .host 2 0) = false ∧ Instr.wf (.readClearAccess .host 1) = false ∧ Instr.wf (.pairLowRead .host 2) = false ∧
    Instr.wf (.pairHighWrite .host 3 0) = false := by decide
theorem test_wf_refuses_lengths : Instr.wf (.thermalHoldRelease [] false) = false ∧ Instr.wf (.temperatureSample [0]) = false ∧
    Instr.wf (.canFrameReceive 0 0 (zeros 65)) = false ∧ Instr.wf (.securityAccessSeed []) = false ∧ Instr.wf (.shadowPoll (some [])) = false ∧
    Instr.wf (.commandFetch (some [])) = false ∧ Instr.wf (.replanComplete []) = false ∧ Instr.wf (.lcTokGo true []) = false ∧
    Instr.wf (.dbgCmdGo true 0 []) = false ∧ Instr.wf (.rowTransferWithdraw 0 0 (some { longRow with ofs := 0 }) none 0) = true := by decide

/-! ## The block -/

theorem wit_block : State.reset.pending = [] ∧ State.reset.Canonical ∧ State.reset.OneShadow ∧ (0x100000 : Nat) < 2 ^ 36 :=
  ⟨rfl, ⟨by decide, by decide⟩, oneShadow_reset rfl, by decide⟩
theorem wit_step : ∃ t, step { State.reset with pending := [.timeZero false false] } = .next t ∧ t.dev.up = true := ⟨_, rfl, by decide⟩

/-! ## Start-up -/

theorem wit_time_zero : State.reset.Canonical ∧ State.reset.dev.up = false ∧ State.reset.dev.hold = false := ⟨⟨by decide, by decide⟩, by decide⟩
theorem wit_reset_release : let s := State.reset.setReg Csr.rstCause 5
    s.Canonical ∧ s.dev.up = false ∧ s.dev.hold = false ∧ fld (s.reg Csr.rstCause) 3 0 ∉ [0, 1, 7] := ⟨⟨by decide, by decide⟩, by decide⟩
theorem wit_thermal_hold : let s := { State.reset with dev := { State.reset.dev with hold := true } }
    s.Canonical ∧ s.dev.up = false ∧ s.dev.hold = true ∧ (∀ i < 24, toInt 32 (([] : List Word).getD i 0).toNat < 1400) ∧
      (∃ i < 24, 1400 ≤ toInt 32 (([1400] : List Word).getD i 0).toNat) := ⟨⟨by decide, by decide⟩, by decide, by decide, by decide, 0, by decide, by decide⟩
theorem wit_wipe : let s := (upWith [(Csr.bootStat, 1)]).modPower fun p => { p with granted := [{ who := .wipe, units := 5, again := false }] }
    s.dev.up = true ∧ s.phase = 1 ∧ s.held .wipe ≠ 0 := by decide
/-- The device in a phase of start-up with images. -/
def phase (n : Word) (f : Images → Images) : State := (upWith [(Csr.bootStat, n), (Csr.lcStat, 2)]).modImages f
def fw (seq : Nat) : FwImage := { sigOk := true, svn := 3, seq := seq }
def patch0 (ok : Bool) : PatchImage := { ok := ok, level := 5, disp := [1], field := [] }
theorem wit_boot : up.Canonical ∧ up.phase = 0 ∧ (phase 2 fun i => { i with fwA := none, fwB := none }).phase = 2 ∧
    (phase 2 fun i => { i with fwA := none, fwB := none }).fwGood 0 none = false ∧ (phase 4 id).phase = 4 ∧ (phase 4 id).Canonical :=
  ⟨⟨by decide, by decide⟩, by decide, by decide, by decide, by decide, by decide, by decide⟩
theorem wit_firmware : let a := phase 2 fun i => { i with fwA := some (fw 4), fwB := some (fw 3) }
    let b := phase 2 fun i => { i with fwA := some (fw 3), fwB := some (fw 4) }
    a.Canonical ∧ b.Canonical ∧ a.fwGood 0 (some (fw 4)) = true ∧ b.fwGood 0x80000 (some (fw 4)) = true ∧ a.dev.images.fwA = some (fw 4) ∧
      b.dev.images.fwB = some (fw 4) ∧ (fw 3).seq < (fw 4).seq := ⟨⟨by decide, by decide⟩, ⟨by decide, by decide⟩, by decide⟩
theorem wit_patch : let s := phase 3 fun i => { i with patch := some (patch0 true) }
    s.Canonical ∧ s.phase = 3 ∧ s.dev.images.patch = some (patch0 true) ∧ (patch0 true).ok = true ∧ s.mramBad 0x3A4000 0x10000 = false ∧
      (patch0 false).ok = false := ⟨⟨by decide, by decide⟩, by decide, by decide, by decide, by decide, by decide⟩
/-- The device before its stored plan is verified, with a plan image or none. -/
def stored (g : Option PlanImage) : State := ((upWith [(Csr.bootStat, 5), (Csr.lcStat, 1), (Csr.keyStat, 2)]).modImages fun i => { i with plan := g })
theorem wit_stored_plan : let s := stored none
    s.Canonical ∧ s.phase = 5 ∧ s.dev.sched.ready = none ∧ s.lc ∈ [1, 2, 3] ∧ fld (s.reg Csr.bootStat) 5 5 = 0 ∧ s.dev.images.plan = none ∧
      (stored (some goodImage)).storedRefusal goodImage = none ∧ (stored (some goodImage)).dev.images.plan = some goodImage :=
  ⟨⟨by decide, by decide⟩, by decide⟩
theorem wit_safety_phase : let s := { (up.modSched fun x => { x with ready := some plan0 }) with sample := 840 }
    s.Canonical ∧ s.dev.sched.ready = some plan0 ∧ s.plan = none ∧ 0 < plan0.block ∧ (864 / plan0.block - 1) * plan0.block ≤ s.sample.toNat ∧
      s.sample.toNat < 864 / plan0.block * plan0.block := ⟨⟨by decide, by decide⟩, by decide⟩
theorem wit_full_plan : let s := (runs plan0 2143).modSched fun x => { x with kf := some 67 }
    s.Canonical ∧ s.plan = some plan0 ∧ s.dev.sched.kf = some 67 ∧ 67 * s.bsize ≤ s.sample.toNat + 1 ∧ s.dev.sched.prog = none ∧
      fld (s.reg Csr.supplyStat) 4 4 = 0 ∧ fld (s.reg Csr.bootStat) 8 8 = 0 ∧ (2142 : DWord).toNat + 1 < 67 * s.bsize :=
  ⟨⟨by decide, by decide⟩, by decide⟩
theorem wit_firmware_version : let s := phase 7 fun i => { i with fwA := some (fw 1) }
    s.Canonical ∧ s.phase = 7 ∧ fld (s.reg Csr.fwStat) 0 0 = 0 ∧ s.dev.images.fwA = some (fw 1) ∧ (phase 4 id).phase ∉ [7, 8] :=
  ⟨⟨by decide, by decide⟩, by decide⟩
theorem wit_warm_restart : let s := (((runs goodImage.plan 100).modSched fun x => { x with warm := true }).modImages fun i => { i with plan := some goodImage })
    let s := (s.setReg Csr.lcStat 1).setReg Csr.keyStat 2
    s.dev.up = true ∧ s.dev.sched.warm = true ∧ s.plan = some goodImage.plan ∧ s.dev.images.plan = some goodImage ∧ s.dev.sched.stored = true ∧
      s.storedRefusal goodImage = none := by decide
theorem wit_warm_reset : (runs plan0 100).dev.sched.warm = false ∧ ((runs plan0 100).modImages fun i => { i with written := true }).dev.images.written = true := by
  decide
theorem wit_replacement : let r : Replace := { block := 2, plan := some { plan0 with planId := 9 }, at_ := 50, stopped := true, ring := 0, tag := 0, index := 0, aseq := 0 }
    let s := (runs plan0 96).modSched fun x => { x with replace := some r }
    s.Canonical ∧ s.dev.sched.replace = some r ∧ r.block * s.bsize < s.sample.toNat ∧ r.at_ + 2 ≤ s.sample.toNat ∧ s.sample.toNat % 32 = 0 :=
  ⟨⟨by decide, by decide⟩, by decide⟩

/-! ## Block timing -/

/-- A plan runs at sample 31, and unit 0 is in a mode with a wake due. -/
def late (m : TileMode) (f : Tile → Tile) : State := (runs plan0 31).modTile 0 fun t => f { t with mode := m, wakeDue := true, heldTick := true }
theorem wit_sample : let s := late .sleep id
    s.dev.up = true ∧ s.dev.safety.resetAt = none ∧ s.plan = some plan0 ∧ s.bsize ≠ 0 ∧ (s.sample + 1).toNat % s.bsize = 0 ∧
      s.dev.sched.replace = none ∧ s.dev.sched.prog = none ∧ plan0.hasWork 0 = true ∧ (s.tile (unitIx 0)).mode = .sleep ∧
      (s.tile (unitIx 0)).away = false ∧ (s.tile (unitIx 0)).bist = none ∧ fld (s.tile (unitIx 0)).flCfg 0 0 = 0 ∧ s.dev.sched.stage = .none ∧
      (s.tile (unitIx 0)).doneInBlk = false ∧ s.dev.safety.fallDeep = none ∧ s.dev.sched.k0 ≤ s.blk := by decide
theorem wit_wakes : ((late .sleep id).schedEntry 0 = some 0x100) ∧ ((late .sleep id).tile 0).wakeDue = true ∧ ((late .sleep id).tile 0).heldTick = true ∧
    fld ((late .sleep fun t => { t with flCfg := 1 }).tile 0).flCfg 0 0 = 1 ∧ ((late .nap id).tile 0).mode = .nap ∧
    (late .nap id).dev.sched.flStart.contains 0 = false ∧ ((late .dark id).tile 0).mode = .dark ∧ ((late .dark id).tile 0).fenced = false ∧
    fld ((late .run fun t => { t with flCfg := 1 }).tile 0).flCfg 0 0 = 1 ∧ ((late .run id).tile 0).away = false := by decide
/-- A plan runs in a stage of its switch window. -/
def stage (w : WinStage) (q : Option Plan) : State := (runs plan0 31).modSched fun x => { x with stage := w, nextVar := some .b, target := q }
theorem wit_window : (stage .drain none).dev.sched.stage = .drain ∧ (stage .start none).dev.sched.stage = .start ∧ (stage .roles none).dev.sched.nextVar = some .b ∧
    (stage .roles (some plan0)).dev.sched.target = some plan0 ∧ (stage .roles none).plan = some plan0 := by decide

/-! ## Audio -/

/-- A plan with a listener and a talker runs at sample 64. -/
def planAv : Plan := { plan0 with
  streams := [{ ix := 32, sid := 5, fmt := 3, x2 := false, chans := 2, spp := 6, ivl := 1, port := 0, pcp := 3, vid := 2, presDly := 10, presOfs := 0, fb := [] },
              { ix := 0, sid := 6, fmt := 3, x2 := false, chans := 2, spp := 8, ivl := 1, port := 0, pcp := 3, vid := 2, presDly := 10, presOfs := 0, fb := [] }] }
/-- TDM port 3 with its configuration and status. -/
def tdm3 (cfg stat : Word) (f : PortState → PortState) : State :=
  ((((runs planAv 64).setReg (tdmReg 3 0) cfg).setReg (tdmReg 3 8) 0xFF).setReg (tdmReg 3 0x1C) stat).modPort 3 f
theorem wit_tdm : let s := tdm3 0x9C3 0 id
    s.Canonical ∧ s.drivesClk 3 = true ∧ fld (s.reg (tdmReg 3 0)) 0 0 = 1 ∧ fld (s.reg (tdmReg 3 0)) 1 1 = 1 ∧ (s.port 3).stopped = none ∧ fld (s.reg (tdmReg 3 0x1C)) 3 3 = 0 ∧
      (s.port 3).inSeen = false ∧ (s.port 3).outSeen = false ∧ fld (s.reg (tdmReg 3 0)) 2 2 = 0 ∧
      fld (s.reg (tdmReg 3 8)) (0 % (fld (s.reg (tdmReg 3 0)) 10 6 + 1)) (0 % (fld (s.reg (tdmReg 3 0)) 10 6 + 1)) = 1 ∧
      fld (s.reg (tdmReg 3 0x14)) (0 % (fld (s.reg (tdmReg 3 0)) 10 6 + 1)) (0 % (fld (s.reg (tdmReg 3 0)) 10 6 + 1)) = 0 ∧
      ((tdm3 0x9C3 0 fun p => { p with inSeen := true }).port 3).inSeen = true ∧ s.reg (tdmReg 3 0x24) ≠ 0xFFFFFFFF :=
  ⟨⟨by decide, by decide⟩, by decide⟩
theorem wit_noclk : let s := tdm3 1 0 id
    s.Canonical ∧ s.drivesClk 3 = false ∧ fld (s.reg (tdmReg 3 0x1C)) 3 3 = 0 ∧ (s.port 3).sync + 2 ≤ s.sample.toNat ∧
      fld ((tdm3 1 8 id).reg (tdmReg 3 0x1C)) 3 3 = 1 ∧ (tdm3 1 8 id).inWindow 3 (toInt 32 0) = true := ⟨⟨by decide, by decide⟩, by decide⟩
/-- PDM channel 0 with its run and status. -/
def pdm0 (run : Nat) (stat : Word) : State :=
  (((runs planAv 64).setReg (pdmCfg 0) 1).setReg (pdmStat 0) stat).modAud fun a =>
    { a with pdm := vmod a.pdm 0 fun p => { p with run := run, top := run, start := some 0, change := some 0 } }
theorem wit_pdm : let s := pdm0 4096 0
    s.Canonical ∧ fld (s.reg (pdmCfg 0)) 0 0 = 1 ∧ (s.aud.pdm[(0 : Fin 32)]).start = some 0 ∧ 0 + 64 ≤ s.sample.toNat ∧
      4096 ≤ (s.aud.pdm[(0 : Fin 32)]).top ∧ fld (s.reg (pdmStat 0)) 1 1 = 0 ∧ fld (s.reg (pdmStat 0)) 2 2 = 0 ∧
      (s.aud.pdm[(0 : Fin 32)]).change = some 0 ∧ fld ((pdm0 0 6).reg (pdmStat 0)) 1 1 = 1 := ⟨⟨by decide, by decide⟩, by decide⟩
def pdu0 : Pdu := { port := 1, sid := 5, fmt := 3, x2 := false, chans := 2, seq := 9, tv := true, ts := 100000, smps := [1, 2] }
theorem wit_listener : let s := runs planAv 64
    ∃ x, s.Canonical ∧ s.plan = some planAv ∧ Plan.listener planAv pdu0.sid = some x ∧ x.ix < 64 ∧ pdu0.fmt = x.fmt ∧ x.fmt < 4 ∧ x.x2 = false ∧
      pdu0.chans = x.chans ∧ pdu0.chans ≠ 0 ∧ pdu0.smps.length = pdu0.chans ∧ s.sample.toNat < s.pduTick x.ix pdu0 ∧
      s.pduTick x.ix pdu0 ≤ s.sample.toNat + 512 ∧ (s.listenOf x.ix).held = [] ∧ s.reg (ethReg 1 0xC4) ≠ 0xFFFFFFFF ∧
      s.reg (ethReg 1 0xC8) ≠ 0xFFFFFFFF ∧ (1 : Nat) ≠ x.fmt :=
  ⟨_, ⟨by decide, by decide⟩, rfl, rfl, by decide, by decide, by decide, by decide, by decide, by decide, by decide, by decide, by decide, by decide,
    by decide, by decide, by decide⟩
theorem wit_listener_tick : let s := (runs planAv 64).modAud fun a => { a with listen := vmod a.listen 0 fun l => { l with held := [(130, [7, 8])] } }
    ∃ x, (planAv.streams.find? fun y => decide (y.ix = 32 + 0)) = some x ∧ x.x2 = false ∧ 1 < x.chans ∧
      (s.aud.listen[(0 : Fin 32)].held.find? fun e => decide (e.1 = 2 * (s.sample.toNat + 1))) = some (130, [7, 8]) :=
  ⟨_, rfl, by decide, by decide, by decide⟩
theorem wit_talker : let s := (runs planAv 64).modAud fun a => { a with talk := vmod a.talk 0 fun l => { l with blk := 2, seq := 4 } }
    ∃ x, (planAv.streams.find? fun y => decide (y.ix = 0) && decide (y.ix < 32)) = some x ∧ s.gptpSync = true ∧ x.fmt ≠ 4 ∧ x.x2 = false ∧ x.spp ≠ 0 ∧ s.bsize ≠ 0 ∧
      s.dev.sched.kf = none ∧ planAv.outMap = [] ∧ (s.aud.talk[(0 : Fin 32)]).blk = s.blk ∧ (s.aud.talk[(0 : Fin 32)]).pdu < s.bsize / x.spp ∧
      (s.setReg (ethReg 0 0) 0x11).gptpSync = false ∧ fld (s.reg Csr.aonCfg) 1 0 ≠ 3 :=
  ⟨_, rfl, by decide, by decide, by decide, by decide, by decide, by decide, by decide, by decide, by decide, by decide, by decide⟩
/-- The same with a CRF talker. -/
def planCrf : Plan := { planAv with
  streams := [{ ix := 0, sid := 6, fmt := 4, x2 := false, chans := 0, spp := 6, ivl := 4, port := 0, pcp := 3, vid := 2, presDly := 10, presOfs := 0, fb := [] }] }
theorem wit_crf_talker : let s := runs planCrf 64
    ∃ x, (planCrf.streams.find? fun y => decide (y.ix = 0) && decide (y.ix < 32)) = some x ∧ s.gptpSync = true ∧ x.fmt = 4 ∧ x.spp * x.ivl ≠ 0 ∧
      s.sample.toNat / (x.spp * x.ivl) = 2 ∧ (s.aud.talk[(0 : Fin 32)]).blk ≠ 2 := ⟨_, rfl, by decide, by decide, by decide, by decide, by decide⟩

/-! ## Engines and far operations -/

/-- A far operation of unit 3. -/
def farOp (k : FarKind) (ph : FarPhase) (ga : BitVec 36) (len : Nat) (d : List Byte) : FarOp :=
  { tkt := some 0, seq := 1, kind := k, phase := ph, ga := ga, len := len, dst := .mem 0x40, data := d }
/-- The device out of reset with far operations in flight in unit 3. -/
def withFar (fs : List FarOp) : State := up.modTile 3 fun t => { t with far := fs }
/-- A queued submission, and a running job. -/
def entry0 : CeEntry := { unit := 3, far := 1, op := 1, job := 0, block := 0 }
def run0 (ph : CePhase) : CeRunning := { ent := entry0, phase := ph, entry := zeros 64, setB := false, xfade := false, flags := 0, b := 32, k0 := 0, seg := 0, dead := false, outs := [] }
/-- Engine 1 in a state, with its CTL. -/
def engine (q : List CeEntry) (r : Option CeRunning) (ctl : Word) : State :=
  ((upWith [(Csr.ceBase 1, ctl), (Csr.leaveCe 1, 1)]).modEng 1 fun e => { e with queue := q, run := r })

theorem wit_queue : let f := farOp .cesub .sent 1 5 [7]
    ((withFar [f]).tile 3).nextSub = some f ∧ f.ga.toNat % 4 = (1 : Fin 4).val ∧ ((withFar [f]).eng 1).queue.length < 64 := by decide
theorem wit_queue_full : let s := (withFar [farOp .cesub .sent 1 5 [7]]).modEng 1 fun e => { e with queue := List.replicate 64 entry0 }
    (s.tile 3).nextSub = some (farOp .cesub .sent 1 5 [7]) ∧ 64 ≤ (s.eng 1).queue.length := by decide
theorem wit_take_fails : let s := engine [entry0] none 0x3
    (s.eng 1).run = none ∧ (s.eng 1).queue = entry0 :: [] ∧ s.ceHeld = false ∧ s.ceCheck 1 entry0 = some 0x40 ∧ (s.tile entry0.unit).waiting = false := by decide
/-- A job table entry of one source and one output, and engine 1 with it. -/
def jobBytes : List Byte := leBytes 4 (1 + 4 * 256 + 3 * 65536) ++ leBytes 4 (1 + 65536) ++ leBytes 4 1 ++ zeros 52
def engineJob (q : List CeEntry) (r : Option CeRunning) : State := (engine q r 0x3).setBytes (ceAddr 1 0) jobBytes

theorem wit_take : let s := engineJob [entry0] none
    (s.eng 1).run = none ∧ (s.eng 1).queue = entry0 :: [] ∧ s.ceHeld = false ∧ s.ceCheck 1 entry0 = none := by decide
theorem wit_take_held : ((engine [entry0] none 0x3).modSched fun x => { x with kf := some 3 }).ceHeld = true := by decide
theorem wit_phase_start : let s := engineJob [] (some (run0 .start))
    (s.eng 1).run = some (run0 .start) ∧ s.ceEn 1 = true ∧ s.reg (Csr.leaveCe 1) ≠ 0 ∧ s.ueIn [(ceAddr 1 (64 * entry0.job), 64)] = none ∧
      (s.eng 1).runs = [] ∧ (run0 .start).dead = false ∧ ((s.modEng 1 fun e => { e with runs := [(0, 0, true, false)] }).eng 1).runs = [(0, 0, true, false)] := by decide
theorem wit_phase_input : let s := engineJob [] (some (run0 .input))
    (s.eng 1).run = some (run0 .input) ∧ s.ceEn 1 = true ∧
      (let j := CeJob.ofBytes (run0 .input).entry
       let rs := j.inputReads 1 (localBase 3) (j.segIx 32 0 0 0) 0
       s.ueIn (rs.1 ++ rs.2) = none) := by decide
theorem wit_phase_output : let s := engineJob [] (some (run0 .output))
    (s.eng 1).run = some (run0 .output) ∧ s.ceEn 1 = true ∧ s.ecc = [] ∧ s.fab.rows = [] ∧ s.fab.marks = [] ∧ (s.tile 3).waiting = false ∧
      (run0 .accumulate).phase = .accumulate ∧ (engine [] (some (run0 .output)) 0x2).ceEn 1 = false := by decide
theorem wit_ce_ctl : let s := engine [entry0] none 0x3
    s.Canonical ∧ s.ceEn 1 = true ∧ fld (2 : Word) 0 0 = 0 ∧ fld (3 : Word) 0 0 = 1 ∧ Requester.tile 3 ≠ .tile 16 ∧
      ∀ e ∈ (s.eng 1).queue, (s.tile e.unit).waiting = false :=
  ⟨⟨by decide, by decide⟩, by decide⟩

theorem wit_far_store : let f := farOp .fst .sent 0x400010 2 [5, 6]; let s := withFar [f]
    s.Canonical ∧ s.OneShadow ∧ s.dev.up = true ∧ s.farAt 3 0 = some f ∧ f.kind = .fst ∧ f.phase = .sent ∧ s.asked 3 f = false ∧
      s.storeBefore 3 f = false ∧ regionOf f.ga.toNat = .bank ∧ f.ga.toNat < 0x0D000000 ∧ oneBank f.ga.toNat f.data.length = true ∧ s.fab.rows = [] ∧ s.fab.marks = [] :=
  ⟨⟨by decide, by decide⟩, oneShadow_reset rfl, by decide⟩
theorem wit_far_load : let f := farOp .fld .sent 0x400010 2 []; let s := withFar [f]
    s.dev.up = true ∧ s.farAt 3 0 = some f ∧ s.asked 3 f = false ∧ regionOf f.ga.toNat = .bank ∧ oneBank f.ga.toNat f.len = true ∧
      s.hasUe f.ga.toNat f.len = false := by decide
theorem wit_far_unmapped : let f := farOp .fld .sent 0x200000 2 []; let s := withFar [f]
    s.dev.up = true ∧ s.farAt 3 0 = some f ∧ s.asked 3 f = false ∧ regionOf f.ga.toNat = .unmapped := by decide
theorem wit_crc_element : let r : Run := { tkt := 5, elem := 0, due := 0, start := 0, handler := false, seq := 0 }
    let s := up.modTile 3 fun t => { t with re := t.re.set 0 (some r), tkt := t.tkt.set 5 { Ticket.reset with
      job := some { Job.empty { s := up, u := 3, pc := 0, len := 8, pos := 0, ext := none } 0x30 with far := true } } }
    s.dev.up = true ∧ (s.tile 3).re[(0 : Fin 2)] = some r ∧ ((s.tile 3).ticket r.tkt).job.map (·.isLocal) = some false := by decide
theorem wit_held_release : let f := farOp .fld .held 0x400010 2 []; let s := withFar [f]
    s.dev.up = true ∧ s.farAt 3 0 = some f ∧ f.phase = .held ∧ ∀ g ∈ (s.tile 3).far, g.kind ≠ .fst := by decide
theorem wit_held_stays : let f := { farOp .fld .held 0x400010 2 [] with seq := 2 }; let g := farOp .fst .sent 0x400011 2 []
    (withFar [f, g]).farAt 3 0 = some f ∧ g ∈ ((withFar [f, g]).tile 3).far ∧ g.seq < f.seq ∧ g.phase = .sent ∧
      overlaps g.ga.toNat g.len f.ga.toNat f.len = true := by decide
theorem wit_crc : let f := farOp .fld .sent 0x400010 2 []; let s := withFar [f]
    s.Canonical ∧ s.dev.up = true ∧ fld (s.reg Csr.crcPort) 5 5 = 0 ∧ s.farAt 3 0 = some f ∧ f.phase = .sent :=
  ⟨⟨by decide, by decide⟩, by decide⟩

/-- A semaphore 4 with a count and a maximum, and a request of unit 3 for it. -/
def withSem (k : FarKind) (c m : Nat) : State := (withFar [farOp k .sent 4 0 []]).setBytes (semAddr 4) (leBytes 8 (c + m * 2 ^ 16))
theorem wit_acquire : let s := withSem .semacq 1 2
    s.Canonical ∧ s.OneShadow ∧ s.dev.up = true ∧ s.farAt 3 0 = some (farOp .semacq .sent 4 0 []) ∧ s.hasUe (semAddr 4) 8 = false ∧
      (semStep true 3 (s.load (semAddr 4) 8)).2 = some (2 * 2 ^ 16 + 3 * 2 ^ 32) :=
  ⟨⟨by decide, by decide⟩, oneShadow_reset rfl, by decide⟩
theorem wit_acquire_empty : let s := withSem .semacq 0 2
    s.dev.up = true ∧ s.farAt 3 0 = some (farOp .semacq .sent 4 0 []) ∧ (semStep true 3 (s.load (semAddr 4) 8)).2 = none := by decide
theorem wit_release_full : let s := withSem .semrel 2 2
    s.dev.up = true ∧ s.farAt 3 0 = some (farOp .semrel .sent 4 0 []) ∧ (semStep false 3 (s.load (semAddr 4) 8)).2 = none := by decide
theorem wit_semaphore_unmapped : let s := withFar [farOp .semacq .sent 1024 0 []]
    s.dev.up = true ∧ s.farAt 3 0 = some (farOp .semacq .sent 1024 0 []) := by decide

/-- A spore of unit 3 for role 2, which unit 5 holds, with its queue at a tail. -/
def withSpore (tail : Word) : State :=
  ((withFar [farOp .spore .sent 2 16 (zeros 64)]).setBytes (roleAddr 2) (leBytes 4 (5 + 128))).modTile 5 fun t => { t with spqTail := tail }
theorem wit_spore : let s := withSpore 3
    s.dev.up = true ∧ s.farAt 3 0 = some (farOp .spore .sent 2 16 (zeros 64)) ∧ (∀ g ∈ (s.tile 3).far, g.kind = .spore → 1 ≤ g.seq) ∧
      s.hasUe (roleAddr 2) 4 = false ∧ (s.role 2).2.1 = true ∧ (s.role 2).1 < 17 ∧ s.spqFull (s.role 2).1 = false ∧ s.fab.spill = [] := by decide
theorem wit_spore_full : let s := withSpore 256
    (s.role 2).2.1 = true ∧ s.spqFull (s.role 2).1 = true ∧ s.hasUe (roleAddr 2) 4 = false := by decide

theorem wit_complete : let f := farOp .fld (.done 0) 0x400010 2 [5, 6]
    let s := (withFar [f]).modTile 3 fun t => t.take 0 0 8 0 none
    s.Canonical ∧ s.OneShadow ∧ s.dev.up = true ∧ (s.tile 3).waiting = false ∧ s.farAt 3 0 = some f ∧
      (∀ g ∈ (s.tile 3).far, g.seq = f.seq → g = f) ∧ f.dst = .mem 0x40 ∧ ((s.tile 3).ticket 0).st = .pending :=
  ⟨⟨by decide, by decide⟩, oneShadow_reset rfl, by decide⟩

/-! ## Streams, routines, results and interrupts -/

/-- Channel 2 at its step 0, whose 64 bytes stand in the stream engine's bank, with its CH_STAT; a plan runs at sample 3. -/
def withStep (stp : List Byte) (stat : Word) : State :=
  ((((runs { plan0 with block := 4 } 3).setReg (chReg 2 4) stat).setBytes (bankBase 21) stp).setNext 2 (some 0)).modAud fun a =>
    { a with draining := [(9, [1, 2, 3, 4])] }
/-- A step: operation, COUNT, source and one destination. -/
def stepBytes (op n src dst : Nat) : List Byte := leBytes 4 op ++ leBytes 4 n ++ zeros 8 ++ leBytes 8 src ++ leBytes 8 dst

theorem wit_land : let s := withStep (stepBytes 1 1 0 0x400100) 1
    s.Canonical ∧ s.OneShadow ∧ runsStep s 2 0 1 ∧ (s.stepOf 2 0).count = 1 ∧ (s.stepOf 2 0).dsts = [0x400100] ∧
      regionOf (0x400100 + 4 * s.landIx) = .bank ∧ 0x400100 + 4 * s.landIx < 0x0D000000 ∧ oneBank (0x400100 + 4 * s.landIx) 4 = true :=
  ⟨⟨by decide, by decide⟩, oneShadow_reset rfl, by unfold runsStep; decide, by decide⟩
theorem wit_valid : let s := withStep (stepBytes 2 0 0 0x400100) 1
    s.Canonical ∧ s.OneShadow ∧ runsStep s 2 0 2 ∧ (s.stepOf 2 0).dsts = [0x400100] ∧ regionOf 0x400100 = .bank ∧
      oneBank 0x400100 288 = true :=
  ⟨⟨by decide, by decide⟩, oneShadow_reset rfl, by unfold runsStep; decide, by decide⟩
theorem wit_drain : let s := withStep (stepBytes 3 1 0x400100 9) 1
    s.Canonical ∧ runsStep s 2 0 3 ∧ (s.stepOf 2 0).count = 1 ∧ (s.stepOf 2 0).dsts = [9] ∧ (s.stepOf 2 0).zero = false ∧
      s.plan = some { plan0 with block := 4 } ∧ (∀ u, (s.tile u).fenced = false) ∧ s.ecc = [] ∧ 0 < s.bsize ∧
      regionOf (s.stepOf 2 0).src = .bank ∧ oneBank (s.stepOf 2 0).src (4 * s.bsize) = true :=
  ⟨⟨by decide, by decide⟩, by unfold runsStep; decide, by decide⟩
theorem wit_copy : let s := withStep (stepBytes 4 3 0x0C000000 0x400100) 1
    s.Canonical ∧ s.OneShadow ∧ runsStep s 2 0 4 ∧ (s.stepOf 2 0).dsts = [0x400100] ∧ (s.stepOf 2 0).zero = false ∧ s.ecc = [] ∧
      0 < (s.stepOf 2 0).count ∧ (s.stepOf 2 0).src % 64 + (s.stepOf 2 0).count ≤ 64 ∧ regionOf (s.stepOf 2 0).src = .bank ∧
      oneBank (s.stepOf 2 0).src (s.stepOf 2 0).count = true ∧ regionOf 0x400100 = .bank ∧ oneBank 0x400100 (s.stepOf 2 0).count = true :=
  ⟨⟨by decide, by decide⟩, oneShadow_reset rfl, by unfold runsStep; decide, by decide⟩
theorem wit_no_step : up.chanNext 2 = none ∧ fld (up.reg (chReg 2 0)) 3 1 ≠ 4 := by decide
theorem wit_step_unreadable : let s := { withStep (stepBytes 4 3 0x0C000000 0x400100) 1 with ecc := [(bankBase 21, .ue)] }
    s.Canonical ∧ s.dev.up = true ∧ s.leaves 2 = true ∧ s.chanNext 2 = some 0 ∧ s.stepUe 2 0 = true := ⟨⟨by decide, by decide⟩, by decide⟩
theorem wit_restart : (withStep [] 2).dev.up = true ∧ fld ((withStep [] 2).reg (chReg 2 4)) 1 1 = 1 ∧
    fld ((withStep [] 1).reg (chReg 2 4)) 1 1 = 0 := by decide

/-- A routine of ticket 0 at an element. -/
def run1 (e : Nat) : Run := { tkt := 0, elem := e, due := 5, start := 0, handler := false, seq := 0 }
/-- Unit 3 with ticket 0 pending under an opcode with operands, and its engines. -/
def withRun (opc n : Nat) (re sp sf : Option Run) (q : List Run) : State :=
  up.modTile 3 fun t => { t.take 0 0 (BitVec.ofNat 7 opc) 0 (some { Job.empty { s := up, u := 3, pc := 0, len := 8, pos := 0, ext := none } opc with
      dst := .mem 0x100, src1 := 0x200, src2 := BitVec.ofNat 64 n }) with
    re := t.re.set 0 re, susp := t.susp.set 0 sp, suspFor := t.suspFor.set 0 sf, rqueue := q }

theorem wit_routine_start : let s := withRun 0x3C 40 none none none [run1 0]
    s.dev.up = true ∧ (s.tile 3).rqueue = run1 0 :: [] ∧ (s.tile 3).freeEngine = some 0 := by decide
theorem wit_routine_suspend : let s := withRun 0x3C 40 (some (run1 7)) none (some (run1 0)) []
    s.dev.up = true ∧ (s.tile 3).re[(0 : Fin 2)] = some (run1 7) ∧ (s.tile 3).suspFor[(0 : Fin 2)] = some (run1 0) ∧
      (run1 0).due < (run1 7).elem := by decide
theorem wit_routine_resume : let s := withRun 0x3C 40 none (some (run1 7)) none []
    s.dev.up = true ∧ (s.tile 3).re[(0 : Fin 2)] = none ∧ (s.tile 3).suspFor[(0 : Fin 2)] = none ∧
      (s.tile 3).susp[(0 : Fin 2)] = some (run1 7) ∧ (run1 7).fresh = false := by decide
theorem wit_routine_bmov : let s := withRun 0x38 40 none none none [run1 0]
    s.dev.up = true ∧ (s.tile 3).rqueue = run1 0 :: [] ∧ (s.tile 3).freeEngine = some 0 ∧
      ∃ j, ((s.tile 3).ticket 0).job = some j ∧ j.spare = none ∧ j.opc = 0x38 ∧ j.descs = none ∧ s.hasUe (localBase 3 + j.dstAt) 8 = false ∧
        s.hasUe (localBase 3 + j.src1.toNat) 8 = false :=
  ⟨by decide, by decide, by decide, _, rfl, by decide, by decide, by decide, by decide, by decide⟩
/-- A routine whose place is reached has its element due. -/
theorem due_of (opc n e : Nat) (h : ((withRun opc n (some (run1 e)) none none []).tile 3).elementNow 0 (run1 e)
      { Job.empty { s := up, u := 3, pc := 0, len := 8, pos := 0, ext := none } opc with dst := .mem 0x100, src1 := 0x200, src2 := BitVec.ofNat 64 n } = true) :
    elementDue (withRun opc n (some (run1 e)) none none []) 3 0 (run1 e)
      { Job.empty { s := up, u := 3, pc := 0, len := 8, pos := 0, ext := none } opc with dst := .mem 0x100, src1 := 0x200, src2 := BitVec.ofNat 64 n } :=
  ⟨rfl, rfl, (by decide : ∀ k : Fin 2, ((withRun 0x18 5 (some (run1 0)) none none []).tile 3).suspFor[k] = none), rfl, rfl, rfl, h,
    entryBad_rom _ _ _ rfl rfl⟩
theorem wit_routine_element : let s := withRun 0x3D 40 (some (run1 1)) none none []
    ∃ j, elementDue s 3 0 (run1 1) j ∧ j.isLocal = true ∧ s.elemCount 3 j = .ok 3 ∧ (run1 1).elem + 1 < 3 ∧
        (s.element 3 j (run1 1) none).held = false ∧ (s.element 3 j (run1 1) none).st = 0 :=
  ⟨_, due_of 0x3D 40 1 (by decide), by decide, rfl, by decide, rfl, rfl⟩
theorem wit_routine_last : let s := withRun 0x20 40 (some (run1 0)) none none []
    ∃ j, elementDue s 3 0 (run1 0) j ∧ j.spare = none ∧ j.opc.toNat < 0x28 ∧ 0x20 ≤ j.opc.toNat :=
  ⟨_, due_of 0x20 40 0 (by decide), rfl, by decide, by decide⟩
theorem wit_routine_fails : let s := withRun 0x3D 0xFFFFFF (some (run1 0)) none none []
    let v := { withRun 0x3D 40 (some (run1 0)) none none [] with ecc := [(localBase 3 + 0x200, .ue)] }
    (∃ j, elementDue s 3 0 (run1 0) j ∧ ∃ st fa, s.elemCount 3 j = .error (st, fa) ∧ 0 < st) ∧
      ∃ j, elementDue v 3 0 (run1 0) j ∧ j.isLocal = true ∧ v.elemCount 3 j = .ok 3 ∧ (run1 0).elem < 3 ∧ (v.element 3 j (run1 0) none).st ≠ 0 :=
  ⟨⟨_, due_of 0x3D 0xFFFFFF 0 (by decide), 4, 0, rfl, by decide⟩, _,
    ⟨rfl, rfl, (by decide : ∀ k : Fin 2, ((withRun 0x18 5 (some (run1 0)) none none []).tile 3).suspFor[k] = none), rfl, rfl, rfl, by decide,
      entryBad_rom _ _ _ rfl rfl⟩, by decide, rfl, by decide, by decide⟩

/-- Unit 3 in RUN at cycle 9 with one result due. -/
def withResult (w : Wr) : State := up.modTile 3 fun t =>
  { t with mode := .run, cycle := 9, pend := [{ retire := 7, issue := 6, slot := 0, w := w }], tkt := t.tkt.set 0 { Ticket.reset with st := .pending } }
theorem withResult_due (w : Wr) : oneDue (withResult w) 3 w := ⟨rfl, rfl, _, rfl, rfl, by show 7 ≤ 9; decide, by show 7 < 9; decide⟩
theorem wit_results : (∀ w, oneDue (withResult w) 3 w) ∧ (withResult (.mem 0x40 [1])).Canonical ∧ (withResult (.mem 0x40 [1])).OneShadow ∧
    ((withResult (.tdone 0 1)).tile 3).rep.active = false ∧ (((withResult (.tdone 0 1)).tile 3).ticket 0).st = .pending :=
  ⟨withResult_due, ⟨by decide, by decide⟩, oneShadow_reset rfl, by decide, by decide⟩

/-- Unit 3 in a mode with interrupt vector 40 pending and enabled at level 1, ISP in range, and FTRAP_INFO. -/
def withIrq (m : TileMode) (ft : Word) : State := up.modTile 3 fun t =>
  { t with mode := m, status := 0x600, isp := 0x1000, ipend := BitVec.ofNat 256 (2 ^ 40), ien := BitVec.ofNat 256 (2 ^ 40), ilvl := 0, ftrapInfo := ft
           ivbase := 0x800 }
theorem wit_interrupt : let s := withIrq .run 0
    s.Canonical ∧ s.OneShadow ∧ s.dev.up = true ∧ (s.tile 3).accepts = true ∧ (s.tile 3).mode = .run ∧ (s.tile 3).atAcceptance = true ∧
      (s.tile 3).trapDue = false ∧ (s.tile 3).chooseVector = some 40 ∧ (s.tile 3).ispOk = true ∧ (s.tile 3).pend = [] :=
  ⟨⟨by decide, by decide⟩, oneShadow_reset rfl, by decide⟩
theorem wit_interrupt_nap : let s := withIrq .nap 0
    s.Canonical ∧ s.OneShadow ∧ s.dev.up = true ∧ (s.tile 3).accepts = true ∧ (s.tile 3).mode = .nap ∧ (s.tile 3).chooseVector = some 40 ∧
      (s.tile 3).ispOk = true ∧ (s.tile 3).pend = [] := ⟨⟨by decide, by decide⟩, oneShadow_reset rfl, by decide⟩
theorem wit_interrupt_sleep : let s := withIrq .sleep 0
    (s.tile 3).mode = .sleep ∧ (s.tile 3).chooseVector = some 40 ∧ (s.tile 3).vecLevel 40 < 2 ∧
      (up.tile 3).trapDue = false ∧ (up.tile 3).chooseVector = none := by decide
theorem wit_trap : let s := withIrq .run 0x10000
    s.Canonical ∧ s.OneShadow ∧ s.dev.up = true ∧ (s.tile 3).accepts = true ∧ (s.tile 3).mode = .run ∧ (s.tile 3).trapDue = true ∧
      (s.tile 3).ispOk = true ∧ (s.tile 3).pend = [] := ⟨⟨by decide, by decide⟩, oneShadow_reset rfl, by decide⟩
theorem wit_last_element : let s := withRun 0x18 5 (some (run1 0)) none none []
    s.Canonical ∧ s.OneShadow ∧ ∃ j, lastElement s 3 0 (run1 0) j 0x100 ∧ j.opc = 0x18 ∧ j.src2.toNat % 2 ^ 32 ≠ 0 ∧
      toInt 32 j.src1.toNat ≠ -2 ^ 31 :=
  ⟨⟨by decide, by decide⟩, oneShadow_reset rfl, _, ⟨due_of 0x18 5 0 (by decide), rfl, rfl, rfl, by decide⟩, by decide, by decide, by decide⟩
theorem wit_last_element_overflow :
    let s := (withRun 0x18 0xFFFFFFFF (some (run1 0)) none none []).modTile 3 fun t =>
      t.setTicket 0 { t.ticket 0 with job := (t.ticket 0).job.map fun j => { j with src1 := 0x80000000 } }
    s.Canonical ∧ s.OneShadow ∧ ∃ j, lastElement s 3 0 (run1 0) j 0x100 ∧ j.opc = 0x18 ∧ toInt 32 j.src1.toNat = -2 ^ 31 ∧
      toInt 32 j.src2.toNat = -1 :=
  ⟨⟨by decide, by decide⟩, oneShadow_reset rfl, _, ⟨⟨rfl, rfl,
    (by decide : ∀ k : Fin 2, ((withRun 0x18 5 (some (run1 0)) none none []).tile 3).suspFor[k] = none), rfl, rfl, rfl, by decide,
    entryBad_rom _ _ _ rfl rfl⟩, rfl, rfl, rfl, by decide⟩, by decide, by decide, by decide⟩
theorem wit_last_element_forms (n : Nat) (h : (BitVec.ofNat 7 n).toNat < 0x28) : let s := withRun n 5 (some (run1 0)) none none []
    s.Canonical ∧ s.OneShadow ∧ ∃ j, lastElement s 3 0 (run1 0) j 0x100 ∧ j.opc = BitVec.ofNat 7 n :=
  ⟨⟨wit_last_element.1.1, wit_last_element.1.2⟩, oneShadow_reset rfl, _, ⟨due_of n 5 0 (by
    simp only [Tile.elementNow, Bool.and_eq_true, Bool.or_eq_true]
    exact ⟨rfl, .inr ⟨rfl, rfl⟩⟩), rfl, rfl, rfl, by decide⟩, rfl⟩

/-! ## Governor, supply and monitors -/

/-- The device with power state and registers set. -/
def withPower (f : Power → Power) (rs : List (Nat × Word)) : State := (upWith rs).modPower f
/-- A request. -/
def leaveOf (h : LeaveHolder) (n : Nat) : LeaveReq := { who := h, units := n, again := false }

theorem wit_leave_ask_unbooked : up.Canonical ∧ up.mayAsk .mram = true ∧ isUnbooked .mram = true := ⟨⟨by decide, by decide⟩, by decide⟩
theorem wit_leave_ask_booked : up.Canonical ∧ up.mayAsk .bist = true ∧ isUnbooked .bist = false := ⟨⟨by decide, by decide⟩, by decide⟩
theorem wit_leave_grant_booked : let s := withPower (fun p => { p with waiting := [leaveOf .bist 3] }) [(Csr.govBallast, 3)]
    s.Canonical ∧ s.dev.power.waiting.find? (fun r => decide (r.who = .bist)) = some (leaveOf .bist 3) ∧ isUnbooked .bist = false :=
  ⟨⟨by decide, by decide⟩, by decide⟩
theorem wit_leave_grant_unbooked : let s := withPower (fun p => { p with waiting := [leaveOf .mram 4] }) []
    s.Canonical ∧ s.dev.power.waiting.find? (fun r => decide (r.who = .mram)) = some (leaveOf .mram 4) ∧ isUnbooked .mram = true ∧
      s.headUnbooked = some (leaveOf .mram 4) ∧ ((leaveOf .mram 4).units : Int) ≤ s.headroom := ⟨⟨by decide, by decide⟩, by decide⟩
theorem wit_leave_no_headroom : let s := withPower (fun p => { p with waiting := [leaveOf .mram 4] }) [(Csr.govBooked, 228)]
    s.dev.power.waiting.find? (fun r => decide (r.who = .mram)) = some (leaveOf .mram 4) ∧ s.headroom < (leaveOf .mram 4).units ∧
      0 ≤ s.headroom := by decide
theorem wit_leave_release : let s := withPower (fun p => { p with granted := [leaveOf .mram 4] }) []
    s.Canonical ∧ s.dev.power.granted.find? (fun r => decide (r.who = .mram)) = some (leaveOf .mram 4) ∧ s.needsLeave .mram = false :=
  ⟨⟨by decide, by decide⟩, by decide⟩
theorem wit_leave_withdraw : let s := withPower (fun p => { p with granted := [leaveOf .mram 4] }) [(Csr.govBooked, 240)]
    s.Canonical ∧ s.dev.power.granted.find? (fun r => decide (r.who = .mram)) = some (leaveOf .mram 4) ∧ isUnbooked .mram = true ∧
      s.headroom < 0 := ⟨⟨by decide, by decide⟩, by decide⟩
theorem wit_clock : up.Canonical ∧ up.dev.up = true ∧ fld (up.reg Csr.clkMonStat) 5 5 = 0 ∧ (1 ≤ (5 : Fin 6).val) ∧ (10000 : Int) < 10001 :=
  ⟨⟨by decide, by decide⟩, by decide⟩
theorem wit_rails : up.railReset 0 809 = true ∧ up.railReset 0 810 = false ∧ (up.railWindow 0).1 = 855 ∧ (up.railWindow 0).2 = 945 ∧
    fld (up.reg Csr.supplyStat) 5 5 = 0 := by decide
theorem wit_temperature : (List.replicate 24 (1349 : Word)).length = 24 ∧ (∀ x ∈ List.replicate 24 (1349 : Word), toInt 32 x.toNat < 1350) ∧
    1650 ≤ toInt 32 ((List.replicate 24 (1650 : Word)).getD 23 0).toNat :=
  ⟨rfl, fun x hx => by rw [List.eq_of_mem_replicate hx]; decide, by decide⟩
theorem wit_cap : let s := (withPower (fun p => { p with thermCap := true }) []).modAge fun a => { a with capRun := 1000 }
    s.Canonical ∧ s.dev.up = true ∧ s.dev.power.thermCap = true ∧ 1000 ≤ s.dev.age.capRun ∧ up.dev.age.capRun < 1000 :=
  ⟨⟨by decide, by decide⟩, by decide⟩
theorem wit_battery : supplyMove up.supply (fun i => if battBeyond i 1001 then up.dev.power.runs.getD i 0 + 1 else 0) = none ∧
    let s := withPower (fun p => { p with runs := p.runs.set 0 9 }) []
    supplyMove s.supply (fun i => if battBeyond i 955 then s.dev.power.runs.getD i 0 + 1 else 0) = some 1 ∧ s.dev.up = true := by decide
theorem wit_deep_release : let s := (upWith [(Csr.supplyStat, 0x10)]).modSafety fun f => { f with fallDeep := some 3 }
    s.Canonical ∧ s.dev.up = true ∧ s.supply ≠ 2 ∧ s.dev.safety.fallDeep.isSome = true ∧ s.winOpen = false ∧ s.dev.sched.kf = none :=
  ⟨⟨by decide, by decide⟩, by decide⟩
theorem wit_warn : let s := { withPower (fun p => { p with warnPin := false, warnFall := some 0 }) [(Csr.supplyStat, 8)] with sample := 480 }
    s.Canonical ∧ s.dev.up = true ∧ s.dev.power.warnPin = false ∧ s.dev.power.warnFall = some 0 ∧ 0 + 480 ≤ s.sample.toNat ∧
      s.dev.power.budgetAt + 480 ≤ s.sample.toNat ∧ up.sample.toNat < up.dev.power.budgetAt + 480 ∧
      (withPower (fun p => { p with warnPin := true }) []).dev.power.warnPin = true := ⟨⟨by decide, by decide⟩, by decide⟩
theorem wit_power_good : let s := upWith [(Csr.stbyCfg, 2)]
    s.Canonical ∧ fld (s.reg Csr.stbyCfg) 1 1 = 1 ∧ fld (up.reg Csr.stbyCfg) 1 1 = 0 := ⟨⟨by decide, by decide⟩, by decide⟩
theorem wit_vid : (upWith [(Csr.vid, 0x21)]).Canonical ∧ (upWith [(Csr.vid, 0x21)]).vidCode < (upWith [(Csr.vid, 0x21)]).vidTarget ∧
    (upWith [(Csr.vid, 0x12)]).vidTarget < (upWith [(Csr.vid, 0x12)]).vidCode ∧ (upWith [(Csr.vid, 0x22)]).vidCode = (upWith [(Csr.vid, 0x22)]).vidTarget :=
  ⟨⟨by decide, by decide⟩, by decide⟩
theorem wit_steering : fld ((upWith [(Csr.aonCfg, 1)]).reg Csr.aonCfg) 1 0 ≠ 0 ∧ fld ((upWith [(Csr.aonCfg, 1)]).reg Csr.aonStat) 1 1 = 0 ∧
    fld ((upWith [(Csr.aonStat, 2)]).reg Csr.aonStat) 1 1 = 1 := by decide

/-! ## Faults, standby, ageing and the fast lane -/

/-- A report with one word of detail. -/
def rep (code : BitVec 16) (unit : Byte) (d : Word) : Report := { code := code, unit := unit, detail := [d] }
theorem wit_report : up.Canonical ∧ up.severity (rep 0x0101 3 0) < 2 ∧ up.dev.safety.resetAt = none ∧ (rep 0x0142 3 0).unit.toNat < 16 ∧
    fld (up.reg Csr.safeStat) 1 0 = 0 ∧ (rep 0x0170 0xFF 5).detail.getD 0 0 = 5 := ⟨⟨by decide, by decide⟩, by decide⟩

/-- A plan with one task on tiles 1 and 2 whose output areas are one word each. -/
def task0 : SafetyTask := { lead := 1, check := 2, areaL := (0x100, 4), areaC := (0x200, 4), outs := [], rstL := (0x300, 0x340, 8), rstC := (0x300, 0x340, 8) }
/-- It runs with a byte in the lead copy's area. -/
def tasked (v : Byte) : State := (runs { plan0 with tasks := [task0] } 31).setByte (bankBase 1 + 0x100) v
theorem wit_verdict : let s := tasked 0
    s.Canonical ∧ s.plan = some { plan0 with tasks := [task0] } ∧ s.dev.safety.swapped = [] ∧ s.dev.safety.selfDet = [] ∧
      (s.tile (unitIx task0.lead)).fenced = false ∧ (s.tile (unitIx task0.check)).fenced = false ∧
      crc32 (s.bytes (bankBase task0.lead + task0.areaL.1) task0.areaL.2) = crc32 (s.bytes (bankBase task0.check + task0.areaC.1) task0.areaC.2) :=
  ⟨⟨by decide, by decide⟩, by decide⟩
theorem wit_verdict_differs : let s := tasked 1
    s.Canonical ∧ fld (s.reg Csr.safeStat) 1 0 = 0 ∧
      crc32 (s.bytes (bankBase task0.lead + task0.areaL.1) task0.areaL.2) ≠ crc32 (s.bytes (bankBase task0.check + task0.areaC.1) task0.areaC.2) :=
  ⟨⟨by decide, by decide⟩, by decide⟩

def event0 : EventRec := { block := 1, code := 0x0200, source := 0xFF, sev := 0, dtc := 0, detail := [] }
theorem wit_event : let s := up.modSafety fun f => { f with events := [event0], logReady := true }
    s.Canonical ∧ s.OneShadow ∧ s.dev.safety.events = event0 :: [] ∧ s.dev.safety.logReady = true ∧ up.dev.safety.events = [] :=
  ⟨⟨by decide, by decide⟩, oneShadow_reset rfl, by decide⟩
theorem wit_restart_auto : let s := { ((upWith [(Csr.safeStat, 1)]).modSafety fun f => { f with lastDet := some 0 }).modSched
      (fun x => { x with stored := true }) with sample := 9600 }
    s.Canonical ∧ s.dev.up = true ∧ s.dev.safety.lastDet = some 0 ∧ s.isSafe = true ∧ 0 + 9600 ≤ s.sample.toNat ∧ s.dev.sched.stored = true ∧
      (s.reg Csr.restartCnt).toNat < 3 := ⟨⟨by decide, by decide⟩, by decide⟩
theorem wit_standby : let s := upWith [(Csr.stbyCfg, 1)]
    s.Canonical ∧ s.dev.up = true ∧ fld (s.reg Csr.stbyCfg) 0 0 = 1 ∧ fld (s.reg Csr.stbyCfg) 1 1 = 0 ∧ s.busyNow = false ∧
      s.dev.power.lastAct + fld (s.reg Csr.stbyCfg) 11 2 * 48000 ≤ s.sample.toNat ∧ fld (up.reg Csr.stbyCfg) 0 0 = 0 ∧ up.wakeOn 2 = false :=
  ⟨⟨by decide, by decide⟩, by decide⟩
/-- The device on its way into standby, or in it, with wake source 2 enabled. -/
def withStby (on mute : Bool) : State :=
  (((upWith [(Csr.stbyCfg, 0x4002)]).modPower fun p => { p with stbyMute := mute, inStby := !on })).modDev fun d => { d with up := on }
theorem wit_standby_cancel : let s := withStby true true
    s.Canonical ∧ s.dev.up = true ∧ s.wakeOn 2 = true ∧ fld (s.reg Csr.stbyCfg) 1 1 = 1 ∧ s.dev.power.stbyMute = true :=
  ⟨⟨by decide, by decide⟩, by decide⟩
theorem wit_standby_wake : let s := withStby false true
    s.Canonical ∧ s.dev.up = false ∧ s.dev.power.inStby = true ∧ s.wakeOn 2 = true ∧ s.reg Csr.wakeSrc = 0 := ⟨⟨by decide, by decide⟩, by decide⟩

/-- The device with tile 3 in SLEEP and margin planner state. -/
def withAge (f : Ageing → Ageing) (rs : List (Nat × Word)) : State := ((upWith rs).modTile 3 fun t => { t with mode := .sleep }).modAge f
theorem wit_margin : let s := withAge id []
    s.Canonical ∧ s.dev.up = true ∧ (s.tile 3).state ≠ .dark ∧ s.monOff 3 = false ∧ s.monOff 4 = true ∧ s.alarmPs ≤ 1000 ∧ (-1 : Int) < s.alarmPs ∧ (s.tile (unitIx 4)).state = .dark ∧
      s.dev.age.alarms = [] := ⟨⟨by decide, by decide⟩, by decide⟩
theorem wit_alarm : let s := withAge (fun a => { a with alarms := [(3, false)] }) [(Csr.vid, 0x22)]
    s.Canonical ∧ s.dev.age.alarms = (3, false) :: [] ∧ s.dev.age.lastOff = none ∧ s.vidCode < 10 := ⟨⟨by decide, by decide⟩, by decide⟩
theorem wit_replan : let s := upWith [(Csr.bootStat, 5)]
    s.Canonical ∧ s.dev.up = true ∧ fld (s.reg Csr.agePlanStat) 5 3 = 0 ∧ s.dev.age.running = none ∧ s.dev.age.putting = none ∧ 5 ≤ s.phase :=
  ⟨⟨by decide, by decide⟩, by decide⟩
theorem wit_replan_alarm : let s := withAge (fun a => { a with trigs := [4] }) []
    s.dev.age.trigs.contains 4 = true ∧ s.dev.age.running = none := by decide
/-- Measures with ample slack. -/
def ample : List TileMeasure := List.replicate 17 { smin := 3000, worst := 0, loss := 0 }
theorem wit_replan_done : let s := withAge (fun a => { a with running := some 1 }) []
    s.Canonical ∧ s.dev.up = true ∧ s.dev.age.running = some 1 ∧
      (∀ j < 16, ∀ b < 5, fld ((s.planTile j (measureOf ample j)).1) (6 * b + 1) (6 * b) ≠ 3) := ⟨⟨by decide, by decide⟩, by decide, by decide, by decide⟩
theorem wit_band : let s := upWith [(Csr.bandStat, 2), (Csr.tmon 0, 1000)]
    s.Canonical ∧ s.band < bandUp s.tj s.band ∧ s.band < 5 := ⟨⟨by decide, by decide⟩, by decide⟩
theorem wit_band_down : let s := withAge (fun a => { a with coolRun := 1000 }) [(Csr.bandStat, 2)]
    s.Canonical ∧ s.dev.up = true ∧ bandUp s.tj s.band ≤ s.band ∧ 1000 ≤ s.dev.age.coolRun ∧ 0 < s.band ∧ s.band < 5 :=
  ⟨⟨by decide, by decide⟩, by decide⟩
theorem wit_excursion : let s := withAge (fun a => { a with hotRun := 10000 }) [(Csr.excStat, 2)]
    s.Canonical ∧ 10000 ≤ s.dev.age.hotRun ∧ fld (s.reg Csr.excStat) 1 1 = 1 ∧ up.dev.age.hotRun < 10000 := ⟨⟨by decide, by decide⟩, by decide⟩
theorem wit_minute : up.dev.power.inStby = false ∧ (withStby false true).dev.power.inStby = true := by decide

/-- Tile 5 bound to the fast lane with one output. -/
def bind0 : FastBind := { entry := 0x40, ibase := 0, obase := 0, ins := [], outs := [.tdm 0 0 0], bist := 0 }
def planFast : Plan := { plan0 with
  sects := { typ := 4, unit := 5, vmask := 7, twr := false, dst := 0, len := 0, body := .fast bind0 } :: plan0.sects
  outMap := [{ ix := 4, dst := .tdm 0 0 0, tile := 5, safety := false }] }
def withFast : State := ((runs planFast 31).modTile 5 fun t => { t with flCfg := 1 }).modAud fun a => { a with played := [(30, [])] }
theorem wit_fast : withFast.Canonical ∧ withFast.OneShadow ∧ withFast.bindOf 5 = some bind0 ∧ bind0.ins.length ≤ 112 ∧
    withFast.plan = some planFast ∧ bind0.outs = [.tdm 0 0 0] ∧
    Plan.outAt planFast (.tdm 0 0 0) = some { ix := 4, dst := .tdm 0 0 0, tile := 5, safety := false } ∧ (withFast.tile 5).fenced = false ∧
    withFast.aud.played = [(withFast.sample.toNat - 1, [])] ∧ fld (up.tile 5).flCfg 0 0 = 0 :=
  ⟨⟨by decide, by decide⟩, oneShadow_reset rfl, by decide, by decide, rfl, by decide, by decide, by decide, by decide, by decide⟩

/-! ## Memory controllers, registers and windows -/

/-- A row transfer of two bytes into bank 3, and a bank whose background test stands at a phase. -/
def xfer0 (wr : Bool) : RowXfer := { bank := 3, port := 24, wr := wr, ofs := 0x10010, bs := [7, 8], far := none, at_ := 0 }
def withBmt (p : BmtPhase) (rows : Nat) : State := up.modBmt 3 fun b => { b with phase := p, window := 2, rows := rows }

theorem wit_row : up.Canonical ∧ up.OneShadow ∧ up.ecc = [] ∧ up.fab.rows = [] ∧ (xfer0 true).bank = 3 ∧ subOf (xfer0 true) = 1 ∧
    (xfer0 true).ofs + (xfer0 true).bs.length ≤ bankSize 3 ∧ (xfer0 true).ofs % 64 + (xfer0 true).bs.length ≤ 64 ∧
    (xfer0 true).far = none :=
  ⟨⟨by decide, by decide⟩, oneShadow_reset rfl, by decide⟩
theorem wit_row_far : let f := farOp .fst .sent (BitVec.ofNat 36 (bankBase 3 + 0x10010)) 2 [5, 6]
    let s := withFar [f]
    s.Canonical ∧ s.OneShadow ∧ s.fab.rows = [] ∧ s.farAt 3 0 = some f ∧ (∀ g ∈ (s.tile 3).far, g.seq = f.seq → g = f) ∧ f.phase = .sent ∧
      f.kind = .fst ∧ locate f.ga.toNat = some (3, 0x10010) ∧ 0x10010 / 0x10000 = 1 ∧ 0x10010 + f.data.length ≤ bankSize 3 ∧
      0x10010 % 64 + f.data.length ≤ 64 := ⟨⟨by decide, by decide⟩, oneShadow_reset rfl, by decide⟩
theorem wit_writeback : let s := { up with ecc := [(0x18, .ce 3)], wback := [0x18] }
    s.wback.contains ((0x1A : BitVec 36).toNat / 8 * 8) = true ∧ s.mark ((0x1A : BitVec 36).toNat / 8 * 8) = some (.ce 3) := by decide
theorem wit_bmt_step : let s := withBmt .none 64
    (s.bmtOf 3).phase = .none ∧ (s.bmtOf 3).stopped = false ∧ (s.bmtOf 3).retired = none ∧ (s.bmtOf 3).rows = 64 ∧
      ¬ windowsOf 3 ≤ (s.bmtOf 3).window + 1 := by decide
theorem shadow_bmt (p : BmtPhase) (r : Nat) : (withBmt p r).OneShadow := by
  have h : (up.bmtOf 3).retired = none := by decide
  intro n
  by_cases e : n = 3
  · subst e; left; rfl
  · have : (withBmt p r).bmtOf n = up.bmtOf n := by
      unfold withBmt State.modBmt State.bmtOf vmod
      simp [Vector.getD, Vector.getElem_set, Ne.symm e]
    rw [this]; exact oneShadow_reset (s := up) rfl n
theorem wit_bmt_copy : let s := withBmt .copy 0
    s.Canonical ∧ s.OneShadow ∧ s.ecc = [] ∧ (s.bmtOf 3).phase = .copy ∧ (s.bmtOf 3).rows = 0 ∧ (s.bmtOf 3).window < windowsOf 3 :=
  ⟨⟨by decide, by decide⟩, shadow_bmt _ _, by decide⟩
theorem wit_bmt_restore : let s := withBmt .restore 0
    s.Canonical ∧ s.OneShadow ∧ s.ecc = [] ∧ (s.bmtOf 3).phase = .restore ∧ (s.bmtOf 3).rows = 0 ∧ (s.bmtOf 3).window < windowsOf 3 :=
  ⟨⟨by decide, by decide⟩, shadow_bmt _ _, by decide⟩
theorem wit_bmt_rest : ((withBmt .test 0).bmtOf 3).phase = .test ∧ ((withBmt .shadow 0).bmtOf 3).phase = .shadow ∧
    (withBmt .test 0).Canonical ∧ (withBmt .test 0).OneShadow ∧ (withBmt .shadow 0).Canonical :=
  ⟨by decide, by decide, ⟨by decide, by decide⟩, shadow_bmt _ _, by decide, by decide⟩
/-- Tile 3 asleep, in a BIST slice with a tick held, or out of it. -/
def withBist (b : Option BistRec) : State := up.modTile 3 fun t => { t with mode := .sleep, bist := b, heldTick := true }
theorem wit_bist : (3 : Fin 21).val ≤ 16 ∧ (withBist none).bistMay 3 = true ∧ ((withBist none).tile (unitIx 3)).bist = none ∧
    ((withBist (some { mode := .sleep, pc := 0x40 })).tile (unitIx 3)).bist ≠ none ∧ up.Canonical ∧ (withBist none).Canonical ∧ 16 < (17 : Fin 21).val ∧
    (up.modTile 3 fun t => { t with mode := .run }).bistMay 3 = false :=
  ⟨by decide, by decide, by decide, by decide, ⟨by decide, by decide⟩, ⟨by decide, by decide⟩, by decide, by decide⟩
/-- The scrub stands at a codeword with wrong bits. -/
def withScrub (cw k : Nat) : State := { up with merr := [(cw, k)], fab := { up.fab with scrub := cw } }
theorem wit_scrub : up.Canonical ∧ up.dev.up = true ∧ up.fab.scrub < 0x20000 ∧ up.wrongBits up.fab.scrub = 0 ∧
    (withScrub 0x1FFFF 0).fab.scrub = 0x1FFFF ∧ (withScrub 9 3).Canonical ∧ 2 ≤ (withScrub 9 3).wrongBits (withScrub 9 3).fab.scrub ∧
    (withScrub 9 3).wrongBits (withScrub 9 3).fab.scrub ≤ 4 ∧ 5 ≤ (withScrub 9 6).wrongBits (withScrub 9 6).fab.scrub :=
  ⟨⟨by decide, by decide⟩, by decide, by decide, by decide, by decide, ⟨by decide, by decide⟩, by decide, by decide, by decide⟩

theorem wit_csr_write : up.Canonical ∧ up.dev.up = true ∧ plainAt (dwordOf 0x700028) = true ∧ regDef (dwordOf 0x700028) = some (rRw 0x3FF) ∧
    mayWrite (rRw 0x3FF) .host = true ∧ (rRw 0x3FF).acc ≠ .w1c ∧ (rW1c 0x7F).acc = .w1c ∧ (rW1c 0x7F).sc = false ∧ plainAt (dwordOf 0x700030) = true ∧
    regDef (dwordOf 0x700030) = some (rW1c 0x7F) ∧ mayWrite (rW1c 0x7F) .host = true ∧ regDef (dwordOf 0x700000) = some rRo ∧
    mayWrite rRo .host = false ∧ regDef (dwordOf 0x110000) = none ∧ dwordOf 0x030300 = 0x10000 * 3 + 0x300 :=
  ⟨⟨by decide, by decide⟩, by decide⟩
theorem wit_csr_read : regDef (dwordOf 0x700038) = some rRc ∧ isPairLow (dwordOf 0x700038) = false ∧ isPairLow (dwordOf 0x700038 - 4) = false ∧
    isPairLow (dwordOf 0x300814) = true ∧ regDef (dwordOf 0x300814) = some rRo ∧ regDef (dwordOf 0x300814 + 4) = some rRo := by decide
theorem wit_pair : let s := up.pairKeep 24 0x700018 0x5000
    s.Canonical ∧ s.dev.up = true ∧ dwordOf 0x70001C = 0x70001C ∧ s.pairWord (portOf .host) (dwordOf 0x70001C - 4) = some 0x5000 :=
  ⟨⟨by decide, by decide⟩, by decide⟩

/-- A tunnel, in a lifecycle. -/
def withHost (lc : Word) : State := upWith [(Csr.lcStat, lc), (Csr.linkStat, 3)]
theorem wit_bar0 : (withHost 1).Canonical ∧ (withHost 1).dev.up = true ∧ (withHost 1).tunnel = true ∧ 0x700028 < 0x1000000 ∧
    0x700028 % 4 = 0 ∧ (3 : BitVec 4) ≠ 0xF ∧ regDef 0x700028 ≠ none := ⟨⟨by decide, by decide⟩, by decide⟩
theorem wit_bar4 : let s := withHost 1
    s.Canonical ∧ s.OneShadow ∧ s.dev.up = true ∧ s.tunnel = true ∧ (s.lc = 1 ∨ s.lc = 3) ∧ fld (s.reg Csr.bar4Sel) 3 0 = 0 ∧ s.fab.rows = [] ∧ s.fab.marks = [] ∧
      0x40 % 64 + 4 * 2 ≤ 64 ∧ regionOf 0x40 = .bank ∧ s.hasUe 0x40 (4 * 2) = false :=
  ⟨⟨by decide, by decide⟩, oneShadow_reset rfl, by decide⟩
theorem wit_bar4_shut : let s := withHost 2
    s.Canonical ∧ s.dev.up = true ∧ s.tunnel = true ∧ s.lc ≠ 1 ∧ s.lc ≠ 3 := ⟨⟨by decide, by decide⟩, by decide⟩

/-- The link up, with a partner access of unit 3 outstanding. -/
def withLink (wr : Bool) : State :=
  ((upWith [(Csr.lkStat, 3)]).modTile 3 fun t => { t with far := [farOp (if wr then .fst else .fld) .sent 0x40000000 2 []] }).modLk fun l =>
    { l with reqs := [{ tag := 9, unit := some 3, seq := 1, wr := wr }] }
theorem wit_flit : let s := withLink false
    s.Canonical ∧ s.OneShadow ∧ s.dev.up = true ∧ s.lst = 3 ∧ flitOk (0x40000010 : BitVec 36).toNat 2 = true ∧
      regionOf (partnerAddr (0x40000010 : BitVec 36).toNat) = .bank ∧ oneBank (partnerAddr (0x40000010 : BitVec 36).toNat) 2 = true ∧
      s.hasUe (partnerAddr (0x40000010 : BitVec 36).toNat) 2 = false ∧ partnerAddr (0x40000010 : BitVec 36).toNat < 0x0D000000 ∧
      s.lk.reqs = [{ tag := (9 : Byte).toNat, unit := some 3, seq := 1, wr := false }] ∧
      s.farAt 3 0 = some (farOp .fld .sent 0x40000000 2 []) ∧ s.fab.rows = [] ∧ s.fab.marks = [] ∧
      (withLink true).farAt 3 0 = some (farOp .fst .sent 0x40000000 2 []) := ⟨⟨by decide, by decide⟩, oneShadow_reset rfl, by decide⟩

/-! ## Host -/

/-- A running plan, the tunnel up, ring 2 with one entry and event ring 0 running. -/
def hostAt (p : Plan) (rs : List (Nat × Word)) : State :=
  ([(Csr.lcStat, 1), (Csr.linkStat, 3), (Csr.ringCtl 2, 0x65), (Csr.ringPi 2, 1), (Csr.ringCtl 48, 0x3065)] ++ rs).foldl
    (fun (s : State) (x : Nat × Word) => s.setReg x.1 x.2) (runs p 63)
/-- A command of ring 2. -/
def cmd0 (op : Nat) (block : DWord) (len : Nat) (a0 a1 : Word) (d : Option (List Byte)) : HostCmd :=
  { ring := 2, index := 0, op := op, tag := 9, block := block, addr := 0x1000, len := len, arg0 := a0, arg1 := a1, arg2 := 0, aseq := 0, data := d }
/-- That command is read. -/
def hostCmd (p : Plan) (c : HostCmd) : State := (hostAt p []).modHost fun h => { h with cur := [c] }

theorem wit_doorbell : let s := hostAt plan0 []
    s.Canonical ∧ s.dev.up = true ∧ s.ringSt 2 = 1 ∧ ((3 : Word) - s.reg (Csr.ringCi 2)).toNat ≤ s.ringLen 2 ∧
      ((3 : Word) - s.reg (Csr.ringPi 2)).toNat ≤ s.ringLen 2 ∧ s.ringLen 2 < ((65 : Word) - s.reg (Csr.ringCi 2)).toNat ∧ s.ringSt 48 = 1 ∧
      ((0 : Word) - s.reg (Csr.ringCi 48)).toNat ≤ s.ringUsed 48 ∧ s.ringUsed 48 < ((1 : Word) - s.reg (Csr.ringCi 48)).toNat ∧ s.ringSt 3 ≠ 1 :=
  ⟨⟨by decide, by decide⟩, by decide⟩
theorem wit_ring_enable : up.Canonical ∧ up.dev.up = true ∧ up.ringSt 3 = 0 ∧ up.host.retDue = false ∧
    (up.setReg (Csr.ringCtl 3) (blend (up.reg (Csr.ringCtl 3)) (ctlMask 3) 0x64)).ringOk 3 = true ∧
    (up.setReg (Csr.ringCtl 3) (blend (up.reg (Csr.ringCtl 3)) (ctlMask 3) 0x14)).ringOk 3 = false := ⟨⟨by decide, by decide⟩, by decide⟩
theorem wit_ring_reset : (hostAt plan0 [(Csr.ringCtl 2, 0x63)]).Canonical ∧ (hostAt plan0 [(Csr.ringCtl 2, 0x63)]).ringSt 2 = 3 ∧
    (hostAt plan0 []).ringSt 2 ≠ 3 := ⟨⟨by decide, by decide⟩, by decide⟩
theorem wit_shadow : let s := hostAt plan0 [(Csr.poll, 10), (Csr.shadowEn0, 4)]
    s.Canonical ∧ s.dev.up = true ∧ s.hostGoes = true ∧ s.tunnel = true ∧ 0 < fld (s.reg Csr.poll) 9 0 ∧ s.inWin s.syncBase 4096 = true ∧
      s.reg Csr.shadowEn0 = BitVec.ofNat 32 (2 ^ (2 : Fin 32).val) ∧ s.reg Csr.shadowEn1 = 0 ∧ s.ringSt 2 = 1 ∧
      0 < (([0, 0, 5] : List Word).getD 2 0 - s.reg (Csr.ringPi 2)).toNat ∧ (([0, 0, 5] : List Word).getD 2 0 - s.reg (Csr.ringPi 2)).toNat ≤ s.ringLen 2 ∧
      (([0, 0, 5] : List Word).getD 2 0 - s.reg (Csr.ringCi 2)).toNat ≤ s.ringLen 2 := ⟨⟨by decide, by decide⟩, by decide⟩

def rec0 : HostRec := { typ := 1, status := 0, ring := 2, tag := 9, block := 0, aseq := 1, info := 0, index := 0 }
/-- A record waits for event ring 0; MSI-X is enabled with vector 3 unmasked. -/
def withRec (on : Bool) (rs : List (Nat × Word)) : State := (hostAt plan0 rs).modHost fun h =>
  { h with waiting := [(0, rec0)], msixEn := true, msix := [(15, 1)], modOn := vmod h.modOn 0 fun _ => on }
theorem wit_record : let s := withRec false []
    s.Canonical ∧ s.dev.up = true ∧ s.hostGoes = true ∧ s.tunnel = true ∧ s.host.waiting = [((0 : Fin 8).val, rec0)] ∧ s.ringSt (48 + 0) = 1 ∧
      s.ringUsed (48 + 0) < s.ringLen (48 + 0) ∧ s.host.modOn.getD 0 false = false ∧ s.host.msixEn = true ∧ s.host.msixMask = false ∧
      (s.msixWord (4 * fld (s.reg (Csr.ringCtl (48 + 0))) 17 12 + 3)).getLsbD 0 = false ∧
      (withRec false [(Csr.ringCtl 48, 0)]).Canonical ∧ (withRec false [(Csr.ringCtl 48, 0)]).ringSt (48 + 0) ≠ 1 :=
  ⟨⟨by decide, by decide⟩, by decide, by decide, by decide, by decide, by decide, by decide, by decide, by decide, by decide, by decide,
    ⟨by decide, by decide⟩, by decide⟩
theorem wit_moderation : let s := withRec true [(Csr.ringPi 48, 1)]
    s.dev.up = true ∧ s.host.modOn.getD (0 : Fin 8).val false = true ∧ s.ringUsed (48 + 0) ≠ 0 ∧ s.host.msixEn = true ∧ s.host.msixMask = false ∧
      (s.msixWord (4 * fld (s.reg (Csr.ringCtl (48 + 0))) 17 12 + 3)).getLsbD 0 = false ∧ (withRec true []).ringUsed (48 + 0) = 0 := by decide

/-- A NOP's and a bad descriptor's bytes. -/
def nopBytes : List Byte := [0, 0, 9, 0]
def badBytes : List Byte := [8, 0, 9, 0]

theorem wit_fetch : let s := hostAt plan0 []
    s.Canonical ∧ s.dev.up = true ∧ s.hostGoes = true ∧ s.tunnel = true ∧ s.nextRing = some 2 ∧
      s.cmdBad (HostCmd.ofBytes 2 (s.reg (Csr.ringCi 2)) (padTo 64 nopBytes)) (padTo 64 nopBytes) = none ∧
      s.cmdBad (HostCmd.ofBytes 2 (s.reg (Csr.ringCi 2)) (padTo 64 badBytes)) (padTo 64 badBytes) = some 0x10 :=
  ⟨⟨by decide, by decide⟩, by decide⟩
theorem wit_read : let c := cmd0 3 0 4 0 0 none
    let s := hostCmd plan0 c
    s.Canonical ∧ s.dev.up = true ∧ s.curOf 2 = some c ∧ c.op = 3 ∧ c.data = none := ⟨⟨by decide, by decide⟩, by decide⟩

/-- A plan with a parameter region, a job table of one double-buffered job and host endpoints, loaded as plan 8 too. -/
def jobB : List Byte := leBytes 4 (1 + 4 * 256 + 3 * 65536) ++ leBytes 4 (1 + 65536) ++ leBytes 4 1 ++ leBytes 4 0x1000 ++ leBytes 4 0x2000 ++ zeros 44
def planHost : Plan := { plan0 with
  sects := { typ := 0x0A, unit := 17, vmask := 7, twr := false, dst := 0, len := 64, body := .bytes jobB } ::
    { typ := 0x0B, unit := 22, vmask := 7, twr := false, dst := 0, len := 0, body := .params [{ id := 4, loc := { unit := 3, ofs := 0x100, len := 16 }, fast := none }] } ::
    plan0.sects
  eps := [{ ix := 5, d2h := false, tile := 3, area := 0x400, bpb := 128, ch := 1 }] }
def slot0 : Nat := ((Plan.ceJobs planHost .a 0)[0]?.map (·.slotBytes)).getD 0
def hostWith (c : HostCmd) (f : HostState → HostState) : State :=
  ((hostCmd planHost c).modSched fun x => { x with loaded := [({ planHost with planId := 8 }, .a)] }).modHost f
def bulk : List Byte := List.replicate 256 1

theorem wit_refused : let c := cmd0 1 0 64 0 0 none; let s := hostWith c fun h => { h with load := some c }
    s.Canonical ∧ s.curOf 2 = some c ∧ fld c.arg0 1 0 = 0 ∧ s.host.load ≠ none ∧ s.erFree (s.ringEr c.ring) :=
  ⟨⟨by decide, by decide⟩, by decide, by decide, by decide, by decide, by decide, by decide⟩
theorem wit_load : let c := fun (m : Word) => cmd0 1 earliest 64 m 0 none; let s := fun (m : Word) => hostWith (c m) id
    (∀ m, m < 3 → (s m).Canonical ∧ (s m).curOf 2 = some (c m)) ∧ (s 0).dev.up = true ∧ (s 0).host.load = none ∧
      (s 0).dev.sched.replace = none ∧ 0 < (s 0).lc ∧ (s 0).lc < 4 ∧ (s 0).plan ≠ none ∧ (s 1).held390 = false ∧ (s 1).host.changes = [] ∧
      pickBlock (c 1).block ((s 1).blk + 2) = some 3 ∧ (c 2).len ≤ 2097152 := by
  refine ⟨fun m h => ?_, by decide, by decide, by decide, by decide, by decide, by decide, by decide, by decide, by decide, by decide⟩
  have : m = 0 ∨ m = 1 ∨ m = 2 := by bv_omega
  rcases this with rfl | rfl | rfl <;> exact ⟨⟨by decide, by decide⟩, by decide⟩
theorem wit_verify : let g : PlanImage := { goodImage with sigSlot := none }
    let c := cmd0 1 0 64 0 0 none
    let s := hostWith c fun h => { h with load := some c }
    s.Canonical ∧ s.host.load = some c ∧ fld c.arg0 1 0 = 0 ∧ fld c.arg0 1 0 ≠ 2 ∧ s.merr = [] ∧ s.loadPuts = false ∧ c.ring < 16 ∧
      s.verifyPlan (g.ofLen c.len) = some 4 ∧ s.plan = some planHost ∧ s.erFree (s.ringEr c.ring) :=
  ⟨⟨by decide, by decide⟩, by decide, by decide, by decide, by decide, by decide, by decide, by decide, by decide, by decide, by decide, by decide⟩
theorem wit_switch : let c := cmd0 2 earliest 0 8 0 none; let s := hostWith c id
    s.Canonical ∧ s.dev.up = true ∧ s.curOf 2 = some c ∧ c.op = 2 ∧ s.dev.sched.replace = none ∧ s.host.changes = [] ∧ s.held390 = false ∧
      s.plan ≠ none ∧ s.dev.sched.loaded.find? (fun x => decide (x.1.planId = c.arg0)) = some ({ planHost with planId := 8 }, .a) ∧
      ({ planHost with planId := 8 } : Plan).block = s.bsize ∧ pickBlock c.block (s.blk + 2) = some 3 := ⟨⟨by decide, by decide⟩, by decide⟩
theorem wit_param : let c := cmd0 3 earliest 4 4 0 (some [1, 2, 3, 4]); let s := hostWith c id
    s.Canonical ∧ s.curOf 2 = some c ∧ s.plan = some planHost ∧ pickBlock c.block s.firstWin = some 2 ∧
      (Plan.params planHost s.dev.sched.variant).find? (fun x => decide (x.id = fld c.arg0 15 0)) =
        some { id := 4, loc := { unit := 3, ofs := 0x100, len := 16 }, fast := none } ∧ c.arg1.toNat + c.len ≤ 16 ∧
      pickBlock 1 s.firstWin = none := ⟨⟨by decide, by decide⟩, by decide⟩
theorem wit_filter : let c := cmd0 4 earliest 128 0 0 (some (List.replicate 128 1)); let s := hostWith c id
    s.Canonical ∧ s.OneShadow ∧ s.curOf 2 = some c ∧ pickBlock c.block s.firstWin = some 2 ∧ fld c.arg0 1 0 = (0 : Fin 4).val ∧
      (∃ j, (Plan.ceJobs planHost s.dev.sched.variant 0)[fld c.arg0 15 8]? = some j ∧ j.valid = true ∧ j.single = false ∧ j.slotBytes = c.len ∧
        j.slotB + c.len ≤ 0x600000) ∧ (s.eng 0).pend = [] ∧ (s.eng 0).setB.contains (fld c.arg0 15 8) = false :=
  ⟨⟨by decide, by decide⟩, oneShadow_reset rfl, by decide, by decide, by decide, ⟨_, rfl, by decide, by decide, by decide, by decide⟩, by decide, by decide⟩
theorem wit_open : let c := cmd0 5 earliest 0 5 20 none; let s := hostWith c id
    s.Canonical ∧ s.curOf 2 = some c ∧ s.host.streams = [] ∧ planHost.eps.find? (fun x => decide (x.ix = fld c.arg0 4 0)) =
      some { ix := 5, d2h := false, tile := 3, area := 0x400, bpb := 128, ch := 1 } ∧ false = decide (32 ≤ c.arg1.toNat) :=
  ⟨⟨by decide, by decide⟩, by decide⟩
/-- An open stream of endpoint 5. -/
def stream0 (d2h : Bool) (staged : List (Nat × List Byte)) (ds : List StreamDesc) : HStream :=
  { ep := { ix := 5, d2h := d2h, tile := 3, area := 0x400, bpb := 128, ch := 1 }, ring := 20, start := 1, stop := none, quiet := false
    descs := ds, staged := staged, next := 1, assign := 1, inRun := false }
def desc0 : StreamDesc := { index := 0, tag := 4, addr := 0x4000, blocks := 4, first := some 1, done := 0, missed := 0 }
theorem wit_close : let c := cmd0 6 earliest 0 5 0 none; let s := hostWith c fun h => { h with streams := [stream0 false [] []] }
    s.Canonical ∧ s.curOf 2 = some c ∧ s.host.streams = [stream0 false [] []] ∧ (stream0 false [] []).ep.ix = fld c.arg0 4 0 ∧
      pickBlock c.block s.firstWin = some 2 := ⟨⟨by decide, by decide⟩, by decide⟩
def change0 : Change :=
  { cmd := cmd0 3 1 4 4 0 none, block := 1, kind := .param { id := 4, loc := { unit := 3, ofs := 0x100, len := 16 }, fast := none } 0 [1], old := false }
theorem wit_effect : let s := hostWith change0.cmd fun h => { h with cur := [], changes := [change0] }
    s.Canonical ∧ s.dev.up = true ∧ s.host.changes = [change0] ∧ change0.block ≤ s.blk ∧ change0.cmd.ring < 16 ∧ s.host.streams = [] ∧
      s.erFree (s.ringEr change0.cmd.ring) := ⟨⟨by decide, by decide⟩, by decide, by decide, by decide, by decide, by decide, by decide, by decide, by decide⟩
theorem wit_diag : let c := fun (m : Word) => cmd0 7 0 64 m 0 none; let s := fun (m : Word) => hostWith (c m) id
    (s 1).Canonical ∧ (s 2).Canonical ∧ (s 1).curOf 2 = some (c 1) ∧ (s 2).curOf 2 = some (c 2) ∧ (s 1).host.diag = none ∧
      (s 1).merr = [] ∧ (s 1).tunnel = true ∧ (s 2).merr = [] ∧ (s 2).tunnel = true ∧ (s 1).erFree ((s 1).ringEr 2) ∧ (s 2).erFree ((s 2).ringEr 2) :=
  ⟨⟨by decide, by decide⟩, ⟨by decide, by decide⟩, by decide, by decide, by decide, by decide, by decide, by decide, by decide, ⟨by decide, by decide, by decide⟩, by decide, by decide,
    by decide⟩
theorem wit_path : let c := cmd0 7 0 64 3 0 none; let s := (hostWith c id).setBytes (roleAddr 0xFE) [0x90, 0, 1, 0]
    s.Canonical ∧ s.curOf 2 = some c ∧ s.host.diag = none ∧ s.pathOk = true ∧ (hostWith c fun h => { h with diag := some c }).host.diag ≠ none :=
  ⟨⟨by decide, by decide⟩, by decide⟩
theorem wit_streams : let s := fun (d : Bool) => hostWith (cmd0 0 0 0 0 0 none) fun h => { h with streams := [stream0 d [(1, [9])] [desc0]] }
    (s false).dev.up = true ∧ (s false).tunnel = true ∧ (s true).dev.up = true ∧ (s true).tunnel = true ∧
      (s false).hostGoes = true ∧ (s true).hostGoes = true ∧ (stream0 true [(1, [9])] [desc0]).inRun = false ∧
      max (stream0 false [(1, [9])] [desc0]).next (max (stream0 false [(1, [9])] [desc0]).start ((s false).lastWin + 1)) = 2 ∧ 2 ≤ (s false).blk + 8 ∧
      (stream0 false [(1, [9])] [desc0]).serves 2 = true ∧
      [desc0].find? (fun d => decide (d.first.getD 0 ≤ 2) && decide (2 < d.first.getD 0 + d.blocks)) = some desc0 ∧
      desc0.first.getD 1 + desc0.done = 1 ∧ desc0.done + 1 < desc0.blocks := by decide
theorem wit_links : let s := hostAt plan0 []
    s.Canonical ∧ s.dev.up = true ∧ s.tunnel = true ∧ fld (s.reg Csr.linkStat) 0 0 = 1 ∧
      fld (({ up with sample := 5760 } : State).reg Csr.linkStat) 1 1 = 0 ∧ ({ up with sample := 5760 } : State).phase ≠ 9 ∧ 5760 ≤ ({ up with sample := 5760 } : State).sample.toNat ∧ fld (up.reg Csr.linkStat) 0 0 = 0 ∧ fld (up.reg Csr.linkStat) 1 1 = 0 ∧ s.host.pba = 0 ∧ swf 0 s.host.msix = true ∧
      (5 : Fin 256).val % 4 = 1 := ⟨⟨by decide, by decide⟩, by decide⟩
theorem wit_config : (∃ dw, dw ≠ Config.msixCap ∧ dw ≠ Config.pmCsr) ∧ fld (3 : Word) 1 0 = 3 :=
  ⟨⟨Config.msixCap + Config.pmCsr + 1, by omega, by omega⟩, by decide⟩
/-- A descriptor of one block of 128 bytes at 0x4000. -/
def descBytes : List Byte := zeros 8 ++ leBytes 8 0x4000 ++ leBytes 4 128
theorem wit_desc : let s := (hostAt plan0 [(Csr.ringCtl 20, 0x65), (Csr.ringPi 20, 1)]).modHost fun h => { h with streams := [stream0 true [] []] }
    s.dev.up = true ∧ s.hostGoes = true ∧ s.tunnel = true ∧ s.ringSt 20 = 1 ∧ (stream0 true [] []).descs.length < s.ringUsed 20 ∧
      ((padTo 64 descBytes).drop 0x14).all (· = 0) = true ∧ leNat (((padTo 64 descBytes).drop 0x10).take 4) = 128 ∧
      leNat (((padTo 64 descBytes).drop 8).take 8) = 0x4000 ∧ s.inWin 0x4000 128 = true := by decide
/-- The device attached on USB 2.0, and before. -/
def withUsb2 (on : Bool) : State := { upWith [(Csr.lcStat, 1), (Csr.linkStat, if on then 0x100 else 0)] with sample := 96000 }
theorem wit_usb2 : (withUsb2 false).Canonical ∧ (withUsb2 false).dev.up = true ∧ (withUsb2 false).lc = 1 ∧ (withUsb2 false).host.trained = false ∧
    96000 ≤ (withUsb2 false).sample.toNat ∧ (withUsb2 true).dev.up = true ∧ (withUsb2 true).usb2On = true ∧ (1 : Byte).toNat ≤ 3 ∧
    (withUsb2 true).merr = [] ∧ (withUsb2 true).imageRefused (1 : Byte).toNat (imageOf .bad []) 0 = some 4 ∧ (withUsb2 false).usb2On = false := ⟨⟨by decide, by decide⟩, by decide⟩
theorem wit_verify_good : let c := fun (m : Word) => cmd0 1 0 176 m 0 none
    let s := fun (m : Word) => (hostWith (c m) fun h => { h with load := some (c m) }).setReg Csr.keyStat 2
    (s 0).host.load = some (c 0) ∧ (s 0).plan = some planHost ∧ (s 0).verifyPlan (goodImage.ofLen (c 0).len) = none ∧
      (goodImage.ofLen (c 0).len).plan.sects.all (freeFor planHost) = true ∧ fld (c 2).arg0 1 0 = 2 ∧ (s 2).fab.puts = [] ∧
      (s 2).verifyStored (goodImage.ofLen (c 2).len) = none := by decide
theorem wit_usb2_write : let s := (withUsb2 true).setReg Csr.keyStat 2
    s.usb2On = true ∧ s.merr = [] ∧ s.fab.puts = [] ∧
      s.imageRefused 1 (.plan { goodImage with bytes := goodImage.bytes }) goodImage.bytes.length = none := by decide

/-! ## Security -/

/-- A lifecycle transition to 4 under way. -/
def withTok (wipe : Word) (f : Option Nat) (n : Nat) : State :=
  { (((upWith [(Csr.mramWipe, wipe), (Csr.lcStat, 1)]).modSec fun x => { x with tokTarget := some 4 }).modSafety fun x => { x with fallAll := f }) with
    sample := BitVec.ofNat 64 n }
theorem wit_token : up.Canonical ∧ up.dev.up = true ∧ up.tokenOk true = false ∧ up.dev.sec.tokTarget = none := ⟨⟨by decide, by decide⟩, by decide⟩
/-- A BLANK to SCRAP token, for serial number and nonce of zeros. -/
def scrapToken : State := up.modSec fun x => { x with token := (x.token.set 0 0x4C43544B).set 1 4 }
theorem wit_token_good : scrapToken.Canonical ∧ (scrapToken.setReg Csr.bootStat 3).fwRuns = true ∧ scrapToken.merr = [] ∧
    (scrapToken.setReg Csr.bootStat 3).tokenOk false = true := ⟨⟨by decide, by decide⟩, by decide⟩
theorem wit_transition : (withTok 0 none 9).dev.up = true ∧ (withTok 0 none 9).dev.sec.tokTarget = some 4 ∧
    fld ((withTok 0 none 9).reg Csr.mramWipe) 3 3 = 0 ∧ (withTok 0 none 9).dev.safety.fallAll = none := by decide
theorem wit_token_wipe : (withTok 0 (some 9) 249).Canonical ∧ (withTok 0 (some 9) 249).OneShadow ∧ (withTok 0 (some 9) 249).dev.up = true ∧
    (withTok 0 (some 9) 249).dev.sec.tokTarget = some 4 ∧ fld ((withTok 0 (some 9) 249).reg Csr.mramWipe) 3 3 = 0 ∧
    (withTok 0 (some 9) 249).dev.safety.fallAll = some 9 ∧ 9 + 240 ≤ (withTok 0 (some 9) 249).sample.toNat :=
  ⟨⟨by decide, by decide⟩, oneShadow_reset rfl, by decide⟩
theorem wit_fuse : (withTok 8 (some 9) 249).Canonical ∧ (withTok 8 (some 9) 249).dev.up = true ∧
    (withTok 8 (some 9) 249).dev.sec.tokTarget = some 4 ∧ fld ((withTok 8 (some 9) 249).reg Csr.mramWipe) 3 3 = 1 :=
  ⟨⟨by decide, by decide⟩, by decide⟩

/-- Provisioning open with two words buffered. -/
def withProv (lc keys : Word) : State := (upWith [(Csr.lcStat, lc), (Csr.keyStat, keys)]).modSec fun x => { x with slotBuf := [1, 2] }
theorem wit_prov : (withProv 0 1).Canonical ∧ (withProv 0 1).OneShadow ∧ (withProv 0 1).dev.up = true ∧ (withProv 0 1).provOpen = true ∧
    (withProv 0 1).dev.sec.slotBuf.length < 256 ∧ fld (0x22 : Word) 3 0 ≤ 6 ∧ fld ((withProv 0 1).reg Csr.keyStat) 2 2 = 0 ∧
    1 ≤ fld (0x22 : Word) 10 4 ∧ fld (0x22 : Word) 10 4 ≤ (withProv 0 1).dev.sec.slotBuf.length ∧ fld ((withProv 0 1).reg Csr.keyStat) 0 0 = 1 ∧
    (withProv 0 1).lc = 0 ∧ fld (up.reg Csr.keyStat) 0 0 = 0 ∧ (withProv 0x10 0).provOpen = false :=
  ⟨⟨by decide, by decide⟩, oneShadow_reset rfl, by decide⟩

theorem wit_debug : let s := upWith [(Csr.lcStat, 2), (Csr.keyStat, 0x40)]
    s.Canonical ∧ s.dev.up = true ∧ fld (s.reg Csr.dbgStat) 3 2 < 3 ∧ (1 : Fin 4).val ≤ dbgMax s.lc ∧ s.keyOk 6 = true ∧
      dbgMax s.lc < (2 : Fin 4).val := ⟨⟨by decide, by decide⟩, by decide⟩
/-- Unit 3 runs at address 0x40 with a breakpoint there. -/
def withDbg (ctl : Word) (h : Bool) : State := up.modTile 3 fun t =>
  { t with mode := .run, pc := 0x40, dbgCtl := ctl, halted := h, bkpt := t.bkpt.set 0 0x41 }
theorem wit_halt : let t := (withDbg 1 false).tile 3
    fld t.dbgCtl 0 0 = 1 ∧ t.halted = false ∧ t.mode = .run ∧ t.bist = none ∧ t.atAcceptance = true ∧ t.pend = [] ∧ t.frond = [] ∧ t.waiting = false ∧
      (0x41 : Word) ∈ t.bkpt.toList ∧ fld (0x41 : Word) 0 0 = 1 ∧ fld (0x41 : Word) 20 3 * 8 = t.pc.toNat := by decide
theorem wit_dbg_step : (withDbg 1 true).dbgFull = true ∧ ((withDbg 1 true).tile 3).halted = true := by decide

/-- An MRAM command that runs. -/
def withMram (op o n src : Nat) : State := { up with fab := { up.fab with mram := some (op, o, n, src) } }
theorem wit_mram : up.Canonical ∧ up.fab.mram = none ∧ (withMram 2 0x100 64 0).fab.puts = [] ∧ (withMram 1 0x100 64 0x40).NoRows ∧ Requester.host ≠ .tile 16 ∧ (withMram 2 0x100 64 0).Canonical ∧ (withMram 2 0x100 64 0).OneShadow ∧
    (withMram 2 0x100 64 0).fab.mram = some (2, 0x100, 64, 0) ∧ 0x100 + 64 ≤ mramSize ∧ regionOf 0x40 = .bank ∧ regionOf (0x40 + 64 - 1) = .bank ∧
    (locate 0x40).map (·.1) = (locate (0x40 + 64 - 1)).map (·.1) ∧ (withMram 1 0x100 64 0x40).hasUe 0x40 64 = false ∧ mramSize < 0x400000 + 64 :=
  ⟨⟨by decide, by decide⟩, by decide, by decide, ⟨by decide, by decide⟩, by decide, ⟨by decide, by decide⟩, oneShadow_reset rfl, by decide⟩

theorem wit_effects : let s := (upWith [(Csr.lcStat, 1)]).modTile 3 fun t => { t with mode := .run, spqTail := 5, spqHead := 2 }
    up.lc ≠ 1 ∧ s.lc = 1 ∧ fld (0x46 : Word) 6 6 = 1 ∧ injCode (fld (0x46 : Word) 5 0) = some 0x0140 ∧ s.Canonical ∧ (s.tile 3).state ≠ .dark ∧ s.fab.spill = [] ∧
      spqWriter 3 .host = true ∧ ((4 : Word) - (s.tile 3).spqHead).toNat ≤ ((s.tile 3).spqTail - (s.tile 3).spqHead).toNat ∧
      ((s.tile 3).spqTail - (s.tile 3).spqHead).toNat < ((6 : Word) - (s.tile 3).spqHead).toNat ∧ s.patchLocked 3 = false ∧
      (s.tile 3).upatchIdx.toNat < 128 ∧ 64 ≤ (64 : BitVec 8).toNat ∧ (206 : BitVec 8).toNat ≤ 206 :=
  ⟨by decide, by decide, by decide, by decide, ⟨by decide, by decide⟩, by decide⟩
theorem wit_kick : ((up.modSched fun x => { x with stage := .drain }).dev.sched.stage ≠ .none) := by decide
theorem wit_serial : Requester.host ≠ .tile (up.serialOwner (2 : Fin 56).val) ∧ (2 : Fin 56).val < 8 ∧ 8 ≤ (9 : Fin 56).val := by decide
/-- An image of `n` bytes that is being written, `k` of them so far. -/
def withPut (n k : Nat) : State :=
  { up with fab := { up.fab with puts := [{ img := .plan goodImage, bs := List.replicate n 1, next := k, ans := .usb n }] } }
theorem wit_put : (withPut 4161 64).Canonical ∧ (withPut 4161 64).fab.mram = none ∧ fld ((withPut 4161 64).reg Csr.mramWipe) 3 3 = 0 ∧
    64 + 4096 < (List.replicate 4161 (1 : Byte)).length ∧ (withPut 176 64).Canonical ∧ 64 ≤ (List.replicate 176 (1 : Byte)).length ∧
    (List.replicate 176 (1 : Byte)).length ≤ 64 + 4096 :=
  ⟨⟨by decide, by decide⟩, by decide, by decide, by rw [List.length_replicate]; omega, ⟨by decide, by decide⟩, by rw [List.length_replicate]; omega,
    by rw [List.length_replicate]; omega⟩

/-! ## Diagnostics -/

/-- A request of a CAN client in progress. -/
def busy0 (sid sub : Byte) (par : BitVec 16) : UdsBusy := { client := .can 0x700, sid := sid, sub := sub, par := par, func := false, since := 0 }
/-- The server with it. -/
def udsAt (sid sub : Byte) (par : BitVec 16) (f : NetState → NetState) : State := up.modNet fun n => f { n with busy := some (busy0 sid sub par) }
/-- Unlocked lifecycle and key slots. -/
def unlocked (s : State) : State := (s.setReg Csr.lcStat 2).setReg Csr.keyStat 0x7F

theorem wit_serves : (udsAt 0x10 3 0 id).serves 0x10 (some 3) (busy0 0x10 3 0) ∧ (udsAt 0x10 1 0 id).serves 0x10 (some 1) (busy0 0x10 1 0) ∧
    (udsAt 0x14 0 0 id).serves 0x14 none (busy0 0x14 0 0) ∧ (udsAt 0x11 1 0 id).serves 0x11 (some 1) (busy0 0x11 1 0) ∧
    (udsAt 0x11 3 0 id).serves 0x11 (some 3) (busy0 0x11 3 0) ∧ (udsAt 0x3E 0 0 id).serves 0x3E (some 0) (busy0 0x3E 0 0) ∧
    (udsAt 0x19 0xA 0 id).serves 0x19 (some 0xA) (busy0 0x19 0xA 0) ∧ (udsAt 0x29 8 0 id).serves 0x29 (some 8) (busy0 0x29 8 0) :=
  ⟨⟨by decide, by decide, by decide, by decide, by decide⟩, ⟨by decide, by decide, by decide, by decide, by decide⟩, ⟨by decide, by decide, by decide, by decide, by decide⟩,
    ⟨by decide, by decide, by decide, by decide, by decide⟩, ⟨by decide, by decide, by decide, by decide, by decide⟩, ⟨by decide, by decide, by decide, by decide, by decide⟩,
    ⟨by decide, by decide, by decide, by decide, by decide⟩, ⟨by decide, by decide, by decide, by decide, by decide⟩⟩
theorem wit_request : up.dev.up = true ∧ (upWith [(Csr.can 0 0x10, 0)]).asks (.can 0x7E0) false ∧
    (upWith [(Csr.can 0 0x10, 0)]).asks (.can 0x7DF) true ∧ ¬up.asks (.doip 0 5) false ∧ up.net.busy = none ∧
    up.udsRefused (.can 0x7E0) (0x3E : Byte).toNat (if hasSub (0x3E : Byte).toNat then (0 : Byte).toNat % 128 else 0) 0 = none ∧
    up.udsRefused (.can 0x7E0) (0x99 : Byte).toNat (if hasSub (0x99 : Byte).toNat then (0 : Byte).toNat % 128 else 0) 0 = some 0x11 ∧
    (udsAt 0x3E 0 0 id).net.busy ≠ none ∧ (busy0 0x3E 0 0).since + 2400 ≤ ({ up with sample := 2400 } : State).sample.toNat :=
  ⟨by decide, (by decide : (upWith [(Csr.can 0 0x10, 0)]).canAsks 0x7E0 false = true),
    (by decide : (upWith [(Csr.can 0 0x10, 0)]).canAsks 0x7DF true = true), (fun ⟨m, h⟩ => nomatch (show (none : Option (Nat × BitVec 16)) = some (m, 5) from h)), by decide⟩
theorem wit_session : let s := udsAt 0x10 2 0 fun n => { n with session := 3, moving := false }
    s.serves 0x10 (some 2) (busy0 0x10 2 0) ∧ s.net.session = 3 ∧ s.net.moving = false ∧ (∀ x, s.net.path = some x → x.run = false) ∧
      (udsAt 0x10 2 0 fun n => { n with session := 3 }).net.moving = true ∧ up.net.session = 1 :=
  ⟨⟨by decide, by decide, by decide, by decide, by decide⟩, by decide, by decide, (fun x h => nomatch (show (none : Option PathTest) = some x from h)),
    by decide, by decide⟩
theorem wit_s3 : let s : State := { (up.modNet fun n => { n with session := 3 }) with sample := 240000 }
    s.dev.up = true ∧ s.net.session ≠ 1 ∧ s.net.busy = none ∧ s.net.lastReq + 240000 ≤ s.sample.toNat := by decide
def dtc0 : DtcRec := { dtc := 0x9A2000, status := 0x2F, snapBlock := 0, snapTj := 0, snapMv := 0, snapState := 0, occ := 1, unit := 3, cycles := 0, failed := true }
theorem wit_dtc : let s := fun sub => (udsAt 0x19 sub 0 id).modSafety fun f => { f with dtcs := [dtc0] }
    (s 4).serves 0x19 (some 4) (busy0 0x19 4 0) ∧ (s 6).serves 0x19 (some 6) (busy0 0x19 6 0) ∧
      (s 4).dtcList.find? (fun x => decide (x.dtc = dtc0.dtc)) = some dtc0 ∧ (∀ d ∈ (s 4).dtcList, d.dtc ≠ 0x9A2100) ∧ up.dtcList = [] :=
  ⟨⟨by decide, by decide, by decide, by decide, by decide⟩, ⟨by decide, by decide, by decide, by decide, by decide⟩, by decide, by decide, by decide⟩
theorem wit_did : (udsAt 0x22 0 0 id).serves 0x22 none (busy0 0x22 0 0) ∧ up.did 0xFD01 ≠ none ∧ up.did 0x1234 = none ∧
    (0x1234 : BitVec 16) ∉ [(0xF190 : BitVec 16), 0xFD50, 0xFD51] := ⟨⟨by decide, by decide, by decide, by decide, by decide⟩, by decide⟩
/-- A calibration image with wrong keys counted. -/
def cal0 (k : Nat) : CalImage :=
  { ok := true, sigSlot := some 2, seq := 0, sigMap := [], supSlot := 0, stby := 0, aonClk := 0, pmic := 0, age := 0, pair := 0, can := [], eth := [], udsPhys := 0, udsFunc := 0, vidReg := 0
    attempts := (k, 0), vin := [], variant := [], trims := [], logAddr := 0, refSet := 0, refs := [] }
def withCal (k : Nat) (s : State) : State := (unlocked s).modImages fun m => { m with calA := some (cal0 k) }
theorem wit_cal : (withCal 2 (udsAt 0x2E 0 0 id)).serves 0x2E none (busy0 0x2E 0 0) ∧ (withCal 2 up).calPick ≠ none ∧
    2 ≤ attemptsOf (withCal 2 up).calNow false ∧ (zeros 17).length = 17 ∧ (withCal 2 (udsAt 0x2E 0 0 id)).fab.puts = [] := ⟨⟨by decide, by decide, by decide, by decide, by decide⟩, by decide⟩
theorem wit_access : (udsAt 0x27 1 0 id).serves 0x27 (some 1) (busy0 0x27 1 0) ∧ ({ udsAt 0x27 1 0 id with sample := 480000 } : State).keyDelay = false ∧
    (udsAt 0x27 0x11 0 fun n => { n with delay := 9 }).keyDelay = true ∧
    (udsAt 0x27 0x11 0 fun n => { n with delay := 9 }).serves 0x27 (some 0x11) (busy0 0x27 0x11 0) ∧
    (unlocked (udsAt 0x27 2 0 fun n => { n with seed := some 1 })).serves 0x27 (some 2) (busy0 0x27 2 0) ∧
    (unlocked up).merr = [] ∧ (unlocked up).levelsOpen = true ∧ (unlocked up).keyOk 3 = true ∧ (unlocked up).keyOk 5 = true ∧ attemptsOf up.calNow false = 0 ∧
    (unlocked (udsAt 0x29 3 0 fun n => { n with cert := some 0x11 })).net.cert = some 0x11 :=
  ⟨⟨by decide, by decide, by decide, by decide, by decide⟩, by decide, by decide, ⟨by decide, by decide, by decide, by decide, by decide⟩,
    ⟨by decide, by decide, by decide, by decide, by decide⟩, by decide⟩
/-- A path test that runs on outputs 1 and 2. -/
def path0 : PathTest := { left := [1, 2], done := [], blk0 := 1, blk1 := 1, planId := 7, status := 0, run := true, host := false, stop := none }
def withPath (mv : Bool) : State := (runs plan0 63).modNet fun n => { n with path := some path0, moving := mv }
theorem wit_routine : (udsAt 0x31 1 0xFE10 id).serves 0x31 (some 1) (busy0 0x31 1 0xFE10) ∧
    ((({ udsAt 0x31 1 0xFE10 id with sample := 0 } : State).modSched fun x => { x with plan := some plan0 }).setBytes (roleAddr 0xFE) [0x90, 0, 1, 0]).pathOk = true ∧
    (busy0 0x31 1 0xFE10).par = 0xFE10 ∧ (busy0 0x31 2 0xFE20).par ≠ 0xFE10 ∧
    (udsAt 0x31 3 0xFE20 fun n => { n with rtn := [(0xFE20, [5])] }).net.rtn.find? (fun x => decide (x.1 = (busy0 0x31 3 0xFE20).par.toNat)) =
      some (0xFE20, [5]) := ⟨⟨by decide, by decide, by decide, by decide, by decide⟩, by decide⟩
theorem wit_path_step : (withPath false).dev.up = true ∧ (withPath false).net.path = some path0 ∧ path0.blk0 ≤ (withPath false).blk ∧
    (withPath false).pathCause path0 = none ∧ path0.left = 1 :: 2 :: [] ∧ (withPath false).refOf 1 = none ∧ (withPath true).pathCause path0 = some 1 := by decide
def dl0 : Download := { target := 1, len := 176, got := goodImage.bytes, ctr := 2 }
/-- The same with 8 bytes staged. -/
def dl8 : Download := { dl0 with got := zeros 8 }
theorem wit_download : (udsAt 0x34 0 0 id).serves 0x34 none (busy0 0x34 0 0) ∧ (1 : Word).toNat ≤ 3 ∧ (64 : Word).toNat ≤ targetSize (1 : Word).toNat ∧
    (udsAt 0x36 0 0 fun n => { n with dl := some dl8 }).net.dl = some dl8 ∧ dl8.got ≠ [] ∧ dl8.got.length + (zeros 16).length ≤ dl8.len ∧
    (1 : Byte) + 1 = dl8.ctr ∧ (7 : Byte) ≠ dl8.ctr ∧ (7 : Byte) + 1 ≠ dl8.ctr ∧ dl0.got.length = dl0.len ∧
    up.imageRefused dl0.target (imageOf .bad dl0.got) dl0.len = some 4 ∧
    ((udsAt 0x37 0 0 fun n => { n with dl := some dl0 }).setReg Csr.lcStat 1 |>.setReg Csr.keyStat 2).imageRefused dl0.target
      (.plan { goodImage with bytes := dl0.got }) dl0.len = none :=
  ⟨⟨by decide, by decide, by decide, by decide, by decide⟩, by decide⟩
/-- The last burst of an image of that request. -/
theorem wit_download_end : let b := busy0 0x37 0 0
    let s : State := { udsAt 0x37 0 0 id with fab := { up.fab with puts := [{ img := .plan goodImage, bs := goodImage.bytes, next := 64, ans := .uds b [] }] } }
    s.dev.up = true ∧ s.net.busy = some b ∧ s.fab.mram = none ∧ fld (s.reg Csr.mramWipe) 3 3 = 0 ∧ goodImage.bytes.length ≤ 64 + 4096 := by decide
theorem wit_doip : fld ((upWith [(ethReg 2 0, 0x101)]).reg (ethReg 2 0)) 8 8 = 1 ∧ fld ((upWith [(ethReg 2 0, 0x101)]).reg (ethReg 2 0)) 0 0 = 1 ∧ fld (up.reg (ethReg 2 0)) 0 0 = 0 ∧ up.net.conns[(1 : Fin 2)] = none ∧
    (up.modNet fun n => { n with owner := some (.doip 1 5), session := 3 }).net.owner = some (.doip 1 5) := by decide

/-! ## Networks -/

/-- Port 2 enabled in a role, with more registers and networks. -/
def ethAt (ctl : Word) (rs : List (Nat × Word)) (f : NetState → NetState) : State := (upWith ((ethReg 2 0, ctl) :: rs)).modNet f
def frameEth (ok : Bool) (k : EthKind) : EthFrame := { fcsOk := ok, len := 100, tagged := false, kind := k, full := false }
def tx0 : TxFrame := { port := 2, q := 7, vid := 0, cls := 2, len := 68, what := .ptp 2 0 }
def gates0 (g : Byte) : EthSet := { port := 2, cbsA := 0, cbsB := 0, gates := [(g, 1000)], cycle := 1000, base := 0, change := 5000 }
def withGate (now next : Option EthSet) : State := ethAt 1 [] fun n => { n with tx := [tx0], gates := vmod n.gates 2 fun _ => { now := now, next := next } }
theorem wit_eth : (ethAt 1 [] id).Canonical ∧ fld ((ethAt 1 [] id).reg (ethReg 2 0)) 0 0 = 1 ∧ fld (up.reg (ethReg 2 0)) 0 0 = 0 ∧
    (frameEth false .arp).fcsOk = false ∧ (frameEth true .arp).len ≤ 1522 ∧ (frameEth true .arp).kind = .arp := ⟨⟨by decide, by decide⟩, by decide⟩
theorem wit_eth_tx : let s := withGate none none
    s.Canonical ∧ s.net.tx = [tx0] ∧ tx0.port = 2 ∧ (s.net.gates.getD 2 { now := none, next := none }).now = none ∧
      gateOpen (some (gates0 0)) 6000 7 = none ∧ ((withGate (some (gates0 0)) none).net.gates.getD 2 { now := none, next := none }).now = some (gates0 0) :=
  ⟨⟨by decide, by decide⟩, by decide⟩
theorem wit_gates : let s := withGate none (some (gates0 0x80))
    s.Canonical ∧ (s.net.gates.getD 2 { now := none, next := none }).next = some (gates0 0x80) ∧ (gates0 0x80).change.toNat ≤ (6000 : DWord).toNat ∧
      ((6000 : DWord) - (gates0 0x80).base).toNat % (gates0 0x80).cycle = 0 ∧ (4999 : DWord).toNat < (gates0 0x80).change.toNat :=
  ⟨⟨by decide, by decide⟩, by decide⟩
/-- A follower. -/
def withPtp (seen : Bool) (good : Nat) (st : Word) : State :=
  ethAt 0x11 [(ethReg 2 0x18, st)] fun n => { n with ptp := vmod n.ptp 2 fun p => { p with seen := seen, good := good } }
theorem wit_ptp : let s := withPtp false 2 0x201
    s.Canonical ∧ s.ptpRole 2 = 2 ∧ (5 : Int).natAbs < 1000 ∧ 1000 ≤ (-1000 : Int).natAbs ∧
      2 ≤ (s.net.ptp.getD 2 { lost := 0, seen := false, good := 0 }).good ∧ (s.net.ptp.getD 2 { lost := 0, seen := false, good := 0 }).seen = false ∧
      fld (s.reg (ethReg 2 0x18)) 0 0 = 1 ∧ fld (s.reg (ethReg 2 0x18)) 15 8 = 2 ∧ up.ptpRole 2 ≠ 2 ∧ (ethAt 9 [] id).ptpRole 2 = 1 ∧
      ((withPtp true 0 0).net.ptp.getD 2 { lost := 0, seen := false, good := 0 }).seen = true := ⟨⟨by decide, by decide⟩, by decide⟩

/-- A signal of 8 bits on bus 1, and the device with it. -/
def sig0 : SigEntry :=
  { bus := 1, id := 0x123, slot := 4, startBit := 8, bits := 8, signed := false, bigEnd := false, scale := 0x3F800000, offset := 0, lo := 0
    hi := 0x42C80000, timeout := 100, sub := 7, alive := none, crc := none, wheel := false }
def withCan (rs : List (Nat × Word)) : State := (upWith ((Csr.can 1 0, 1) :: (Csr.can 1 0x10, 0) :: rs)).modNet fun n =>
  { n with cal := some { cal0 0 with sigMap := [sig0] } }
theorem wit_can : let s := withCan []
    s.Canonical ∧ swf SlotCopy.none s.net.slots = true ∧ fld (s.reg (Csr.can 1 0)) 0 0 = 1 ∧ fld (s.reg (Csr.can 1 0x10)) 1 0 < 2 ∧
      s.canPass 1 0x123 = true ∧ s.net.cal = some { cal0 0 with sigMap := [sig0] } ∧ sig0.bus = 1 ∧ sig0.id = (0x123 : BitVec 30).setWidth 32 ∧
      f32le sig0.lo (sigValue sig0 (sigRaw sig0 [0, 9])) = true ∧ f32le (sigValue sig0 (sigRaw sig0 [0, 9])) sig0.hi = true ∧ s.forwarded = false ∧
      fld (up.reg (Csr.can 1 0)) 0 0 = 0 := ⟨⟨by decide, by decide⟩, by decide⟩
theorem wit_can_filter : (withCan ((upFrom 0 14).flatMap fun i => [(Csr.can 1 (0x30 + 8 * i), 5), (Csr.can 1 (0x34 + 8 * i), 0x1FFFFFFF)])).canPass 1 0x123 = false := by decide
theorem wit_can_range : f32le { sig0 with lo := 0x41200000 }.lo (sigValue sig0 (sigRaw sig0 [0, 9])) = false := by decide
theorem wit_sig_timeout : 0 < sig0.timeout ∧ (up.slot sig0.slot).timeout = false ∧
    (sget ({ ref := none, last := 0 } : SigRx) up.net.sig 0).last + 48 * sig0.timeout ≤ ({ up with sample := 4800 } : State).sample.toNat := by decide
theorem wit_bus_off : fld ((withCan [(Csr.can 1 0x10, 6)]).reg (Csr.can 1 0x10)) 2 2 = 1 ∧ (withCan [(Csr.can 1 0x10, 6)]).Canonical :=
  ⟨by decide, by decide, by decide⟩

/-! ## The Lichen pair -/

/-- A device with its link and pair in these states and pairing enabled, and more of the pair. -/
def pair (lst pst : Nat) (f : Lichen → Lichen) : State :=
  (upWith [(Csr.lkStat, BitVec.ofNat 32 lst), (Csr.pairStat, BitVec.ofNat 32 pst), (Csr.pairCfg, 1)]).modLk f
def asPartner (s : State) : State := { s with dev := { s.dev with lkRole := true } }
def peer0 (st : Fin 6) : PeerState :=
  { sample := 960, pstate := st, drop := false, latent := false, mode := 0, planId := 0, maps := (0, 0, 0), seqs := [] }
theorem wit_sideband : let s := pair 3 3 id
    s.Canonical ∧ s.dev.up = true ∧ s.pairEn = true ∧ s.pst = 3 ∧ s.lst = 3 ∧ s.lk.peerDrop = none ∧ s.lk.replays.length < 16 ∧ s.lk.flGap < 8 ∧
      s.lk.rxSeq = 0 := ⟨⟨by decide, by decide⟩, by decide⟩
theorem wit_training : (pair 1 0 id).lst = 1 ∧ (pair 4 0 id).lst = 4 ∧ (pair 2 0 id).lst = 2 ∧ (pair 2 0 id).Canonical ∧ (pair 1 0 id).Canonical ∧
    (pair 1 0 id).dev.up = true := ⟨by decide, by decide, by decide, ⟨by decide, by decide⟩, ⟨by decide, by decide⟩, rfl⟩
theorem wit_retrain : (16 ≤ (pair 3 3 fun l => { l with replays := List.replicate 16 0 }).lk.replays.length) ∧ 8 ≤ (pair 3 3 fun l => { l with flGap := 8 }).lk.flGap ∧
    (pair 3 3 fun l => { l with flGap := 8 }).lst = 3 ∧ (pair 3 3 fun l => { l with flGap := 8 }).Canonical :=
  ⟨by decide, by decide, by decide, by decide, by decide⟩
theorem wit_peer_shown : let s := pair 3 4 id
    s.Canonical ∧ (peer0 1).drop = false ∧ s.agrees (peer0 1) = true ∧ s.receives (peer0 1) = false ∧ (peer0 1).pstate ≠ 2 ∧
      ((peer0 3).pstate = 3) ∧ (pair 3 1 id).pst = 1 ∧ (pair 3 1 id).agrees (peer0 3) = true := ⟨⟨by decide, by decide⟩, by decide⟩
theorem wit_peer_differs : ((runs plan0 960).setReg Csr.lkStat 3).agrees { peer0 3 with mode := 1 } = false ∧ ((runs plan0 960).setReg Csr.lkStat 3).lst = 3 ∧
    ((runs plan0 960).setReg Csr.lkStat 3).Canonical := ⟨by decide, by decide, by decide, by decide⟩
/-- A device that joins, in a phase of the resynchronisation. -/
def joining (ph : Word) (f : Lichen → Lichen) : State := (pair 3 2 f).setReg Csr.resyncStat ph
theorem wit_bulk : let s := joining 1 id
    s.Canonical ∧ s.OneShadow ∧ s.lst = 3 ∧ s.pst = 2 ∧ fld (s.reg Csr.resyncStat) 1 0 = 1 ∧ s.ecc = [] ∧ oneBank 0x100000 2 = true ∧
      privateByte 0x100000 = false ∧ privateByte 0x04000100 = true ∧ s.lk.join = none :=
  ⟨⟨by decide, by decide⟩, oneShadow_reset rfl, by decide⟩
theorem wit_join : let s := joining 2 fun l => { l with join := some 1, recv := true }
    s.Canonical ∧ s.lk.join = some 1 ∧ 1 ≤ s.blk + 1 ∧ fld (s.reg Csr.resyncStat) 1 0 = 2 ∧ s.lk.recv = true := ⟨⟨by decide, by decide⟩, by decide⟩
theorem wit_forwarded : let s := asPartner (pair 3 3 id)
    s.Canonical ∧ s.lst = 3 ∧ s.dev.lkRole = true ∧ s.pst = 3 ∧ swf SlotCopy.none s.net.slots = true ∧ s.lk.heard = [] ∧ up.dev.lkRole = false ∧
      (s.modHost fun h => { h with streams := [stream0 false [] []] }).host.streams = [stream0 false [] []] ∧ s.host.changes = [] ∧
      (s.modSched fun x => { x with loaded := [(plan0, .a)] }).dev.sched.loaded.find? (fun x => decide (x.1.planId = 7)) = some (plan0, .a) :=
  ⟨⟨by decide, by decide⟩, by decide⟩

/-- A paired device in block 2 with a journal. -/
def journal (c : Option Nat) : State :=
  { (pair 3 3 fun l => { l with journal := [.write 0x100000 [1, 2]], commit := c }) with bsize := 32, sample := 64 }
theorem wit_journal : let s := journal (some 1)
    s.Canonical ∧ s.OneShadow ∧ s.lk.journal = [.write 0x100000 [1, 2]] ∧ s.lk.commit = some 1 ∧ 1 + 1 = s.blk ∧ oneBank 0x100000 2 = true ∧
      (journal none).lk.commit = none ∧ s.lst = 3 ∧ s.pst = 3 := ⟨⟨by decide, by decide⟩, oneShadow_reset rfl, by decide⟩
/-- A paired device that has the peer's record of its block. -/
def compared (crc : Word) : State :=
  { (pair 3 3 fun l => { l with peerRecs := [{ blk := 2, crcB := some crc, crcF := none }] }) with bsize := 32, sample := 64 }
theorem wit_pair_verdict : let s := compared 0
    s.Canonical ∧ s.bsize ≠ 0 ∧ s.pst = 3 ∧ s.lk.join = none ∧ s.lk.mismatch = false ∧ s.lk.ownDrop = none ∧ s.lk.peerDrop = none ∧
      s.lk.peerRecs.find? (fun x => decide (x.blk = s.blk)) = some { blk := 2, crcB := some 0, crcF := none } ∧ s.crcBlk = 0 ∧
      (5 : Word) ≠ (compared 5).crcBlk ∧ fld (s.reg Csr.safeStat) 1 0 = 0 ∧ up.pst = 0 := ⟨⟨by decide, by decide⟩, by decide⟩
/-- A move of output 3 that is due. -/
def moving3 (pst : Nat) (take : Bool) : State :=
  { (pair 3 pst fun l => { l with moves := [{ at_ := 10, outs := [3], take := take, fast := false }], own := if take then [] else [3] }) with sample := 10 }
theorem wit_move : (moving3 3 true).Canonical ∧ (moving3 3 true).lk.moves = [{ at_ := 10, outs := [3], take := true, fast := false }] ∧
    10 ≤ (moving3 3 true).sample.toNat ∧ fld ((moving3 3 true).reg Csr.pairStat) 7 7 = 0 ∧ (moving3 3 true).pairMode ≠ 2 ∧ (moving3 3 false).Canonical ∧
    (moving3 5 false).pst = 5 ∧ (∀ m ∈ ({ moving3 3 true with sample := 9 } : State).lk.moves, (9 : DWord).toNat < m.at_) :=
  ⟨⟨by decide, by decide⟩, by decide, by decide, by decide, by decide, ⟨by decide, by decide⟩, by decide, by decide⟩
/-- A dropped device whose outputs have moved. -/
def dropped : State := { (pair 3 5 fun l => { l with lastMove := some 10 }) with sample := 58 }
theorem wit_dropped : dropped.Canonical ∧ dropped.pst = 5 ∧ dropped.lk.moves = [] ∧ dropped.lk.lastMove = some 10 ∧ 10 + 48 ≤ dropped.sample.toNat ∧
    ({ dropped with sample := 57 } : State).sample.toNat < 10 + 48 := ⟨⟨by decide, by decide⟩, by decide⟩
/-- A SPLIT device whose peer has dropped, with the survivor plan loaded. -/
def split : State :=
  let p := { plan0 with pair := { plan0.pair with mode := 2, survivor := 9 } }
  (((runs p 64).setReg Csr.pairCfg 5).modLk fun l => { l with peerDrop := some 3 }).modSched fun x =>
    { x with loaded := [({ plan0 with planId := 9 }, .a)] }
theorem wit_split : split.dev.up = true ∧ split.pairMode = 2 ∧ split.lk.peerDrop ≠ none ∧ split.lk.ownDrop = none ∧ split.dev.sched.stage = .none ∧
    split.dev.sched.loaded.find? (fun x => decide (x.1.planId = 9)) = some ({ plan0 with planId := 9 }, .a) ∧
    split.plan = some { plan0 with pair := { plan0.pair with mode := 2, survivor := 9 } } := by decide
theorem wit_silent : let s := pair 3 3 fun l => { l with sbGap := 2, flGap := 2 }
    s.Canonical ∧ s.pst = 3 ∧ 2 ≤ s.lk.sbGap ∧ 2 ≤ s.lk.flGap ∧ s.lk.peerDrop = none ∧ fld (s.reg Csr.safeStat) 1 0 = 0 := ⟨⟨by decide, by decide⟩, by decide⟩
/-- A PARTNER that waits. -/
def waits : State := { asPartner (pair 1 1 id) with sample := 9600 }
theorem wit_waits : waits.Canonical ∧ waits.pst = 1 ∧ waits.dev.lkRole = true ∧ 9600 ≤ waits.sample.toNat ∧ waits.lk.pulsed = false :=
  ⟨⟨by decide, by decide⟩, by decide⟩

/-! ## Operations -/

/-- A word that ends its frond: in its second slot or not, width and body. -/
def opw (sec : Bool) (w : Nat) (body : Nat) : OpWord :=
  { stop := true, second := sec, ge := false, gn := false, gp := 0, w := BitVec.ofNat 2 w, body := BitVec.ofNat 48 body }
/-- Unit 3 in RUN at PC 0x1000 in straight-line code, with ISP in range. -/
def fetches (f : Tile → Tile) : State := up.modTile 3 fun t => f { t with mode := .run, pc := 0x1000, cycle := 9, isp := 0x2000 }
/-- Operations that a frond of unit 3 can end in state `s`. -/
def allIssue (s : State) (l : List (Instr × OpWord)) : Bool := straight s 3 && l.all fun x => issues s 3 x.1 x.2
theorem wit_integer : let w := opw false 2 0x700011006001
    allIssue (fetches id) [(.add 3 w, w), (.sub 3 w, w), (.adds 3 w, w), (.subs 3 w, w), (.shls 3 w, w), (.and 3 w, w), (.or 3 w, w), (.xor 3 w, w),
      (.andn 3 w, w), (.shl 3 w, w), (.shr 3 w, w), (.sar 3 w, w), (.min 3 w, w), (.max 3 w, w), (.minu 3 w, w), (.maxu 3 w, w),
      (.macq15 3 w, w)] = true := by decide
theorem wit_integer_one : let w := opw true 1 0x123060010000
    allIssue (fetches id) [(.mov 3 w, w), (.neg 3 w, w), (.abss 3 w, w), (.sext 3 w, w), (.zext 3 w, w), (.rndq 3 w, w)] = true := by decide
theorem wit_mulq15 : let w := opw true 1 0x123060017080
    allIssue (fetches id) [(.mulq15 3 w, w)] = true := by decide
theorem wit_compares : let w := opw false 2 0x001260010100
    allIssue (fetches id) [(.cmp 3 w, w), (.fcmp 3 w, w), (.plog 3 (opw false 0 0x001200010302), opw false 0 0x001200010302)] = true := by decide
theorem wit_float : let w := opw false 2 0x708060010100
    allIssue (fetches id) [(.fadd 3 w, w), (.fsub 3 w, w), (.fmul 3 w, w), (.fma 3 w, w), (.fnms 3 w, w)] = true := by decide
theorem wit_convert : allIssue (fetches id) [(.fneg 3 (opw false 3 0x708060010000), opw false 3 0x708060010000), (.fabs 3 (opw false 2 0x708060010001), opw false 2 0x708060010001),
    (.fcvtDS 3 (opw false 3 0x708060010002), opw false 3 0x708060010002), (.fcvtSD 3 (opw false 2 0x708060010003), opw false 2 0x708060010003),
    (.fcvtHS 3 (opw false 1 0x708060010004), opw false 1 0x708060010004), (.fcvtSH 3 (opw false 2 0x708060010005), opw false 2 0x708060010005),
    (.fcvtI32S 3 (opw false 2 0x708060010006), opw false 2 0x708060010006), (.fcvtI32D 3 (opw false 2 0x708060010007), opw false 2 0x708060010007),
    (.fcvtI64D 3 (opw false 3 0x708060010008), opw false 3 0x708060010008), (.fcvtSI32 3 (opw false 2 0x708060010009), opw false 2 0x708060010009),
    (.fcvtDI32 3 (opw false 3 0x70806001000A), opw false 3 0x70806001000A), (.fcvtDI64 3 (opw false 3 0x70806001000B), opw false 3 0x70806001000B),
    (.fcvtQ31S 3 (opw false 2 0x70806001000C), opw false 2 0x70806001000C), (.fcvtSQ31 3 (opw false 2 0x70806001000D), opw false 2 0x70806001000D)] = true := by
  decide
/-- An EXT word before an operation. -/
def withExt : State := fetches fun t => { t with frond := [.ext 3 { opw false 0 0x12345678 with stop := false }] }
theorem wit_address : allIssue (fetches id) [(.amovi 3 (opw false 0 0x04000000FFFF), opw false 0 0x04000000FFFF), (.amov 3 (opw false 0 0x041000000000), opw false 0 0x041000000000),
    (.aaddi 3 (opw false 0 0x04100000FFFF), opw false 0 0x04100000FFFF), (.aadd 3 (opw false 0 0x041040000000), opw false 0 0x041040000000),
    (.asub 3 (opw false 0 0x041040000000), opw false 0 0x041040000000), (.ashli 3 (opw false 0 0x041000000003), opw false 0 0x041000000003),
    (.aget 3 (opw false 0 0x040000000880), opw false 0 0x040000000880), (.aput 3 (opw false 0 0x001000000880), opw false 0 0x001000000880),
    (.fmovD 3 (opw false 0 0x084000000000), opw false 0 0x084000000000), (.fmovS 3 (opw false 0 0x084000000000), opw false 0 0x084000000000),
    (.ext 3 (opw false 0 0x12345678), opw false 0 0x12345678)] = true := by decide
theorem wit_address_ext : let e := opw false 0 0x12345678
    [Instr.amovx 3 { opw false 0 0x040000000000 with stop := false }, Instr.aaddx 3 { opw false 0 0x041000000000 with stop := false }].all (fun c =>
      let s := fetches fun t => { t with frond := [c] }
      issues s 3 (.ext 3 e) e && straight s 3) = true ∧ ((fetches id).tile 3).frond = [] ∧ ((fetches id).tile 3).fetching = true ∧
      ((fetches id).tile 3).pc.toNat < 0x200000 := by decide
/-- Elements 0 and 1 of 32 bits. -/
def vectors : State := fetches fun t => { t with vcfg := 0x202 }
theorem wit_vector : let w := opw false 0 0x084400000000
    allIssue vectors [(.vadd 3 w, w), (.vsub 3 w, w), (.vadds 3 w, w), (.vsubs 3 w, w), (.vand 3 w, w), (.vor 3 w, w), (.vxor 3 w, w), (.vshl 3 w, w),
      (.vshr 3 w, w), (.vsar 3 w, w), (.vmin 3 w, w), (.vmax 3 w, w), (.vmerge 3 w, w), (.vfadd 3 w, w), (.vfsub 3 w, w), (.vfmul 3 w, w),
      (.vfma 3 w, w), (.vfnms 3 w, w), (.vfmin 3 w, w), (.vfmax 3 w, w)] = true := by decide
theorem wit_vector_one : allIssue vectors [(.vmov 3 (opw true 0 0x084000000000), opw true 0 0x084000000000), (.vid 3 (opw true 0 0x080000000000), opw true 0 0x080000000000),
      (.vfcvt 3 (opw true 0 0x084000060000), opw true 0 0x084000060000)] = true ∧ vfcvtWidths ((opw true 0 0x084000060000).bits 21 16) (vectors.tile 3).eb = some (4, 4) ∧
    activeList (vectors.tile 3).vl 0 ((vectors.tile 3).vreg 0) ≠ [] := by decide
theorem wit_vmulq15 : let w := opw false 0 0x084400000000
    allIssue (fetches fun t => { t with vcfg := 0x102 }) [(.vmulq15 3 w, w)] = true := by decide
theorem wit_vector_memory : allIssue vectors [(.setvl 3 (opw false 0 0x848000000009), opw false 0 0x848000000009), (.vcmp 3 (opw false 0 0x084402400000), opw false 0 0x084402400000),
      (.vfcmp 3 (opw false 0 0x084402400000), opw false 0 0x084402400000), (.vld 3 (opw false 0 0x080000000040), opw false 0 0x080000000040),
      (.vst 3 (opw true 0 0x08020000_0000), opw true 0 0x08020000_0000)] = true ∧ (opw false 0 0x848000000009).bits 40 39 = 1 := by decide
theorem wit_vcollect : ([0, 3] : List Nat).Nodup ∧ (∀ j ∈ [0, 3], j < 64 / 4) ∧ (4 : Nat) ∈ [1, 2, 4, 8] := by decide
theorem wit_frame : let s := vectors
    opInfo (.vadd 3 (opw false 0 0)) ≠ none ∧ (s.tile 3).pend = [] ∧ s.ecc = [] := ⟨by nofun, by decide, by decide⟩
theorem wit_special : f32.read false 0x7F800000 = .inf false ∧ f32.read false 0x80000000 = .fin true 0 (-149) ∧ (f32.read false 0x7F800001).isSnan = true ∧
    f64.read false 0x8000000000000001 = .fin true 1 (-1074) ∧ f32.read true 1 = .fin false 0 (-149) := by decide

/-- A ticket of unit 3 in a state under an opcode, with a job. -/
def ticketed (st : TicketState) (opc : BitVec 7) (f : Tile → Tile) : State := fetches fun t =>
  f { t with tkt := t.tkt.set 5 { Ticket.reset with
    st := st, opc := opc, elem := 2, job := some (Job.empty { s := up, u := 3, pc := 0, len := 8, pos := 0, ext := none } opc.toNat) } }
def w0 : OpWord := opw false 0 0
/-- A whole word of slot L with stop bit and no guard. -/
def rawWord (opc body : Nat) : DWord := BitVec.ofNat 64 (0xE000000000000000 + opc * 2 ^ 48 + body)
theorem wit_words : opInfo (.nop 3 w0) ≠ none ∧ (up.tile 3).fetching = false ∧ ((fetches id).tile 3).fetching = true ∧
    ((fetches id).tile 3).frond.length < 7 ∧ ((fetches id).tile 3).pc.toNat + 8 * ((fetches id).tile 3).frond.length < 0x200000 ∧
    ((fetches fun t => { t with repSkip := true }).tile 3).fetching = true ∧ alone (fetches id) 3 w0 = true ∧ branchKind (.nop 3 w0) = none ∧
    ({ w0 with ge := true } : OpWord).performed ((fetches id).tile 3) = false ∧
    frondFault (fetches id) 3 [wordBad (.nop 3 { w0 with ge := true })] (frondOps (fetches id) 3 [.nop 3 { w0 with ge := true }]) = none ∧
    frondFault (fetches id) 3 [wordBad (.br 3 { w0 with ge := true })] (frondOps (fetches id) 3 [.br 3 { w0 with ge := true }]) = none ∧
    ((fetches id).tile 3).interruptNow = none ∧ (fetches id).ecc = [] ∧ ((fetches fun t => { t with repSkip := true }).tile 3).fromBuffer 0x1000 = none := ⟨by nofun, by decide⟩
theorem wit_fault_fetch : let s := fetches fun t => { t with pc := 0x200000 }
    s.Canonical ∧ s.OneShadow ∧ (s.tile 3).fetching = true ∧ (s.tile 3).frond = [] ∧ (s.tile 3).repSkip = false ∧ (s.tile 3).trapReady = false ∧
      straight s 3 = true ∧ (s.tile 3).ispOk = true ∧ (s.tile 3).level < 3 ∧ 0x200000 ≤ (s.tile 3).pc.toNat ∧ (s.tile 3).fromBuffer (s.tile 3).pc.toNat = none :=
  ⟨⟨by decide, by decide⟩, oneShadow_reset rfl, by decide⟩
theorem wit_fault : let s := fetches id
    s.Canonical ∧ s.OneShadow ∧ alone s 3 w0 = true ∧ (s.tile 3).level < 3 ∧ w0.w = 0 ∧ (opw false 0 1).body ≠ 0 ∧ (s.tile 3).level = 0 ∧
      9 < spMode (opw false 0 0xF00000000000).dst ∧ (s.tile 3).override 0x50 = none ∧ w0.guardOk = true ∧ w0.performed (s.tile 3) = true ∧
      w0.bad = false ∧ (s.tile 3).override 1 = none ∧ (s.tile 3).override 3 = none ∧ (s.tile 3).override 4 = none ∧ (s.tile 3).override 5 = none ∧ s.ecc = [] := ⟨⟨by decide, by decide⟩, oneShadow_reset rfl, by decide⟩
theorem wit_fault_unassigned : opWordOf (rawWord 0x50 0) = opWordOf (rawWord 0x51 0) ∧ decodeOp 3 (rawWord 0x50 0) = .macroTrap 3 (rawWord 0x50 0) ∧
    wordSlot (rawWord 0x50 0) = 6 ∧ wordOpc (rawWord 0x50 0) = 0x50 ∧ alone (fetches id) 3 (opWordOf (rawWord 0x50 0)) = true ∧
    decodeOp 3 (rawWord 0x08 0) ≠ .macroTrap 3 (rawWord 0x08 0) := ⟨by decide, by decide, by decide, by decide, by decide, by nofun⟩
theorem wit_fault_parity : let w := { opw false 2 0x700011006001 with bad := true }
    opInfo (.add 3 w) ≠ none ∧ alone (fetches id) 3 w = true ∧ w.performed ((fetches id).tile 3) = true ∧
    (frondOps (fetches id) 3 [.add 3 w]).any (fun x => illegalAt ((fetches id).tile 3) 3 (frondOps (fetches id) 3 [.add 3 w]) x || x.out.wait) = false :=
  ⟨by nofun, by decide⟩
theorem wit_fault_operand : let w := opw false 2 0x708000010000
    alone (fetches id) 3 w = true ∧ spMode w.dst = 7 ∧ spLegal true none w.dst w.wb = true ∧ spMode w.src1 = 0 ∧ w.src2 = 0 ∧
      (((fetches id).tile 3).dp * 0x1000 + w.src1 % 4096) % w.wb ≠ 0 := by decide
theorem wit_fault_ticket : (((fetches id).tile 3).ticket (ticketIx 5)).st = .free ∧ ((ticketed .failed 0x10 id).tile 3).outstanding = true ∧
    (((ticketed .failed 0x10 id).tile 3).ticket (ticketIx 5)).st = .failed ∧ alone (ticketed .failed 0x10 id) 3 w0 = true ∧
    ((fetches fun t => { t with tktSplit := 0 }).tile 3).freeTicket = none ∧ ((fetches id).tile 3).override 0x0F = none ∧
    alone (fetches fun t => { t with status := 0x3000 }) 3 w0 = true ∧ ((fetches fun t => { t with status := 0x3000 }).tile 3).level = 3 ∧
    ((fetches fun t => { t with status := 0x2000 }).tile 3).level = 2 := by decide
/-- Opcode 0x50 redirected to a macro-trap at 0x4000. -/
def redirected (f : Tile → Tile) : State := fetches fun t => f { t with patch := { disp := [0x4000_00000150], field := [] }, mtrapBuf := 0x3000 }
theorem wit_macro_trap : let s := redirected id
    let x := rawWord 0x50 0x708060006000
    let w := opWordOf x
    alone s 3 w = true ∧ wordOpc x = 0x50 ∧ wordSlot x = 6 ∧ (s.tile 3).override 0x50 = some 0x4000_00000150 ∧
      bitsOf (0x4000_00000150 : DWord).toNat 8 8 = 1 ∧ (s.tile 3).level < 2 ∧ (s.tile 3).interruptNow = none ∧ w.guardOk = true ∧
      w.performed (s.tile 3) = true ∧ trapLegal (lastCtx s 3 (.macroTrap 3 x)) w = true ∧ w.src1 = 0x6000 ∧ w.src2 = 0x6000 ∧ spMode w.dst = 7 ∧
      (s.tile 3).freeTicket = some 0 ∧ ((redirected fun t => { t with status := 0x2000 }).tile 3).level = 2 ∧
      alone (redirected fun t => { t with status := 0x2000 }) 3 w = true := by decide
/-- A FAILED ticket of a redirected operation. -/
def trapped : State := (ticketed .failed 0x50 fun t => { t with patch := { disp := [0x4000_00000150], field := [] }, mtrapBuf := 0x3000 }).modTile 3 fun t =>
  t.setTicket 5 { t.ticket 5 with job := (t.ticket 5).job.map fun j => { j with trap := true } }
theorem wit_trap_retry : alone trapped 3 (opw false 0 5) = true ∧ (trapped.tile 3).override 3 = none ∧ (trapped.tile 3).interruptNow = none ∧
    (trapped.tile 3).level < 2 ∧ ((trapped.tile 3).ticket 5).st = .failed ∧ ((trapped.tile 3).ticket 5).job.map (·.trap) = some true ∧
    (opw false 0 5).performed (trapped.tile 3) = true ∧ (opw false 0 5).guardOk = true := by decide

theorem wit_ticket_control : let w := opw false 0 5
    allIssue (ticketed .done 0x10 id) [(.join 3 w, w), (.joinany 3 (opw false 0 0x700000060), opw false 0 0x700000060)] = true ∧ allIssue (fetches id) [(.join 3 w, w), (.joinany 3 (opw false 0 0x700000060), opw false 0 0x700000060)] = true ∧
      allIssue (ticketed .failed 0x10 id) [(.retry 3 w, w), (.trel 3 w, w)] = true ∧ allIssue (ticketed .failed 0x08 id) [(.retry 3 w, w)] = true ∧
      allIssue (ticketed .pending 0x10 id) [(.tdone 3 (opw false 0 0x8005), opw false 0 0x8005)] = true ∧ alone (ticketed .pending 0x10 id) 3 w = true ∧
      (((ticketed .pending 0x10 id).tile 3).ticket (ticketIx 5)).st = .pending ∧ farKindOf (0x10 : BitVec 7).toNat = none ∧ farKindOf (0x08 : BitVec 7).toNat = some .fld ∧
      ((ticketed .failed 0x10 id).tile 3).rqueue = [] ∧ ((ticketed .failed 0x10 id).tile 3).freeEngine = some 0 ∧
      (((ticketed .failed 0x10 id).tile 3).ticket 5).job.map (fun j => (j.trap, j.spare)) = some (false, none) ∧
      ((ticketed .done 0x10 id).tile 3).override 1 = none ∧ ((ticketed .done 0x10 id).tile 3).override 2 = none ∧
      ((ticketed .failed 0x10 id).tile 3).override 3 = none ∧ ((ticketed .failed 0x10 id).tile 3).override 4 = none ∧
      ((ticketed .pending 0x10 id).tile 3).override 5 = none ∧ ((ticketed .pending 0x10 id).tile 3).interruptNow = none := by decide
theorem wit_fabric_ops : let w := opw false 0 0x004060406008
    let w1 := opw false 0 0x004060010000
    allIssue (fetches id) [(.fld 3 w, w), (.fst 3 w, w), (.spore 3 w1, w1), (.semacq 3 w1, w1), (.semrel 3 w1, w1),
      (.cesub 3 (opw false 0 0x400500000000), opw false 0 0x400500000000)] = true ∧ ((fetches id).tile 3).freeTicket = some 0 ∧ ((fetches id).tile 3).override 8 = none ∧
      (fetches id).ecc = [] := by decide
theorem wit_routine_ops : let w := opw false 0 0x010060026003
    let w1 := opw false 0 0x010060020000
    let w2 := opw false 0 0x010002000300
    let w3 := opw false 0 0x010002006004
    allIssue (fetches id) [(.mulS32 3 w, w), (.mulU32 3 w, w), (.mull64 3 w, w), (.mulhS64 3 w, w), (.mulhU64 3 w, w), (.mulq31 3 w, w), (.divS32 3 w, w),
      (.divU32 3 w, w), (.divS64 3 w, w), (.divU64 3 w, w), (.fdivS 3 w, w), (.fdivD 3 w, w), (.fsqrtS 3 w1, w1), (.fsqrtD 3 w1, w1)] = true ∧
    allIssue (fetches id) [(.biq 3 w2, w2), (.fft4 3 w2, w2), (.cmac 3 w2, w2), (.nlms 3 w2, w2), (.bmov 3 w3, w3), (.peak 3 w3, w3), (.rms 3 w3, w3)] = true ∧
    allIssue vectors [(.gather 3 (opw false 0 0x084061000000), opw false 0 0x084061000000), (.scatter 3 (opw false 0 0x084061000000), opw false 0 0x084061000000)] = true ∧
    ((fetches id).tile 3).rqueue = [] ∧ ((fetches id).tile 3).freeEngine = some 0 := by decide

theorem wit_branches : allIssue (fetches id) [(.br 3 (opw false 0 0x10), opw false 0 0x10), (.bra 3 w0, w0), (.call 3 (opw false 0 0x500000000010), opw false 0 0x500000000010), (.calla 3 w0, w0),
    (.ret 3 w0, w0), (.pflush 3 w0, w0)] = true := by decide
theorem wit_with_ext : let s := withExt
    straight s 3 = true ∧ issues s 3 (.brx 3 w0) w0 = true := by decide
theorem wit_untrapped (c : Instr) : untrapped (fetches id) 3 c = true ∧ untrapped withExt 3 c = true ∧
    untrapped (fetches fun t => { t with heldTick := true, flCfg := 1 }) 3 c = true :=
  ⟨by rw [untrapped, Bool.or_eq_true]; right; decide, by rw [untrapped, Bool.or_eq_true]; right; decide,
    by rw [untrapped, Bool.or_eq_true]; right; decide⟩
theorem wit_delay_fronds : let w := opw false 2 0x700011006001
    let s := fetches fun t => { t with br := { delay := 1, taken := true, target := 0x3000, gap := 4, open_ := false } }
    opInfo (.add 3 w) ≠ none ∧ issues s 3 (.add 3 w) w = true ∧ (s.tile 3).rep.active = false ∧ (s.tile 3).halted = false ∧ fld (s.tile 3).dbgCtl 0 0 = 0 ∧
      (s.tile 3).br.taken = true ∧ (s.tile 3).br.delay = 1 := ⟨by nofun, by decide⟩
/-- Loop 1 ends at the PC with a count. -/
def looping (n : Word) : State := fetches fun t => { t with
  order := [1], loops := t.loops.set 1 { active := true, first := 0x800, last := 0x1000, passed := false, captured := false }, lc := t.lc.set 1 n }
theorem wit_loop : let w := opw false 2 0x700011006001
    allIssue (fetches id) [(.loop 3 (opw false 0 0x500300020004), opw false 0 0x500300020004), (.loop 3 (opw false 0 0x500000020004), opw false 0 0x500000020004),
      (.rep 3 (opw false 0 5), opw false 0 5), (.rep 3 w0, w0), (.rep 3 (opw false 0 0x100000000000), opw false 0 0x100000000000)] = true ∧
    issues (looping 4) 3 (.add 3 w) w = true ∧ ((looping 4).tile 3).order = [1] ∧ (rfGet Loop.reset ((looping 4).tile 3).loops 1).active = true ∧
    (rfGet Loop.reset ((looping 4).tile 3).loops 1).last = ((looping 4).tile 3).pc ∧ 1 < (rfGet 0 ((looping 4).tile 3).lc 1).toNat ∧
    (rfGet 0 ((looping 1).tile 3).lc 1).toNat ≤ 1 ∧ ((looping 4).tile 3).rep.held = none := by decide
theorem wit_repeat : let w := opw false 2 0x700011006001
    let s := fetches fun t => { t with rep := { RepState.reset with active := true, left := 3 } }
    issues s 3 (.add 3 w) w = true ∧ (s.tile 3).rep.active = true ∧ (s.tile 3).rep.held = none ∧ 1 < (s.tile 3).rep.left.toNat ∧ (s.tile 3).atLoopEnd = false := by decide
theorem wit_slice_end : allIssue (fetches id) [(.done 3 w0, w0), (.nap 3 w0, w0), (.nop 3 w0, w0), (.fbar 3 w0, w0), (.pbar 3 w0, w0), (.ifence 3 w0, w0)] = true ∧
    allIssue (fetches fun t => { t with heldTick := true, flCfg := 1 }) [(.nap 3 w0, w0)] = true ∧
    ((fetches id).tile 3).offLane = false ∧ allIssue (fetches fun t => { t with offLane := true }) [(.nap 3 w0, w0)] = true ∧ alone (fetches id) 3 w0 = true := by decide
theorem wit_system_registers : allIssue (fetches id) [(.mfsr 3 (opw false 0 0x021000000000), opw false 0 0x021000000000),
      (.mtsr 3 (opw false 0 0x010000000000 ), opw false 0 0x010000000000), (.mtsr 3 (opw false 0 0x010400000001), opw false 0 0x010400000001)] = true ∧
    sregRead (fetches id) 3 2 = some 0x2000 ∧ (opw false 0 0x010400000001).bits 35 34 = 1 ∧ (opw false 0 0x010400000001).bits 47 40 = 1 := by decide
theorem wit_return : let s := fetches fun t => { t with status := 0x1000 }
    alone s 3 w0 = true ∧ issues s 3 (.reti 3 w0) w0 = true ∧ bitsOf (s.localLoad 3 ((s.tile 3).isp.toNat + 4) 4) 15 14 = 0 := by decide

/-! ## Rules stated whole -/

theorem wit_dark : up.dev.up = true ∧ (up.tile 0).mode = .dark := by decide
theorem wit_trel : let w := opw false 0 5
    (ticketed .failed 0x10 id).Canonical ∧ (∀ n, ((ticketed .failed 0x10 id).bmtOf n).retired = none ∨ ((ticketed .failed 0x10 id).bmtOf n).phase = .none) ∧
      alone (ticketed .failed 0x10 id) 3 w = true ∧ ((ticketed .failed 0x10 id).tile 3).level < 3 ∧ w.guardOk = true ∧
      w.performed ((ticketed .failed 0x10 id).tile 3) = true ∧ w.bad = false ∧ ((ticketed .failed 0x10 id).tile 3).override 4 = none ∧ ((ticketed .failed 0x10 id).tile 3).interruptNow = none ∧
      (ticketed .failed 0x10 id).ecc = [] ∧ w.w = 0 ∧ w.bits 47 5 = 0 ∧
      (((ticketed .failed 0x10 id).tile 3).ticket (ticketIx (w.bits 4 0))).st = .failed ∧
      (((ticketed .pending 0x10 id).tile 3).ticket (ticketIx (w.bits 4 0))).st ≠ .failed ∧ alone (ticketed .pending 0x10 id) 3 w = true :=
  ⟨⟨by decide, by decide⟩, oneShadow_reset rfl, by decide⟩
theorem wit_circular : spMode 0x3010 = 3 := by decide

end Sys2Proof.Tests
end

section
/-! PROOFS. Register accesses: an equation of `csrRead` and of `csrWrite` for each kind of register, and O29. -/

namespace Sys2Proof.Proofs

open Sys2Proof Sys2Proof.Machine Sys2Proof.Laws

/-! ## Registers -/

theorem whenUp_of_up {s : State} (h : s.dev.up = true) (f : State → State) : s.whenUp f = f s := by
  simp [State.whenUp, h]

theorem reg_of_csr {s t : State} (h : t.csr = s.csr) (a : Nat) : t.reg a = s.reg a := by
  simp [State.reg, h]

theorem sameRegs_of_csr {s t : State} (h : t.csr = s.csr) (rs : List Nat) : s.SameRegs t rs := fun a _ => reg_of_csr h a

theorem sameRegs_setReg (s : State) (a : Nat) (v : Word) : s.SameRegs (s.setReg a v) [a] :=
  fun b hb => reg_setReg_other s a b v (by simpa using hb)

theorem sameRegs_setReg_mem {s t : State} {rs : List Nat} {a : Nat} {v : Word} (h : s.SameRegs t rs) (ha : a ∈ rs) :
    s.SameRegs (t.setReg a v) rs := fun b hb => (reg_setReg_other t a b v fun e => hb (e ▸ ha)).trans (h b hb)

/-- A counter register counts up to its maximum. -/
theorem bump_toNat (s : State) (a : Nat) (h : swf 0 s.csr = true) :
    ((s.bump a).reg a).toNat = min 0xFFFFFFFF ((s.reg a).toNat + 1) := by
  rw [reg_bump_same s a h]
  split
  · next e => rw [e]; rfl
  · next e => bv_omega

theorem sameRegs_bump (s : State) (a : Nat) : s.SameRegs (s.bump a) [a] := sameRegs_setReg s a _

theorem fld_bit_zero (x : Word) : fld x 0 0 = x.toNat % 2 := by
  simp [fld, bitsOf]

/-- Setting bit 0 of a word. -/
theorem fld_or_one (x : Word) : fld (x ||| 1) 0 0 = 1 := by
  rw [fld_bit_zero, BitVec.toNat_or]
  have h : (x.toNat ||| 1) % 2 = 1 := by
    rw [Nat.or_mod_two_eq_one]; exact Or.inr rfl
  exact h

/-! ## Register accesses -/

theorem exec_csrWrite {s : State} (h : s.dev.up = true) (q : Requester) (a : BitVec 24) (v : Word) :
    exec (.csrWrite q a v) s = .next (s.csrWrite q (dwordOf a) v) :=
  congrArg Host.Outcome.next (whenUp_of_up h _)

theorem exec_readClearAccess {s : State} (h : s.dev.up = true) (q : Requester) (a : BitVec 24) :
    exec (.readClearAccess q a) s = .next (s.csrAnswer q (dwordOf a)) :=
  congrArg Host.Outcome.next (whenUp_of_up h _)

theorem exec_pairLowRead {s : State} (h : s.dev.up = true) (q : Requester) (a : BitVec 24) (hp : isPairLow (dwordOf a) = true) :
    exec (.pairLowRead q a) s = .next (s.csrAnswer q (dwordOf a)) :=
  congrArg Host.Outcome.next ((whenUp_of_up h _).trans (if_pos hp))

theorem exec_pairHighWrite {s : State} (h : s.dev.up = true) (q : Requester) (a : BitVec 24) (v : Word) (h4 : 4 ≤ dwordOf a)
    (hp : isPairLow (dwordOf a - 4) = true) :
    exec (.pairHighWrite q a v) s = .next (s.csrWrite q (dwordOf a) v) :=
  congrArg Host.Outcome.next ((whenUp_of_up h _).trans (if_pos ⟨h4, hp⟩))

theorem dwordOf_lt (a : BitVec 24) : dwordOf a < 2 ^ 24 := by
  have := a.isLt
  unfold dwordOf
  omega

theorem portOf_lt (q : Requester) : portOf q < 32 := by
  cases q <;> simp only [portOf] <;> omega

/-- No pair's low word lies among the registers of the units. -/
theorem isPairLow_ge {o : Nat} (h : isPairLow o = true) : 0x300814 ≤ o := by
  simp only [isPairLow, List.contains_eq_mem, List.mem_cons, List.not_mem_nil, or_false, Bool.or_eq_true, Bool.and_eq_true,
    decide_eq_true_eq] at h
  omega

/-- The word below a pair's low word is the low word of no pair. -/
theorem isPairLow_sub_four {o : Nat} (h : isPairLow o = true) : isPairLow (o - 4) = false := by
  rw [Bool.eq_false_iff]
  intro g
  simp only [isPairLow, List.contains_eq_mem, List.mem_cons, List.not_mem_nil, or_false, Bool.or_eq_true, Bool.and_eq_true,
    decide_eq_true_eq] at h g
  omega

/-- Reads of the units' patch registers alone depend on the requester (Table 5-13). -/
theorem scOnlyRead_of_ge {o : Nat} (q : Requester) (h : 0x110000 ≤ o) : scOnlyRead q o = false := by
  simp [scOnlyRead, Nat.not_lt.2 h]

/-- No register that a read clears is one of the patch registers. -/
theorem scOnlyRead_of_rc {o : Nat} {d : RegDef} (q : Requester) (hd : regDef o = some d) (hc : d.acc = .rc) : scOnlyRead q o = false := by
  rw [Bool.eq_false_iff]
  intro h
  simp only [scOnlyRead, Bool.and_eq_true, Bool.or_eq_true, decide_eq_true_eq] at h
  obtain ⟨⟨-, hlt⟩, hr⟩ := h
  rw [regDef, if_pos hlt] at hd
  rcases hr with hr | hr <;> rw [hr] at hd <;> cases hd <;> cases hc

/-! ### Unassigned addresses (R19) -/

theorem addrErr_frame (s : State) (q : Requester) (o : Nat) :
    (s.addrErr q o).tiles = s.tiles ∧ (s.addrErr q o).mem = s.mem ∧ (s.addrErr q o).out = s.out := by
  unfold State.addrErr
  dsimp only
  split <;> exact ⟨rfl, rfl, rfl⟩

theorem addrErr_sameRegs (s : State) (q : Requester) (o : Nat) :
    s.SameRegs (s.addrErr q o) [Csr.addrErrCnt, Csr.hostErr, Csr.errAddr] := by
  intro a ha
  simp only [List.mem_cons, List.not_mem_nil, or_false, not_or] at ha
  obtain ⟨h1, h2, h3⟩ := ha
  unfold State.addrErr
  dsimp only
  rw [reg_orReg_other _ _ _ _ h2]
  split
  · exact reg_bump_other _ _ _ h1
  · rw [reg_setReg_other _ _ _ _ h3, reg_bump_other _ _ _ h1]

section
variable {s : State} (hc : swf 0 s.csr = true) (q : Requester) (o : Nat)
include hc

theorem addrErr_count : ((s.addrErr q o).reg Csr.addrErrCnt).toNat = min 0xFFFFFFFF ((s.reg Csr.addrErrCnt).toNat + 1) := by
  unfold State.addrErr
  dsimp only
  rw [reg_orReg_other _ _ _ _ (by decide), ← bump_toNat s _ hc]
  split
  · rfl
  · rw [reg_setReg_other _ _ _ _ (by decide)]

theorem addrErr_flag : fld ((s.addrErr q o).reg Csr.hostErr) 0 0 = 1 := by
  unfold State.addrErr
  dsimp only
  rw [reg_orReg_same, fld_or_one]
  split
  · exact csr_setReg _ _ _ hc
  · exact csr_setReg _ _ _ (csr_setReg _ _ _ hc)

theorem addrErr_capture (h : fld (s.reg Csr.hostErr) 0 0 = 0) :
    (s.addrErr q o).reg Csr.errAddr = BitVec.ofNat 32 (o + portOf q * 2 ^ 24) := by
  unfold State.addrErr
  dsimp only
  rw [reg_orReg_other _ _ _ _ (by decide), if_neg (by omega)]
  exact reg_setReg_same _ _ _ (swf_sset _ _ _ _ hc)

end

theorem addrErr_captured (s : State) (q : Requester) (o : Nat) (h : fld (s.reg Csr.hostErr) 0 0 = 1) :
    (s.addrErr q o).reg Csr.errAddr = s.reg Csr.errAddr := by
  unfold State.addrErr
  dsimp only
  rw [reg_orReg_other _ _ _ _ (by decide), if_pos h, reg_bump_other _ _ _ (by decide)]

/-! ### Writes by access code (R16, R17, R486) -/

theorem csrWrite_unassigned (s : State) (q : Requester) {o : Nat} (v : Word) (hd : regDef o = none) :
    s.csrWrite q o v = (s.dropCaptures (portOf q)).addrErr q o := by
  simp [State.csrWrite, hd]

/-- A write outside the units that the register's rule does not permit is counted. -/
theorem csrWrite_refused (s : State) {q : Requester} {o : Nat} {d : RegDef} (v : Word) (ho : 0x110000 ≤ o) (hd : regDef o = some d)
    (hw : mayWrite d q = false) : s.csrWrite q o v = (s.dropCaptures (portOf q)).bump Csr.wrDisc := by
  simp [State.csrWrite, hd, hw, Nat.not_lt.2 ho]

/-- The offsets at which a permitted write does no more than its access code says. -/
theorem regPut_of_plainAt (s : State) (q : Requester) (d : RegDef) {o : Nat} (v : Word) (hp : plainAt o = true) :
    s.regPut q d o v = s.plainPut d o v := by
  simp only [plainAt, Bool.and_eq_true, Bool.not_eq_true', Bool.and_eq_false_iff, decide_eq_false_iff_not, List.contains_eq_mem,
    List.mem_cons, List.not_mem_nil, or_false, not_or] at hp
  obtain ⟨⟨⟨⟨⟨⟨-, hce⟩, hring⟩, hlk⟩, -⟩, -⟩, h1, h2, h3, h4, h5, h6, h7, h8, h9, h10⟩ := hp
  unfold State.regPut
  rw [if_neg (by omega), if_neg h1, if_neg (by omega), if_neg (by omega), if_neg h2, if_neg h3, if_neg h4, if_neg h5, if_neg h6, if_neg h7,
    if_neg h8, if_neg h9, if_neg h10]

theorem csrWrite_plain (s : State) {q : Requester} {o : Nat} {d : RegDef} (v : Word) (hp : plainAt o = true) (hd : regDef o = some d)
    (hw : mayWrite d q = true) : s.csrWrite q o v = (s.dropCaptures (portOf q)).plainPut d o v := by
  rw [← regPut_of_plainAt _ q d v hp]
  simp only [plainAt, Bool.and_eq_true, Bool.not_eq_true', decide_eq_false_iff_not] at hp
  obtain ⟨⟨⟨⟨⟨⟨ho, -⟩, -⟩, -⟩, hlow⟩, hhigh⟩, -⟩ := hp
  simp [State.csrWrite, hd, hw, ho, hlow, hhigh]

/-- A write that stores. -/
theorem plainPut_store (s : State) {d : RegDef} (o : Nat) (v : Word) (h : d.acc ≠ .w1c ∨ d.sc = true) :
    s.plainPut d o v = s.setReg (0x20000000 + o) (blend (s.reg (0x20000000 + o)) d.mask v) :=
  if_neg fun ⟨h1, h2⟩ => h.elim (· h1) fun h3 => by simp [h3] at h2

/-- A write that clears where a 1 is written. -/
theorem plainPut_clear (s : State) {d : RegDef} (o : Nat) (v : Word) (h : d.acc = .w1c) (hs : d.sc = false) :
    s.plainPut d o v = s.setReg (0x20000000 + o) (s.reg (0x20000000 + o) &&& ~~~(v &&& d.mask)) :=
  if_pos ⟨h, by simp [hs]⟩

/-! ### Reads (R16, R490) -/

theorem csrRead_unassigned (s : State) (q : Requester) {o : Nat} (hd : regDef o = none) :
    s.csrRead q o = ((s.dropCaptures (portOf q)).addrErr q o, 0) := by
  simp [State.csrRead, hd]

/-- A read of a register that is neither word of a pair. -/
theorem csrRead_single (s : State) {q : Requester} {o : Nat} {d : RegDef} (hd : regDef o = some d) (hw : d.acc ≠ .wo)
    (hs : scOnlyRead q o = false) (hl : isPairLow o = false) (hh : isPairLow (o - 4) = false) :
    s.csrRead q o = ((s.dropCaptures (portOf q)).readEffect d o, s.regVal o) := by
  simp [State.csrRead, hd, hw, hs, hl, hh]

theorem readEffect_clear (s : State) {d : RegDef} (o : Nat) (h : d.acc = .rc) : s.readEffect d o = s.setReg (0x20000000 + o) 0 := if_pos h

/-- A read of a register outside the units that no read clears has no effect on it. -/
theorem readEffect_none (s : State) {d : RegDef} {o : Nat} (h : d.acc ≠ .rc) (ho : 0x110000 ≤ o) : s.readEffect d o = s := by
  simp [State.readEffect, h, Nat.not_lt.2 ho]

/-- A read of a pair's low word keeps the high word for the port. -/
theorem csrRead_low (s : State) {q : Requester} {o : Nat} {d : RegDef} (hd : regDef o = some d) (hw : d.acc ≠ .wo) (hr : d.acc ≠ .rc)
    (hl : isPairLow o = true) :
    s.csrRead q o = ((s.dropCaptures (portOf q)).pairKeep (portOf q) (o + 4) (s.regVal (o + 4)), s.regVal o) := by
  have ho : 0x110000 ≤ o := Nat.le_trans (by decide) (isPairLow_ge hl)
  simp [State.csrRead, hd, isPairLow_sub_four hl, scOnlyRead_of_ge q ho, hl, hw, readEffect_none _ hr ho]

/-- A read of a pair's high word answers what the port has captured. -/
theorem csrRead_high (s : State) {q : Requester} {o : Nat} {d : RegDef} {v : Word} (hd : regDef (o + 4) = some d) (hl : isPairLow o = true)
    (hk : s.pairWord (portOf q) (o + 4) = some v) : (s.csrRead q (o + 4)).2 = v := by
  simp [State.csrRead, hd, hl, hk]

theorem pairWord_pairKeep (s : State) (p o : Nat) (v : Word) : (s.pairKeep p o v).pairWord p o = some v := by
  simp [State.pairWord, State.pairKeep]

/-- A port's own low word waits on while captures are dropped (R490). -/
theorem pairWord_dropCaptures (s : State) (p o : Nat) (h : isPairLow (o - 4) = false) :
    (s.dropCaptures p).pairWord p o = s.pairWord p o := by
  unfold State.pairWord State.dropCaptures
  dsimp only
  rw [List.find?_filter]
  congr 2
  funext x
  by_cases h1 : x.1 = p
  · by_cases h2 : x.2.1 = o
    · simp [h1, h2, h]
    · simp [h2]
  · simp [h1]

/-- The high word of a read-write pair is written together with the low word that the port has written (R490). -/
theorem csrWrite_high (s : State) {q : Requester} {o : Nat} {d dl : RegDef} {lo : Word} (v : Word) (ho : 0x110000 ≤ o)
    (hd : regDef o = some d) (hdl : regDef (o - 4) = some dl) (hw : mayWrite d q = true) (ha : d.acc = .rw) (hl : isPairLow (o - 4) = true)
    (hn : isPairLow o = false) (hk : s.pairWord (portOf q) (o - 4) = some lo) :
    s.csrWrite q o v =
      (((s.dropCaptures (portOf q)).regPut q dl (o - 4) lo).regPut q d o v).pairDrop (portOf q) (o - 4) := by
  have hk' := (pairWord_dropCaptures s (portOf q) (o - 4) (isPairLow_sub_four hl)).trans hk
  simp [State.csrWrite, hd, hdl, hw, ha, hl, hn, hk', Nat.not_lt.2 ho]

/-- The words of the host's window base and of its sync base (Table 12-11) are plain registers, read and written by whoever may write. -/
theorem regPut_hostBase (s : State) (q : Requester) {d : RegDef} {o : Nat} (v : Word) (ho : o ∈ [0x700010, 0x700014, 0x700018, 0x70001C])
    (hd : d.acc = .rw) : s.regPut q d o v = s.setReg (0x20000000 + o) (blend (s.reg (0x20000000 + o)) d.mask v) := by
  have h1 : s.regPut q d o v = s.plainPut d o v := by
    simp only [List.mem_cons, List.not_mem_nil, or_false] at ho
    rcases ho with rfl | rfl | rfl | rfl <;> rfl
  rw [h1, plainPut_store s o v (Or.inl (by rw [hd]; decide))]

theorem mayWrite_rRw (m : Word) {q : Requester} (h : q = .host ∨ q = .tile 16) : mayWrite (rRw m) q = true := by
  rcases h with rfl | rfl <;> rfl

/-! ### The obligation -/

/-- A permitted write of a register of a unit, neither a debug register nor the head of its spore queue. -/
theorem csrWrite_unit (s : State) {q : Requester} {o : Nat} {d : RegDef} (v : Word) (ho : o < 0x110000) (hd : regDef o = some d)
    (hw : mayWrite d q = true) (hdbg : o % 0x10000 < 0x800) (hspq : o % 0x10000 ≠ 0x310) :
    s.csrWrite q o v = (s.dropCaptures (portOf q)).tilePut q (unitIx (o / 0x10000)) (o % 0x10000) v := by
  simp only [State.csrWrite, hd]
  rw [if_neg (by omega), if_neg (by omega), hw, if_neg (by decide), if_pos ho]

theorem tilePut_flCfg (s : State) (q : Requester) {u : UnitIx} (v : Word) (hu : u.val < 16) :
    s.tilePut q u 0x300 v = s.modTile u fun t => { t with flCfg := v &&& 0x1FFFF } :=
  if_neg (Nat.ne_of_lt hu)

/-- FL_CFG of a tile is the service core's to write (Table 9-7). -/
theorem csrWrite_flCfg (s : State) (u : UnitIx) {o : Nat} (v : Word) (hu : u.val < 16) (ho : o = 0x10000 * u.val + 0x300) :
    s.csrWrite (.tile 16) o v = (s.dropCaptures (portOf (.tile 16))).modTile u fun t => { t with flCfg := v &&& 0x1FFFF } := by
  have hlt : o < 0x110000 := by omega
  have hmod : o % 0x10000 = 0x300 := by omega
  have hunit : unitIx (o / 0x10000) = u := Fin.ext (by simp only [unitIx]; omega)
  have hd : regDef o = some (rCfg 0x1FFFF) := by rw [regDef, if_pos hlt, hmod]; rfl
  rw [csrWrite_unit s v hlt hd rfl (by omega) (by omega), hunit, hmod, tilePut_flCfg _ _ v hu]

/-- The state after the two words of a host base pair are written, and what it holds. -/
theorem hostBase_pair (s : State) {q : Requester} {o : Nat} {v lo : Word}
    (ho : o = 0x700014 ∨ o = 0x70001C) (hq : q = .host ∨ q = .tile 16) (hk : s.pairWord (portOf q) (o - 4) = some lo) :
    ∃ m ml, regDef o = some (rRw m) ∧ regDef (o - 4) = some (rRw ml) ∧ s.csrWrite q o v =
      ((((s.dropCaptures (portOf q)).setReg (0x20000000 + (o - 4)) (blend (s.reg (0x20000000 + (o - 4))) ml lo)).setReg (0x20000000 + o)
        (blend (s.reg (0x20000000 + o)) m v)).pairDrop (portOf q) (o - 4)) := by
  have main : ∀ {m ml : Word}, regDef o = some (rRw m) → regDef (o - 4) = some (rRw ml) → isPairLow (o - 4) = true → isPairLow o = false →
      s.csrWrite q o v = ((((s.dropCaptures (portOf q)).setReg (0x20000000 + (o - 4)) (blend (s.reg (0x20000000 + (o - 4))) ml lo)).setReg
        (0x20000000 + o) (blend (s.reg (0x20000000 + o)) m v)).pairDrop (portOf q) (o - 4)) := by
    intro m ml hd hdl hl hn
    have ho1 : o ∈ [0x700010, 0x700014, 0x700018, 0x70001C] := by rcases ho with rfl | rfl <;> decide
    have ho2 : o - 4 ∈ [0x700010, 0x700014, 0x700018, 0x70001C] := by rcases ho with rfl | rfl <;> decide
    rw [csrWrite_high s v (by omega) hd hdl (mayWrite_rRw m hq) rfl hl hn hk, regPut_hostBase _ q lo ho2 rfl,
      regPut_hostBase _ q v ho1 rfl, reg_setReg_other _ _ _ _ (by omega)]
    rfl
  rcases ho with rfl | rfl
  · exact ⟨_, _, rfl, rfl, main rfl rfl (by decide) (by decide)⟩
  · exact ⟨_, _, rfl, rfl, main rfl rfl (by decide) (by decide)⟩

/-- Settles O29: each clause is the equation of `csrWrite` or `csrRead` for its kind of register. -/
theorem registersAreReadAndWritten : Obligations.RegistersAreReadAndWritten := by
  unfold Obligations.RegistersAreReadAndWritten
  refine ⟨?_, ?_, ?_, ?_, ?_, ?_, ?_, ?_, ?_, ?_⟩
  · intro s q a v d ⟨_, hc⟩ hup hp hd hw hs
    refine ⟨_, exec_csrWrite hup q a v, ?_⟩
    rw [csrWrite_plain s v hp hd hw, plainPut_store _ _ v hs]
    exact ⟨reg_setReg_same _ _ _ hc, sameRegs_setReg _ _ _, rfl, rfl, rfl, rfl⟩
  · intro s q a v d ⟨_, hc⟩ hup hp hd hw ha hs
    refine ⟨_, exec_csrWrite hup q a v, ?_⟩
    rw [csrWrite_plain s v hp hd hw, plainPut_clear _ _ v ha hs]
    exact ⟨reg_setReg_same _ _ _ hc, sameRegs_setReg _ _ _, rfl, rfl⟩
  · intro s q a v d ⟨_, hc⟩ hup ho hd hw
    refine ⟨_, exec_csrWrite hup q a v, ?_⟩
    rw [csrWrite_refused s v ho hd hw]
    exact ⟨bump_toNat (s.dropCaptures (portOf q)) _ hc, sameRegs_bump _ _, rfl, rfl, rfl, rfl⟩
  · intro s q a v ⟨_, hc⟩ hup hd
    refine ⟨_, exec_csrWrite hup q a v, ?_⟩
    rw [csrWrite_unassigned s q v hd]
    obtain ⟨ht, hm, -⟩ := addrErr_frame (s.dropCaptures (portOf q)) q (dwordOf a)
    have hc' : swf 0 (s.dropCaptures (portOf q)).csr = true := hc
    refine ⟨addrErr_count hc' q _, addrErr_flag hc' q _, fun h => ?_, addrErr_captured (s.dropCaptures (portOf q)) q (dwordOf a),
      addrErr_sameRegs (s.dropCaptures (portOf q)) q (dwordOf a), ht, hm⟩
    have ha := dwordOf_lt a
    have hq := portOf_lt q
    rw [addrErr_capture hc' q _ h, BitVec.toNat_ofNat]
    omega
  · intro s u a v hup hu ho
    refine ⟨_, exec_csrWrite hup _ a v, ?_⟩
    rw [csrWrite_flCfg s u v hu ho]
    exact ⟨congrArg Tile.flCfg (tile_modTile_same _ u _), fun w hw => tile_modTile_other _ u w _ hw, rfl, rfl⟩
  · intro s q a d ⟨_, hc⟩ hup hd ha hl hh
    refine ⟨_, exec_readClearAccess hup q a, ?_⟩
    have hne : d.acc ≠ .wo := by rw [ha]; decide
    rw [State.csrAnswer, csrRead_single s hd hne (scOnlyRead_of_rc q hd ha) hl hh, readEffect_clear _ _ ha]
    exact ⟨rfl, reg_setReg_same _ _ _ hc, sameRegs_setReg _ _ _, rfl, rfl⟩
  · intro s q a d hup ho hd ha hl hh
    refine ⟨_, exec_readClearAccess hup q a, ?_⟩
    have hne : d.acc ≠ .wo ∧ d.acc ≠ .rc := by rcases ha with h | h | h <;> rw [h] <;> decide
    rw [State.csrAnswer, csrRead_single s hd hne.1 (scOnlyRead_of_ge q ho) hl hh, readEffect_none _ hne.2 ho]
    exact ⟨rfl, rfl, rfl, rfl⟩
  · intro s q a ⟨_, hc⟩ hup hd
    refine ⟨_, exec_readClearAccess hup q a, ?_⟩
    rw [State.csrAnswer, csrRead_unassigned s q hd]
    obtain ⟨ht, hm, ho⟩ := addrErr_frame (s.dropCaptures (portOf q)) q (dwordOf a)
    have hc' : swf 0 (s.dropCaptures (portOf q)).csr = true := hc
    exact ⟨congrArg _ ho, addrErr_count hc' q _, addrErr_flag hc' q _, addrErr_sameRegs (s.dropCaptures (portOf q)) q (dwordOf a), ht, hm⟩
  · intro s q a d d2 hup hl hd hd2 ha
    refine ⟨_, exec_pairLowRead hup q a hl, ?_⟩
    have hne : d.acc ≠ .wo ∧ d.acc ≠ .rc := by rcases ha with h | h <;> rw [h] <;> decide
    rw [State.csrAnswer, csrRead_low s hd hne.1 hne.2 hl]
    refine ⟨rfl, rfl, rfl, rfl, fun t' ht' => csrRead_high t' hd2 hl ?_⟩
    rw [State.pairWord, ht']
    exact pairWord_pairKeep (s.dropCaptures (portOf q)) _ _ _
  · intro s q a v lo ⟨_, hc⟩ hup ho hq hk
    obtain ⟨m, ml, hd, hdl, he⟩ := hostBase_pair s (v := v) ho hq hk
    have h4 : 4 ≤ dwordOf a := by omega
    have hl : isPairLow (dwordOf a - 4) = true := by rcases ho with h | h <;> rw [h] <;> decide
    refine ⟨_, _, _, exec_pairHighWrite hup q a v h4 hl, hd, hdl, ?_⟩
    rw [he]
    have hne : 0x20000000 + (dwordOf a - 4) ≠ 0x20000000 + dwordOf a := by omega
    refine ⟨reg_setReg_same _ _ _ (swf_sset _ _ _ _ hc), ?_, ?_, rfl, rfl⟩
    · exact (reg_setReg_other _ _ _ _ hne).trans (reg_setReg_same (s.dropCaptures (portOf q)) _ _ hc)
    · exact sameRegs_setReg_mem (sameRegs_setReg_mem (sameRegs_of_csr (t := s.dropCaptures (portOf q)) rfl _) (by simp)) (by simp)

end Sys2Proof.Proofs
end

section
/-! PROOFS. What an access to a bank leaves as it is, and what its answer depends on. -/

namespace Sys2Proof.Proofs

open Sys2Proof Sys2Proof.Machine Sys2Proof.Laws

/-! ## Bank accesses -/

/-- What a write to a bank leaves as it is: all but memory, its marks, the registers, reports, the vehicle slots and what is handed out. -/
structure BankFrame (s t : State) : Prop where
  sample  : t.sample = s.sample
  bsize   : t.bsize = s.bsize
  tiles   : t.tiles = s.tiles
  bmt     : t.bmt = s.bmt
  merr    : t.merr = s.merr
  dev     : t.dev = s.dev
  host    : t.host = s.host
  ce      : t.ce = s.ce
  aud     : t.aud = s.aud
  lk      : t.lk = s.lk
  fab     : t.fab = s.fab
  pending : t.pending = s.pending

theorem BankFrame.refl (s : State) : BankFrame s s := ⟨rfl, rfl, rfl, rfl, rfl, rfl, rfl, rfl, rfl, rfl, rfl, rfl⟩

theorem BankFrame.trans {a b c : State} (h : BankFrame a b) (g : BankFrame b c) : BankFrame a c :=
  ⟨g.sample.trans h.sample, g.bsize.trans h.bsize, g.tiles.trans h.tiles, g.bmt.trans h.bmt, g.merr.trans h.merr, g.dev.trans h.dev,
    g.host.trans h.host, g.ce.trans h.ce, g.aud.trans h.aud, g.lk.trans h.lk, g.fab.trans h.fab, g.pending.trans h.pending⟩

/-- What a read of a bank leaves as it is: its bytes and marks as well. -/
structure ReadFrame (s t : State) : Prop extends BankFrame s t where
  mem : t.mem = s.mem
  ecc : t.ecc = s.ecc

theorem ReadFrame.refl (s : State) : ReadFrame s s := ⟨.refl s, rfl, rfl⟩

theorem ReadFrame.trans {a b c : State} (h : ReadFrame a b) (g : ReadFrame b c) : ReadFrame a c :=
  ⟨h.toBankFrame.trans g.toBankFrame, g.mem.trans h.mem, g.ecc.trans h.ecc⟩

theorem foldl_bankFrame {α : Type} (f : State → α → State) (hf : ∀ s a, BankFrame s (f s a)) (l : List α) (s : State) :
    BankFrame s (l.foldl f s) := by
  induction l generalizing s with
  | nil => exact .refl s
  | cons a l ih => exact (hf s a).trans (ih (f s a))

theorem foldl_fst_bankFrame {α β : Type} (f : State × β → α → State × β) (hf : ∀ p a, BankFrame p.1 (f p a).1) (l : List α) (p : State × β) :
    BankFrame p.1 (l.foldl f p).1 := by
  induction l generalizing p with
  | nil => exact .refl p.1
  | cons a l ih => exact (hf p a).trans (ih (f p a))

theorem foldl_readFrame {α : Type} (f : State → α → State) (hf : ∀ s a, ReadFrame s (f s a)) (l : List α) (s : State) :
    ReadFrame s (l.foldl f s) := by
  induction l generalizing s with
  | nil => exact .refl s
  | cons a l ih => exact (hf s a).trans (ih (f s a))

theorem setReg_readFrame (s : State) (a : Nat) (v : Word) : ReadFrame s (s.setReg a v) :=
  ⟨⟨rfl, rfl, rfl, rfl, rfl, rfl, rfl, rfl, rfl, rfl, rfl, rfl⟩, rfl, rfl⟩

theorem modReg_readFrame (s : State) (a : Nat) (f : Word → Word) : ReadFrame s (s.modReg a f) := setReg_readFrame s a _

theorem setRegFld_readFrame (s : State) (a hi lo v : Nat) : ReadFrame s (s.setRegFld a hi lo v) := setReg_readFrame s a _

theorem orReg_readFrame (s : State) (a : Nat) (m : Word) : ReadFrame s (s.orReg a m) := setReg_readFrame s a _

theorem bump_readFrame (s : State) (a : Nat) : ReadFrame s (s.bump a) := setReg_readFrame s a _

theorem orReg_ce (s : State) (a : Nat) (m : Word) : (s.orReg a m).ce = s.ce := rfl

theorem bump_ce (s : State) (a : Nat) : (s.bump a).ce = s.ce := rfl

theorem report_readFrame (s : State) (c u : Nat) (d : List Word) : ReadFrame s (s.report c u d) :=
  ⟨⟨rfl, rfl, rfl, rfl, rfl, rfl, rfl, rfl, rfl, rfl, rfl, rfl⟩, rfl, rfl⟩

theorem freeCtr_readFrame (s : State) : ReadFrame s { s with freeCtr := s.freeCtr + 1 } :=
  ⟨⟨rfl, rfl, rfl, rfl, rfl, rfl, rfl, rfl, rfl, rfl, rfl, rfl⟩, rfl, rfl⟩

theorem eccRecordAt_readFrame (s : State) (a key : Nat) (m : EccMark) (q : Nat) : ReadFrame s (s.eccRecordAt a key m q) := by
  unfold State.eccRecordAt
  split
  · exact .refl s
  · extract_lets st ue inShadow ce0 ue0 capture s1 bit s2 pos
    have h2 : ReadFrame s s2 := (setReg_readFrame s _ _).trans (setReg_readFrame s1 _ _)
    split
    · exact ((h2.trans (freeCtr_readFrame s2)).trans (setReg_readFrame _ _ _)).trans
        ((setReg_readFrame _ _ _).trans (setReg_readFrame _ _ _))
    · exact h2

theorem eccRecord_readFrame (s : State) (a : Nat) (m : EccMark) (q : Nat) : ReadFrame s (s.eccRecord a m q) :=
  eccRecordAt_readFrame ..

theorem reportCe_readFrame (s : State) (a : Nat) : ReadFrame s (s.reportCe a) := by
  unfold State.reportCe
  split
  · exact .refl s
  · exact report_readFrame ..

theorem eccRead_readFrame (s : State) (a q : Nat) : ReadFrame s (s.eccRead a q) := by
  unfold State.eccRead
  split
  · exact .refl s
  · next p _ =>
    obtain ⟨⟨h1, h2, h3, h4, h5, h6, h7, h8, h9, h10, h11, h12⟩, h13, h14⟩ :=
      (eccRecord_readFrame s a (.ce p) q).trans (reportCe_readFrame _ a)
    exact ⟨⟨h1, h2, h3, h4, h5, h6, h7, h8, h9, h10, h11, h12⟩, h13, h14⟩
  · dsimp only
    split
    · exact eccRecord_readFrame ..
    · exact (eccRecord_readFrame s a .ue q).trans (report_readFrame ..)

theorem eccReadRange_readFrame (s : State) (a n q : Nat) : ReadFrame s (s.eccReadRange a n q) :=
  foldl_readFrame _ (fun s w => eccRead_readFrame s w q) _ _

theorem setByte_bankFrame (s : State) (a : Nat) (b : Byte) : BankFrame s (s.setByte a b) := by
  unfold State.setByte
  split <;> exact ⟨rfl, rfl, rfl, rfl, rfl, rfl, rfl, rfl, rfl, rfl, rfl, rfl⟩

theorem setBytes_bankFrame (s : State) (a : Nat) (bs : List Byte) : BankFrame s (s.setBytes a bs) := by
  induction bs generalizing s a with
  | nil => exact .refl s
  | cons b r ih => exact (setByte_bankFrame s a b).trans (ih (s.setByte a b) (a + 1))

theorem unmark_bankFrame (s : State) (key : Nat) : BankFrame s (s.unmark key) :=
  ⟨rfl, rfl, rfl, rfl, rfl, rfl, rfl, rfl, rfl, rfl, rfl, rfl⟩

theorem eccMerge_bankFrame (s : State) (w key : Nat) (full : Bool) (q : Nat) : BankFrame s (s.eccMerge w key full q) := by
  unfold State.eccMerge
  split
  · exact .refl s
  · next p _ =>
    split
    · exact unmark_bankFrame s key
    · exact ((eccRecordAt_readFrame s w key (.ce p) q).trans (reportCe_readFrame _ w)).toBankFrame.trans (unmark_bankFrame _ key)
  · split
    · exact unmark_bankFrame s key
    · exact .refl s

theorem eccWriteWord_bankFrame (s : State) (w a n q : Nat) : BankFrame s (s.eccWriteWord w a n q) := by
  have h : BankFrame s { s with wback := s.wback.filter (· ≠ w) } :=
    ⟨rfl, rfl, rfl, rfl, rfl, rfl, rfl, rfl, rfl, rfl, rfl, rfl⟩
  unfold State.eccWriteWord
  dsimp only
  split
  · exact (h.trans (eccMerge_bankFrame ..)).trans (eccMerge_bankFrame ..)
  · exact h.trans (eccMerge_bankFrame ..)

theorem memWrite_bankFrame (s : State) (a : Nat) (bs : List Byte) (q : Nat) : BankFrame s (s.memWrite a bs q) :=
  (foldl_bankFrame _ (fun s w => eccWriteWord_bankFrame s w a bs.length q) _ s).trans (setBytes_bankFrame ..)

theorem slotStore_bankFrame (s : State) (o : Nat) (bs : List Byte) : BankFrame s (s.slotStore o bs) := by
  induction bs generalizing s o with
  | nil => exact .refl s
  | cons b r ih =>
    refine BankFrame.trans ?_ (ih (s.slotByte o b) (o + 1))
    unfold State.slotByte State.setSlot State.forwardOut
    dsimp only
    split <;> split <;> exact ⟨rfl, rfl, rfl, rfl, rfl, rfl, rfl, rfl, rfl, rfl, rfl, rfl⟩

theorem bankPut_bankFrame (s : State) (q : Requester) (a : Nat) (bs : List Byte) : BankFrame s (s.bankPut q a bs).1 := by
  unfold State.bankPut
  split
  · exact .refl s
  · split
    · exact slotStore_bankFrame ..
    · exact memWrite_bankFrame ..

/-- With no row transfer waiting or withdrawn a write is one access (R53). -/
theorem bankWrite_of_noRows {s : State} (q : Requester) (a : Nat) (bs : List Byte) (hr : s.NoRows) :
    s.bankWrite q a bs = s.bankPut q a bs := if_pos hr

theorem bankWrite_bankFrame {s : State} (q : Requester) (a : Nat) (bs : List Byte) (hr : s.NoRows) : BankFrame s (s.bankWrite q a bs).1 := by
  rw [bankWrite_of_noRows q a bs hr]
  exact bankPut_bankFrame ..

theorem BankFrame.noRows {s t : State} (h : BankFrame s t) (hr : s.NoRows) : t.NoRows := by
  rw [State.NoRows, h.fab]
  exact hr

theorem foldl_bankWrite_bankFrame {s : State} (q : Requester) (ws : List (Nat × List Byte)) (hr : s.NoRows) :
    BankFrame s (ws.foldl (fun s w => (s.bankWrite q w.1 w.2).1) s) := by
  induction ws generalizing s with
  | nil => exact .refl s
  | cons w ws ih =>
    have h := bankWrite_bankFrame (s := s) q w.1 w.2 hr
    exact h.trans (ih (h.noRows hr))

/-! ## What a read gives -/

theorem readKey_congr {s t : State} (h : t.bmt = s.bmt) (a : Nat) : t.readKey a = s.readKey a := by
  unfold State.readKey State.bmtOf
  rw [h]

theorem bytes_congr {s t : State} (hm : t.mem = s.mem) (hb : t.bmt = s.bmt) (a n : Nat) : t.bytes a n = s.bytes a n := by
  unfold State.bytes
  refine List.map_congr_left fun x _ => ?_
  rw [State.byte, State.byte, hm, readKey_congr hb]

theorem mark_congr {s t : State} (he : t.ecc = s.ecc) (hb : t.bmt = s.bmt) (a : Nat) : t.mark a = s.mark a := by
  simp only [State.mark, State.markAt, he, readKey_congr hb]

theorem ueIn_congr {s t : State} (he : t.ecc = s.ecc) (hb : t.bmt = s.bmt) (rs : List (Nat × Nat)) : t.ueIn rs = s.ueIn rs := by
  simp only [State.ueIn, State.firstUe, mark_congr he hb]

theorem ueIn_of_no_marks {s : State} (h : s.ecc = []) (rs : List (Nat × Nat)) : s.ueIn rs = none := by
  simp [State.ueIn, State.firstUe, State.mark, State.markAt, h]

end Sys2Proof.Proofs
end

section
/-! PROOFS. The convolution engines: what a failing job leaves alone, an equation of each command for each case, and O14. -/

namespace Sys2Proof.Proofs

open Sys2Proof Sys2Proof.Machine Sys2Proof.Laws

/-! ## Units and device events -/

/-- Every unit is as it was but for the device events pending in it. -/
def SameButEvents (s t : State) : Prop := ∀ v, { t.tile v with ipend := (s.tile v).ipend } = s.tile v

theorem SameButEvents.of_tiles {s t : State} (h : t.tiles = s.tiles) : SameButEvents s t := fun v => by rw [tile_of_tiles h]

theorem SameButEvents.waiting {s t : State} (h : SameButEvents s t) (v : UnitIx) : (t.tile v).waiting = (s.tile v).waiting :=
  (congrArg Tile.waiting (h v) :)

theorem SameButEvents.trans {s t r : State} (h : SameButEvents s t) (g : SameButEvents t r) : SameButEvents s r := fun v => by
  rw [← h v, ← g v]

/-- Units that differ from another state's by device events alone, where that state differs from a first in unit `u` alone. -/
theorem SameButEvents.eventsOnly {s t r : State} {u : UnitIx} (h : SameButEvents t r) (g : s.SameUnits t u) : s.EventsOnly r u :=
  fun v hv => by rw [← g v hv]; exact h v

theorem devEvent_sameButEvents (s : State) (n : Nat) : SameButEvents s (s.devEvent n) := fun v => by
  simp only [State.tile, State.devEvent, Fin.getElem_fin, Vector.getElem_mapIdx]
  split <;> rfl

theorem modTile_sameUnits (s : State) (u : UnitIx) (f : Tile → Tile) : s.SameUnits (s.modTile u f) u :=
  fun v hv => tile_modTile_other s u v f hv

/-! ## The end of a submission -/

theorem complete_waiting (t : Tile) (k : TicketIx) (st el fa : Nat) (g : Bool) : (t.complete k st el fa g).waiting = t.waiting := by
  unfold Tile.complete
  dsimp only
  split <;> rfl

theorem complete_far (t : Tile) (k : TicketIx) (st el fa : Nat) (g : Bool) : (t.complete k st el fa g).far = t.far := by
  unfold Tile.complete
  dsimp only
  split <;> rfl

theorem endFar_waiting (t : Tile) (seq st fa : Nat) (g : Bool) : (t.endFar seq st fa g).waiting = t.waiting := by
  unfold Tile.endFar
  split
  · rfl
  · dsimp only
    split
    · exact complete_waiting ..
    · rfl

/-- The operation leaves the unit. -/
theorem endFar_far (t : Tile) (seq st fa : Nat) (g : Bool) : (t.endFar seq st fa g).far = t.far.filter fun f => decide (f.seq ≠ seq) := by
  unfold Tile.endFar
  split
  · next h =>
    refine (List.filter_eq_self.2 fun f hf => ?_).symm
    have := List.find?_eq_none.1 h f hf
    simpa using this
  · dsimp only
    split
    · exact complete_far ..
    · rfl

/-- With no frond of the unit waiting, the end of a submission touches that unit's tickets and far operations alone (R129, R130). -/
theorem ceEnd_of_not_waiting {s : State} {e : CeEntry} (st fa : Nat) (g : Bool) (h : (s.tile e.unit).waiting = false) :
    s.ceEnd e st fa g = s.modTile e.unit fun t => t.endFar e.far st fa g := by
  unfold State.ceEnd resumeJoin
  dsimp only
  rw [if_neg]
  rw [tile_modTile_same, endFar_waiting, h]
  simp

/-! ## Engines -/

theorem eng_of_ce {s t : State} (h : t.ce = s.ce) (k : Fin 4) : t.eng k = s.eng k := by
  simp only [State.eng, h]

@[simp] theorem eng_modEng_same (s : State) (k : Fin 4) (f : CeState → CeState) : (s.modEng k f).eng k = f (s.eng k) := by
  simp [State.eng]

@[simp] theorem eng_modEng_other (s : State) (k j : Fin 4) (f : CeState → CeState) (h : j ≠ k) : (s.modEng k f).eng j = s.eng j := by
  have : k.val ≠ j.val := fun e => h (Fin.ext e.symm)
  simp [State.eng, this]

/-- The registers of an engine's failure record: ERR_STAT, ERR_INFO and JOB_CNT (Table 10-10). -/
def failRegs (k : Fin 4) : List Nat := [Csr.ceBase k.val + 0x0C, Csr.ceBase k.val + 0x10, Csr.ceBase k.val + 0x14]

/-- What a failing job leaves alone: engines, memory, and every register but its engine's counter and capture; no unit begins or stops to
wait. -/
structure Failed (s t : State) (k : Fin 4) : Prop where
  ce      : t.ce = s.ce
  mem     : t.mem = s.mem
  regs    : s.SameRegs t (failRegs k)
  waiting : ∀ v, (t.tile v).waiting = (s.tile v).waiting

theorem Failed.refl (s : State) (k : Fin 4) : Failed s s k := ⟨rfl, rfl, fun _ _ => rfl, fun _ => rfl⟩

theorem Failed.trans {a b c : State} {k : Fin 4} (h : Failed a b k) (g : Failed b c k) : Failed a c k :=
  ⟨g.ce.trans h.ce, g.mem.trans h.mem, fun x hx => (g.regs x hx).trans (h.regs x hx), fun v => (g.waiting v).trans (h.waiting v)⟩

/-- A register of the engine's failure record is written. -/
theorem Failed.setReg {s t : State} {k : Fin 4} (h : Failed s t k) {a : Nat} (v : Word)
    (ha : a ∈ failRegs k) : Failed s (t.setReg a v) k :=
  ⟨h.ce, h.mem, sameRegs_setReg_mem h.regs ha, h.waiting⟩

theorem Failed.devEvent {s t : State} {k : Fin 4} (h : Failed s t k) (n : Nat) : Failed s (t.devEvent n) k :=
  ⟨h.ce, h.mem, h.regs, fun v => ((devEvent_sameButEvents t n).waiting v).trans (h.waiting v)⟩

theorem Failed.report {s t : State} {k : Fin 4} (h : Failed s t k) (c u : Nat) (d : List Word) : Failed s (t.report c u d) k :=
  ⟨h.ce, h.mem, h.regs, h.waiting⟩

section
variable {s : State} {e : CeEntry} (k : Fin 4) (st fa : Nat) (h : (s.tile e.unit).waiting = false)
include h

theorem ceFail_sameButEvents :
    SameButEvents (s.modTile e.unit fun t => t.endFar e.far st fa true) (s.ceFail k e st fa) := by
  unfold State.ceFail
  rw [ceEnd_of_not_waiting st fa true h]
  generalize s.modTile e.unit (fun t => t.endFar e.far st fa true) = x
  extract_lets b s1 s2
  have h1 : ReadFrame x s1 := bump_readFrame x _
  have h2 : SameButEvents x s2 := by
    unfold s2
    split
    · exact .of_tiles (h1.trans (orReg_readFrame s1 _ _)).tiles
    · exact (SameButEvents.of_tiles ((h1.trans (modReg_readFrame s1 _ _)).trans (setReg_readFrame _ _ _)).tiles).trans
        (devEvent_sameButEvents _ _)
  exact h2.trans (.of_tiles (report_tiles ..))

theorem ceFail_failed : Failed s (s.ceFail k e st fa) k := by
  unfold State.ceFail
  rw [ceEnd_of_not_waiting st fa true h]
  have hw : ∀ v, ((s.modTile e.unit fun t => t.endFar e.far st fa true).tile v).waiting = (s.tile v).waiting := by
    intro v
    by_cases hv : v = e.unit
    · rw [hv, tile_modTile_same, endFar_waiting]
    · rw [tile_modTile_other _ _ _ _ hv]
  have hx : Failed s (s.modTile e.unit fun t => t.endFar e.far st fa true) k := ⟨rfl, rfl, fun _ _ => rfl, hw⟩
  generalize s.modTile e.unit (fun t => t.endFar e.far st fa true) = x at hx
  extract_lets b s1 s2
  have h1 : Failed s s1 k := hx.setReg _ (by simp [b, failRegs])
  have h2 : Failed s s2 k := by
    unfold s2
    split
    · exact h1.setReg _ (by simp [b, failRegs])
    · exact ((h1.setReg _ (by simp [b, failRegs])).setReg _ (by simp [b, failRegs])).devEvent _
  exact h2.report ..

theorem ceFail_eventsOnly : s.EventsOnly (s.ceFail k e st fa) e.unit :=
  (ceFail_sameButEvents k st fa h).eventsOnly (modTile_sameUnits _ _ _)

end

/-- A running job that fails leaves its engine idle. -/
theorem ceFailRun_idle {s : State} (k : Fin 4) {r : CeRunning} (st fa : Nat) (h : (s.tile r.ent.unit).waiting = false) :
    ((s.ceFailRun k r st fa).eng k).run = none ∧ s.EventsOnly (s.ceFailRun k r st fa) r.ent.unit ∧ (s.ceFailRun k r st fa).mem = s.mem := by
  unfold State.ceFailRun
  have ht := (orReg_readFrame (s.modEng k fun x => { x with run := none }) (Csr.ceBase k.val + 0x1C) (r.flags.setWidth 32))
  generalize (s.modEng k fun x => { x with run := none }).orReg (Csr.ceBase k.val + 0x1C) (r.flags.setWidth 32) = y at ht
  have hw : (y.tile r.ent.unit).waiting = false := by rw [tile_of_tiles ht.tiles]; exact h
  have hf := ceFail_failed k st fa hw
  refine ⟨?_, fun v hv => ?_, hf.mem.trans ht.mem⟩
  · rw [eng_of_ce hf.ce, eng_of_ce ht.ce, eng_modEng_same]
  · have := ceFail_eventsOnly k st fa hw v hv
    rwa [tile_of_tiles ht.tiles] at this

/-! ## The phases of a job (R278) -/

theorem ceReads_readFrame (s : State) (q : Nat) (rs : List (Nat × Nat)) : ReadFrame s (s.ceReads q rs) :=
  foldl_readFrame _ (fun s (r : Nat × Nat) => eccReadRange_readFrame s r.1 r.2 q) _ _

/-- Phase 2 writes the engine's own bank. -/
theorem ceInput_bankFrame (s : State) (k : Fin 4) (j : CeJob) (u : UnitIx) (seg : Int) (n : Nat) (fl : BitVec 5) :
    BankFrame s (s.ceInput k j u seg n fl).1 := by
  refine foldl_fst_bankFrame _ (fun sf q => ?_) _ (s, fl)
  dsimp only
  split
  · exact (memWrite_bankFrame ..).trans (memWrite_bankFrame ..)
  · exact memWrite_bankFrame ..

/-- A job whose phase 3 is over: at phase 2 of its next segment, or at phase 4 after the last (R273, R278). -/
def accumulated (r : CeRunning) (fl : BitVec 5) (outs : List (Nat × List Byte)) : CeRunning :=
  if r.seg + 1 < (CeJob.ofBytes r.entry).segs r.b then { r with phase := .input, seg := r.seg + 1, flags := fl, outs := outs }
  else { r with phase := .output, flags := fl }

/-- BUSY_CYC has counted the cycles of the phase that ends. -/
def busyCounted (s : State) (k : Fin 4) (cyc : Nat) : State :=
  s.modReg (Csr.ceBase k.val + 0x18) fun x => BitVec.ofNat 32 (min 0xFFFFFFFF (x.toNat + cyc))

theorem busyCounted_readFrame (s : State) (k : Fin 4) (cyc : Nat) : ReadFrame s (busyCounted s k cyc) := modReg_readFrame s _ _

theorem busyCounted_ceEn (s : State) (k : Fin 4) (cyc : Nat) : (busyCounted s k cyc).ceEn k = s.ceEn k := by
  unfold State.ceEn busyCounted
  rw [reg_modReg_other _ _ _ _ (by omega)]

theorem busyCounted_leave (s : State) (k : Fin 4) (cyc : Nat) :
    (busyCounted s k cyc).reg (Csr.leaveCe k.val) = s.reg (Csr.leaveCe k.val) := by
  unfold busyCounted
  refine reg_modReg_other _ _ _ _ ?_
  unfold Csr.leaveCe Csr.ceBase
  omega

theorem busyCounted_ueIn (s : State) (k : Fin 4) (cyc : Nat) (rs : List (Nat × Nat)) : (busyCounted s k cyc).ueIn rs = s.ueIn rs :=
  ueIn_congr (busyCounted_readFrame s k cyc).ecc (busyCounted_readFrame s k cyc).bmt rs

theorem exec_cePhaseAdvance (s : State) (k : Fin 4) (ferr : Option (BitVec 36)) (cyc : Nat) :
    exec (.cePhaseAdvance k ferr cyc) s = .next (s.ceAdvance k ferr cyc) := rfl

theorem ceAdvance_idle {s : State} {k : Fin 4} (ferr : Option (BitVec 36)) (cyc : Nat) (h : (s.eng k).run = none) :
    s.ceAdvance k ferr cyc = s := by
  simp [State.ceAdvance, h]

section
variable {s : State} {k : Fin 4} {r : CeRunning} (cyc : Nat) (hr : (s.eng k).run = some r)
include hr

/-- A job of an engine that has been disabled ends (R288). -/
theorem ceAdvance_disabled (ferr : Option (BitVec 36)) (h : r.dead = true ∨ s.ceEn k = false) :
    s.ceAdvance k ferr cyc = (busyCounted s k cyc).ceFailRun k r 0x43 0 := by
  unfold State.ceAdvance
  rw [hr]
  refine if_pos ?_
  rcases h with h | h
  · exact Or.inl h
  · exact Or.inr (by rw [← busyCounted, busyCounted_ceEn, h]; rfl)

end

section
variable {s : State} {k : Fin 4} {r : CeRunning} (cyc : Nat) (hd : r.dead = false) (he : s.ceEn k = true)
include hd he

/-- The job is alive and its engine enabled. -/
theorem job_alive : ¬(r.dead = true ∨ (!(busyCounted s k cyc).ceEn k) = true) := by
  rw [busyCounted_ceEn, hd, he]
  decide

variable (hr : (s.eng k).run = some r)
include hr

theorem ceAdvance_start (hp : r.phase = .start) (hl : s.reg (Csr.leaveCe k.val) ≠ 0)
    (hu : s.ueIn [(ceAddr k (64 * r.ent.job), 64)] = none) :
    s.ceAdvance k none cyc = ((busyCounted s k cyc).ceReads 0 [(ceAddr k (64 * r.ent.job), 64)]).ceLatch k r := by
  unfold State.ceAdvance
  simp only [hr, hp]
  rw [← busyCounted, if_neg (job_alive cyc hd he), busyCounted_leave, if_neg hl, busyCounted_ueIn, hu]

/-- Phase 2 reads its segment and goes on to phase 3. -/
theorem ceAdvance_input (hp : r.phase = .input) {j : CeJob} {rs : List (Nat × Nat) × List (Nat × Nat)} (hj : j = CeJob.ofBytes r.entry)
    (hrs : rs = j.inputReads k (localBase r.ent.unit) (j.segIx r.b r.k0 r.ent.block r.seg) r.seg) (hu : s.ueIn (rs.1 ++ rs.2) = none) :
    ∃ x fl, BankFrame s x ∧
      s.ceAdvance k none cyc = x.modEng k fun y => { y with run := some { r with phase := .accumulate, flags := fl } } := by
  subst hj hrs
  unfold State.ceAdvance
  simp only [hr, hp]
  rw [← busyCounted, if_neg (job_alive cyc hd he), busyCounted_ueIn, hu]
  refine ⟨_, _, ?_, rfl⟩
  exact (((busyCounted_readFrame s k cyc).trans (ceReads_readFrame ..)).trans (ceReads_readFrame ..)).toBankFrame.trans
    (ceInput_bankFrame ..)

/-- Phase 3 goes on to phase 2 of the next segment, and to phase 4 after the last. -/
theorem ceAdvance_accumulate (hp : r.phase = .accumulate) (hc : s.ecc = []) :
    ∃ x fl outs, BankFrame s x ∧ s.ceAdvance k none cyc = x.modEng k fun y => { y with run := some (accumulated r fl outs) } := by
  unfold State.ceAdvance
  simp only [hr, hp]
  rw [← busyCounted, if_neg (job_alive cyc hd he), busyCounted_ueIn, ueIn_of_no_marks hc]
  refine ⟨_, _, _, ?_, rfl⟩
  refine ((busyCounted_readFrame s k cyc).trans (ceReads_readFrame ..)).toBankFrame.trans (foldl_bankFrame _ (fun s x => ?_) _ _)
  exact foldl_bankFrame _ (fun s w => memWrite_bankFrame ..) _ _

/-- Phase 4 writes the owner's bank and ends the job. -/
theorem ceAdvance_output (hp : r.phase = .output) (hc : s.ecc = []) (hn : s.NoRows) :
    ∃ x : State, x.tiles = s.tiles ∧ x.ce = (s.modEng k fun y => { y with run := none }).ce ∧ s.ceAdvance k none cyc = x.ceEnd r.ent 0 0 false := by
  unfold State.ceAdvance
  simp only [hr, hp]
  rw [← busyCounted, if_neg (job_alive cyc hd he), busyCounted_ueIn, ueIn_of_no_marks hc]
  have h1 : BankFrame s ((busyCounted s k cyc).ceReads 0 (((CeJob.ofBytes r.entry).staged k r).map (·.2))) :=
    ((busyCounted_readFrame s k cyc).trans (ceReads_readFrame ..)).toBankFrame
  have h2 := h1.trans (foldl_bankWrite_bankFrame (.ce k) ((busyCounted s k cyc).ceRows k (CeJob.ofBytes r.entry) r) (h1.noRows hn))
  have h3 := h2.trans (bankWrite_bankFrame (.ce k) (localBase r.ent.unit + (CeJob.ofBytes r.entry).statw) r.statw (h2.noRows hn))
  refine ⟨_, ?_, ?_, rfl⟩
  · exact h3.tiles
  · rw [orReg_ce, bump_ce, modEng_ce, modEng_ce, h3.ce]

end

/-- A transfer of a job that was discarded ends the job (R28, R280). -/
theorem ceAdvance_discarded {s : State} {k : Fin 4} {r : CeRunning} (a : BitVec 36) (cyc : Nat) (hr : (s.eng k).run = some r)
    (hn : s.NoRows) : ∃ x st fa, BankFrame s x ∧ s.ceAdvance k (some a) cyc = x.ceFailRun k r st fa := by
  have h0 := busyCounted_readFrame s k cyc
  by_cases hd : r.dead = true ∨ s.ceEn k = false
  · exact ⟨_, _, _, h0.toBankFrame, ceAdvance_disabled cyc hr (some a) hd⟩
  · obtain ⟨hd, he⟩ := not_or.1 hd
    have ha := job_alive (k := k) cyc (Bool.not_eq_true _ ▸ hd) (Bool.not_eq_false _ ▸ he)
    unfold State.ceAdvance
    simp only [hr]
    rw [← busyCounted, if_neg ha]
    cases hp : r.phase with
    | output =>
      refine ⟨_, _, _, ?_, rfl⟩
      have h1 := (h0.trans (ceReads_readFrame (busyCounted s k cyc) 0 (((CeJob.ofBytes r.entry).staged k r).map (·.2)))).toBankFrame
      exact h1.trans (foldl_bankWrite_bankFrame _ _ (h1.noRows hn))
    | start => exact ⟨_, _, _, h0.toBankFrame, rfl⟩
    | input => exact ⟨_, _, _, h0.toBankFrame, rfl⟩
    | accumulate => exact ⟨_, _, _, h0.toBankFrame, rfl⟩

/-- The start latches the entry and the active slot (R283). -/
theorem ceLatch_first (s : State) (k : Fin 4) (r : CeRunning)
    (h : ∀ y ∈ (s.eng k).runs, ¬(y.1 = r.ent.job ∧ y.2.1 = r.ent.block)) :
    ∃ q, ((s.ceLatch k r).eng k).run = some q ∧ q.phase = .input ∧ q.ent = r.ent ∧ q.seg = r.seg ∧
      q.entry = s.bytes (ceAddr k (64 * r.ent.job)) 64 ∧ q.setB = (s.eng k).setB.contains r.ent.job ∧
      (s.ceLatch k r).mem = s.mem ∧ (s.ceLatch k r).tiles = s.tiles := by
  have hf : (s.eng k).runs.find? (fun y => decide (y.1 = r.ent.job) && decide (y.2.1 = r.ent.block)) = none :=
    List.find?_eq_none.2 fun y hy => by simpa using h y hy
  unfold State.ceLatch
  dsimp only
  rw [hf]
  exact ⟨_, congrArg CeState.run (eng_modEng_same s k _), rfl, rfl, rfl, rfl, rfl, rfl, rfl⟩

/-- A job that runs again latches what it latched before (R279). -/
theorem ceLatch_again (s : State) (k : Fin 4) (r : CeRunning) {y : Nat × Nat × Bool × Bool} (hy : (s.eng k).runs = [y])
    (hj : y.1 = r.ent.job) (hb : y.2.1 = r.ent.block) :
    ∃ q, ((s.ceLatch k r).eng k).run = some q ∧ q.phase = .input ∧ q.ent = r.ent ∧ q.setB = y.2.2.1 ∧ q.xfade = y.2.2.2 ∧
      (s.ceLatch k r).mem = s.mem ∧ (s.ceLatch k r).tiles = s.tiles := by
  have hf : (s.eng k).runs.find? (fun y => decide (y.1 = r.ent.job) && decide (y.2.1 = r.ent.block)) = some y := by
    simp [hy, hj, hb]
  unfold State.ceLatch
  dsimp only
  rw [hf]
  exact ⟨_, congrArg CeState.run (eng_modEng_same s k _), rfl, rfl, rfl, rfl, rfl, rfl⟩

/-! ## The queue (R276) and taking a job (R277, R287) -/

theorem exec_ceJobQueue (s : State) (u : UnitIx) : exec (.ceJobQueue u) s = .next (s.ceQueue u) := rfl

theorem ceQueue_join {s : State} {u : UnitIx} {f : FarOp} {k : Fin 4} (hf : (s.tile u).nextSub = some f) (hk : f.ga.toNat % 4 = k.val)
    (hq : (s.eng k).queue.length < 64) :
    ∃ g, s.ceQueue u = (s.modTile u g).modEng k fun e => { e with
      queue := e.queue ++ [{ unit := u, far := f.seq, op := (s.tile u).opId f, job := f.len, block := leNat f.data }] } := by
  obtain rfl : k = ⟨f.ga.toNat % 4, Nat.mod_lt _ (by decide)⟩ := Fin.ext hk.symm
  unfold State.ceQueue
  simp only [hf]
  rw [if_neg (Nat.not_le.2 hq)]
  exact ⟨_, rfl⟩

theorem ceQueue_full {s : State} {u : UnitIx} {f : FarOp} {k : Fin 4} (hf : (s.tile u).nextSub = some f) (hk : f.ga.toNat % 4 = k.val)
    (hq : 64 ≤ (s.eng k).queue.length) : s.ceQueue u = s := by
  obtain rfl : k = ⟨f.ga.toNat % 4, Nat.mod_lt _ (by decide)⟩ := Fin.ext hk.symm
  unfold State.ceQueue
  simp only [hf]
  exact if_pos hq

theorem exec_ceJobTake (s : State) (k : Fin 4) : exec (.ceJobTake k) s = .next (s.ceTake k) := rfl

theorem ceTake_held {s : State} (k : Fin 4) (h : s.ceHeld = true) : s.ceTake k = s := by
  unfold State.ceTake
  split
  · exact if_pos h
  · rfl

/-- The engine has taken the oldest job from its queue. -/
def taken (s : State) (k : Fin 4) (e : CeEntry) (rest : List CeEntry) : State := s.modEng k fun x => { x with queue := rest, cur := e.job }

section
variable {s : State} {k : Fin 4} {e : CeEntry} {rest : List CeEntry} (hr : (s.eng k).run = none) (hq : (s.eng k).queue = e :: rest)
  (hh : s.ceHeld = false)
include hr hq hh

theorem ceTake_good (hc : s.ceCheck k e = none) :
    ∃ sv : CeState → List (Nat × Nat × Nat × Nat), s.ceTake k = (taken s k e rest).modEng k fun x => { x with
      served := sv x
      run := some { ent := e, phase := .start, entry := [], setB := false, xfade := false, flags := 0, b := s.bsize
                    k0 := s.dev.sched.k0, seg := 0, dead := false, outs := [] } } := by
  unfold State.ceTake
  simp only [hr, hq, hh, hc]
  exact ⟨_, if_neg Bool.false_ne_true⟩

theorem ceTake_bad {st : Nat} (hc : s.ceCheck k e = some st) : s.ceTake k = (taken s k e rest).ceFail k e st 0 := by
  unfold State.ceTake
  simp only [hr, hq, hh, hc]
  exact if_neg Bool.false_ne_true

end

/-! ## CTL (R288) -/

theorem exec_ceCtlWrite_sc (s : State) (k : Fin 4) (v : Word) : exec (.ceCtlWrite k (.tile 16) v) s = .next (s.ceCtl k v) := rfl

theorem exec_ceCtlWrite_other (s : State) (k : Fin 4) {q : Requester} (v : Word) (h : q ≠ .tile 16) :
    exec (.ceCtlWrite k q v) s = .next (s.bump Csr.wrDisc) := congrArg Host.Outcome.next (if_neg h)

theorem ceCtl_enabled (s : State) (k : Fin 4) {v : Word} (h : fld v 0 0 = 1) : s.ceCtl k v = s.setReg (Csr.ceBase k.val) (v &&& 0x3FF) :=
  if_neg fun ⟨_, h0⟩ => by omega

theorem ceCtl_disabled {s : State} {k : Fin 4} {v : Word} (h : fld v 0 0 = 0) (he : s.ceEn k = true) :
    s.ceCtl k v = (s.setReg (Csr.ceBase k.val) (v &&& 0x3FF)).ceFlush k := if_pos ⟨he, h⟩

theorem foldl_ceFail_failed (k : Fin 4) (st fa : Nat) (l : List CeEntry) (s : State) (h : ∀ e ∈ l, (s.tile e.unit).waiting = false) :
    Failed s (l.foldl (fun s e => s.ceFail k e st fa) s) k := by
  induction l generalizing s with
  | nil => exact .refl s k
  | cons e l ih =>
    have h1 := ceFail_failed k st fa (h e (List.mem_cons_self ..))
    exact h1.trans (ih _ fun x hx => (h1.waiting _).trans (h x (List.mem_cons_of_mem _ hx)))

/-- EN becomes 0: the queue is empty, the running job is marked to end, and only the engine's failure record changes besides. -/
theorem ceFlush_failed {s : State} (k : Fin 4) (h : ∀ e ∈ (s.eng k).queue, (s.tile e.unit).waiting = false) :
    Failed (s.modEng k fun x => { x with queue := [], run := x.run.map fun r => { r with dead := true } }) (s.ceFlush k) k :=
  foldl_ceFail_failed k 0x43 0 _ _ h

/-! ## The obligation -/

/-- Settles O14: each command's equation for the case, and what bank accesses and a failing job leave alone. -/
theorem convolutionEnginesRunJobs : Obligations.ConvolutionEnginesRunJobs := by
  unfold Obligations.ConvolutionEnginesRunJobs
  refine ⟨⟨?_, ?_, ?_, ?_, ?_⟩, ⟨?_, ?_, ?_, ?_, ?_, ?_, ?_, ?_⟩, ?_, ?_, ?_⟩
  · intro s u f k hf hk hq
    refine ⟨_, exec_ceJobQueue s u, ?_⟩
    obtain ⟨g, hg⟩ := ceQueue_join hf hk hq
    rw [hg, eng_modEng_same]
    exact ⟨rfl, rfl, modTile_sameUnits s u g, rfl, rfl⟩
  · intro s u f k hf hk hq
    rw [exec_ceJobQueue, ceQueue_full hf hk hq]
  · intro s k e rest hr hq hh hc
    refine ⟨_, exec_ceJobTake s k, ?_⟩
    obtain ⟨sv, hs⟩ := ceTake_good hr hq hh hc
    rw [hs, taken, eng_modEng_same, eng_modEng_same]
    refine ⟨rfl, rfl, rfl, rfl, rfl, rfl, fun j hj => ?_⟩
    rw [eng_modEng_other _ _ _ _ hj, eng_modEng_other _ _ _ _ hj]
  · intro s k e rest st hr hq hh hc hw
    refine ⟨_, exec_ceJobTake s k, ?_⟩
    rw [ceTake_bad hr hq hh hc]
    have hf := ceFail_failed (s := taken s k e rest) k st 0 hw
    have he : ((taken s k e rest).ceFail k e st 0).eng k = { s.eng k with queue := rest, cur := e.job } := by
      rw [eng_of_ce hf.ce, taken, eng_modEng_same]
    rw [he]
    exact ⟨rfl, hr, ceFail_eventsOnly (s := taken s k e rest) k st 0 hw, hf.mem⟩
  · intro s k h
    rw [exec_ceJobTake, ceTake_held k h]
  · intro s k r cyc hr hp hd he hl hu hn
    have ht := (exec_cePhaseAdvance s k none cyc).trans (congrArg _ (ceAdvance_start cyc hd he hr hp hl hu))
    have hx := (busyCounted_readFrame s k cyc).trans (ceReads_readFrame _ 0 [(ceAddr k (64 * r.ent.job), 64)])
    obtain ⟨q, h1, h2, h3, h4, h5, h6, h7, h8⟩ := ceLatch_first _ k r (by rw [eng_of_ce hx.ce]; exact hn)
    exact ⟨_, q, ht, h1, h2, h3, h4, h5.trans (bytes_congr hx.mem hx.bmt _ _), h6.trans (by rw [eng_of_ce hx.ce]), h7.trans hx.mem,
      h8.trans hx.tiles⟩
  · intro s k r cyc y hr hp hd he hl hu hy hj hb
    have ht := (exec_cePhaseAdvance s k none cyc).trans (congrArg _ (ceAdvance_start cyc hd he hr hp hl hu))
    have hx := (busyCounted_readFrame s k cyc).trans (ceReads_readFrame _ 0 [(ceAddr k (64 * r.ent.job), 64)])
    obtain ⟨q, h1, h2, h3, h4, h5, h6, h7⟩ := ceLatch_again _ k r (by rw [eng_of_ce hx.ce]; exact hy) hj hb
    exact ⟨_, q, ht, h1, h2, h3, h4, h5, h6.trans hx.mem, h7.trans hx.tiles⟩
  · intro s k r cyc j rs hr hp hd he hj hrs hu
    obtain ⟨x, fl, hx, h⟩ := ceAdvance_input cyc hd he hr hp hj hrs hu
    rw [exec_cePhaseAdvance, h]
    exact ⟨_, _, rfl, congrArg CeState.run (eng_modEng_same x k _), rfl, rfl, rfl, rfl, rfl, rfl, hx.tiles⟩
  · intro s k r cyc hr hp hd he hc
    obtain ⟨x, fl, outs, hx, h⟩ := ceAdvance_accumulate cyc hd he hr hp hc
    rw [exec_cePhaseAdvance, h]
    refine ⟨_, _, rfl, congrArg CeState.run (eng_modEng_same x k _), ?_⟩
    unfold accumulated
    split
    · exact ⟨rfl, rfl, ⟨rfl, rfl⟩, hx.tiles⟩
    · exact ⟨rfl, rfl, ⟨rfl, rfl⟩, hx.tiles⟩
  · intro s k r cyc hr hp hd he hc hrows hmarks hw
    refine ⟨_, exec_cePhaseAdvance s k none cyc, ?_⟩
    obtain ⟨x, hx, hce, h⟩ := ceAdvance_output cyc hd he hr hp hc ⟨hrows, hmarks⟩
    have hu : x.tile r.ent.unit = s.tile r.ent.unit := tile_of_tiles hx _
    rw [h, ceEnd_of_not_waiting 0 0 false (by rw [hu]; exact hw), tile_modTile_same, endFar_far, hu]
    have hk : (x.modTile r.ent.unit fun t => t.endFar r.ent.far 0 0 false).eng k = { s.eng k with run := none } :=
      (eng_of_ce hce k).trans (eng_modEng_same s k _)
    rw [hk]
    exact ⟨rfl, rfl, rfl, fun v hv => (tile_modTile_other _ _ _ _ hv).trans (tile_of_tiles hx v)⟩
  · intro s k r a cyc hr hrows hmarks hw
    refine ⟨_, exec_cePhaseAdvance s k (some a) cyc, ?_⟩
    obtain ⟨x, st, fa, hx, h⟩ := ceAdvance_discarded a cyc hr ⟨hrows, hmarks⟩
    obtain ⟨h1, h2, -⟩ := ceFailRun_idle (s := x) k st fa (by rw [tile_of_tiles hx.tiles]; exact hw)
    rw [h]
    refine ⟨h1, fun v hv => ?_⟩
    have := h2 v hv
    rwa [tile_of_tiles hx.tiles] at this
  · intro s k r ferr cyc hr hd hw
    refine ⟨_, exec_cePhaseAdvance s k ferr cyc, ?_⟩
    rw [ceAdvance_disabled cyc hr ferr hd]
    exact ceFailRun_idle (s := busyCounted s k cyc) k 0x43 0 hw
  · intro s k ferr cyc h
    rw [exec_cePhaseAdvance, ceAdvance_idle ferr cyc h]
  · intro s k v ⟨_, hc⟩ hv
    refine ⟨_, exec_ceCtlWrite_sc s k v, ?_⟩
    rw [ceCtl_enabled s k hv]
    exact ⟨reg_setReg_same s _ _ hc, sameRegs_setReg s _ _, rfl, rfl, rfl⟩
  · intro s k v ⟨_, hc⟩ hv he hw
    refine ⟨_, exec_ceCtlWrite_sc s k v, ?_⟩
    rw [ceCtl_disabled hv he]
    have hf := ceFlush_failed (s := s.setReg (Csr.ceBase k.val) (v &&& 0x3FF)) k hw
    refine ⟨?_, ?_, ?_, hf.mem⟩
    · rw [hf.regs _ (by simp [failRegs])]
      exact reg_setReg_same s _ _ hc
    · rw [eng_of_ce hf.ce, eng_modEng_same]
    · rw [eng_of_ce hf.ce, eng_modEng_same]
      rfl
  · intro s k q v ⟨_, hc⟩ hq
    refine ⟨_, exec_ceCtlWrite_other s k v hq, sameRegs_bump s _, bump_toNat s _ hc, rfl, rfl, rfl⟩

end Sys2Proof.Proofs
end

section
/-! PROOFS. Reset and start-up: what a device reset keeps, what the firmware's reads of the MRAM leave alone, an equation of each point of
start-up, and O6. -/

namespace Sys2Proof.Proofs

open Sys2Proof Sys2Proof.Machine Sys2Proof.Laws

/-! ## Registers written one after another -/

theorem mem_upFrom {x a n : Nat} : x ∈ upFrom a n ↔ a ≤ x ∧ x < a + n := by
  induction n generalizing a with
  | zero => simp only [upFrom, List.not_mem_nil, false_iff]; omega
  | succ n ih =>
    rw [upFrom, List.mem_cons, ih]
    omega

/-- A value other than the default is read back whether or not the map is canonical. -/
theorem sget_sset_of_ne {α : Type} [DecidableEq α] (d : α) (l : List (Nat × α)) (k : Nat) {v : α} (hv : v ≠ d) :
    sget d (sset d l k v) k = v := by
  induction l with
  | nil => simp [sset, scons, hv, sget]
  | cons e r ih =>
    obtain ⟨k', v'⟩ := e
    simp only [sset]
    split
    · simp [scons, hv, sget]
    · split
      · simp [scons, hv, sget]
      · next h => rw [sget, if_neg h, ih]

/-- Keys written one after another, each with a value that depends on the key alone. -/
theorem sget_foldl_sset {α β : Type} [DecidableEq α] (d : α) (g : Nat → α) (f : β → Nat) (ks : List β) (l : List (Nat × α))
    (hl : swf d l = true) (x : Nat) :
    sget d (ks.foldl (fun m b => sset d m (f b) (g (f b))) l) x = if x ∈ ks.map f then g x else sget d l x := by
  induction ks generalizing l with
  | nil => simp
  | cons b ks ih =>
    rw [List.foldl_cons, ih _ (swf_sset d l _ _ hl), List.map_cons]
    by_cases hx : x = f b
    · subst hx
      simp [sget_sset_eq d l _ _ hl]
    · simp [hx, sget_sset_other d l (f b) x _ hx]

theorem foldl_reg {α : Type} (f : State → α → State) (a : Nat) (l : List α) (hf : ∀ s, ∀ x ∈ l, (f s x).reg a = s.reg a) (s : State) :
    (l.foldl f s).reg a = s.reg a := by
  induction l generalizing s with
  | nil => rfl
  | cons x l ih =>
    exact (ih (fun s y hy => hf s y (List.mem_cons_of_mem _ hy)) (f s x)).trans (hf s x (List.mem_cons_self ..))

theorem phase_of_reg {s t : State} (h : t.reg Csr.bootStat = s.reg Csr.bootStat) : t.phase = s.phase := by
  rw [State.phase, State.phase, h]

theorem phase_setPhase_zero {s : State} (h : swf 0 s.csr = true) : (s.setPhase 0).phase = 0 := by
  rw [State.phase, State.setPhase, reg_setRegFld_same _ _ _ _ _ h, fld_setFld_same _ _ _ _ (by decide) (by decide), Nat.zero_mod]

theorem phase_setPhase (s : State) {p : Nat} (h0 : 0 < p) (h : p < 16) : (s.setPhase p).phase = p := by
  have hf : fld (setFld (s.reg Csr.bootStat) 3 0 p) 3 0 = p := by
    rw [fld_setFld_same _ _ _ _ (by decide) (by decide)]
    exact Nat.mod_eq_of_lt h
  have hne : setFld (s.reg Csr.bootStat) 3 0 p ≠ 0 := by
    intro h1
    rw [h1] at hf
    have : fld 0 3 0 = 0 := by decide
    omega
  rw [State.phase, show (s.setPhase p).reg Csr.bootStat = _ from sget_sset_of_ne 0 s.csr Csr.bootStat hne, hf]

theorem reg_setPhase_other (s : State) (p : Nat) {a : Nat} (h : a ≠ Csr.bootStat) : (s.setPhase p).reg a = s.reg a :=
  reg_setRegFld_other s Csr.bootStat a 3 0 p h

theorem reg_setReg_of_ne (s : State) (a : Nat) {v : Word} (hv : v ≠ 0) : (s.setReg a v).reg a = v := sget_sset_of_ne 0 s.csr a hv

/-! ## Leaving reset (R14) -/

theorem setPst_frame (s : State) (n : Nat) : (s.setPst n).dev = s.dev ∧ (s.setPst n).mem = s.mem ∧
    ∀ a, a ≠ Csr.pairStat → (s.setPst n).reg a = s.reg a := by
  unfold State.setPst
  split
  · exact ⟨rfl, rfl, fun _ _ => rfl⟩
  · exact ⟨rfl, rfl, fun a ha => reg_setRegFld_other s _ _ _ _ _ ha⟩

/-- A new time zero. -/
theorem start_spec {s : State} (lk : Bool) (hc : swf 0 s.csr = true) :
    (s.start lk).dev.up = true ∧ (s.start lk).dev.hold = s.dev.hold ∧ (s.start lk).dev.lkRole = lk ∧ (s.start lk).sample = 0 ∧
      (s.start lk).phase = 0 ∧ (s.start lk).mem = s.mem := by
  unfold State.start
  extract_lets s1 s2
  have hp : s2.phase = 0 := by
    refine (phase_of_reg (reg_setRegFld_other _ _ _ _ _ _ (by decide))).trans (phase_setPhase_zero ?_)
    exact swf_sset _ _ _ _ (swf_sset _ _ _ _ hc)
  have h2 : ReadFrame s1 s2 := (((setReg_readFrame s1 _ _).trans (setRegFld_readFrame _ _ _ _ _)).trans
    (setRegFld_readFrame _ _ _ _ _)).trans (setRegFld_readFrame _ _ _ _ _)
  have key : ∀ y : State, y.dev = s2.dev → y.mem = s2.mem → y.reg Csr.bootStat = s2.reg Csr.bootStat →
      y.dev.up = true ∧ y.dev.hold = s.dev.hold ∧ y.dev.lkRole = lk ∧ (0 : BitVec 64) = 0 ∧ y.phase = 0 ∧ y.mem = s.mem := by
    intro y hd hm hr
    rw [hd, hm, h2.dev, h2.mem, phase_of_reg hr]
    exact ⟨rfl, rfl, rfl, rfl, hp, rfl⟩
  cases lk with
  | false => exact key s2 rfl rfl rfl
  | true =>
    obtain ⟨hd, hm, hr⟩ := setPst_frame s2 1
    exact key (s2.setPst 1) hd hm (hr _ (by decide))

theorem modAge_mem (s : State) (f : Ageing → Ageing) : (s.modAge f).mem = s.mem := rfl

theorem aonLost_mem (s : State) : s.aonLost.mem = s.mem := by
  unfold State.aonLost
  rw [modAge_mem]
  have h1 := foldl_readFrame (fun (s : State) (a : Nat) => s.setReg a 0) (fun s a => setReg_readFrame s a 0)
    [Csr.rstCause, Csr.opMin, Csr.sbMin, Csr.stbyLo, Csr.stbyHi] s
  have h2 := foldl_readFrame (fun (s : State) (n : Nat) => s.setRegFld (Csr.ageOf n) 23 16 0) (fun s n => setRegFld_readFrame s _ _ _ _)
    (upFrom 0 16)
  exact (h1.trans (h2 _)).mem

theorem exec_timeZero {s : State} (aon lk : Bool) (hu : s.dev.up = false) (hh : s.dev.hold = false) :
    exec (.timeZero aon lk) s = .next ((if aon then s else s.aonLost).start lk) :=
  congrArg Host.Outcome.next (if_neg (by simp [hu, hh]))

theorem exec_resetRelease {s : State} (lk : Bool) (hu : s.dev.up = false) (hh : s.dev.hold = false)
    (hr : fld (s.reg Csr.rstCause) 3 0 ∉ [0, 1, 7]) : exec (.resetRelease lk) s = .next (s.start lk) :=
  congrArg Host.Outcome.next (if_neg (by simp only [hu, hh, hr]; decide))

theorem exec_thermalHoldRelease {s : State} {ts : List Word} (lk : Bool) (hu : s.dev.up = false) (hh : s.dev.hold = true)
    (ht : ∀ i < 24, toInt 32 (ts.getD i 0).toNat < 1400) :
    exec (.thermalHoldRelease ts lk) s = .next ((s.modDev fun d => { d with hold := false }).start lk) := by
  refine congrArg Host.Outcome.next (if_pos ⟨by simp [hu], hh, ?_⟩)
  rw [List.all_eq_true]
  exact fun i hi => decide_eq_true (ht i (by have := mem_upFrom.1 hi; omega))

theorem exec_thermalHoldRelease_hot {s : State} {ts : List Word} (lk : Bool) (ht : ∃ i < 24, 1400 ≤ toInt 32 (ts.getD i 0).toNat) :
    exec (.thermalHoldRelease ts lk) s = .next s := by
  refine congrArg Host.Outcome.next (if_neg fun ⟨_, _, ha⟩ => ?_)
  obtain ⟨i, hi, h⟩ := ht
  have := of_decide_eq_true (List.all_eq_true.1 ha i (mem_upFrom.2 ⟨Nat.zero_le _, by omega⟩))
  omega

/-! ## The device reset (R20, R467) -/

theorem exec_deviceReset {s : State} (cause : Fin 9) (rail : BitVec 8) (h : s.dev.up = true) :
    exec (.deviceReset cause rail) s = .next (s.deviceReset cause.val rail.toNat) := congrArg Host.Outcome.next (whenUp_of_up h _)

/-- Bits [23:16] of a word under their mask. -/
theorem fld_and_correction (x : Word) : fld (x &&& 0x00FF0000) 23 16 = fld x 23 16 := by
  unfold fld bitsOf
  rw [BitVec.toNat_and, Nat.shiftRight_and_distrib]
  have h : (x.toNat >>> 16 &&& 255) = x.toNat >>> 16 % 256 := Nat.and_two_pow_sub_one_eq_mod _ 8
  show (x.toNat >>> 16 &&& 255) % 256 = _
  rw [h]
  exact Nat.mod_mod _ 256

/-- The register file after a reset (R20). -/
theorem sget_resetRegs (s : State) {a : Nat} (h : a ≠ Csr.lcStat) :
    sget 0 s.resetRegs a = if a ∈ (upFrom 0 16).map Csr.ageOf then s.reg a &&& 0x00FF0000
      else if a ∈ keptRegs then s.reg a else State.reset.reg a := by
  unfold State.resetRegs
  extract_lets r1 r2
  rw [sget_sset_other 0 r2 Csr.lcStat a _ h,
    sget_foldl_sset 0 (fun a => s.reg a &&& 0x00FF0000) Csr.ageOf (upFrom 0 16) r1
      (swf_foldl_sset 0 (fun a : Nat => a) (fun a _ => s.reg a) keptRegs resetCsr swf_resetCsr) a]
  have h1 := sget_foldl_sset 0 (fun a => s.reg a) (fun a : Nat => a) keptRegs resetCsr swf_resetCsr a
  rw [List.map_id'] at h1
  rw [show sget 0 r1 a = _ from h1]
  rfl

theorem mem_ageRegs {a : Nat} : a ∈ (upFrom 0 16).map Csr.ageOf ↔ ∃ n < 16, a = Csr.ageOf n := by
  rw [List.mem_map]
  exact ⟨fun ⟨n, hn, e⟩ => ⟨n, by have := mem_upFrom.1 hn; omega, e.symm⟩,
    fun ⟨n, hn, e⟩ => ⟨n, mem_upFrom.2 ⟨Nat.zero_le _, by omega⟩, e.symm⟩⟩

theorem resetRegs_congr {s t : State} (h : t.csr = s.csr) : t.resetRegs = s.resetRegs := by
  simp only [State.resetRegs, reg_of_csr h]

theorem deviceReset_csr (s : State) (cause rail : Nat) :
    (s.deviceReset cause rail).csr = sset 0 s.resetRegs Csr.rstCause (BitVec.ofNat 32 (cause + rail * 16)) := by
  rw [← resetRegs_congr (s := s) (t := s.endOpCycle) rfl]
  unfold State.deviceReset
  dsimp only

theorem deviceReset_reg_cause (s : State) (cause rail : Nat) :
    (s.deviceReset cause rail).reg Csr.rstCause = BitVec.ofNat 32 (cause + rail * 16) := by
  rw [State.reg, deviceReset_csr]
  exact sget_sset_eq 0 _ _ _ (State.swf_resetRegs s)

theorem deviceReset_reg (s : State) (cause rail : Nat) {a : Nat} (h : a ≠ Csr.rstCause) (hl : a ≠ Csr.lcStat) :
    (s.deviceReset cause rail).reg a = if a ∈ (upFrom 0 16).map Csr.ageOf then s.reg a &&& 0x00FF0000
      else if a ∈ keptRegs then s.reg a else State.reset.reg a := by
  rw [State.reg, deviceReset_csr, sget_sset_other 0 _ _ _ _ h, sget_resetRegs s hl]

theorem keptRegs_apart {a : Nat} (h : a ∈ keptRegs) : a ≠ Csr.rstCause ∧ a ≠ Csr.lcStat ∧ a ∉ (upFrom 0 16).map Csr.ageOf := by
  have : ∀ a ∈ keptRegs, a ≠ Csr.rstCause ∧ a ≠ Csr.lcStat ∧ a ∉ (upFrom 0 16).map Csr.ageOf := by decide
  exact this a h

theorem reset_tile (u : UnitIx) : State.reset.tile u = Tile.reset := by
  simp [State.tile, State.reset]

/-! ## What the firmware's accesses to the MRAM leave alone (R61) -/

/-- The registers that count and record the firmware's accesses to the MRAM, and the minute counts that it resumes. -/
def mramRegs : List Nat :=
  [Csr.mramCe, Csr.mramUe, Csr.mramErrAddr, Csr.mramWr, Csr.opMin, Csr.sbMin] ++ (upFrom 0 8).map Csr.partStat

/-- What the firmware's accesses to the MRAM leave alone. -/
structure FirmwareFrame (s t : State) : Prop where
  tiles  : t.tiles = s.tiles
  merr   : t.merr = s.merr
  images : t.dev.images = s.dev.images
  regs   : s.SameRegs t mramRegs

theorem FirmwareFrame.refl (s : State) : FirmwareFrame s s := ⟨rfl, rfl, rfl, fun _ _ => rfl⟩

theorem FirmwareFrame.trans {a b c : State} (h : FirmwareFrame a b) (g : FirmwareFrame b c) : FirmwareFrame a c :=
  ⟨g.tiles.trans h.tiles, g.merr.trans h.merr, g.images.trans h.images, fun x hx => (g.regs x hx).trans (h.regs x hx)⟩

theorem foldl_firmwareFrame {α : Type} (f : State → α → State) (hf : ∀ s a, FirmwareFrame s (f s a)) (l : List α) (s : State) :
    FirmwareFrame s (l.foldl f s) := by
  induction l generalizing s with
  | nil => exact .refl s
  | cons a l ih => exact (hf s a).trans (ih (f s a))

theorem setReg_firmwareFrame (s : State) {a : Nat} (v : Word) (h : a ∈ mramRegs) : FirmwareFrame s (s.setReg a v) :=
  ⟨rfl, rfl, rfl, sameRegs_setReg_mem (fun _ _ => rfl) h⟩

theorem partStat_mem {i : Nat} (h : i < 8) : Csr.partStat i ∈ mramRegs :=
  List.mem_append_right _ (List.mem_map.2 ⟨i, mem_upFrom.2 ⟨Nat.zero_le i, by omega⟩, rfl⟩)

theorem partOf_lt {o i : Nat} (h : partOf o = some i) : i < 8 := by
  simp only [partOf] at h
  repeat' split at h
  all_goals cases h <;> decide

theorem report_firmwareFrame (s : State) (c u : Nat) (d : List Word) : FirmwareFrame s (s.report c u d) := ⟨rfl, rfl, rfl, fun _ _ => rfl⟩

theorem cwRead_firmwareFrame (s : State) (cw : Nat) : FirmwareFrame s (s.cwRead cw) := by
  unfold State.cwRead
  extract_lets k s1 marked fab s2 s3
  split
  · exact .refl s
  · split
    · exact (setReg_firmwareFrame s _ (by decide)).trans (report_firmwareFrame ..)
    · have h1 : FirmwareFrame s s1 := setReg_firmwareFrame s _ (by decide)
      have h2 : FirmwareFrame s1 s2 := by
        unfold s2
        split
        · exact .refl s1
        · exact (setReg_firmwareFrame s1 _ (by decide)).trans ⟨rfl, rfl, rfl, fun _ _ => rfl⟩
      have h3 : FirmwareFrame s2 s3 := by
        unfold s3
        split
        · next i hi => exact setReg_firmwareFrame s2 _ (partStat_mem (partOf_lt hi))
        · exact .refl s2
      exact ((h1.trans h2).trans h3).trans (report_firmwareFrame ..)

theorem fwRead_firmwareFrame (s : State) (o n : Nat) : FirmwareFrame s (s.fwRead o n) :=
  foldl_firmwareFrame _ (fun s (e : Nat × Nat) => cwRead_firmwareFrame s e.1) _ s

theorem setDtc_firmwareFrame (s : State) (d u : Nat) : FirmwareFrame s (s.setDtc d u) := by
  unfold State.setDtc
  split
  · exact .refl s
  · exact (setReg_firmwareFrame s _ (by decide)).trans ⟨rfl, rfl, rfl, fun _ _ => rfl⟩

theorem logStart_firmwareFrame (s : State) : FirmwareFrame s s.logStart :=
  (fwRead_firmwareFrame s logBase 0x40000).trans ⟨rfl, rfl, rfl, fun _ _ => rfl⟩

theorem resumeCounts_firmwareFrame (s : State) : FirmwareFrame s s.resumeCounts := by
  unfold State.resumeCounts
  split
  · exact .refl s
  · extract_lets s1
    have h1 : FirmwareFrame s s1 := (fwRead_firmwareFrame s histBase 0x40000).trans ⟨rfl, rfl, rfl, fun _ _ => rfl⟩
    split
    · exact (h1.trans (setReg_firmwareFrame s1 _ (by decide))).trans (setReg_firmwareFrame _ _ (by decide))
    · exact h1

theorem planKeyRead_firmwareFrame (s : State) : FirmwareFrame s s.planKeyRead := by
  unfold State.planKeyRead
  split
  · exact fwRead_firmwareFrame ..
  · exact .refl s

section
variable {s t : State} (h : FirmwareFrame s t)
include h

theorem FirmwareFrame.mramBad (o n : Nat) : t.mramBad o n = s.mramBad o n := by
  rw [State.mramBad, State.mramBad, h.merr]

theorem FirmwareFrame.fwGood (o : Nat) (g : Option FwImage) : t.fwGood o g = s.fwGood o g := by
  unfold State.fwGood State.fwOk
  rw [h.mramBad, h.regs Csr.fwSvn (by decide)]

theorem FirmwareFrame.lc : t.lc = s.lc := by
  rw [State.lc, State.lc, h.regs Csr.lcStat (by decide)]

theorem FirmwareFrame.storedRefusal (g : PlanImage) : t.storedRefusal g = s.storedRefusal g := by
  unfold State.storedRefusal State.verifyPlan State.sigOk State.keyOk
  simp only [h.mramBad, h.lc, h.regs Csr.keyStat (by decide), tile_of_tiles h.tiles]

end

/-! ## The points of start-up -/

theorem exec_bootRomStart {s : State} (h : s.dev.up = true) : exec .bootRomStart s = .next s.romStart :=
  congrArg Host.Outcome.next (whenUp_of_up h _)

theorem exec_firmwareVerify {s : State} (h : s.dev.up = true) : exec .firmwareVerify s = .next s.fwVerify :=
  congrArg Host.Outcome.next (whenUp_of_up h _)

theorem exec_patchLoad {s : State} (h : s.dev.up = true) : exec .patchLoad s = .next s.patchLoad :=
  congrArg Host.Outcome.next (whenUp_of_up h _)

theorem exec_calibrationApply {s : State} (h : s.dev.up = true) : exec .calibrationApply s = .next s.calApply :=
  congrArg Host.Outcome.next (whenUp_of_up h _)

theorem exec_storedPlanVerify {s : State} (h : s.dev.up = true) : exec .storedPlanVerify s = .next s.planVerify :=
  congrArg Host.Outcome.next (whenUp_of_up h _)

theorem exec_fwSvnRaise {s : State} (h : s.dev.up = true) : exec .fwSvnRaise s = .next s.svnRaise :=
  congrArg Host.Outcome.next (whenUp_of_up h _)

/-- The leave registers and the ballast stand apart from BOOT_STAT (Table 16-12). -/
theorem showLeave_bootStat (s : State) : s.showLeave.reg Csr.bootStat = s.reg Csr.bootStat := by
  unfold State.showLeave
  extract_lets w s1 s2 s3
  have h1 : s1.reg Csr.bootStat = s.reg Csr.bootStat := foldl_reg _ _ _ (fun x n hn => reg_setReg_other _ _ _ _ (by
    have := mem_upFrom.1 hn
    unfold Csr.leaveT Csr.bootStat
    omega)) s
  have h2 : s2.reg Csr.bootStat = s1.reg Csr.bootStat := foldl_reg _ _ _ (fun x n hn => reg_setReg_other _ _ _ _ (by
    have := mem_upFrom.1 hn
    unfold Csr.leaveCe Csr.bootStat
    omega)) s1
  have h3 : s3.reg Csr.bootStat = s2.reg Csr.bootStat := by
    unfold s3
    rw [reg_setReg_other _ _ _ _ (by decide), reg_setReg_other _ _ _ _ (by decide), reg_setReg_other _ _ _ _ (by decide)]
  rw [reg_setReg_other _ _ _ _ (by decide), reg_setReg_other _ _ _ _ (by decide), h3, h2, h1]

theorem leaveAsk_bootStat (s : State) (w : LeaveHolder) : (s.leaveAsk w).reg Csr.bootStat = s.reg Csr.bootStat := by
  unfold State.leaveAsk
  split
  · rfl
  · extract_lets u s1
    rw [showLeave_bootStat]
    split
    · rfl
    · unfold State.setBallast
      rw [reg_setRegFld_other _ _ _ _ _ _ (by decide), reg_setReg_other _ _ _ _ (by decide)]
      rfl

theorem romStart_phase {s : State} (h : s.phase = 0) : s.romStart.phase = 1 := by
  unfold State.romStart
  rw [if_neg (by omega), phase_of_reg (leaveAsk_bootStat _ .wipe), phase_setPhase _ (by decide) (by decide)]

/-! ### The firmware (R469, R470) -/

/-- With no good image the boot ROM halts. -/
theorem fwVerify_bad {s : State} (hp : s.phase = 2) (ha : s.fwGood 0 s.dev.images.fwA = false)
    (hb : s.fwGood 0x80000 s.dev.images.fwB = false) : ∃ x : State, s.fwVerify = x.setPhase 9 := by
  have hf := fwRead_firmwareFrame s 0 0x100000
  unfold State.fwVerify
  rw [if_neg (by omega)]
  extract_lets x im seq bFirst okA okB useB st s1
  have hA : okA = false := by rw [← ha, ← hf.fwGood, ← hf.images]
  have hB : okB = false := by rw [← hb, ← hf.fwGood, ← hf.images]
  rw [if_pos (by rw [hA, hB]; decide)]
  exact ⟨_, rfl⟩

/-- The write sequence of an image, above that of none. -/
def imageSeq (g : Option FwImage) : Nat := match g with | some x => x.seq + 1 | none => 0

/-- The service core starts: FW_STAT names the image, the phase moves on, the log has its START record and the minute counts resume. -/
def firmwareStarts (x : State) (fwStat : Word) : State :=
  ((((x.setReg Csr.fwStat fwStat).setRegFld Csr.bootStat 4 4 0).setPhase 3).scRestart).logStart.resumeCounts

/-- The preferred image, A or B, is good: the service core starts from it. -/
theorem fwVerify_good {s : State} (b : Bool) (hp : s.phase = 2) (hs : decide (imageSeq s.dev.images.fwA < imageSeq s.dev.images.fwB) = b)
    (hg : (if b then s.fwGood 0x80000 s.dev.images.fwB else s.fwGood 0 s.dev.images.fwA) = true) :
    ∃ x : State, (s.Canonical → x.Canonical) ∧ s.fwVerify = firmwareStarts x (BitVec.ofNat 32 (b2n b)) := by
  have hf := fwRead_firmwareFrame s 0 0x100000
  unfold State.fwVerify
  rw [if_neg (by omega)]
  extract_lets x im seq bFirst okA okB useB st s1 fb s2 s3
  have hA : okA = s.fwGood 0 s.dev.images.fwA := by rw [← hf.fwGood, ← hf.images]
  have hB : okB = s.fwGood 0x80000 s.dev.images.fwB := by rw [← hf.fwGood, ← hf.images]
  have hF : bFirst = b := by rw [← hs, ← hf.images]; rfl
  have hU : useB = b := by
    unfold useB
    rw [hF]
    cases b with
    | true => exact hB.trans hg
    | false => rw [hA, show s.fwGood 0 s.dev.images.fwA = true from hg]; rfl
  have hok : ¬((!okA) = true ∧ (!okB) = true) := by
    rw [hA, hB]
    cases b with
    | true => rw [show s.fwGood 0x80000 s.dev.images.fwB = true from hg]; exact fun h => absurd h.2 (by decide)
    | false => rw [show s.fwGood 0 s.dev.images.fwA = true from hg]; exact fun h => absurd h.1 (by decide)
  rw [if_neg hok]
  have hfb : fb = false := by
    unfold fb
    rw [hF, hU]
    simp
  rw [if_neg (by rw [hfb]; decide)]
  refine ⟨s1, fun hc => ?_, ?_⟩
  · exact (State.setPart_keeps (State.setPart_keeps (State.fwRead_keeps (Keeps.refl s)))).canon hc
  · unfold s3 s2
    rw [hfb, hU]
    rfl

/-- What stands once the service core has started. -/
theorem firmwareStarts_spec {x : State} (v : Word) (hc : x.Canonical) :
    (firmwareStarts x v).phase = 3 ∧ (firmwareStarts x v).reg Csr.fwStat = v ∧ ((firmwareStarts x v).tile 16).mode = .run ∧
      ((firmwareStarts x v).tile 16).pc = 0 := by
  have hr : FirmwareFrame _ (firmwareStarts x v) := (logStart_firmwareFrame _).trans (resumeCounts_firmwareFrame _)
  have ht : (firmwareStarts x v).tile 16 = _ := (tile_of_tiles hr.tiles 16).trans (tile_modTile_same _ _ _)
  refine ⟨?_, ?_, ?_, ?_⟩
  · rw [phase_of_reg (hr.regs _ (by decide))]
    exact phase_setPhase _ (by decide) (by decide)
  · rw [hr.regs _ (by decide)]
    refine (reg_setPhase_other _ 3 (by decide)).trans ((reg_setRegFld_other _ _ _ _ _ _ (by decide)).trans ?_)
    exact reg_setReg_same x _ v hc.2
  · rw [ht]
  · rw [ht]
    rfl

/-! ### Microcode patches (R152) -/

/-- UCODE_LVL once the patch registers are locked (Table 5-13). -/
def lockedLevel (lvl nd nf : Nat) (fail : Bool) : Word :=
  BitVec.ofNat 32 (lvl % 65536 + nd % 128 * 2 ^ 16 + nf % 64 * 2 ^ 23 + b2n fail * 2 ^ 30 + 2 ^ 31)

/-- A unit with the patches of an image in force. -/
def withPatches (q : PatchImage) (t : Tile) : Tile :=
  { t with
    patch := { disp := q.disp.take 64, field := q.field.take 32 }
    ucodeLvl := lockedLevel q.level ((q.disp.take 64).filter (· ≠ 0)).length (q.field.take 32).length false }

/-- A unit once the patch image has been tried: `bad` says that its partition cannot be read. -/
def patched (q : Option PatchImage) (bad : Bool) (t : Tile) : Tile :=
  match q with
  | none => { t with ucodeLvl := lockedLevel 0 0 0 false }
  | some q =>
    if q.ok ∧ !bad then withPatches q t else { t with ucodeLvl := lockedLevel 0 0 0 true }

theorem lockedLevel_lock (lvl nd nf : Nat) (fail : Bool) : fld (lockedLevel lvl nd nf fail) 31 31 = 1 := by
  have hb : b2n fail ≤ 1 := by cases fail <;> decide
  unfold lockedLevel fld bitsOf
  rw [BitVec.toNat_ofNat, Nat.shiftRight_eq_div_pow]
  omega

theorem lockedLevel_failed : fld (lockedLevel 0 0 0 true) 30 30 = 1 ∧ fld (lockedLevel 0 0 0 true) 15 0 = 0 := by decide

theorem patched_lock (q : Option PatchImage) (bad : Bool) (t : Tile) : fld (patched q bad t).ucodeLvl 31 31 = 1 := by
  unfold patched
  split
  · exact lockedLevel_lock ..
  · split <;> exact lockedLevel_lock ..

theorem patched_good {q : PatchImage} {bad : Bool} (h : q.ok = true ∧ (!bad) = true) : patched (some q) bad = withPatches q :=
  funext fun _ => if_pos h

theorem patched_bad {q : PatchImage} {bad : Bool} (h : ¬(q.ok = true ∧ (!bad) = true)) :
    patched (some q) bad = fun t => { t with ucodeLvl := lockedLevel 0 0 0 true } :=
  funext fun _ => if_neg h

theorem patchLoad_eq {s : State} (hp : s.phase = 3) :
    ∃ x : State, s.patchLoad = x.setPhase 4 ∧ x.tiles = s.tiles.map (patched s.dev.images.patch (s.mramBad 0x3A4000 0x10000)) := by
  unfold State.patchLoad
  rw [if_neg (by omega)]
  extract_lets y lock all
  have hf : FirmwareFrame s y := fwRead_firmwareFrame s 0x3A4000 0x10000
  refine ⟨_, rfl, ?_⟩
  rw [← hf.images, ← hf.mramBad, ← hf.tiles]
  clear_value y
  cases y.dev.images.patch with
  | none => rfl
  | some q =>
    dsimp only
    by_cases h : q.ok = true ∧ (!y.mramBad 0x3A4000 0x10000) = true
    · rw [if_pos h, patched_good h]
      rfl
    · rw [if_neg h, patched_bad h, (setDtc_firmwareFrame ..).tiles]
      rfl

theorem tile_of_map {s t : State} {f : Tile → Tile} (h : t.tiles = s.tiles.map f) (u : UnitIx) : t.tile u = f (s.tile u) := by
  simp [State.tile, h]

/-! ### Calibration and the stored plan (R468, R475) -/

theorem calApply_eq {s : State} (hp : s.phase = 4) : ∃ x : State, s.calApply = x.setPhase 5 := by
  unfold State.calApply
  rw [if_neg (by omega)]
  exact ⟨_, rfl⟩

section
variable {s : State} (hp : s.phase = 5) (hr : s.dev.sched.ready = none) (hl : s.lc ∈ [1, 2, 3]) (hb : fld (s.reg Csr.bootStat) 5 5 = 0)
include hp hr hl hb

theorem planVerify_none (hi : s.dev.images.plan = none) :
    s.planVerify = ((s.setRegFld Csr.bootStat 7 6 2).setReg Csr.splanStat 2).setPhase 8 := by
  simp only [List.mem_cons, List.not_mem_nil, or_false] at hl
  unfold State.planVerify
  rw [if_neg (by simp [hp, hr]), if_neg (by omega)]
  simp only [hi]

theorem planVerify_good {g : PlanImage} (hi : s.dev.images.plan = some g) (hg : s.storedRefusal g = none) :
    s.planVerify.dev.sched.ready = some g.plan := by
  have hf : FirmwareFrame s s.storedRead := (fwRead_firmwareFrame s 0x100000 0x200000).trans (planKeyRead_firmwareFrame _)
  simp only [List.mem_cons, List.not_mem_nil, or_false] at hl
  unfold State.planVerify
  rw [if_neg (by simp [hp, hr]), if_neg (by omega)]
  simp only [hi, hf.storedRefusal, hg]
  rfl

end

/-! ### The firmware version counter (R469) -/

theorem svnRaise_running {s : State} (h : s.phase = 7) : s.svnRaise = s.modReg Csr.fwSvn fun x => BitVec.ofNat 32 (max (fld x 5 0)
    (min 63 ((if fld (s.reg Csr.fwStat) 0 0 = 1 then s.dev.images.fwB else s.dev.images.fwA).elim 0 (·.svn)))) :=
  if_pos (Or.inl h)

theorem svnRaise_before {s : State} (h : s.phase ∉ [7, 8]) : s.svnRaise = s := by
  simp only [List.mem_cons, List.not_mem_nil, or_false, not_or] at h
  exact if_neg fun g => g.elim h.1 fun g => h.2 g.1

/-! ## The obligation -/

/-- Settles O6: the equation of each point of start-up, and of the register file after a reset. -/
theorem deviceLeavesResetAndStartsUp : Obligations.DeviceLeavesResetAndStartsUp := by
  unfold Obligations.DeviceLeavesResetAndStartsUp
  refine ⟨⟨?_, ?_, ?_, ?_⟩, ?_, ⟨?_, ?_, ?_, ?_, ?_, ?_, ?_, ?_, ?_, ?_⟩, ?_, ?_⟩
  · intro s aon lk hc hu hh
    obtain ⟨⟨_, hx⟩, hm⟩ : (if aon then s else s.aonLost).Canonical ∧ (if aon then s else s.aonLost).mem = s.mem := by
      cases aon with
      | true => exact ⟨hc, rfl⟩
      | false => exact ⟨(State.aonLost_keeps (Keeps.refl s)).canon hc, aonLost_mem s⟩
    obtain ⟨h1, -, h3, h4, h5, h6⟩ := start_spec lk hx
    exact ⟨_, exec_timeZero aon lk hu hh, h1, h4, h3, h5, h6.trans hm⟩
  · intro s lk hc hu hh hr
    obtain ⟨h1, -, h3, h4, h5, h6⟩ := start_spec lk hc.2
    exact ⟨_, exec_resetRelease lk hu hh hr, h1, h4, h3, h5, h6⟩
  · intro s ts lk hc hu hh ht
    obtain ⟨h1, h2, -, h4, h5, -⟩ := start_spec (s := s.modDev fun d => { d with hold := false }) lk hc.2
    exact ⟨_, exec_thermalHoldRelease lk hu hh ht, h1, h2, h4, h5⟩
  · intro s ts lk _ _ ht
    exact exec_thermalHoldRelease_hot lk ht
  · intro s cause rail hu
    refine ⟨_, exec_deviceReset cause rail hu, rfl, rfl, rfl, rfl, fun u => reset_tile u, deviceReset_reg_cause s _ _, ?_, ?_, ?_⟩
    · intro a ha
      obtain ⟨h1, h2, h3⟩ := keptRegs_apart ha
      rw [deviceReset_reg s _ _ h1 h2, if_neg h3, if_pos ha]
    · intro n hn
      have hm : Csr.ageOf n ∈ (upFrom 0 16).map Csr.ageOf := mem_ageRegs.2 ⟨n, hn, rfl⟩
      rw [deviceReset_reg s _ _ (by unfold Csr.ageOf Csr.rstCause; omega) (by unfold Csr.ageOf Csr.lcStat; omega), if_pos hm,
        fld_and_correction]
    · intro a hk hn hl hr
      have hm : a ∉ (upFrom 0 16).map Csr.ageOf := fun h => by
        obtain ⟨n, hn', e⟩ := mem_ageRegs.1 h
        exact hn n hn' e
      rw [deviceReset_reg s _ _ hr hl, if_neg hm, if_neg hk]
  · intro s _ hu hp
    exact ⟨_, exec_bootRomStart hu, romStart_phase hp⟩
  · intro s _ hu hp ha hb
    obtain ⟨x, hx⟩ := fwVerify_bad hp ha hb
    exact ⟨_, exec_firmwareVerify hu, by rw [hx]; exact phase_setPhase x (by decide) (by decide)⟩
  · intro s a hc hu hp ha hg hb
    have hs : decide (imageSeq s.dev.images.fwA < imageSeq s.dev.images.fwB) = false := by
      refine decide_eq_false ?_
      rw [ha]
      cases h : s.dev.images.fwB with
      | none => simp [imageSeq]
      | some b => have := hb b h; simp only [imageSeq]; omega
    obtain ⟨x, hx, he⟩ := fwVerify_good false hp hs (ha ▸ hg)
    exact ⟨_, exec_firmwareVerify hu, he ▸ firmwareStarts_spec 0 (hx hc)⟩
  · intro s b hc hu hp hb hg ha
    have hs : decide (imageSeq s.dev.images.fwA < imageSeq s.dev.images.fwB) = true := by
      refine decide_eq_true ?_
      rw [hb]
      cases h : s.dev.images.fwA with
      | none => simp [imageSeq]
      | some a => have := ha a h; simp only [imageSeq]; omega
    obtain ⟨x, hx, he⟩ := fwVerify_good true hp hs (hb ▸ hg)
    exact ⟨_, exec_firmwareVerify hu, he ▸ firmwareStarts_spec 1 (hx hc)⟩
  · intro s _ hu hp
    obtain ⟨x, he, ht⟩ := patchLoad_eq hp
    rw [exec_patchLoad hu, he]
    refine ⟨_, rfl, phase_setPhase x (by decide) (by decide), fun u => ?_⟩
    rw [tile_of_map (t := x.setPhase 4) ht u]
    exact patched_lock ..
  · intro s q hu hp hq hok hm
    obtain ⟨x, he, ht⟩ := patchLoad_eq hp
    rw [exec_patchLoad hu, he]
    refine ⟨_, rfl, fun u => ?_⟩
    rw [tile_of_map (t := x.setPhase 4) ht u, hq, patched_good ⟨hok, by rw [hm]; rfl⟩]
    rfl
  · intro s q hu hp hq hbad
    obtain ⟨x, he, ht⟩ := patchLoad_eq hp
    rw [exec_patchLoad hu, he]
    refine ⟨_, rfl, fun u => ?_⟩
    have hn : ¬(q.ok = true ∧ (!s.mramBad 0x3A4000 0x10000) = true) := by rcases hbad with h | h <;> simp [h]
    rw [tile_of_map (t := x.setPhase 4) ht u, hq, patched_bad hn]
    exact ⟨rfl, lockedLevel_failed⟩
  · intro s _ hu hp
    obtain ⟨x, hx⟩ := calApply_eq hp
    exact ⟨_, exec_calibrationApply hu, by rw [hx]; exact phase_setPhase x (by decide) (by decide)⟩
  · intro s _ hu hp hr hl hb hi
    refine ⟨_, exec_storedPlanVerify hu, ?_⟩
    rw [planVerify_none hp hr hl hb hi]
    refine ⟨phase_setPhase _ (by decide) (by decide), (reg_setPhase_other _ 8 (by decide)).trans ?_⟩
    exact reg_setReg_of_ne _ _ (by decide)
  · intro s g hu hp hr hl hb hi hg
    exact ⟨_, exec_storedPlanVerify hu, planVerify_good hp hr hl hb hi hg⟩
  · intro s g hc hu hp hf hi
    refine ⟨_, exec_fwSvnRaise hu, ?_⟩
    rw [svnRaise_running hp, if_neg (by omega), hi]
    exact ⟨reg_modReg_same s _ _ hc.2, sameRegs_setReg s _ _, rfl, rfl, rfl⟩
  · intro s hu hp
    rw [exec_fwSvnRaise hu, svnRaise_before hp]

end Sys2Proof.Proofs
end
